-- ==== Sys2Proof/Word.lean ====
section
/-! DEFINITION. The machine's words: a 32-bit register word (R48), a byte, the 64-bit Furrow time (R58), the
40-bit and 512-bit values some units hold as plain numbers, and their plainest arithmetic. -/

namespace Sys2Proof

/-- One 32-bit register (R48) or Dill word (R212). -/
abbrev Word := BitVec 32

/-- One byte of buffer memory. -/
abbrev Byte := BitVec 8

/-- Furrow time: 58 tick bits and 6 sub-tick bits, wrapping (R58). -/
abbrev Furrow := BitVec 64

end Sys2Proof
end

