-- ==== Sys2Proof/Syntax.lean ====
section
/-! DEFINITION. The commands the block takes: one constructor of `Instr` for each row of the table of commands. A row
that is a register access carries the master that makes it; a row that is an event of the outside world or of an engine
whose outcome the spec gives no rule to compute carries that outcome as an operand. -/

namespace Sys2Proof

/-- Who makes an access or a request: the masters of R428, kind codes 0x01 to 0x0A. -/
inductive Master where
  | core (c : Fin 8)
  | bsc
  | dil (a : Fin 8)
  | dma (c : Fin 32)
  | host (p : Fin 2)
  | dd (d : Fin 8)
  | head (h : Fin 96)
  | gln
  | stp
  | jtag
deriving DecidableEq, Repr

/-- What the check code of a stored word says when it is read: good, corrected, or uncorrectable (R347). -/
inductive Ecc where
  | good | ce | ue
deriving DecidableEq, Repr

/-- What an LDPC decoding reports when it stops (R134, R136): whether it converged, whether the independent checker's
syndrome agrees, iterations done, unsatisfied checks, and the information bytes (hard decisions where it did not converge). -/
structure Decoded where
  conv : Bool
  checkOk : Bool
  iters : BitVec 8
  unsat : BitVec 16
  data : List Byte
deriving DecidableEq, Repr

/-- What the detection of a symbol gives the timing loop and the equaliser (R123, R125): the phase detector's error in 1/64 symbol, and the
target applied to the decisions; both signed. -/
structure SymErr where
  phase : BitVec 8
  target : BitVec 10
deriving DecidableEq, Repr

/-- What the samples of one head hold in a servo window (R237–R245): candidate SAM ends in ascending time (Furrow time [31:0]) with
the 16 decisions taken there, and, of the wedge that the first acceptable one begins, wedge number, Gray track ID, burst
amplitudes in ADC LSB (signed) and RRO field. -/
structure ServoHead where
  sams : List (BitVec 32 × BitVec 16) := []
  wedge : BitVec 10 := 0
  gray : BitVec 24 := 0
  aN : BitVec 16 := 0
  aQ : BitVec 16 := 0
  rro : BitVec 8 := 0
deriving DecidableEq, Repr

/-- A velocity sample of the motion die's own loop (R278): coil voltage in mV and coil current in mA, both signed. -/
structure CoilSample where
  mV : BitVec 16
  mA : BitVec 16
deriving DecidableEq, Repr

/-- A back-EMF sample point of a sense window (R294, R298): Furrow time [31:0], floating phase minus centre tap, counted negative before and
positive after a crossing in the direction the step expects, and the duty of the driven phases in 1/65,536. -/
structure BemfSample where
  time : BitVec 32
  v : BitVec 16
  duty : BitVec 16
deriving DecidableEq, Repr

/-- Bits of one 8 B word of a line that read flipped: the word's index in its line, its data bits, its check bits (R344). -/
structure WordErr where
  word : Fin 8 := 0
  data : BitVec 64 := 0
  chk : BitVec 8 := 0
deriving DecidableEq, Repr

/-- A place in the internal arrays that the Gleaner reads (R352): page position, word index, and the sub-unit or MDC entry the word
belongs to. -/
structure GlnSpot where
  page : Fin 352
  word : BitVec 16
  unit : BitVec 8
deriving DecidableEq, Repr

/-- What the checkers of the MDC say of a request's words (R361, R363): an error in the data of the entry hit, or in the tag of the
entry named. -/
inductive MdcFind where
  | clean
  | dataCe
  | dataUe
  | tagCe (e : Fin 48)
  | tagUe (e : Fin 48)
deriving DecidableEq, Repr

/-- The commands, one constructor for each row of the table of commands. -/
inductive Instr where
  /-- `REGISTER_WRITE` (R11). A write to a register field that has no behaviour of its own updates it according to its access code. A read or a write (`write`) of `len` bytes. -/
  | registerWrite (m : Master) (write : Bool) (len : BitVec 4) (addr : BitVec 48) (v : BitVec 64)
  /-- `REFUSED_ACCESS` (R33). An access outside every region, or otherwise refused, gets an error response and raises MEM FL0 through SYS ACCESS. -/
  | refusedAccess (m : Master) (write : Bool) (addr : BitVec 48) (len : BitVec 7)
  /-- `POWER_ON_RESET` (R455). A logic-die power-on reset clears the logic die, zeroes Furrow time and starts the start-up sequence. `test` says whether a TEST ball is held high. -/
  | powerOnReset (test : Bool)
  /-- `MOTION_POWER_ON_RESET` (R455). A motion-die power-on reset, with V5 and VHOLD both below 3.0 V, clears the motion die including its logs. Voltages in mV. -/
  | motionPowerOnReset (v5 vhold : BitVec 16)
  /-- `WARM_RESET` (R468). A warm reset drops every gate, powers off switched domains, silences the die-to-die link and reruns start-up from FILL. -/
  | warmReset
  /-- `RST_CTRL_WARM` (R471). A keyed write of RST_CTRL.WARM by the boot-and-safety core requests a warm reset, or is refused before DONE. -/
  | rstCtrlWarm (m : Master) (key : BitVec 16) (warm : Bool)
  /-- `JTAG_WARM_RESET` (R455). An unlocked JTAG reset command requests a warm reset. -/
  | jtagWarmReset
  /-- `ENABLE` (R40). A write of CTRL.ENABLE starts or stops a unit, staying 0 while unpowered or fenced. -/
  | enable (m : Master) (p : Fin 352) (on_ : Bool)
  /-- `SOFT_RESET` (R43). A write of CTRL.SOFT_RESET stops the unit at once and resets its page-specific registers. `pr` is the POWER_REQ field of the write. -/
  | softReset (m : Master) (p : Fin 352) (pr : Bool)
  /-- `SOFT_RESET_DONE` (R43). The soft reset finishes and RESET_BUSY and SOFT_RESET return to 0. -/
  | softResetDone (p : Fin 352)
  /-- `POWER_REQ` (R40). A write of CTRL.POWER_REQ requests or withdraws power for the unit's domain, refused while ENABLE is 1. -/
  | powerReq (m : Master) (p : Fin 352) (on_ : Bool)
  /-- `IRQ_PEND_CLEAR` (R44). A write of 1 to IRQ_PEND clears a latched bit only if its raw source is inactive. -/
  | irqPendClear (m : Master) (p : Fin 352) (v : Word)
  /-- `FLT_FORCE` (R45). A write of 1 to FLT_FORCE acts exactly as the source detecting its fault, unless FORCE_LOCK is set. -/
  | fltForce (m : Master) (p : Fin 352) (v : Word)
  /-- `LOCK` (R50). A write to LOCK sets LOCK or FORCE_LOCK until reset. -/
  | lock (m : Master) (p : Fin 352) (v : BitVec 2)
  /-- `IRQ_CLAIM` (R52). A read of IRQ_CLAIMc returns and claims the highest-priority eligible source of target c. -/
  | irqClaim (m : Master) (c : Fin 9)
  /-- `IRQ_DONE` (R52). A write to IRQ_DONEc releases a claimed source, which becomes eligible again if still active. -/
  | irqDone (m : Master) (c : Fin 9) (n : BitVec 8)
  /-- `SHADOW_ARM` (R53). A write of SHADOW_CTL.ARM arms or disarms a commit with source TIME, DRILL or NOW. `p` is the page's position. -/
  | shadowArm (m : Master) (p : Fin 352) (arm : Bool) (src : BitVec 2)
  /-- `SHADOW_COMMIT` (R56). In the commit cycle the page copies its shadow set to the active set, clears ARM and increments EPOCH. -/
  | shadowCommit (p : Fin 352)
  /-- `PLL_LOCK` (R438). The ROOT PLL locks, clocks are distributed and Furrow time starts counting. -/
  | pllLock (us : BitVec 16)
  /-- `OSC_STABLE` (R438). The crystal oscillator becomes stable after power-on reset. -/
  | oscStable
  /-- `COUNTER_MISMATCH` (R70). The two Furrow counter copies disagree and CLK FL4 is raised. -/
  | counterMismatch
  /-- `TIME_LO_READ` (R72). A read of TIME_LO latches TIME_HI and the angle for the reading master. -/
  | timeLoRead (m : Master)
  /-- `TRACK_EN` (R66). A write of TRK_CTRL.TRACK_EN starts or stops the angle tracker. -/
  | trackEn (m : Master) (en : Bool)
  /-- `WEDGES` (R71). A write of FUR.WEDGES sets N, or is ignored with CFG_ERR and CLK FL0 if invalid or not IDLE. -/
  | wedges (m : Master) (n : BitVec 11)
  /-- `WEDGE_MEASUREMENT` (R64). Each wedge's SRVa timing references are converted to the P0 frame and correct the tracker loop. -/
  | wedgeMeasurement
  /-- `TRACKER_ENTER_TRACK` (R66). Three consecutive good acquiring wedges move the tracker from ACQUIRE to TRACK. -/
  | trackerEnterTrack
  /-- `TRACKER_LOCKED` (R66). LOCK_COUNT consecutive wedges within LOCK_THR move the tracker to LOCKED. -/
  | trackerLocked
  /-- `TRACKER_HOLDOVER` (R66). Two consecutive bad wedges in LOCKED move the tracker to HOLDOVER and raise CLK FL0. -/
  | trackerHoldover
  /-- `TRACKER_LOST` (R66). HOLD_MAX wedges in HOLDOVER without relock move the tracker to LOST and raise CLK FL3. -/
  | trackerLost
  /-- `TRACK_TO_ACQUIRE` (R67). Two missing wedges or a disagreeing index in TRACK return the tracker to ACQUIRE. -/
  | trackToAcquire
  /-- `ACQ_TIMEOUT` (R67). No LOCKED within two revolutions of ACQUIRE sets NO_LOCK and raises CLK FL0 once. -/
  | acqTimeout
  /-- `DIRECT_ENQUEUE` (R82). A write to ENQ_W3 checks the master's entry and admits it to the Drill queue or refuses it. `d` below 8 is DRLa, 8 is DRLD. -/
  | directEnqueue (m : Master) (d : Fin 9) (w3 : Word)
  /-- `BATCH_ADMISSION` (R81). A commit of the STAGE area admits or refuses the staged entries as one batch and reports BATCH_STAT. -/
  | batchAdmission (d : Fin 9)
  /-- `FINAL_RESOLUTION` (R74). At the preceding wedge's servo sample an ANGLE entry resolves finally, or retires NO_ANGLE. -/
  | finalResolution (d : Fin 9)
  /-- `RG_OPEN` (R76). A read-gate open launches, latching the zone set and starting or continuing a sector. -/
  | rgOpen (a : Fin 8)
  /-- `RG_CLOSE` (R76). A read-gate close launches and ends the fragment's sampling. `errs` are the errors of the symbols that the last samples hold, in order. -/
  | rgClose (a : Fin 8) (errs : List SymErr)
  /-- `WG_OPEN` (R184). A write-gate open launches, runs the open checks and drives the gate or ends the sector aborted. -/
  | wgOpen (a : Fin 8)
  /-- `WG_CLOSE` (R171). A write-gate close launches and ends the fragment, without effect on a dropped gate. -/
  | wgClose (a : Fin 8)
  /-- `HEAT` (R76). A HEAT entry launches and sends a heater WRITE frame to the preamp. -/
  | heat (a : Fin 8)
  /-- `PRE_REG` (R76). A PRE_REG entry launches and sends a preamp register WRITE frame. -/
  | preReg (a : Fin 8)
  /-- `APPLY` (R55). An APPLY entry launches and commits the named armed page, or retires NOT_ARMED. -/
  | apply (d : Fin 9)
  /-- `MA_OFFSET` (R76). An MA_OFFSET entry launches and adds to the head's microactuator reference. -/
  | maOffset (a : Fin 8)
  /-- `STP_START` (R195). An STP_START entry launches, checks the stripe descriptor and opens the stripe or refuses it. -/
  | stpStart (a : Fin 8)
  /-- `PROFILE_START` (R76). A PROFILE_START entry launches and schedules the seek of a PRFa slot at the next servo sample. -/
  | profileStart (a : Fin 8)
  /-- `SPN_OVR` (R76). An SPN_OVR entry launches and sends a spindle override over the die-to-die link. -/
  | spnOvr
  /-- `EVENT` (R76). An EVENT entry launches and raises a Dill event or pulses DRLD IRQ_RAW.EVENT. -/
  | event (d : Fin 9)
  /-- `MISSED` (R79). A serialised entry whose slack window closes before launch retires MISSED and raises DL FL0. -/
  | missed (d : Fin 9)
  /-- `FLUSH` (R86). A write of Q_CTRL.FLUSH removes pending entries and retires them FLUSHED. -/
  | flush (m : Master) (d : Fin 9)
  /-- `FLUSH_DONE` (R86). The flush completes and Q_CTRL.FLUSH reads 0. -/
  | flushDone (d : Fin 9)
  /-- `Q_CANCEL` (R86). A write of Q_CANCEL removes pending entries whose masked TAG matches and retires them FLUSHED. -/
  | qCancel (m : Master) (d : Fin 9) (tag mask : BitVec 16)
  /-- `AFE_WAKE` (R94). With AFE_DOZE set, the front end wakes 2,400 ft before the next admitted gate or servo window. `delay` is the time in ft until the front end reports ready. -/
  | afeWake (h : Fin 96) (delay : BitVec 16)
  /-- `ADAPT_BLOCK` (R97). At the end of each sample block the AGC, offset and asymmetry loops update. `xa` and `xb` are the block's ADC samples of reader A and reader B, `errs` the errors of its symbols, in order. -/
  | adaptBlock (h : Fin 96) (xa xb : List (BitVec 7)) (errs : List SymErr)
  /-- `CLIP_RUN` (R93). 256 consecutive clipped samples on one reader raise CH FL0. -/
  | clipRun (h : Fin 96) (rdB : Bool)
  /-- `ADC_STUCK` (R93). 4,096 identical consecutive samples on one reader raise CH FL1 on the head channel. -/
  | adcStuck (h : Fin 96) (rdB : Bool)
  /-- `ZPT_SEL` (R100). A shadow write of ZPT_SEL loads the named ZPT entry into the shadow parameter set, or is refused. `ecc` is what the check code of the entry read says. -/
  | zptSel (m : Master) (h : Fin 96) (zone : BitVec 6) (ecc : Ecc)
  /-- `CMD_WRITE_FRAME` (R107). A write of LNKa.CMD with TYPE WRITE queues a preamp register write frame. -/
  | cmdWriteFrame (m : Master) (a : Fin 8) (head : BitVec 4) (reg data : BitVec 8)
  /-- `CMD_READ_FRAME` (R107). A write of LNKa.CMD with TYPE READ queues a preamp register read frame. -/
  | cmdReadFrame (m : Master) (a : Fin 8) (head : BitVec 4) (reg data : BitVec 8)
  /-- `CMD_STATUS_REQ` (R107). A write of LNKa.CMD with TYPE STATUS_REQ queues a status request frame. -/
  | cmdStatusReq (m : Master) (a : Fin 8) (head : BitVec 4) (reg data : BitVec 8)
  /-- `CMD_TYPE_REFUSED` (R107). A CMD write with TYPE 0b10 queues nothing and sets RESULT 0x3. -/
  | cmdTypeRefused (m : Master) (a : Fin 8)
  /-- `FRAME_START` (R112). When the link is free the highest-precedence waiting frame starts on ADO. -/
  | frameStart (a : Fin 8)
  /-- `RESPONSE_FRAME` (R109). A response frame from the preamp is checked and matched to the oldest unanswered transmission. `high` is the level of AALERT after the response. -/
  | responseFrame (a : Fin 8) (typ : BitVec 2) (head : BitVec 4) (seq : BitVec 2) (reg data : BitVec 8) (crcOk high : Bool)
  /-- `RSP_TIMEOUT` (R110). An unanswered transmission times out and is retransmitted, fencing the link after three retries. -/
  | rspTimeout (a : Fin 8)
  /-- `AALERT_RISE` (R113). A rise of AALERT sends one STATUS_REQ and opens any ALERT inhibit. -/
  | aalertRise (a : Fin 8)
  /-- `ALERT_STUCK` (R113). AALERT high for 1 ms sets MASKED and raises LNK FL0. -/
  | alertStuck (a : Fin 8)
  /-- `ALERT_UNMASK` (R113). A write of 1 to ALERT_STAT.MASKED unmasks the alert input. -/
  | alertUnmask (m : Master) (a : Fin 8)
  /-- `LINK_TRAINING_END` (R114). Adeub link training ends, choosing the ADI phase and entering UP, or FENCED on failure. `rsp` are the response frames of the phases tried, from phase 0, or of PHASE_OVR alone; `high` is the level of AALERT. -/
  | linkTrainingEnd (a : Fin 8) (rsp : List (List Word)) (high : Bool)
  /-- `SYNC_SEARCH_END` (R129). The sync-mark search accepts a candidate or exhausts its window. `hard` are the search detector's hard decisions from the first candidate's position on. -/
  | syncSearchEnd (h : Fin 96) (hard : List Bool)
  /-- `RESYNC_SEARCH_END` (R130). The resync-mark search accepts a candidate and frames the sector, or ends with MARK_MISSED. As SYNC_SEARCH_END. -/
  | resyncSearchEnd (h : Fin 96) (hard : List Bool)
  /-- `DETECTOR_PASS_END` (R127). A detector pass over a sector ends and LDPC decoding starts or continues. `llr` are the LLRs of the codeword's symbols before scaling, `older` is where the decoding of the head's previous sector stands. -/
  | detectorPassEnd (h : Fin 96) (llr : List (BitVec 7)) (older : Decoded)
  /-- `DECODE_END` (R134). LDPC decoding stops on convergence, iteration limit or time-out and the sector ends with its status. -/
  | decodeEnd (h : Fin 96) (r : Decoded)
  /-- `FRAGMENT_TIMEOUT` (R141). A pending read sector whose next fragment has not opened within 436.9 µs ends FRAG_BROKEN. -/
  | fragmentTimeout (h : Fin 96)
  /-- `RELEASE` (R150). A write of AFM.RELEASE frees a pinned slot or makes its deep decoder abandon the job. -/
  | release (m : Master) (h : BitVec 7) (slot : Bool)
  /-- `RELEASE_DONE` (R150). The deep decoder of a RELEASING slot stops and the slot becomes FREE. -/
  | releaseDone (h : Fin 96) (slot : Bool)
  /-- `REDECODE` (R159). A JOB_W3 write with TYPE REDECODE submits a re-decode job at the descriptor's framing. The other words stand in the master's JOB_W0–JOB_W2. -/
  | redecode (m : Master) (w3 : Word)
  /-- `REFRAME` (R159). A JOB_W3 write with TYPE REFRAME submits a decode at a given frame offset. -/
  | reframe (m : Master) (w3 : Word)
  /-- `JOINT` (R159). A JOB_W3 write with TYPE JOINT submits a decode of two slots with combined LLRs. -/
  | joint (m : Master) (w3 : Word)
  /-- `SWEEP` (R159). A JOB_W3 write with TYPE SWEEP submits a re-frame sweep on a pinned slot. -/
  | sweep (m : Master) (w3 : Word)
  /-- `JOB_DISPATCH` (R155). A queued job is dispatched to the lowest idle enabled deep decoder. -/
  | jobDispatch
  /-- `DEEP_TRY_END` (R158). A deep-decoder try ends by convergence, abandonment against THR or its iteration limit. `llr` and, for JOINT, `llr2` are the LLRs of the codeword's symbols in the target and the second slot before scaling. -/
  | deepTryEnd (d : Fin 8) (r : Decoded) (llr llr2 : List (BitVec 7))
  /-- `DEEP_JOB_END` (R161). A deep job ends, writing its payload and a final record with DEEP and FINAL set. -/
  | deepJobEnd (d : Fin 8)
  /-- `WQ_WR` (R167). A write of WQ_WR makes new write descriptors available for fetching and streaming. -/
  | wqWr (m : Master) (h : Fin 96) (v : Word)
  /-- `WRITE_FIFO_FILL` (R168). A payload beat from BFM or STP arrives in the head's write FIFO. -/
  | writeFifoFill (h : Fin 96)
  /-- `UNDERRUN` (R185). The synthesizer reaches a cell not in the FIFO, the gate idles and the sector ends WRITE_ABORTED. -/
  | underrun (h : Fin 96)
  /-- `WRITE_SECTOR_END` (R171). A write sector's last pad cell leaves the balls and the sector ends WRITTEN. -/
  | writeSectorEnd (h : Fin 96)
  /-- `WRITE_FRAGMENT_TIMEOUT` (R172). A pending write sector whose next fragment has not opened within 436.9 µs ends with cause FRAG. -/
  | writeFragmentTimeout (h : Fin 96)
  /-- `FAULT_LATCH_CLEAR` (R178). A W1C write of WR_INH.FAULT_LATCH ends the head's PREAMP_FAULT inhibit. -/
  | faultLatchClear (m : Master) (h : Fin 96)
  /-- `SHOCK_TRIP` (R284). A shock comparator sample above threshold opens the shock inhibit on every head. -/
  | shockTrip (n : Fin 4) (mag : BitVec 10)
  /-- `SHOCK_RELEASE` (R284). A shock comparator sample at or below threshold releases the sensor. -/
  | shockRelease (n : Fin 4) (mag : BitVec 10)
  /-- `SHOCK_HOLD_END` (R180). SHOCK_HOLD × 256 ft after the last sensor falls, the shock inhibit of an actuator closes. -/
  | shockHoldEnd (a : Fin 8)
  /-- `WRITE_WINDOW_CLOSE` (R183). At td + 14,400 ft the supply-loss write window closes and the retract may begin. -/
  | writeWindowClose
  /-- `STP_RECORD` (R197). STP receives a read, write or Aftermath record and matches it to a member of an open stripe. -/
  | stpRecord
  /-- `STRIPE_TIMEOUT` (R199). A stripe's time-out window closes and undecided members are lost or named in TMO. -/
  | stripeTimeout (i : Fin 64)
  /-- `REBUILD_START` (R202). The rebuild datapath takes the oldest READY stripe. -/
  | rebuildStart
  /-- `REBUILD_END` (R203). A rebuild ends with rebuilt members written and the stripe record issued. -/
  | rebuildEnd (i : Fin 64)
  /-- `CANCEL` (R206). A write of STP CANCEL ends the named stripe ABORTED. -/
  | cancel (m : Master) (i : BitVec 6)
  /-- `DIL_START` (R221). A write to DILa START begins a routine at ENTRY or is refused. -/
  | dilStart (m : Master) (a : Fin 8) (entry : BitVec 13)
  /-- `KILL` (R222). A write of RUN_CTL.KILL ends the routine KILLED at the end of the current word. -/
  | kill (m : Master) (a : Fin 8)
  /-- `DIL_STOP` (R236). A write of RUN_CTL.STOP raises Dill event 15. -/
  | dilStop (m : Master) (a : Fin 8)
  /-- `EVT_SET` (R223). A write to EVT_SET raises Dill events. -/
  | evtSet (m : Master) (a : Fin 8) (mask : BitVec 16)
  /-- `EVT_CLR` (R223). A write to EVT_CLR clears pending Dill events. -/
  | evtClr (m : Master) (a : Fin 8) (mask : BitVec 16)
  /-- `EVENT_TAKEN` (R223). A pending enabled event is taken before a non-HOLD word, pushing an event frame and entering HANDLER. -/
  | eventTaken (a : Fin 8)
  /-- `HOLD_RUN` (R224). A 65th consecutive HOLD word raises SEQ FL1 instead of executing. -/
  | holdRun (a : Fin 8)
  /-- `NOP` (R214). A NOP micro-operation does nothing. -/
  | nop (a : Fin 8)
  /-- `ADD` (R215). The ALU ADD function adds A and B. -/
  | add (a : Fin 8)
  /-- `SUB` (R215). The ALU SUB function subtracts B from A. -/
  | sub (a : Fin 8)
  /-- `AND` (R215). The ALU AND function forms the bitwise AND. -/
  | and (a : Fin 8)
  /-- `OR` (R215). The ALU OR function forms the bitwise OR. -/
  | or (a : Fin 8)
  /-- `XOR` (R215). The ALU XOR function forms the bitwise XOR. -/
  | xor (a : Fin 8)
  /-- `SHL` (R215). The ALU SHL function shifts A left. -/
  | shl (a : Fin 8)
  /-- `SHR` (R215). The ALU SHR function shifts A right logically. -/
  | shr (a : Fin 8)
  /-- `SAR` (R215). The ALU SAR function shifts A right arithmetically. -/
  | sar (a : Fin 8)
  /-- `MIN` (R215). The ALU MIN function takes the signed minimum. -/
  | min (a : Fin 8)
  /-- `MAX` (R215). The ALU MAX function takes the signed maximum. -/
  | max (a : Fin 8)
  /-- `INS` (R215). The ALU INS function inserts B into a field of A. -/
  | ins (a : Fin 8)
  /-- `EXT` (R215). The ALU EXT function extracts a zero-extended field of A. -/
  | ext (a : Fin 8)
  /-- `WADD` (R215). The ALU WADD function adds modulo the wedge count N. -/
  | wadd (a : Fin 8)
  /-- `MUL` (R214). MUL FN 0 gives the low 32 bits of A × B. -/
  | mul (a : Fin 8)
  /-- `MULHS` (R214). MUL FN 1 gives the signed high 32 bits of A × B. -/
  | mulhs (a : Fin 8)
  /-- `MULHU` (R214). MUL FN 2 gives the unsigned high 32 bits of A × B. -/
  | mulhu (a : Fin 8)
  /-- `DRD` (R214). DRD reads a DMEM word into a register. -/
  | drd (a : Fin 8)
  /-- `DWR` (R214). DWR writes a register to DMEM. -/
  | dwr (a : Fin 8)
  /-- `XRD` (R214). XRD reads a 32-bit word from buffer memory at an external base. -/
  | xrd (a : Fin 8)
  /-- `PRD` (R228). PRD reads an allowed register of the actuator's pages or BFM SRT registers. -/
  | prd (a : Fin 8)
  /-- `PWR` (R228). PWR posts a register write to an allowed page offset, or drops it with SEQ FL0. -/
  | pwr (a : Fin 8)
  /-- `ENQ` (R229). ENQ assembles a Drill entry and enqueues it directly to DRLa, waiting for the result. -/
  | enq (a : Fin 8)
  /-- `STG` (R226). STG stages one Drill entry for a later commit. -/
  | stg (a : Fin 8)
  /-- `STW` (R226). STW stages one register write for a later commit. -/
  | stw (a : Fin 8)
  /-- `COMMIT` (R226). COMMIT hands the staged entries to DRLa as one batch and lands the staged writes if admitted. -/
  | commit (a : Fin 8)
  /-- `DISCARD` (R226). COMMIT FN 1 empties the staging. -/
  | discard (a : Fin 8)
  /-- `TIME_NOW` (R230). TIME FN 0 returns the current Furrow time low word. -/
  | timeNow (a : Fin 8)
  /-- `TIME_ANGLE` (R230). TIME FN 1 returns the angle in the actuator's pivot frame. -/
  | timeAngle (a : Fin 8)
  /-- `TIME_REV` (R230). TIME FN 2 returns the revolution count. -/
  | timeRev (a : Fin 8)
  /-- `TIME_PRED` (R230). TIME FN 3 returns the predicted time of the next occurrence of a wedge. -/
  | timePred (a : Fin 8)
  /-- `OUT` (R214). OUT FN 0 writes a register to an OUT register. -/
  | out (a : Fin 8)
  /-- `IRQ` (R214). OUT FN 1 pulses IRQ_RAW.OUT. -/
  | irq (a : Fin 8)
  /-- `EMASK` (R214). OUT FN 2 sets EVT_MASK. -/
  | emask (a : Fin 8)
  /-- `ECLR` (R214). OUT FN 3 clears pending events. -/
  | eclr (a : Fin 8)
  /-- `ESET` (R214). OUT FN 4 raises events. -/
  | eset (a : Fin 8)
  /-- `JMP` (R217). JMP continues at TARGET if COND holds. -/
  | jmp (a : Fin 8)
  /-- `CALL` (R218). CALL pushes the return address and continues at TARGET if COND holds, faulting on a full stack. -/
  | call (a : Fin 8)
  /-- `RET` (R218). RET pops a return address if COND holds, faulting on an empty stack or event frame. -/
  | ret (a : Fin 8)
  /-- `LOOP` (R217). LOOP decrements G31 and branches to TARGET while it is non-zero and COND holds. -/
  | loop (a : Fin 8)
  /-- `WAIT` (R217). WAIT holds the sequencer at its word until COND becomes true. -/
  | wait (a : Fin 8)
  /-- `WAIT_RELEASE` (R217). The condition of a WAIT word becomes true and execution continues. -/
  | waitRelease (a : Fin 8)
  /-- `DISP` (R217). DISP branches to TARGET plus the low bits of a register. -/
  | disp (a : Fin 8)
  /-- `END` (R222). SYS END ends the routine DONE. -/
  | endOp (a : Fin 8)
  /-- `RESUME` (R225). SYS RESUME pops the event frame and returns from the handler to RUN. -/
  | resume (a : Fin 8)
  /-- `ABANDON` (R225). SYS ABANDON in a handler ends the routine ABANDONED. -/
  | abandon (a : Fin 8)
  /-- `FAIL` (R222). SYS FAIL ends the routine FAILED with a code. -/
  | fail (a : Fin 8)
  /-- `LD_ADDR` (R231). A write of LD_ADDR selects the store and address and restarts the load CRC. -/
  | ldAddr (m : Master) (a : Fin 8) (space : BitVec 2) (addr : BitVec 13)
  /-- `LD_DATA` (R231). A write of LD_DATA supplies one part of a store word, writing it when complete or refusing it. -/
  | ldData (m : Master) (a : Fin 8) (v : Word)
  /-- `SERVO_SAMPLE` (R243). A servo wedge is demodulated per head, giving PES, quality and the actuator timing reference. -/
  | servoSample (a : Fin 8) (rdA rdB : List ServoHead)
  /-- `TILLER_COMPUTE` (R250). A Tiller loop computes its output from the sample error, applying pending opens, closes and hand-overs. `corrected` is the number of corrected errors in coefficient words. -/
  | tillerCompute (a : Fin 8) (j : Fin 13) (corrected : BitVec 6)
  /-- `MISS_LIMIT` (R260). MISS_LIMIT consecutive misses fence a microactuator loop or the actuator. -/
  | missLimit (a : Fin 8) (j : Fin 13)
  /-- `OUTPUT_FRAME` (R248). At T + OUT_DEADLINE TILa sends the 13 outputs in force to MOT. -/
  | outputFrame (a : Fin 8)
  /-- `OVERRUN_LIMIT` (R261). OVERRUN_LIMIT consecutive overruns raise DL FL2 and park the actuator. -/
  | overrunLimit (a : Fin 8)
  /-- `OUTPUT_APPLY` (R268). MOT receives a Tiller frame and applies its codes if the actuator is LOADED. -/
  | outputApply (a : Fin 8)
  /-- `OPEN_SET` (R254). A write of OPEN_SET requests opening of the named loops. -/
  | openSet (m : Master) (a : Fin 8) (mask : BitVec 13)
  /-- `CLOSE_SET` (R255). A write of CLOSE_SET requests a bumpless close of the named loops. -/
  | closeSet (m : Master) (a : Fin 8) (mask : BitVec 13)
  /-- `HANDOVER` (R257). A write of HANDOVER requests a mode change for the named loops. -/
  | handover (m : Master) (a : Fin 8) (mode : BitVec 2) (mask : BitVec 13)
  /-- `MA_REF` (R249). A write of a loop's MA_REF changes its reference from the next computation. -/
  | maRef (m : Master) (a : Fin 8) (j : Fin 13) (v : BitVec 16)
  /-- `SEEK_START` (R270). At the first servo sample after PROFILE_START the seek is checked and started or refused. -/
  | seekStart (a : Fin 8)
  /-- `PROFILE_SAMPLE` (R273). At each sample PRFa gives the VCM reference and feed-forward of the profile. -/
  | profileSample (a : Fin 8)
  /-- `SETTLE_REQUEST` (R274). SET_CNT in-window samples after the profile end request the hand-over to SETTLE. -/
  | settleRequest (a : Fin 8)
  /-- `FOLLOW_REQUEST` (R275). FOL_CNT in-window samples in SETTLE request FOLLOW, ending the seek FOLLOWING. -/
  | followRequest (a : Fin 8)
  /-- `SEEK_TIMEOUT` (R275). FOLLOWING not reached within TMO samples ends the seek TIMEOUT. -/
  | seekTimeout (a : Fin 8)
  /-- `ABORT` (R277). A write of PRF_CTRL.ABORT stops the seek or ends it ABORTED. -/
  | abort (m : Master) (a : Fin 8)
  /-- `STOP_COMPLETE` (R277). The abort stop completes and the seek ends ABORTED on x_hold. -/
  | stopComplete (a : Fin 8)
  /-- `LOAD` (R278). A RAMP_CMD LOAD moves a PARKED actuator into LOADING, or is refused. -/
  | load (m : Master) (a : Fin 8)
  /-- `UNLOAD` (R278). A RAMP_CMD UNLOAD moves the actuator into UNLOADING. -/
  | unload (m : Master) (a : Fin 8)
  /-- `SERVO_FOUND` (R279). Four consecutive TIME_OK samples during LOADING move the actuator to STOPPING. -/
  | servoFound (a : Fin 8)
  /-- `STOP_ACHIEVED` (R279). Eight slow samples in STOPPING enter LOADED and close the VCM loop on HOLD_CODE. -/
  | stopAchieved (a : Fin 8) (code : BitVec 16) (xs : List CoilSample)
  /-- `RAMP_STOP` (R278). After 200 µs stopped against the ramp, an unloading actuator enters PUSHING. -/
  | rampStop (a : Fin 8) (xs : List CoilSample)
  /-- `PUSH_DONE` (R278). PUSH_T after pushing begins, the actuator becomes PARKED. -/
  | pushDone (a : Fin 8)
  /-- `RAMP_TIMEOUT` (R278). RAMP_TMO in LOADING or UNLOADING leads to UNLOADING or PARK_FAILED with a fault. -/
  | rampTimeout (a : Fin 8)
  /-- `FENCE_UNLOAD` (R281). An UNLOAD commanded by an FL2 fencing reaches MOT and the actuator leaves LOADED. -/
  | fenceUnload (a : Fin 8)
  /-- `RETRACT_START` (R282). An emergency retract starts, driving every unparked actuator outwards. -/
  | retractStart (vhold : BitVec 16)
  /-- `RETRACT_PHASE1_END` (R282). Retract phase 1 ends on low velocity or T1 and phase 2 pushing begins. -/
  | retractPhase1End (a : Fin 8) (xs : List CoilSample) (vhold : BitVec 16)
  /-- `RETRACT_END` (R282). Phase 2 ends after T2 and, when all actuators are done, the spindle is told to short-brake. -/
  | retractEnd (a : Fin 8) (vhold : BitVec 16)
  /-- `BOOST_EN` (R267). A write of MA_CTRL.BOOST_EN starts or stops the 24 V boost. -/
  | boostEn (m : Master) (en : Bool)
  /-- `BOOST_READY` (R267). The boost reaches regulation and BOOST_OK sets. -/
  | boostReady
  /-- `BOOST_FAIL` (R286). BOOST_OK is lost while BOOST_EN is 1, raising PWR FL3. -/
  | boostFail
  /-- `VCM_FAULT` (R286). A VCM bridge over-current turns the bridge off and puts the actuator in PARK_FAILED. -/
  | vcmFault (a : Fin 8)
  /-- `SPN_START` (R307). The START command moves the spindle into SENSE. -/
  | spnStart (m : Master)
  /-- `SPN_STOP` (R307). The STOP command starts DECEL or short-brakes an unfinished start. -/
  | spnStop (m : Master)
  /-- `BRAKE` (R307). The BRAKE command moves the spindle into SHORT_BRAKE. -/
  | brake (m : Master)
  /-- `COAST` (R307). The COAST command turns the bridge off. -/
  | coast (m : Master)
  /-- `SENSE_END` (R310). After 20 ms of sensing the controller aligns, catches or pre-brakes the spindle. What was observed: largest amplitude in mV, crossings in sequence, direction, mean electrical period in ft, next predicted crossing (Furrow time [31:0]) and its step. -/
  | senseEnd (amp : BitVec 16) (crossings : BitVec 8) (fwd : Bool) (per : Word) (next : Word) (step : Fin 6)
  /-- `PREBRAKE_END` (R306). The back-EMF falls below STOP_BEMF during pre-brake and ALIGN begins. -/
  | prebrakeEnd (amp : BitVec 16)
  /-- `ALIGN_END` (R309). ALIGN_T elapses and open-loop RAMP stepping begins. -/
  | alignEnd
  /-- `RAMP_STEP` (R309). An open-loop ramp step elapses, shortening the next and entering ACCEL at HANDOFF speed. -/
  | rampStep
  /-- `START_TIMEOUT` (R309). AT_SPEED not set within RAMP_TMO turns the bridge off into COAST with START_FAIL. -/
  | startTimeout
  /-- `ZERO_CROSSING` (R295). Two usable back-EMF samples change sign and a zero crossing is accepted. -/
  | zeroCrossing (xs : List BemfSample)
  /-- `COMMUTATION` (R296). The bridge commutates to the next step and coarse regulation updates the torque. -/
  | commutation (rest : List BemfSample)
  /-- `ZC_MISS` (R297). A sense window closes without a crossing, commutating at the predicted time and counting a miss. -/
  | zcMiss (xs : List BemfSample)
  /-- `WEDGE_TIME_TO_SPN` (R302). FUR sends a wedge's measured time to SPN for fine regulation. -/
  | wedgeTimeToSpn
  /-- `AT_SPEED_SET` (R304). Four revolutions within ±0.1 % set AT_SPEED. -/
  | atSpeedSet
  /-- `SPEED_LOSS` (R304). A revolution outside ±0.5 % clears AT_SPEED, raising SPN FL3 in RUN. -/
  | speedLoss
  /-- `OVR_APPLY` (R313). A spindle override takes effect at its apply instant, or is ignored and counted. -/
  | ovrApply
  /-- `VM_SAMPLE` (R315). Each microsecond SPN measures VM and adjusts the braking-current limit. `vm` is VM in steps of 10 mV. -/
  | vmSample (vm : BitVec 13)
  /-- `CHOPPER_ON` (R316). VM rises above VM_CHOP_ON in DECEL and the brake chopper turns on. -/
  | chopperOn
  /-- `CHOPPER_OFF` (R316). VM falls below VM_CHOP_OFF and the brake chopper turns off. -/
  | chopperOff
  /-- `CHOP_FAIL` (R317). A chopper without current for 50 µs, or VM above VM_ABS, ends regeneration and raises SPN FL2. -/
  | chopFail (sense : BitVec 16)
  /-- `REGEN_END` (R314). Speed below REGEN_END in DECEL moves the spindle to SHORT_BRAKE. -/
  | regenEnd
  /-- `SPIN_STOPPED` (R306). After 100 ms with back-EMF below STOP_BEMF in SHORT_BRAKE the spindle is STOPPED. -/
  | spinStopped (amp : BitVec 16)
  /-- `EMERGENCY_STOP` (R318). An emergency cause moves SPN into HOLDUP within 1 µs. -/
  | emergencyStop
  /-- `BRIDGE_OC` (R320). A spindle bridge over-current turns the bridge off and raises SPN FL4. -/
  | bridgeOc
  /-- `D2D_LOSS` (R15). The logic die finds the die-to-die link silent for 2 µs, drops every write gate and raises PWR FL4. -/
  | d2dLoss
  /-- `MOTION_EMERGENCY` (R15). The motion die receives no valid frame for 20 µs and retracts and brakes on its own. -/
  | motionEmergency
  /-- `DRAM_EN` (R327). A write of DRAM_EN starts DRAM training, or is refused with CFG_ERR. -/
  | dramEn (m : Master) (en : Bool)
  /-- `TRAINING_DONE` (R327). DRAM training ends, entering FILL or FAILED. -/
  | trainingDone (fails : BitVec 12) (eyes : List (BitVec 24))
  /-- `DRAM_FILL_DONE` (R348). The DRAM initialisation fill ends and DRAM becomes READY. -/
  | dramFillDone
  /-- `SR_REQ` (R332). A write of SR_REQ stops new grants to enter self-refresh or leaves it. -/
  | srReq (m : Master) (on_ : Bool)
  /-- `SELF_REFRESH_ENTERED` (R332). Every channel is in self-refresh and STATE becomes SELF_REFRESH. -/
  | selfRefreshEntered
  /-- `SELF_REFRESH_EXITED` (R332). Every channel has left self-refresh and retrained, and waiting requests are granted. -/
  | selfRefreshExited
  /-- `BUFFER_REQUEST` (R329). A master's request to buffer memory is mapped to a channel or SRAM bank group and queued. -/
  | bufferRequest (m : Master) (write : Bool) (addr : BitVec 48) (len : BitVec 7) (data : List Byte)
  /-- `ARBITER_GRANT` (R333). A resource's arbiter grants a slot to the winning class and requester. -/
  | arbiterGrant (r : Fin 28) (e : WordErr)
  /-- `MR4_POLL` (R326). Every 16 ms MR4 is polled and refresh is derated accordingly. -/
  | mr4Poll (c : Fin 12) (code : BitVec 3) (hot : Bool)
  /-- `RFM_REQUEST` (R326). A device RFM request is honoured. -/
  | rfmRequest (c : Fin 12)
  /-- `SRT_LOOKUP` (R338). A write to SRT_KEY_HI starts the master's SRT lookup. -/
  | srtLookup (m : Master) (hi : BitVec 16)
  /-- `SRT_LOOKUP_END` (R338). A lookup's binary search ends with HIT, MISS, CORRUPT, ERROR or FENCED. -/
  | srtLookupEnd
  /-- `FREEZE` (R339). A write of SRT_CTRL.FREEZE holds new lookups, or releases held ones. -/
  | freeze (m : Master) (on_ : Bool)
  /-- `SRT_SHIFT` (R340). A write of SRT_SHIFT moves entries to open or close a gap, or is refused. -/
  | srtShift (m : Master) (index : BitVec 16) (dir : Bool)
  /-- `SHIFT_DONE` (R340). An SRT shift completes and BUSY clears. -/
  | shiftDone
  /-- `CHECK` (R341). A write of SRT_CTRL.CHECK starts a background scan of the table. -/
  | check (m : Master)
  /-- `CHECK_DONE` (R341). The SRT scan ends with OK or the first failing entry. -/
  | checkDone
  /-- `INIT_FILL_DONE` (R347). The power-on fill of SRAM and always-on arrays completes. `rom`: the boot ROM's and boot-and-safety core's checkers passed; `fails`: failing checkers elsewhere (page position, checker). -/
  | initFillDone (rom : Bool) (fails : List (Fin 352 × BitVec 8))
  /-- `ST_RERUN` (R350). A write of ST_RERUN repeats a page's checker self-test, or is refused. `fails` are the checkers of the page that give a wrong result. -/
  | stRerun (m : Master) (page : BitVec 9) (fails : List (BitVec 8))
  /-- `GLEANER_BEAT` (R351). The Gleaner reads one line, writing back a corrected line or reporting an uncorrectable one. -/
  | gleanerBeat (dram : Bool) (e : WordErr) (raced : Bool) (spot : Option GlnSpot)
  /-- `LAP_END` (R353). A Gleaner SRAM or DRAM lap ends, records its duration and begins the next. -/
  | lapEnd (dram : Bool)
  /-- `LAP_LATE` (R353). A lap passing its target raises MEM FL0 once. -/
  | lapLate (dram : Bool)
  /-- `MDC_REQUEST` (R357). A core or sequencer request to DRAM is served by the metadata cache as a hit, miss or uncached access. -/
  | mdcRequest (m : Master) (write : Bool) (addr : BitVec 48) (len : BitVec 7) (data : List Byte) (find : MdcFind)
  /-- `MDC_FILL_RETURN` (R359). A cache fill's data returns and serves its waiting requesters. -/
  | mdcFillReturn (i : Fin 8) (beat : Fin 4) (e : WordErr)
  /-- `VICTIM_WRITEBACK_DONE` (R359). BFM accepts a victim line's write-back and its buffer place is freed. -/
  | victimWritebackDone (i : Fin 4)
  /-- `INV_ADDR` (R360). MAINT INV_ADDR drops the line holding MAINT_ADDR. -/
  | invAddr (m : Master)
  /-- `CLEAN_ADDR` (R360). MAINT CLEAN_ADDR writes back the line if dirty. -/
  | cleanAddr (m : Master)
  /-- `CLEAN_INV_ADDR` (R360). MAINT CLEAN_INV_ADDR writes back and drops the line. -/
  | cleanInvAddr (m : Master)
  /-- `INV_ALL` (R360). MAINT INV_ALL drops every line. -/
  | invAll (m : Master)
  /-- `CLEAN_ALL` (R360). MAINT CLEAN_ALL writes back every dirty line. -/
  | cleanAll (m : Master)
  /-- `CLEAN_INV_ALL` (R360). MAINT CLEAN_INV_ALL writes back every dirty line and drops them all. -/
  | cleanInvAll (m : Master)
  /-- `MAINT_DONE` (R360). A maintenance operation completes and MAINT_STAT.DONE sets. -/
  | maintDone
  /-- `BYPASS_REQ` (R362). A write of MDC_CTRL.BYPASS_REQ sends the cache into or out of bypass. -/
  | bypassReq (m : Master) (on_ : Bool)
  /-- `BYPASS_ENTERED` (R362). The clean of all entries ends and the MDC is in bypass. -/
  | bypassEntered
  /-- `RUN` (R368). A write of CH_CTRL.RUN starts the channel fetching at HEAD. -/
  | run (m : Master) (c : Fin 32) (on_ : Bool)
  /-- `KICK` (R368). A write to KICK refetches the waiting descriptor in WAIT_OWN. -/
  | kick (m : Master) (c : Fin 32)
  /-- `DESCRIPTOR_FETCH` (R366). A fetched descriptor is checked and started, waited on, or ended BAD_DESC. -/
  | descriptorFetch (c : Fin 32)
  /-- `HOST_COMPLETION` (R369). A host read completion for a DMA descriptor arrives and is written to the buffer. `i` is the place of its request among the channel's outstanding reads, oldest first; `status` is 0 for data, 1 for Unsupported Request, 2 for Completer Abort. -/
  | hostCompletion (c : Fin 32) (i : BitVec 8) (status : Fin 3) (data : List Byte)
  /-- `DESCRIPTOR_COMPLETE` (R369). A descriptor completes, writing its status words and returning OWN to 0. -/
  | descriptorComplete (c : Fin 32)
  /-- `POSTED_ACK` (R370). The link partner acknowledges a posted write and the descriptor leaves the trail. -/
  | postedAck (p : Fin 2)
  /-- `POSTED_LOST` (R372). The port reports posted writes lost and the channel freezes its trail. -/
  | postedLost (c : Fin 32)
  /-- `DESCRIPTOR_TIMEOUT` (R375). A descriptor not complete when its window closes ends TIMEOUT. -/
  | descriptorTimeout (c : Fin 32) (second : Bool)
  /-- `DMA_ABORT` (R376). A write of CH_CTRL.ABORT stops issue and the channel drains into IDLE. -/
  | dmaAbort (m : Master) (c : Fin 32)
  /-- `ABORT_DRAINED` (R376). The outstanding responses of an aborting channel have arrived and its descriptors end ABORTED. -/
  | abortDrained (c : Fin 32)
  /-- `PERST_ASSERT` (R408). PERST# assertion takes the link down and resets the port as an FLR. -/
  | perstAssert (p : Fin 2)
  /-- `PERST_DEASSERT` (R388). PERST# deassertion lets the port train. -/
  | perstDeassert (p : Fin 2)
  /-- `HOT_RESET` (R408). A received hot reset takes the link down and resets the port. -/
  | hotReset (p : Fin 2)
  /-- `LINK_UP` (R388). The PCIe link reaches L0. -/
  | linkUp (p : Fin 2) (speed : BitVec 3) (width : BitVec 3)
  /-- `LINK_DOWN` (R409). The link drops to DETECT or DISABLED, discarding the transmit queue and raising HIF FL0. -/
  | linkDown (p : Fin 2) (disabled : Bool)
  /-- `TRAIN_FAIL` (R413). 100 ms in TRAINING without L0 raises HIF FL0. -/
  | trainFail (p : Fin 2)
  /-- `CONFIG_REQUEST` (R389). A configuration request is answered, with retry status until CFG_READY. `i` is the double word's index, `be` the byte enables. -/
  | configRequest (p : Fin 2) (write : Bool) (i : BitVec 10) (be : BitVec 4) (v : Word)
  /-- `CFG_READY` (R389). A write of HIF_CTRL.CFG_READY lets the port answer configuration requests. -/
  | cfgReady (m : Master) (p : Fin 2) (on_ : Bool)
  /-- `BAR0_REQUEST` (R392). A host memory request to BAR0 is served through its slot's kind. `en`: a byte enable for each byte. -/
  | bar0Request (p : Fin 2) (write : Bool) (off : BitVec 18) (en : List Bool) (data : List Byte)
  /-- `BAR0_SLOT` (R392). A write of BAR0_SLOTs sets a slot's kind, or is refused with SEQ FL0. -/
  | bar0Slot (m : Master) (p : Fin 2) (n : Fin 64) (v : Word)
  /-- `INBOUND_WRITE` (R393). A posted write to BAR2 is translated through the windows and performed, or dropped. -/
  | inboundWrite (p : Fin 2) (off : BitVec 36) (data : List Byte)
  /-- `INBOUND_READ` (R396). A read of BAR2 is translated and completed after earlier posted writes. -/
  | inboundRead (p : Fin 2) (off : BitVec 36) (len : BitVec 13)
  /-- `DOORBELL_WRITE` (R397). A host doorbell write is checked, stored and made pending on its core. -/
  | doorbellWrite (p : Fin 2) (off : BitVec 12) (len : BitVec 4) (full : Bool) (v : Word)
  /-- `DOORBELL_CLAIM` (R398). A read of CLAIMc removes and returns the oldest pending doorbell of core c. -/
  | doorbellClaim (m : Master) (c : Fin 8)
  /-- `DB_VAL` (R398). A firmware write of DB_VAL sets the selected doorbell's value. -/
  | dbVal (m : Master) (v : BitVec 16)
  /-- `MSIX_SEND` (R400). A write of MSIX_SEND sends, pends or drops an MSI-X vector. -/
  | msixSend (m : Master) (p : Fin 2) (v : BitVec 8)
  /-- `PBA_SEND` (R400). A pending MSI-X vector is sent once no masking condition holds. -/
  | pbaSend (p : Fin 2) (v : BitVec 8)
  /-- `INTX_CHANGE` (R401). The INTA condition changes and Assert_INTA or Deassert_INTA is sent. -/
  | intxChange (p : Fin 2)
  /-- `CPL_TIMEOUT` (R402). A host read's completion times out, ending its descriptor READ_ERROR. -/
  | cplTimeout (c : Fin 32) (i : BitVec 8)
  /-- `D_STATE` (R403). The host changes the port's D-state. -/
  | dState (p : Fin 2) (d3 : Bool)
  /-- `L0P_NARROW` (R404). The transmit queue idle for IDLE µs requests a narrower L0p width. -/
  | l0pNarrow (p : Fin 2)
  /-- `PME_REQ` (R405). A write of PME.PME_REQ sends PM_PME or drives WAKE#. -/
  | pmeReq (m : Master) (p : Fin 2)
  /-- `BME_CLEAR` (R406). The host clears Bus Master Enable, aborting host-side DMA and pending interrupts. -/
  | bmeClear (p : Fin 2)
  /-- `FLR` (R407). The host initiates a Function Level Reset of the port. -/
  | flr (p : Fin 2)
  /-- `FLR_ACK` (R407). A write of HIF_CTRL.FLR_ACK completes the FLR. -/
  | flrAck (m : Master) (p : Fin 2)
  /-- `FLR_TMO` (R407). FLR_TMO after initiation the FLR completes on its own and raises HIF FL0. -/
  | flrTmo (p : Fin 2)
  /-- `REMOVED` (R410). PRSNT# high for 2 µs decides removal, raising PWR FL4 and starting the supply-loss sequence. -/
  | removed (p : Fin 2)
  /-- `MALFORMED_TLP` (R411). A malformed TLP is discarded and logged. -/
  | malformedTlp (p : Fin 2)
  /-- `POISONED_TLP` (R411). A poisoned write or completion is discarded without writing data. -/
  | poisonedTlp (p : Fin 2) (cpl : Option (Fin 32 × BitVec 8))
  /-- `UNSUPPORTED_REQUEST` (R411). An unsupported request is answered UR or dropped and logged. -/
  | unsupportedRequest (p : Fin 2) (posted : Bool)
  /-- `UNEXPECTED_COMPLETION` (R411). A completion matching no request is discarded and logged. -/
  | unexpectedCompletion (p : Fin 2)
  /-- `DOE_OBJECT` (R412). A DOE object arrives and is answered as Discovery or delivered to firmware. -/
  | doeObject (p : Fin 2) (ws : List Word)
  /-- `RX_DONE` (R412). A write of DOE_CTRL.RX_DONE frees the DOE receive page. -/
  | rxDone (m : Master) (p : Fin 2)
  /-- `DOE_TX` (R412). A write of DOE_TX sends a DOE response from the transmit page. -/
  | doeTx (m : Master) (p : Fin 2) (len : BitVec 11)
  /-- `DOE_ABORT` (R412). A DOE Abort from the host clears the mailbox and sets ABORTED. -/
  | doeAbort (p : Fin 2)
  /-- `FAULT_EVENT` (R419). FLT grades a fault event, records it and applies the actions of its level. `det` is a detection whose cause lies outside the model: page, FLT_STAT bit, sub-unit. -/
  | faultEvent (det : Option (Fin 352 × Fin 32 × Option (BitVec 8)))
  /-- `ACK` (R429). A write to ACK clears UNACK and the first-error record of the named classes. -/
  | ack (m : Master) (v : Word)
  /-- `UNFENCE` (R430). A write to UNFENCE checks and requests the unfencing of a page or sub-unit. -/
  | unfence (m : Master) (page : BitVec 9) (sub : Option (BitVec 8))
  /-- `UNFENCE_DONE` (R430). An accepted unfence completes and the unit returns to its post-unfence state. -/
  | unfenceDone
  /-- `CLR_DEGRADED` (R422). A write of DEV_CTRL.CLR_DEGRADED returns the device to NORMAL, or is refused. -/
  | clrDegraded (m : Master)
  /-- `WDOG_ENABLE` (R432). A write of WDOG_CFG with EN opens the first watchdog window. -/
  | wdogEnable (m : Master) (period : BitVec 16) (en : Bool)
  /-- `WDOG_KICK` (R432). A kick of WDOG_KICK opens a new window, or a bad kick raises DL FL0. -/
  | wdogKick (m : Master) (v : Word)
  /-- `WDOG_EXPIRED` (R432). The watchdog window closes without a kick, stopping ALIVE and raising DL FL3. -/
  | wdogExpired
  /-- `ALIVE_START` (R433). A write of ALIVE_CTRL.START by the boot-and-safety core starts the ALIVE toggle. -/
  | aliveStart (m : Master)
  /-- `XTAL_LOSS` (R439). The clock monitor finds no LREF edge and raises CLK FL4, putting the PLL in holdover. -/
  | xtalLoss
  /-- `LOCK_LOSS` (R439). The clock monitor finds a large phase error and raises CLK FL4, putting the PLL in holdover. -/
  | lockLoss
  /-- `DOM_REQ` (R446). A write of PWR.DOM_REQ requests or withdraws core, deep-decoder or key-store domains. -/
  | domReq (m : Master) (v : BitVec 17)
  /-- `DOMAIN_RAMP_START` (R443). A waiting domain request enters RAMP when a ramp place is free. -/
  | domainRampStart
  /-- `DOMAIN_UP` (R442). A domain finishes ramp, fill and test, releases isolation and sets POWER_ACK. -/
  | domainUp (d : Fin 141) (phase : Fin 3) (bad : Bool)
  /-- `DOMAIN_FAILED` (R447). A domain's switch is not good within twice its ramp time and it goes FAILED. -/
  | domainFailed (d : Fin 141)
  /-- `DOMAIN_OFF` (R445). A domain being powered down or withdrawn reaches off. -/
  | domainOff (d : Fin 141)
  /-- `TEMP_SAMPLE` (R448). Every 100 µs the junction sensors are read and thermal faults raised on thresholds. -/
  | tempSample (ts : List (BitVec 16))
  /-- `SUPPLY_LOSS_DECISION` (R449). A supply-loss cause held for 2 µs forms the decision td and raises PWR FL4. -/
  | supplyLossDecision (cause : Fin 5) (mv : BitVec 16) (rail : Fin 6)
  /-- `FUSE_READ` (R457). The fuses are read, setting SYS.CAP, port IDs and key material, or stopping on an uncorrectable row. `ue` says that a row is uncorrectable. -/
  | fuseRead (ue : Bool)
  /-- `CORE_HOLD` (R471). A write of SYS.CORE_HOLD holds or releases application cores. -/
  | coreHold (m : Master) (v : BitVec 8)
  /-- `NOR_PROBE` (R474). At NVS power-up the controller probes each enabled NOR device. -/
  | norProbe (ok0 ok1 : Bool)
  /-- `PROBE_DONE` (R474). Probing ends with STATE READY or FAILED. -/
  | probeDone
  /-- `NOR_READ` (R475). A read of the NOR window is queued, served or refused. -/
  | norRead (m : Master) (write : Bool) (addr : BitVec 48) (len : BitVec 7)
  /-- `NOR_READ_DONE` (R476). A queued NOR read is served once its device is free. -/
  | norReadDone (lost : Bool)
  /-- `PROGRAM` (R478). OP_CMD PROGRAM programs buffer data into the NOR page by page. -/
  | program (m : Master)
  /-- `ERASE` (R478). OP_CMD ERASE erases one NOR sector. -/
  | erase (m : Master)
  /-- `ERASE_BR` (R485). OP_CMD ERASE_BR erases a sector inside a journal bracket. -/
  | eraseBr (m : Master)
  /-- `NVS_SUSPEND` (R481). OP_CMD SUSPEND requests suspension of the running erase. -/
  | nvsSuspend (m : Master)
  /-- `NVS_RESUME` (R481). OP_CMD RESUME resumes the suspended erase. -/
  | nvsResume (m : Master)
  /-- `BLANK_CHECK` (R478). OP_CMD BLANK_CHECK reads a sector and reports whether it is blank. -/
  | blankCheck (m : Master)
  /-- `JSCAN` (R487). OP_CMD JSCAN scans the journal and adds suspect sectors. -/
  | jscan (m : Master)
  /-- `SUSPEND_ISSUE` (R481). A held suspend is issued once erase progress reaches T_RUN_MIN. -/
  | suspendIssue
  /-- `AUTO_RESUME` (R476). An auto-suspended erase resumes when no read of its device is queued. -/
  | autoResume
  /-- `STATUS_POLL` (R480). The controller polls the device status after a page or erase. -/
  | statusPoll (status : BitVec 8) (complete wrong : Bool)
  /-- `NOR_OP_TIMEOUT` (R480). WIP stays set beyond its time-out, and the operation is retried or fails. -/
  | norOpTimeout
  /-- `NOR_OP_DONE` (R479). An NVS operation ends OK, FAILED or ABORTED. -/
  | norOpDone
  /-- `WP_WRITE` (R483). A write of WP0–WP511 sets or, before WP_LOCK, clears sector protection. -/
  | wpWrite (m : Master) (n : Fin 512) (v : Word)
  /-- `WP_LOCK` (R483). A write of NVS_CTRL.WP_LOCK locks protection so it can only be added. -/
  | wpLock (m : Master) (v : Bool)
  /-- `FUSE_CMD` (R495). A keyed write of FUSE_CMD programs a fuse row, or ends DENIED. -/
  | fuseCmd (m : Master) (row : Fin 128) (key : BitVec 16)
  /-- `FUSE_PROG_DONE` (R495). Fuse programming ends OK or FAILED. -/
  | fuseProgDone (back : BitVec 64)
  /-- `HASH` (R500). A SEC job HASH computes SHA-512 of a buffer range. -/
  | hash (m : Master)
  /-- `VERIFY` (R500). A SEC job VERIFY checks an ECDSA P-521 signature. -/
  | verify (m : Master)
  /-- `SIGN_ID` (R500). A SEC job SIGN_ID signs a digest with the identity key. -/
  | signId (m : Master)
  /-- `EXTEND` (R499). A SEC job EXTEND extends a measurement, refused LOCKED for locked ones. -/
  | extend (m : Master) (meas : Fin 4)
  /-- `JOB_DONE` (R500). A SEC job ends with its RESULT and JOB_DONE. -/
  | jobDone
  /-- `RNG_HEALTH` (R502). A failed TRNG health test clears READY, raises SEC FL1 and fences SEC. -/
  | rngHealth (pass : Bool)
  /-- `DEBUG_UNLOCK` (R503). A signature written through the JTAG unlock register unlocks debug or counts a failure. -/
  | debugUnlock (pub sig : List Byte)
  /-- `DBG_DISABLE` (R503). A write of DBG_CTRL.DISABLE blocks debug unlock until reset. -/
  | dbgDisable (m : Master)
  /-- `KEY_LOAD` (R505). KEY_CMD LOAD loads a plaintext XTS key pair into a slot. -/
  | keyLoad (m : Master) (slot : Fin 64)
  /-- `KEY_LOAD_WRAPPED` (R505). KEY_CMD LOAD_WRAPPED unwraps and loads an XTS key pair. -/
  | keyLoadWrapped (m : Master) (slot : Fin 64)
  /-- `KEY_ERASE` (R505). KEY_CMD ERASE empties one key slot unless in use. -/
  | keyErase (m : Master) (slot : Fin 64)
  /-- `KEY_ERASE_ALL` (R505). KEY_CMD ERASE_ALL empties every key slot unless any is in use. -/
  | keyEraseAll (m : Master)
  /-- `SMB_WRITE_RECEIVED` (R526). A write transaction to the module's address is captured into SMB_RXBUF. -/
  | smbWriteReceived (addr : BitVec 7) (data : List Byte) (pecOk : Bool)
  /-- `SMB_TARGET_READ` (R526). A target read is answered from SMB_RDBUF. -/
  | smbTargetRead (addr : BitVec 7) (n : BitVec 9)
  /-- `SMB_TX` (R526). A write of SMB_TX starts a controller write transaction. -/
  | smbTx (m : Master) (len : BitVec 9) (dest : BitVec 7)
  /-- `SMB_TX_END` (R525). A transmission ends OK, NAK, ARB_LOST or TIMEOUT. -/
  | smbTxEnd (r : Fin 4)
  /-- `SMB_RX_DONE` (R525). A write of SMB_RX_DONE frees the receive buffer. -/
  | smbRxDone (m : Master)
  /-- `SMB_TIMEOUT` (R524). A 25 ms clock-low time-out releases the bus and abandons the transaction. -/
  | smbTimeout
  /-- `DRAM_PHY_FAULT` (R331). A DRAM PHY fault or a lost lock on WCK raises MEM FL1 on the channel. -/
  | dramPhyFault (c : Fin 12)
  /-- `SUPPLY_CAUSE_ARMED` (R530). A supply-loss input seen good after the motion-die power-on reset arms its cause, so that it can later form a decision. -/
  | supplyCauseArmed (cause : Fin 4)
  /-- `ALIVE_EDGE` (R433). Once started, ALIVE rises at every multiple of 2,400,000 ticks and falls 1,200,000 ticks later. -/
  | aliveEdge
  /-- `MSIX_TABLE_ACCESS` (R391). A host memory request to BAR4 reads or writes the MSI-X table or PBA, changing vector addresses, data and masks. -/
  | msixTableAccess (p : Fin 2) (write : Bool) (off : BitVec 13) (len : BitVec 4) (data : List Byte)
deriving DecidableEq, Repr

end Sys2Proof
end

