-- ==== Sys2Proof/WellFormed.lean ====
section
/-! DEFINITION. Well-formed commands: what the spec asks of an operand beyond its type. A command that is not well-formed
still has a meaning; no sender that keeps to the spec gives one. -/

namespace Sys2Proof

/-- Data that a memory request carries: as many bytes as it writes, none where it reads, at least one byte and within one
64 B line (R32, R329). -/
def lineRequest (write : Bool) (addr : BitVec 48) (len : BitVec 7) (data : List Byte) : Bool :=
  decide (1 ≤ len.toNat) && decide (addr.toNat % 64 + len.toNat ≤ 64) && decide (data.length = if write then len.toNat else 0)

/-- A command keeps the spec's bounds: the samples of one adaptation block come in pairs, at most 512 of each reader (R92,
R97), with no more symbols than sample instants (R122); a fragment holds at most 1,048,576 ft of samples (R82); an actuator has twelve
heads (R243) and the logic die eight sensors (R448); twelve DRAM channels train (R327); a memory request lies in one line and carries the bytes it writes (R329,
R357); a BAR0 request has a byte enable for each byte (R392) and an MSI-X access the bytes it writes (R391); only a
successful completion carries data (R369); a posted write is not empty (R393); an unlock carries a point of 132 B and a
signature of 132 B (R503). -/
def wellFormed (i : Instr) : Bool :=
  match i with
  | .adaptBlock _ xa xb errs => decide (xa.length = xb.length) && decide (xa.length ≤ 512) && decide (errs.length ≤ xa.length)
  | .rgClose _ errs => decide (errs.length ≤ 4194304)
  | .servoSample _ rdA rdB => decide (rdA.length ≤ 12) && decide (rdB.length ≤ 12)
  | .trainingDone _ eyes => decide (eyes.length ≤ 12)
  | .bufferRequest _ w addr len data => lineRequest w addr len data
  | .mdcRequest _ w addr len data _ => lineRequest w addr len data
  | .hostCompletion _ _ status data => decide (status.val = 0 ∨ data = [])
  | .bar0Request _ w _ be data => decide (1 ≤ be.length) && (!w || decide (data.length = be.length))
  | .inboundWrite _ _ data => decide (data ≠ [])
  | .tempSample ts => decide (ts.length = 8)
  | .debugUnlock pub sig => decide (pub.length = 132) && decide (sig.length = 132)
  | .msixTableAccess _ w _ len data => decide (data.length = if w then len.toNat else 0)
  | _ => true

end Sys2Proof
end

