-- ==== Sys2Proof/Decode.lean ====
section
/-! DEFINITION. Words that spell commands. No row of the table of commands gives bits, so no word spells one. -/

namespace Sys2Proof

/-- The command that an `nbits`-bit word spells by the table's bits: none. -/
def decodeTableWord (nbits w : Nat) : Option Instr :=
  let _ := nbits
  let _ := w
  none

end Sys2Proof
end

