-- ==== Sys2Proof/Config.lean ====
section
/-! DEFINITION. What an implementation fixes and what the spec leaves open. A free value is opaque: no proof can see what it
is, so a statement about it holds for every value. -/

namespace Sys2Proof.Config

/-- DESIGN CHOICE (log 3). The value the spec does not state, one for each value of the state's plain counter `free`,
which every use advances. -/
opaque freeWord : Nat → Word

/-- DESIGN CHOICE (log 5). Byte order of the CRC and of ADDR_TAG in the internal field of R118. -/
opaque internalBigEndian : Bool

/-- DESIGN CHOICE (log 10). Read-only bits that PCI Express Base 6.0 gives a double word of the capability structures of R390, where the
spec names no value: by port and double-word index. -/
opaque pcieReadOnly : Nat → Nat → Word

/-- DESIGN CHOICE (log 11). Byte order of a fuse field where it is hashed or used as a key (R497, R498, R503). -/
opaque fuseBigEndian : Bool

/-- DESIGN CHOICE (log 116). The 8-tap, 64-phase interpolation filter of R122, whose coefficients the spec does not give: phase, and the
eight samples about the instant, newest first (none: a sample outside the gate). -/
opaque interpolate : Nat → List (Option Int) → Int

/-- DESIGN CHOICE (log 117). Whether a value that the spec rounds without saying how goes to its neighbour above: the place of the
rounding, and the value. -/
opaque roundsUp : Nat → Rat → Bool

/-- DESIGN CHOICE (log 128). The parity bits of R117, whose parity-check matrices the spec does not give: format, code set, the
information bytes, the index of the bit. -/
opaque parityBit : Nat → Nat → List Byte → Nat → Bool

/-- DESIGN CHOICE (log 6). The SRAM bank group, modulo 16, of the 64 B line with this index (R333): the spec gives no mapping. -/
opaque bankGroup : Nat → Nat

end Sys2Proof.Config
end

