-- ==== Sys2Proof/Machine/Fields.lean ====
section
/-! DEFINITION. The register fields of the spec's register tables, by page: each a byte offset in its page, a lowest bit and a
width. A register whose bits have no names of their own stands as one field. An argument is the index of the spec's
numbered registers (`a`, `h`, `k`, …). -/

namespace Sys2Proof.Machine

/-- A register field: byte offset in the page, lowest bit, width. -/
structure Fld where
  off : Nat
  lo : Nat
  wd : Nat
deriving DecidableEq, Repr

namespace HDR
-- R38
abbrev CTRL_ENABLE : Fld := ⟨8, 0, 1⟩
abbrev IRQ_EN : Fld := ⟨0x14, 0, 32⟩
abbrev IRQ_PEND : Fld := ⟨0x18, 0, 32⟩
abbrev FENCE_FENCED : Fld := ⟨0x24, 0, 1⟩
abbrev FENCE_LEVEL : Fld := ⟨0x24, 1, 3⟩
abbrev FENCE_CLASS : Fld := ⟨0x24, 4, 4⟩
abbrev FENCE_SOURCE : Fld := ⟨0x24, 8, 8⟩
abbrev FENCE_COUNT : Fld := ⟨0x24, 16, 16⟩
abbrev SHADOW_CTL_ARM : Fld := ⟨0x28, 0, 1⟩
abbrev SHADOW_CTL_SRC : Fld := ⟨0x28, 1, 2⟩
abbrev SHADOW_CTL_DEFERRED : Fld := ⟨0x28, 3, 1⟩
abbrev SHADOW_CTL_LATE : Fld := ⟨0x28, 4, 1⟩
abbrev SHADOW_CTL_EPOCH : Fld := ⟨0x28, 8, 8⟩
abbrev SHADOW_CTL_VIEW : Fld := ⟨0x28, 16, 1⟩
abbrev LOCK_LOCK : Fld := ⟨0x30, 0, 1⟩
abbrev LOCK_FORCE_LOCK : Fld := ⟨0x30, 1, 1⟩
end HDR

namespace SYS
-- R51
abbrev IRQ_ROUTE_TARGET (i : Nat) : Fld := ⟨0x400 + 4 * i, 0, 4⟩
abbrev IRQ_ROUTE_PRIORITY (i : Nat) : Fld := ⟨0x400 + 4 * i, 4, 4⟩
abbrev IRQ_THR_THRESHOLD (i : Nat) : Fld := ⟨0x808 + 0x10 * i, 0, 4⟩
-- R471
abbrev BOOT_STAT_STAGE : Fld := ⟨0x48, 0, 4⟩
abbrev BOOT_STAT_ERROR : Fld := ⟨0x48, 8, 4⟩
abbrev BOOT_STAT_WARM_REFUSED : Fld := ⟨0x48, 29, 1⟩
abbrev BOOT_STAT_DONE : Fld := ⟨0x48, 31, 1⟩
abbrev CORE_HOLD : Fld := ⟨0x4c, 0, 32⟩
abbrev CORE_HOLD_HOLD : Fld := ⟨0x4c, 0, 8⟩
abbrev WARM_CNT : Fld := ⟨0x5c, 0, 32⟩
-- R525
abbrev SMB_CTRL_EN : Fld := ⟨0x100, 0, 1⟩
abbrev SMB_CTRL_PEC : Fld := ⟨0x100, 3, 1⟩
abbrev SMB_CTRL_ADDR : Fld := ⟨0x100, 8, 7⟩
abbrev SMB_STAT_RX_READY : Fld := ⟨0x104, 0, 1⟩
abbrev SMB_STAT_RX_LEN : Fld := ⟨0x104, 8, 9⟩
abbrev SMB_STAT_PEC_BAD : Fld := ⟨0x104, 17, 1⟩
abbrev SMB_STAT_OVF : Fld := ⟨0x104, 18, 1⟩
abbrev SMB_STAT_TX_BUSY : Fld := ⟨0x104, 20, 1⟩
abbrev SMB_STAT_TX_RESULT : Fld := ⟨0x104, 24, 4⟩
abbrev SMB_TO_CNT : Fld := ⟨0x110, 0, 32⟩
abbrev SMB_NAK_CNT : Fld := ⟨0x114, 0, 32⟩
end SYS

namespace CLK
-- R452
abbrev PLL_STAT_LOCKED : Fld := ⟨0x40, 0, 1⟩
abbrev PLL_STAT_HOLDOVER : Fld := ⟨0x40, 1, 1⟩
abbrev PLL_STAT_FURROW_SUSPECT : Fld := ⟨0x40, 2, 1⟩
abbrev PLL_STAT_LOCK_TIME : Fld := ⟨0x40, 16, 16⟩
abbrev LOSS_LOG_CAUSE : Fld := ⟨0x44, 0, 2⟩
abbrev LOSS_TIME : Fld := ⟨0x48, 0, 32⟩
end CLK

namespace PWR
-- R453
abbrev DOM_REQ : Fld := ⟨0x40, 0, 32⟩
abbrev PWR_STAT_REFUSED : Fld := ⟨0x48, 24, 1⟩
abbrev DOM_SEL_DOM : Fld := ⟨0x4c, 0, 8⟩
abbrev RAMP_MAX : Fld := ⟨0x54, 0, 4⟩
abbrev TEMP_SENSOR : Fld := ⟨0x80, 16, 3⟩
abbrev TEMP_MAX : Fld := ⟨0x84, 0, 32⟩
abbrev THM_CFG_WARN : Fld := ⟨0x88, 0, 8⟩
abbrev THM_CFG_HIGH : Fld := ⟨0x88, 8, 8⟩
abbrev THM_CFG_CRIT : Fld := ⟨0x88, 16, 8⟩
end PWR

namespace FLT
-- R436
abbrev DEV_STAT_LEVEL : Fld := ⟨0x40, 0, 3⟩
abbrev DEV_STAT_CLR_REFUSED : Fld := ⟨0x40, 8, 1⟩
abbrev DEV_STAT_DEG_CLASSES : Fld := ⟨0x40, 16, 16⟩
abbrev UNACK : Fld := ⟨0x48, 0, 32⟩
abbrev UNFENCE_STAT_DONE : Fld := ⟨0x54, 31, 1⟩
abbrev UNFENCE_STAT_BUSY_REFUSED : Fld := ⟨0x54, 8, 1⟩
abbrev UNFENCE_STAT_RESULT : Fld := ⟨0x54, 0, 4⟩
abbrev EVENT_CNT : Fld := ⟨0x58, 0, 32⟩
abbrev HIST_WR_NEXT_SEQ : Fld := ⟨0x5c, 0, 16⟩
abbrev FORCE_SUB : Fld := ⟨0x60, 0, 32⟩
abbrev WDOG_CFG_PERIOD : Fld := ⟨0x64, 0, 16⟩
abbrev WDOG_CFG_EN : Fld := ⟨0x64, 31, 1⟩
abbrev WDOG_STAT_RUNNING : Fld := ⟨0x6c, 16, 1⟩
abbrev WDOG_STAT_EXPIRED : Fld := ⟨0x6c, 17, 1⟩
abbrev WDOG_STAT_BAD_KICK : Fld := ⟨0x6c, 18, 1⟩
abbrev ALIVE_STAT_RUNNING : Fld := ⟨0x74, 0, 1⟩
abbrev ALIVE_STAT_LEVEL : Fld := ⟨0x74, 1, 1⟩
abbrev ALIVE_STAT_STOPPED : Fld := ⟨0x74, 2, 1⟩
abbrev ALIVE_STAT_CAUSE : Fld := ⟨0x74, 4, 2⟩
abbrev ALIVE_STOP : Fld := ⟨0x78, 0, 32⟩
abbrev SAFE_SEQ : Fld := ⟨0x7c, 0, 16⟩
abbrev DEG_SEQ : Fld := ⟨0x80, 0, 16⟩
end FLT

namespace FUR
-- R72
abbrev TRK_CTRL_TRACK_EN : Fld := ⟨0x50, 0, 1⟩
abbrev TRK_CTRL_REF_MASK : Fld := ⟨0x50, 8, 8⟩
abbrev WEDGES : Fld := ⟨0x54, 0, 32⟩
abbrev WEDGES_N : Fld := ⟨0x54, 0, 11⟩
abbrev NOM_REV : Fld := ⟨0x58, 0, 32⟩
abbrev TRK_GAIN_KP : Fld := ⟨0x5c, 0, 16⟩
abbrev TRK_GAIN_KI : Fld := ⟨0x5c, 16, 16⟩
abbrev LOCK_CFG_LOCK_THR : Fld := ⟨0x60, 0, 8⟩
abbrev LOCK_CFG_UNLOCK_THR : Fld := ⟨0x60, 8, 8⟩
abbrev LOCK_CFG_LOCK_COUNT : Fld := ⟨0x60, 16, 8⟩
abbrev LOCK_CFG_HOLD_MAX : Fld := ⟨0x60, 24, 8⟩
abbrev TRK_STAT_STATE : Fld := ⟨0x64, 0, 3⟩
abbrev TRK_STAT_NO_LOCK : Fld := ⟨0x64, 4, 1⟩
abbrev TRK_STAT_REF_ACTIVE : Fld := ⟨0x64, 8, 8⟩
abbrev PHASE_ERR : Fld := ⟨0x68, 0, 16⟩
abbrev ERR_MAX : Fld := ⟨0x6c, 0, 16⟩
abbrev PERIOD : Fld := ⟨0x70, 0, 32⟩
abbrev MISS_WEDGES : Fld := ⟨0x74, 0, 32⟩
abbrev PIVOT_TRIM (i : Nat) : Fld := ⟨0x80 + 4 * i, 0, 16⟩
end FUR

namespace DRL
-- R88
abbrev Q_STAT_PENDING : Fld := ⟨0x54, 0, 10⟩
abbrev Q_STAT_WPAIRS : Fld := ⟨0x54, 16, 10⟩
abbrev Q_CTRL_FLUSH : Fld := ⟨0x58, 0, 1⟩
abbrev Q_CTRL_HOLD_ENQ : Fld := ⟨0x58, 1, 1⟩
abbrev STAGE_COUNT_COUNT : Fld := ⟨0x60, 0, 6⟩
abbrev RET_BASE_LO : Fld := ⟨0x68, 4, 28⟩
abbrev RET_BASE_HI : Fld := ⟨0x6c, 0, 16⟩
abbrev RET_SIZE_LOG2 : Fld := ⟨0x70, 0, 4⟩
abbrev RET_WR : Fld := ⟨0x74, 0, 32⟩
abbrev RET_RD : Fld := ⟨0x78, 0, 32⟩
abbrev RET_CTRL_MODE : Fld := ⟨0x7c, 0, 1⟩
abbrev RET_LOST : Fld := ⟨0x80, 0, 32⟩
abbrev MISS_COUNT : Fld := ⟨0x84, 0, 32⟩
abbrev LAST_MISS : Fld := ⟨0x88, 0, 32⟩
end DRL

namespace SPN
-- R321
abbrev SPN_STAT_STATE : Fld := ⟨0x44, 0, 4⟩
abbrev SPN_STAT_AT_SPEED : Fld := ⟨0x44, 4, 1⟩
abbrev SPN_STAT_FINE : Fld := ⟨0x44, 5, 1⟩
abbrev SPN_STAT_STEP : Fld := ⟨0x44, 8, 3⟩
abbrev SPN_STAT_REFUSE : Fld := ⟨0x44, 12, 3⟩
abbrev SPN_STAT_CHOP_ON : Fld := ⟨0x44, 16, 1⟩
abbrev SPN_STAT_REGEN_RED : Fld := ⟨0x44, 17, 1⟩
abbrev START_STAT_OUTCOME : Fld := ⟨0x48, 0, 4⟩
abbrev START_STAT_DIR_SEEN : Fld := ⟨0x48, 4, 2⟩
abbrev START_STAT_SPEED_SEEN : Fld := ⟨0x48, 16, 16⟩
abbrev SPN_CFG_WAVE : Fld := ⟨0x4c, 0, 1⟩
abbrev SPN_CFG_SPEED : Fld := ⟨0x4c, 1, 1⟩
abbrev SPN_CFG_EDGE_W : Fld := ⟨0x4c, 16, 8⟩
abbrev SPN_CFG_FLOAT_W : Fld := ⟨0x4c, 24, 8⟩
abbrev SPN_CFG_ADV : Fld := ⟨0x4c, 8, 8⟩
abbrev CATCH_CFG_CATCH_PCT : Fld := ⟨0x50, 0, 8⟩
abbrev CATCH_CFG_STOP_BEMF : Fld := ⟨0x50, 8, 16⟩
abbrev START_CFG_ALIGN_T : Fld := ⟨0x54, 0, 8⟩
abbrev START_CFG_ALIGN_I : Fld := ⟨0x54, 8, 8⟩
abbrev START_CFG_RAMP_TMO : Fld := ⟨0x54, 16, 8⟩
abbrev START_CFG_HANDOFF : Fld := ⟨0x54, 24, 8⟩
abbrev TQ_LIM_DRIVE_I : Fld := ⟨0x58, 0, 16⟩
abbrev TQ_LIM_BRAKE_I : Fld := ⟨0x58, 16, 16⟩
abbrev GAIN_C_KP : Fld := ⟨0x5c, 0, 16⟩
abbrev GAIN_C_KI : Fld := ⟨0x5c, 16, 16⟩
abbrev GAIN_F_KP : Fld := ⟨0x60, 0, 16⟩
abbrev GAIN_F_KI : Fld := ⟨0x60, 16, 16⟩
abbrev PWM_CFG_T_WIN_MIN : Fld := ⟨0x64, 0, 8⟩
abbrev PWM_CFG_ZC_WIN : Fld := ⟨0x64, 8, 8⟩
abbrev PWM_CFG_SYNC_MISS : Fld := ⟨0x64, 16, 4⟩
abbrev VM_LIM1_VM_REGEN_LIMIT : Fld := ⟨0x68, 0, 16⟩
abbrev VM_LIM1_VM_CHOP_ON : Fld := ⟨0x68, 16, 16⟩
abbrev VM_LIM2_VM_CHOP_OFF : Fld := ⟨0x6c, 0, 16⟩
abbrev VM_LIM2_VM_ABS : Fld := ⟨0x6c, 16, 16⟩
abbrev CHOP_CFG_CHOP_I_MIN : Fld := ⟨0x70, 0, 16⟩
abbrev CHOP_CFG_REGEN_MIN : Fld := ⟨0x70, 16, 8⟩
abbrev CHOP_CFG_REGEN_END : Fld := ⟨0x70, 24, 8⟩
abbrev REV_PERIOD : Fld := ⟨0x74, 0, 32⟩
abbrev SPD_ERR : Fld := ⟨0x78, 0, 16⟩
abbrev SPD_ERR_MAX : Fld := ⟨0x7c, 0, 32⟩
abbrev TQ : Fld := ⟨0x80, 0, 16⟩
abbrev SHIFT_STAT_MAX_SHIFT : Fld := ⟨0x84, 0, 12⟩
abbrev SHIFT_STAT_SHIFTED : Fld := ⟨0x84, 16, 8⟩
abbrev SHIFT_STAT_NARROW : Fld := ⟨0x84, 24, 8⟩
abbrev SHIFT_CNT : Fld := ⟨0x88, 0, 32⟩
abbrev NARROW_CNT : Fld := ⟨0x8c, 0, 32⟩
abbrev ZC_TIME : Fld := ⟨0x90, 0, 32⟩
abbrev ZC_MISS_CNT : Fld := ⟨0x94, 0, 32⟩
abbrev VM_MEAS : Fld := ⟨0x98, 0, 16⟩
abbrev VM_PEAK : Fld := ⟨0x9c, 0, 16⟩
abbrev CHOP_MEAS : Fld := ⟨0xa0, 0, 16⟩
abbrev OVR_STAT_LAST_OP : Fld := ⟨0xa4, 0, 4⟩
abbrev OVR_STAT_APPLIED : Fld := ⟨0xa4, 16, 16⟩
abbrev OVR_IGN : Fld := ⟨0xa8, 0, 32⟩
abbrev BRAKE_LOG_CAUSE : Fld := ⟨0xac, 0, 4⟩
abbrev BRAKE_LOG_SPEED_AT : Fld := ⟨0xac, 16, 16⟩
end SPN

namespace MOT
-- R286
abbrev MA_CTRL_BOOST_EN : Fld := ⟨0x40, 0, 1⟩
abbrev MA_STAT_BOOST_OK : Fld := ⟨0x44, 0, 1⟩
abbrev SHOCK_THR (i : Nat) : Fld := ⟨0x48 + 4 * i, 0, 10⟩
abbrev RET_CFG_RET_VEL : Fld := ⟨0x70, 0, 8⟩
abbrev RET_CFG_PUSH_V : Fld := ⟨0x70, 8, 8⟩
abbrev SHOCK_CFG_EN : Fld := ⟨0x58, 0, 4⟩
abbrev SHOCK_STAT_ABOVE : Fld := ⟨0x5c, 0, 4⟩
abbrev SHOCK_PEAK (i : Nat) : Fld := ⟨0x60 + 4 * i, 0, 10⟩
abbrev RET_TIME_T1 : Fld := ⟨0x74, 0, 16⟩
abbrev RET_TIME_T2 : Fld := ⟨0x74, 16, 16⟩
abbrev RET_LOG_CAUSE : Fld := ⟨0x78, 0, 4⟩
abbrev RET_LOG_STOP_SEEN : Fld := ⟨0x78, 8, 8⟩
abbrev RET_LOG_VHOLD_MIN : Fld := ⟨0x78, 16, 16⟩
-- R454
abbrev SUP_CFG_UV12 : Fld := ⟨0x200, 0, 16⟩
abbrev SUP_CFG_UV5 : Fld := ⟨0x200, 16, 16⟩
abbrev SUP_CTRL_SGOOD_EN : Fld := ⟨0x204, 0, 1⟩
abbrev SUP_CTRL_RAIL_EN : Fld := ⟨0x204, 1, 1⟩
abbrev SUP_STAT_VIN12_OK : Fld := ⟨0x208, 0, 1⟩
abbrev SUP_STAT_V5_OK : Fld := ⟨0x208, 1, 1⟩
abbrev SUP_STAT_SGOOD : Fld := ⟨0x208, 2, 1⟩
abbrev SUP_STAT_PDIS : Fld := ⟨0x208, 3, 1⟩
abbrev SUP_STAT_RAILS_OK : Fld := ⟨0x208, 4, 6⟩
abbrev SUP_STAT_LOSS : Fld := ⟨0x208, 16, 1⟩
abbrev VIN12_MEAS : Fld := ⟨0x20c, 0, 16⟩
abbrev V5_MEAS : Fld := ⟨0x210, 0, 16⟩
abbrev VHOLD_MEAS : Fld := ⟨0x214, 0, 16⟩
abbrev LOSS_LOG_CAUSE : Fld := ⟨0x218, 0, 3⟩
abbrev LOSS_LOG_CAUSES : Fld := ⟨0x218, 8, 7⟩
abbrev LOSS_TIME : Fld := ⟨0x21c, 0, 32⟩
abbrev VIN12_MIN : Fld := ⟨0x220, 0, 32⟩
end MOT

namespace MOTA
-- R287
abbrev RAMP_STAT_STATE (j : Nat) : Fld := ⟨0x104 + 0x20 * j, 0, 3⟩
abbrev RAMP_STAT_REFUSED (j : Nat) : Fld := ⟨0x104 + 0x20 * j, 3, 1⟩
abbrev RAMP_STAT_HOLD_CODE (j : Nat) : Fld := ⟨0x104 + 0x20 * j, 16, 16⟩
abbrev VCM_CFG_ISCALE (j : Nat) : Fld := ⟨0x108 + 0x20 * j, 0, 2⟩
abbrev VCM_CFG_BRIDGE_EN (j : Nat) : Fld := ⟨0x108 + 0x20 * j, 4, 1⟩
abbrev VCM_CFG_REF_K (j : Nat) : Fld := ⟨0x108 + 0x20 * j, 8, 4⟩
abbrev RCOIL (j : Nat) : Fld := ⟨0x10c + 0x20 * j, 0, 16⟩
abbrev VEL_CFG_LOAD_VEL (j : Nat) : Fld := ⟨0x110 + 0x20 * j, 0, 8⟩
abbrev VEL_CFG_UNLOAD_VEL (j : Nat) : Fld := ⟨0x110 + 0x20 * j, 8, 8⟩
abbrev VEL_CFG_STOP_VEL (j : Nat) : Fld := ⟨0x110 + 0x20 * j, 16, 8⟩
abbrev RAMP_TIME_RAMP_TMO (j : Nat) : Fld := ⟨0x114 + 0x20 * j, 0, 16⟩
abbrev RAMP_TIME_PUSH_T (j : Nat) : Fld := ⟨0x114 + 0x20 * j, 16, 16⟩
abbrev PARK_CODE_PUSH (j : Nat) : Fld := ⟨0x118 + 0x20 * j, 0, 16⟩
abbrev PARK_CODE_HOLD (j : Nat) : Fld := ⟨0x118 + 0x20 * j, 16, 16⟩
end MOTA

namespace NVS
-- R492
abbrev XSPI_CFG_DEVS : Fld := ⟨0x40, 0, 1⟩
abbrev XSPI_CFG_SIZE : Fld := ⟨0x40, 1, 3⟩
abbrev STS_CFG_WIP_BIT : Fld := ⟨0x50, 0, 3⟩
abbrev STS_CFG_ERR_MASK : Fld := ⟨0x50, 8, 8⟩
abbrev NVS_CTRL_AUTO_SUSP : Fld := ⟨0x54, 0, 1⟩
abbrev NVS_CTRL_WP_LOCK : Fld := ⟨0x54, 1, 1⟩
abbrev NVS_STAT_STATE : Fld := ⟨0x58, 0, 3⟩
abbrev NVS_STAT_DEV_OK : Fld := ⟨0x58, 4, 2⟩
abbrev NVS_STAT_OP : Fld := ⟨0x58, 8, 3⟩
abbrev NVS_STAT_SUSP : Fld := ⟨0x58, 12, 1⟩
abbrev NVS_STAT_SUSP_HELD : Fld := ⟨0x58, 13, 1⟩
abbrev NVS_STAT_AUTO : Fld := ⟨0x58, 14, 1⟩
abbrev NVS_STAT_JRNL : Fld := ⟨0x58, 16, 2⟩
abbrev OP_ADDR : Fld := ⟨0x5c, 0, 30⟩
abbrev OP_SRC_LO : Fld := ⟨0x60, 0, 32⟩
abbrev OP_SRC_HI : Fld := ⟨0x64, 0, 16⟩
abbrev OP_LEN : Fld := ⟨0x68, 0, 17⟩
abbrev OP_STAT_RESULT : Fld := ⟨0x70, 0, 4⟩
abbrev OP_STAT_STATUS : Fld := ⟨0x70, 4, 4⟩
abbrev OP_STAT_BLANK : Fld := ⟨0x70, 8, 1⟩
abbrev OP_STAT_RETRIED : Fld := ⟨0x70, 9, 1⟩
abbrev OP_STAT_DONE : Fld := ⟨0x70, 31, 1⟩
abbrev T_RUN_MIN : Fld := ⟨0x74, 0, 16⟩
abbrev OP_TMO_PROG_TMO : Fld := ⟨0x78, 0, 8⟩
abbrev OP_TMO_ERASE_TMO : Fld := ⟨0x78, 16, 8⟩
abbrev JSEQ : Fld := ⟨0x7c, 0, 32⟩
abbrev JGEN_GEN : Fld := ⟨0x80, 0, 16⟩
abbrev JGEN_ACTIVE : Fld := ⟨0x80, 16, 1⟩
abbrev SUSP_CNT : Fld := ⟨0x84, 0, 15⟩
abbrev SUSPECT_RD : Fld := ⟨0xcc, 0, 32⟩
abbrev RETRY_CNT : Fld := ⟨0xd0, 0, 32⟩
abbrev TORN_CNT : Fld := ⟨0xd4, 0, 32⟩
end NVS

namespace SEC
-- R508
abbrev LC_STAT_STATE : Fld := ⟨0x40, 0, 2⟩
abbrev LC_STAT_MIN_VERSION : Fld := ⟨0x40, 8, 7⟩
abbrev FUSE_SEL : Fld := ⟨0x54, 0, 32⟩
abbrev FUSE_PROG_LO : Fld := ⟨0x60, 0, 32⟩
abbrev FUSE_PROG_HI : Fld := ⟨0x64, 0, 32⟩
abbrev JOB_ADDR_LO : Fld := ⟨0x70, 6, 26⟩
abbrev JOB_ADDR_HI : Fld := ⟨0x74, 0, 16⟩
abbrev JOB_STAT_RESULT : Fld := ⟨0x7c, 0, 4⟩
abbrev RNG_STAT_READY : Fld := ⟨0x84, 0, 1⟩
abbrev RNG_STAT_HEALTH_FAIL : Fld := ⟨0x84, 1, 1⟩
abbrev DBG_STAT_UNLOCKED : Fld := ⟨0x88, 0, 1⟩
abbrev DBG_STAT_DISABLED : Fld := ⟨0x88, 1, 1⟩
abbrev DBG_STAT_FAILS : Fld := ⟨0x88, 4, 4⟩
abbrev DBG_CTRL_DISABLE : Fld := ⟨0x8c, 0, 1⟩
abbrev ID_STAT_VALID : Fld := ⟨0x90, 0, 1⟩
end SEC

namespace XTS
-- R509
abbrev SLOT_VALID_LO : Fld := ⟨0x90, 0, 32⟩
abbrev SLOT_VALID_HI : Fld := ⟨0x94, 0, 32⟩
abbrev IN_USE_LO : Fld := ⟨0x98, 0, 32⟩
abbrev IN_USE_HI : Fld := ⟨0x9c, 0, 32⟩
abbrev BLOCK_CNT : Fld := ⟨0xa0, 0, 32⟩
end XTS

namespace GLN
-- R355
abbrev GLN_REGIONS : Fld := ⟨0x40, 0, 32⟩
abbrev GLN_REGIONS_MDC : Fld := ⟨0x40, 7, 1⟩
abbrev LAP_TGT_SRAM_TGT : Fld := ⟨0x44, 0, 16⟩
abbrev LAP_TGT_DRAM_TGT : Fld := ⟨0x44, 16, 16⟩
abbrev PACE_GAP : Fld := ⟨0x48, 0, 16⟩
abbrev SRAM_LAPS : Fld := ⟨0x4c, 0, 32⟩
abbrev DRAM_LAPS : Fld := ⟨0x50, 0, 32⟩
abbrev SRAM_LAP_LAST : Fld := ⟨0x54, 0, 32⟩
abbrev SRAM_LAP_MAX : Fld := ⟨0x58, 0, 32⟩
abbrev DRAM_LAP_LAST : Fld := ⟨0x5c, 0, 32⟩
abbrev DRAM_LAP_MAX : Fld := ⟨0x60, 0, 32⟩
abbrev SRAM_POS_INTERNAL : Fld := ⟨0x6c, 31, 1⟩
abbrev DRAM_POS_LO : Fld := ⟨0x70, 6, 26⟩
abbrev DRAM_POS_HI : Fld := ⟨0x74, 0, 3⟩
abbrev CE_CNT : Fld := ⟨0x78, 0, 32⟩
abbrev UE_CNT : Fld := ⟨0x7c, 0, 32⟩
abbrev WB_CANCEL : Fld := ⟨0x80, 0, 32⟩
abbrev ST_STAT_DONE : Fld := ⟨0x90, 31, 1⟩
abbrev ST_STAT_PASS : Fld := ⟨0x90, 30, 1⟩
abbrev ST_STAT_REFUSED : Fld := ⟨0x90, 29, 1⟩
abbrev ST_STAT_FAILS : Fld := ⟨0x90, 0, 16⟩
end GLN

namespace MDC
-- R364
abbrev MDC_CTRL_BYPASS_REQ : Fld := ⟨0x40, 0, 1⟩
abbrev MDC_STAT_BYPASS : Fld := ⟨0x44, 0, 1⟩
abbrev MDC_STAT_CLEANING : Fld := ⟨0x44, 1, 1⟩
abbrev MDC_STAT_ENABLED : Fld := ⟨0x44, 8, 6⟩
abbrev MDC_STAT_DIRTY : Fld := ⟨0x44, 16, 6⟩
abbrev MDC_STAT_FILLS : Fld := ⟨0x44, 24, 4⟩
abbrev MDC_STAT_VICTIMS : Fld := ⟨0x44, 28, 3⟩
abbrev HIT_CNT : Fld := ⟨0x58, 0, 32⟩
abbrev MISS_CNT : Fld := ⟨0x5c, 0, 32⟩
abbrev PF_CNT : Fld := ⟨0x60, 0, 32⟩
abbrev PF_USED : Fld := ⟨0x64, 0, 32⟩
abbrev VB_HIT_CNT : Fld := ⟨0x68, 0, 32⟩
abbrev CE_CNT : Fld := ⟨0x6c, 0, 32⟩
abbrev LOST_DIRTY : Fld := ⟨0x70, 0, 32⟩
abbrev DIS_LO : Fld := ⟨0x74, 0, 32⟩
abbrev DIS_HI : Fld := ⟨0x78, 0, 16⟩
abbrev BASE_LO (i : Nat) : Fld := ⟨0x80 + 0x10 * i, 12, 20⟩
abbrev BASE_HI (i : Nat) : Fld := ⟨0x84 + 0x10 * i, 0, 16⟩
abbrev SIZE (i : Nat) : Fld := ⟨0x88 + 0x10 * i, 0, 24⟩
abbrev ATTR_MODE (i : Nat) : Fld := ⟨0x8c + 0x10 * i, 0, 2⟩
abbrev ATTR_PF (i : Nat) : Fld := ⟨0x8c + 0x10 * i, 4, 1⟩
abbrev ATTR_RO (i : Nat) : Fld := ⟨0x8c + 0x10 * i, 5, 1⟩
abbrev ATTR_EN (i : Nat) : Fld := ⟨0x8c + 0x10 * i, 8, 1⟩
end MDC

namespace STP
-- R209
abbrev STP_CFG_TMO : Fld := ⟨0x40, 0, 16⟩
abbrev STP_CFG_SKEW_MAX : Fld := ⟨0x40, 16, 16⟩
abbrev RING_BASE_LO : Fld := ⟨0x44, 5, 27⟩
abbrev RING_BASE_HI : Fld := ⟨0x48, 0, 16⟩
abbrev RING_SIZE_LOG2 : Fld := ⟨0x4c, 0, 4⟩
abbrev RING_WR : Fld := ⟨0x50, 0, 32⟩
abbrev RING_RD : Fld := ⟨0x54, 0, 32⟩
abbrev RING_LOST : Fld := ⟨0x58, 0, 32⟩
abbrev Q_STAT_OPEN : Fld := ⟨0x64, 0, 7⟩
abbrev Q_STAT_READY : Fld := ⟨0x64, 8, 7⟩
abbrev Q_STAT_BUSY : Fld := ⟨0x64, 16, 1⟩
abbrev UNMATCHED : Fld := ⟨0x68, 0, 32⟩
abbrev LATE_REC : Fld := ⟨0x6c, 0, 32⟩
abbrev REBUILT_CNT : Fld := ⟨0x70, 0, 32⟩
abbrev UNREC_CNT : Fld := ⟨0x74, 0, 32⟩
abbrev INCONS_CNT : Fld := ⟨0x78, 0, 32⟩
abbrev WINC_CNT : Fld := ⟨0x7c, 0, 32⟩
abbrev STRIPE_STAT_STATE (i : Nat) : Fld := ⟨0x100 + 4 * i, 0, 3⟩
abbrev STRIPE_STAT_DECIDED (i : Nat) : Fld := ⟨0x100 + 4 * i, 16, 12⟩
end STP

namespace AFM
-- R164
abbrev AFM_CTRL_AUTO_RELEASE : Fld := ⟨0x40, 0, 1⟩
abbrev AFM_CTRL_HINT_EN : Fld := ⟨0x40, 1, 1⟩
abbrev SWEEP_CFG_TRIES : Fld := ⟨0x44, 0, 5⟩
abbrev SWEEP_CFG_ITER : Fld := ⟨0x44, 8, 4⟩
abbrev SWEEP_CFG_THR : Fld := ⟨0x44, 16, 16⟩
abbrev DD_MASK : Fld := ⟨0x48, 0, 8⟩
abbrev HINT_CFG_RUN : Fld := ⟨0x4c, 0, 8⟩
abbrev HINT_CFG_PAD : Fld := ⟨0x4c, 8, 8⟩
abbrev RELEASE : Fld := ⟨0x50, 0, 32⟩
abbrev REL_STAT_BUSY : Fld := ⟨0x54, 0, 1⟩
abbrev Q_STAT_SWEEP_JOBS : Fld := ⟨0x74, 0, 6⟩
abbrev Q_STAT_FW_JOBS : Fld := ⟨0x74, 8, 6⟩
abbrev Q_STAT_BUSY : Fld := ⟨0x74, 16, 8⟩
abbrev SWEEP_OK : Fld := ⟨0x78, 0, 32⟩
abbrev SWEEP_LOST : Fld := ⟨0x7c, 0, 32⟩
abbrev SWEEP_DROP : Fld := ⟨0x80, 0, 32⟩
abbrev JOB_DONE : Fld := ⟨0x84, 0, 32⟩
abbrev UNRET_CNT : Fld := ⟨0x88, 0, 32⟩
abbrev REC_LOST : Fld := ⟨0x8c, 0, 32⟩
abbrev SKIP_CNT : Fld := ⟨0x90, 0, 32⟩
abbrev SLOT_STAT (i : Nat) : Fld := ⟨0x100 + 4 * i, 0, 32⟩
abbrev SLOT_STAT_STATE (i : Nat) : Fld := ⟨0x100 + 4 * i, 0, 3⟩
abbrev SLOT_STAT_STATUS (i : Nat) : Fld := ⟨0x100 + 4 * i, 8, 8⟩
abbrev SLOT_STAT_SECTOR_ID (i : Nat) : Fld := ⟨0x100 + 4 * i, 16, 16⟩
end AFM

namespace BFM
-- R342
abbrev SRAM_CFG_L2_SIZE : Fld := ⟨0x40, 0, 2⟩
abbrev DRAM_CFG_CH_MASK : Fld := ⟨0x44, 0, 12⟩
abbrev DRAM_CFG_DENSITY : Fld := ⟨0x44, 16, 3⟩
abbrev DRAM_CTRL_DRAM_EN : Fld := ⟨0x48, 0, 1⟩
abbrev DRAM_CTRL_SR_REQ : Fld := ⟨0x48, 1, 1⟩
abbrev DRAM_STAT_STATE : Fld := ⟨0x4c, 0, 3⟩
abbrev DRAM_STAT_M : Fld := ⟨0x4c, 8, 4⟩
abbrev DRAM_STAT_USABLE : Fld := ⟨0x4c, 16, 16⟩
abbrev FALLOW_CFG_DRAM_D : Fld := ⟨0x50, 0, 3⟩
abbrev FALLOW_CFG_SRAM_D : Fld := ⟨0x50, 4, 3⟩
abbrev FALLOW_BG : Fld := ⟨0x54, 0, 32⟩
abbrev FALLOW_FG : Fld := ⟨0x58, 0, 32⟩
abbrev WAIT_MAX (i : Nat) : Fld := ⟨0x60 + 4 * i, 0, 32⟩
abbrev SRT_CTRL_FREEZE : Fld := ⟨0x100, 0, 1⟩
abbrev SRT_STAT_BUSY : Fld := ⟨0x104, 0, 1⟩
abbrev SRT_STAT_HELD : Fld := ⟨0x104, 4, 5⟩
abbrev SRT_STAT_SHIFT_REFUSED : Fld := ⟨0x104, 9, 1⟩
abbrev SRT_STAT_FENCED : Fld := ⟨0x104, 10, 1⟩
abbrev SRT_COUNT : Fld := ⟨0x108, 0, 17⟩
abbrev LOOKUP_CNT : Fld := ⟨0x134, 0, 32⟩
end BFM

namespace DMC
-- R343
abbrev DMC_STAT_TRAIN : Fld := ⟨0x40, 0, 2⟩
abbrev DMC_STAT_SR : Fld := ⟨0x40, 2, 1⟩
abbrev DMC_STAT_MR4 : Fld := ⟨0x40, 8, 3⟩
abbrev CE_CNT : Fld := ⟨0x48, 0, 32⟩
abbrev UE_CNT : Fld := ⟨0x4c, 0, 32⟩
abbrev UE_LIMIT : Fld := ⟨0x50, 0, 8⟩
abbrev ERR_ADDR : Fld := ⟨0x54, 0, 32⟩
abbrev RMW_CNT : Fld := ⟨0x58, 0, 32⟩
abbrev RFM_CNT : Fld := ⟨0x5c, 0, 32⟩
end DMC

namespace DMA
-- R384
abbrev DONE_PEND : Fld := ⟨0x40, 0, 32⟩
abbrev DONE_EN : Fld := ⟨0x44, 0, 32⟩
abbrev ERR_PEND : Fld := ⟨0x48, 0, 32⟩
abbrev ERR_EN : Fld := ⟨0x4c, 0, 32⟩
abbrev RD_CFG_MAX_RD : Fld := ⟨0x50, 0, 8⟩
abbrev RD_CFG_RD_SIZE : Fld := ⟨0x50, 8, 3⟩
abbrev PORT_STAT_BME_A : Fld := ⟨0x54, 0, 1⟩
abbrev PORT_STAT_BME_B : Fld := ⟨0x54, 1, 1⟩
abbrev FORCE_SEL_CH : Fld := ⟨0x58, 0, 5⟩
end DMA

namespace HIF
-- R414
abbrev HIF_CFG_MAX_SPEED : Fld := ⟨0x40, 1, 3⟩
abbrev HIF_CFG_MAX_WIDTH : Fld := ⟨0x40, 4, 3⟩
abbrev HIF_CFG_PRSNT_EN : Fld := ⟨0x40, 8, 1⟩
abbrev HIF_CTRL_LINK_EN : Fld := ⟨0x44, 0, 1⟩
abbrev HIF_CTRL_CFG_READY : Fld := ⟨0x44, 1, 1⟩
abbrev LINK_STAT_STATE : Fld := ⟨0x48, 0, 4⟩
abbrev LINK_STAT_SPEED : Fld := ⟨0x48, 4, 3⟩
abbrev LINK_STAT_WIDTH : Fld := ⟨0x48, 8, 3⟩
abbrev LINK_STAT_PERST : Fld := ⟨0x48, 16, 1⟩
abbrev LINK_STAT_PRSNT : Fld := ⟨0x48, 17, 1⟩
abbrev LINK_STAT_BME : Fld := ⟨0x48, 18, 1⟩
abbrev LINK_STAT_MSIX_EN : Fld := ⟨0x48, 19, 1⟩
abbrev LINK_STAT_D3HOT : Fld := ⟨0x48, 20, 1⟩
abbrev LINK_STAT_FLR_ACTIVE : Fld := ⟨0x48, 21, 1⟩
abbrev LINK_STAT_MSE : Fld := ⟨0x48, 22, 1⟩
abbrev BAR_CFG_BAR0_LOG2 : Fld := ⟨0x58, 0, 5⟩
abbrev BAR_CFG_BAR2_LOG2 : Fld := ⟨0x58, 8, 6⟩
abbrev INT_STAT_MSIX_EN : Fld := ⟨0x68, 0, 1⟩
abbrev INT_STAT_FUNC_MASK : Fld := ⟨0x68, 1, 1⟩
abbrev INT_STAT_INTX_ASSERTED : Fld := ⟨0x68, 2, 1⟩
abbrev INT_STAT_PBA_COUNT : Fld := ⟨0x68, 8, 9⟩
abbrev CPL_TMO_CNT : Fld := ⟨0x70, 0, 32⟩
abbrev UR_CNT : Fld := ⟨0x74, 0, 32⟩
abbrev CA_CNT : Fld := ⟨0x78, 0, 32⟩
abbrev POISON_CNT : Fld := ⟨0x7c, 0, 32⟩
abbrev MALF_CNT : Fld := ⟨0x80, 0, 32⟩
abbrev UNEXP_CPL_CNT : Fld := ⟨0x84, 0, 32⟩
abbrev LINK_DOWN_CNT : Fld := ⟨0x88, 0, 32⟩
abbrev FLR_CFG_FLR_TMO : Fld := ⟨0x94, 0, 7⟩
abbrev L0P_CFG_AUTO : Fld := ⟨0x98, 0, 1⟩
abbrev L0P_CFG_WIDTH : Fld := ⟨0x98, 4, 2⟩
abbrev L0P_CFG_IDLE : Fld := ⟨0x98, 16, 16⟩
abbrev TXQ_STAT : Fld := ⟨0xa0, 0, 17⟩
abbrev WIN_STAT_VALID : Fld := ⟨0xa4, 0, 16⟩
abbrev WIN_STAT_INVALID : Fld := ⟨0xa4, 16, 16⟩
abbrev DOE_BUF_RX_IDX : Fld := ⟨0xb0, 0, 11⟩
abbrev DOE_BUF_TX_IDX : Fld := ⟨0xb0, 16, 11⟩
abbrev DOE_STAT_RX_LEN : Fld := ⟨0xb4, 0, 11⟩
abbrev DOE_STAT_RX_READY : Fld := ⟨0xb4, 16, 1⟩
abbrev DOE_STAT_TX_BUSY : Fld := ⟨0xb4, 17, 1⟩
abbrev DOE_STAT_ABORTED : Fld := ⟨0xb4, 18, 1⟩
abbrev FLR_CNT : Fld := ⟨0xc0, 0, 32⟩
abbrev BAR0_SLOT_KIND (i : Nat) : Fld := ⟨0x200 + 4 * i, 0, 2⟩
abbrev BAR0_SLOT_RO (i : Nat) : Fld := ⟨0x200 + 4 * i, 4, 1⟩
abbrev BAR0_SLOT_IDX (i : Nat) : Fld := ⟨0x200 + 4 * i, 8, 11⟩
end HIF

namespace WIN
-- R415
abbrev OFS_OFFSET (j : Nat) : Fld := ⟨0x100 + 0x10 * j, 0, 24⟩
abbrev SIZE_SIZE (j : Nat) : Fld := ⟨0x104 + 0x10 * j, 0, 24⟩
abbrev TGT_LO_EN (j : Nat) : Fld := ⟨0x108 + 0x10 * j, 0, 1⟩
abbrev TGT_LO_RD (j : Nat) : Fld := ⟨0x108 + 0x10 * j, 1, 1⟩
abbrev TGT_LO_WR (j : Nat) : Fld := ⟨0x108 + 0x10 * j, 2, 1⟩
abbrev TGT_LO_TARGET (j : Nat) : Fld := ⟨0x108 + 0x10 * j, 12, 20⟩
abbrev TGT_HI (j : Nat) : Fld := ⟨0x10c + 0x10 * j, 0, 16⟩
end WIN

namespace DBA
-- R416
abbrev DB_SEL_DB : Fld := ⟨0x40, 0, 10⟩
abbrev DB_SEL_PORT : Fld := ⟨0x40, 16, 1⟩
abbrev INV_CNT : Fld := ⟨0x50, 0, 32⟩
abbrev WRITE_CNT : Fld := ⟨0x54, 0, 32⟩
abbrev COALESCE_CNT : Fld := ⟨0x58, 0, 32⟩
abbrev PEND (i : Nat) : Fld := ⟨0xa0 + 4 * i, 0, 12⟩
end DBA

namespace ACT
-- R190
abbrev WI_LIMIT_PES : Fld := ⟨0x100, 0, 15⟩
abbrev WI_LIMIT_MISS_OK : Fld := ⟨0x100, 16, 1⟩
abbrev WI_CFG_ALERT_INH : Fld := ⟨0x104, 0, 1⟩
abbrev WI_CFG_SHOCK_HOLD : Fld := ⟨0x104, 16, 16⟩
abbrev WI_FORCE_MASK : Fld := ⟨0x108, 0, 12⟩
abbrev WI_STAT_PES_INH : Fld := ⟨0x10c, 0, 12⟩
abbrev WI_STAT_SHOCK : Fld := ⟨0x10c, 16, 1⟩
abbrev WI_STAT_ALERT : Fld := ⟨0x10c, 17, 1⟩
abbrev WI_PES_CNT : Fld := ⟨0x110, 0, 32⟩
abbrev WI_SHOCK_CNT : Fld := ⟨0x114, 0, 32⟩
abbrev WI_LAST : Fld := ⟨0x118, 0, 32⟩
abbrev WI_LAST_SRC_CAUSE : Fld := ⟨0x11c, 0, 8⟩
abbrev WI_LAST_SRC_HEAD : Fld := ⟨0x11c, 8, 4⟩
end ACT

namespace SRV
-- R262
abbrev SRV_CFG_RRO_EN : Fld := ⟨0x40, 0, 1⟩
abbrev SRV_CFG_PCAP_EN : Fld := ⟨0x40, 1, 1⟩
abbrev HEAD_EN_EN : Fld := ⟨0x44, 0, 12⟩
abbrev HEAD_EN_RDR_B : Fld := ⟨0x44, 16, 12⟩
abbrev WINDOW_SG_LEAD : Fld := ⟨0x48, 0, 10⟩
abbrev WINDOW_SG_TAIL : Fld := ⟨0x48, 16, 10⟩
abbrev SAM_CFG_SAM_PAT : Fld := ⟨0x4c, 0, 16⟩
abbrev SAM_CFG_SAM_TOL : Fld := ⟨0x4c, 16, 3⟩
abbrev SAM_CFG_SAM_W : Fld := ⟨0x4c, 24, 8⟩
abbrev QUAL_CFG_BURST_MIN : Fld := ⟨0x50, 0, 16⟩
abbrev QUAL_CFG_ID_TOL : Fld := ⟨0x50, 16, 8⟩
abbrev TREF_MASK : Fld := ⟨0x54, 0, 12⟩
abbrev WEDGE_STAT_WEDGE : Fld := ⟨0x58, 0, 10⟩
abbrev WEDGE_STAT_GOOD : Fld := ⟨0x58, 16, 4⟩
abbrev WEDGE_STAT_TIME_OK : Fld := ⟨0x58, 24, 1⟩
abbrev WEDGE_STAT_FREE : Fld := ⟨0x58, 25, 1⟩
abbrev ACT_TIME : Fld := ⟨0x5c, 0, 32⟩
abbrev NO_TIME_CNT : Fld := ⟨0x60, 0, 32⟩
abbrev PCAP_BASE_LO : Fld := ⟨0x64, 5, 27⟩
abbrev PCAP_BASE_HI : Fld := ⟨0x68, 0, 16⟩
abbrev PCAP_SIZE_LOG2 : Fld := ⟨0x6c, 0, 4⟩
abbrev PCAP_WR : Fld := ⟨0x70, 0, 32⟩
abbrev PCAP_RD : Fld := ⟨0x74, 0, 32⟩
abbrev PCAP_LOST : Fld := ⟨0x78, 0, 32⟩
abbrev TGT_TRACK (i : Nat) : Fld := ⟨0x80 + 4 * i, 0, 24⟩
abbrev SKEW (i : Nat) : Fld := ⟨0xc0 + 4 * i, 0, 16⟩
abbrev PES_PES (i : Nat) : Fld := ⟨0x100 + 4 * i, 0, 16⟩
abbrev PES_QUAL (i : Nat) : Fld := ⟨0x100 + 4 * i, 16, 3⟩
abbrev PES_SAT (i : Nat) : Fld := ⟨0x100 + 4 * i, 19, 1⟩
abbrev PES_WEDGE (i : Nat) : Fld := ⟨0x100 + 4 * i, 20, 10⟩
abbrev POS (i : Nat) : Fld := ⟨0x140 + 4 * i, 0, 32⟩
abbrev SAM_TIME (i : Nat) : Fld := ⟨0x180 + 4 * i, 0, 32⟩
abbrev BAD_CNT (i : Nat) : Fld := ⟨0x1c0 + 4 * i, 0, 32⟩
end SRV

namespace TIL
-- R263
abbrev TIL_CFG_OUT_DEADLINE : Fld := ⟨0x40, 0, 12⟩
abbrev TIL_CFG_OVERRUN_LIMIT : Fld := ⟨0x40, 12, 4⟩
abbrev TIL_CFG_MISS_LIMIT : Fld := ⟨0x40, 16, 4⟩
abbrev COUPLE_MASK : Fld := ⟨0x44, 0, 12⟩
abbrev HO_STAT : Fld := ⟨0x54, 0, 32⟩
abbrev HO_STAT_DONE : Fld := ⟨0x54, 0, 13⟩
abbrev HO_STAT_REFUSED : Fld := ⟨0x54, 16, 13⟩
abbrev READY_LAST : Fld := ⟨0x58, 0, 12⟩
abbrev READY_MAX : Fld := ⟨0x5c, 0, 32⟩
abbrev SAT_CNT : Fld := ⟨0x60, 0, 32⟩
abbrev OVR_CNT : Fld := ⟨0x64, 0, 32⟩
abbrev MISS_CNT : Fld := ⟨0x68, 0, 32⟩
abbrev WRAP_CNT : Fld := ⟨0x6c, 0, 32⟩
end TIL

namespace LOOP
-- R264
abbrev LSTAT (j : Nat) : Fld := ⟨0x100 + 0x20 * j, 0, 32⟩
abbrev LSTAT_CLOSED (j : Nat) : Fld := ⟨0x100 + 0x20 * j, 0, 1⟩
abbrev LSTAT_MODE (j : Nat) : Fld := ⟨0x100 + 0x20 * j, 1, 2⟩
abbrev LSTAT_FENCED (j : Nat) : Fld := ⟨0x100 + 0x20 * j, 3, 1⟩
abbrev LSTAT_SAT (j : Nat) : Fld := ⟨0x100 + 0x20 * j, 4, 1⟩
abbrev LSTAT_MISS (j : Nat) : Fld := ⟨0x100 + 0x20 * j, 8, 4⟩
abbrev LSTAT_OVR (j : Nat) : Fld := ⟨0x100 + 0x20 * j, 12, 4⟩
abbrev LSTAT_PEND (j : Nat) : Fld := ⟨0x100 + 0x20 * j, 16, 3⟩
abbrev FLAGS_INT_WRAP (j : Nat) : Fld := ⟨0x104 + 0x20 * j, 0, 1⟩
abbrev FLAGS_SIG_WRAP (j : Nat) : Fld := ⟨0x104 + 0x20 * j, 1, 1⟩
abbrev FLAGS_SAT (j : Nat) : Fld := ⟨0x104 + 0x20 * j, 2, 1⟩
abbrev FLAGS_HO_REFUSED (j : Nat) : Fld := ⟨0x104 + 0x20 * j, 3, 1⟩
abbrev FLAGS_COEF_SKIP (j : Nat) : Fld := ⟨0x104 + 0x20 * j, 4, 1⟩
abbrev FLAGS_OVERRUN (j : Nat) : Fld := ⟨0x104 + 0x20 * j, 5, 1⟩
abbrev FLAGS_CLOSE_REFUSED (j : Nat) : Fld := ⟨0x104 + 0x20 * j, 6, 1⟩
abbrev OPEN_OUT (j : Nat) : Fld := ⟨0x108 + 0x20 * j, 0, 16⟩
abbrev OUTPUT (j : Nat) : Fld := ⟨0x10c + 0x20 * j, 0, 16⟩
abbrev INT_LO (j : Nat) : Fld := ⟨0x110 + 0x20 * j, 0, 32⟩
abbrev INT_HI (j : Nat) : Fld := ⟨0x114 + 0x20 * j, 0, 16⟩
abbrev ERR (j : Nat) : Fld := ⟨0x118 + 0x20 * j, 0, 32⟩
abbrev MA_REF (j : Nat) : Fld := ⟨0x11c + 0x20 * j, 0, 16⟩
end LOOP

namespace BANK
-- R265
abbrev KP (j : Nat) (i : Nat) : Fld := ⟨0x800 + 0x90 * j + 0x14 * i, 0, 32⟩
abbrev KI (j : Nat) (i : Nat) : Fld := ⟨0x804 + 0x90 * j + 0x14 * i, 0, 32⟩
abbrev KD (j : Nat) (i : Nat) : Fld := ⟨0x808 + 0x90 * j + 0x14 * i, 0, 32⟩
abbrev AD (j : Nat) (i : Nat) : Fld := ⟨0x80c + 0x90 * j + 0x14 * i, 0, 32⟩
abbrev OSHIFT (j : Nat) (i : Nat) : Fld := ⟨0x810 + 0x90 * j + 0x14 * i, 0, 3⟩
abbrev B0 (j : Nat) (i : Nat) : Fld := ⟨0x83c + 0x90 * j + 0x14 * i, 0, 32⟩
abbrev B1 (j : Nat) (i : Nat) : Fld := ⟨0x840 + 0x90 * j + 0x14 * i, 0, 32⟩
abbrev B2 (j : Nat) (i : Nat) : Fld := ⟨0x844 + 0x90 * j + 0x14 * i, 0, 32⟩
abbrev A1 (j : Nat) (i : Nat) : Fld := ⟨0x848 + 0x90 * j + 0x14 * i, 0, 32⟩
abbrev A2 (j : Nat) (i : Nat) : Fld := ⟨0x84c + 0x90 * j + 0x14 * i, 0, 32⟩
abbrev LIM_OUT_LIM (j : Nat) : Fld := ⟨0x88c + 0x90 * j, 0, 16⟩
abbrev LIM_MA_SCALE (j : Nat) : Fld := ⟨0x88c + 0x90 * j, 16, 16⟩
end BANK

namespace PRF
-- R285
abbrev PRF_STAT_STATE : Fld := ⟨0x44, 0, 3⟩
abbrev PRF_STAT_SLOT : Fld := ⟨0x44, 4, 4⟩
abbrev PRF_STAT_LAST : Fld := ⟨0x44, 8, 4⟩
abbrev PRF_STAT_N : Fld := ⟨0x44, 16, 16⟩
abbrev TRK_MIN : Fld := ⟨0x48, 0, 24⟩
abbrev TRK_MAX : Fld := ⟨0x4c, 0, 24⟩
abbrev REF_POS : Fld := ⟨0x50, 0, 32⟩
abbrev REF_VEL : Fld := ⟨0x54, 0, 32⟩
abbrev FF : Fld := ⟨0x58, 0, 16⟩
abbrev PLAN_T : Fld := ⟨0x5c, 0, 16⟩
abbrev PLAN_VP : Fld := ⟨0x60, 0, 32⟩
abbrev X_HOLD : Fld := ⟨0x64, 0, 32⟩
abbrev SEEK_CNT : Fld := ⟨0x68, 0, 32⟩
abbrev TMO_CNT : Fld := ⟨0x6c, 0, 32⟩
abbrev DELTA (i : Nat) : Fld := ⟨0x80 + 4 * i, 0, 16⟩
end PRF

namespace DIL
-- R236
abbrev RUN_STAT_STATE : Fld := ⟨0x48, 0, 3⟩
abbrev RUN_STAT_WAITING : Fld := ⟨0x48, 3, 1⟩
abbrev RUN_STAT_REFUSE : Fld := ⟨0x48, 4, 3⟩
abbrev RUN_STAT_STATUS : Fld := ⟨0x48, 8, 3⟩
abbrev RUN_STAT_STACK : Fld := ⟨0x48, 12, 4⟩
abbrev RUN_STAT_PC : Fld := ⟨0x48, 16, 13⟩
abbrev END_INFO_CODE : Fld := ⟨0x4c, 0, 16⟩
abbrev END_INFO_PC_AT : Fld := ⟨0x4c, 16, 13⟩
abbrev EVT_PEND : Fld := ⟨0x70, 0, 16⟩
abbrev EVT_MASK : Fld := ⟨0x7c, 0, 16⟩
abbrev EVT_VEC_ADDR (i : Nat) : Fld := ⟨0x80 + 4 * i, 0, 13⟩
abbrev ESTAT_BATCH : Fld := ⟨0xc0, 31, 1⟩
abbrev ESTAT_RESULT : Fld := ⟨0xc0, 0, 4⟩
abbrev STG_STAT_ENTRIES : Fld := ⟨0xc4, 0, 5⟩
abbrev STG_STAT_WRITES : Fld := ⟨0xc4, 8, 4⟩
abbrev XBASE_LO (i : Nat) : Fld := ⟨0xc8 + 8 * i, 0, 32⟩
abbrev XBASE_HI (i : Nat) : Fld := ⟨0xcc + 8 * i, 0, 16⟩
abbrev HOLD_RUN_MAX : Fld := ⟨0xe8, 0, 32⟩
abbrev LD_ADDR_ADDR : Fld := ⟨0xec, 0, 13⟩
abbrev LD_ADDR_SPACE : Fld := ⟨0xec, 16, 2⟩
abbrev LD_STAT_PART : Fld := ⟨0xf4, 0, 3⟩
abbrev LD_STAT_DENIED : Fld := ⟨0xf4, 8, 1⟩
abbrev LD_STAT_BUSY : Fld := ⟨0xf4, 9, 1⟩
end DIL

namespace LNK
-- R115
abbrev LINK_STAT_STATE : Fld := ⟨0x40, 0, 2⟩
abbrev LINK_STAT_ADI_PHASE : Fld := ⟨0x40, 8, 3⟩
abbrev LINK_STAT_PASS_MASK : Fld := ⟨0x40, 16, 8⟩
abbrev CMD : Fld := ⟨0x44, 0, 32⟩
abbrev CMD_STAT_DONE : Fld := ⟨0x48, 31, 1⟩
abbrev CMD_STAT_OVERFLOW : Fld := ⟨0x48, 30, 1⟩
abbrev CMD_STAT_FREE : Fld := ⟨0x48, 24, 3⟩
abbrev CMD_STAT_DATA : Fld := ⟨0x48, 8, 8⟩
abbrev CMD_STAT_RESULT : Fld := ⟨0x48, 0, 4⟩
abbrev RSP_TIMEOUT : Fld := ⟨0x4c, 0, 10⟩
abbrev CRC_ERR_CNT : Fld := ⟨0x50, 0, 32⟩
abbrev NAK_CNT : Fld := ⟨0x54, 0, 32⟩
abbrev RETRY_CNT : Fld := ⟨0x58, 0, 32⟩
abbrev UNSOL_CNT : Fld := ⟨0x5c, 0, 32⟩
abbrev ALERT_STAT_LEVEL : Fld := ⟨0x60, 0, 1⟩
abbrev ALERT_STAT_MASKED : Fld := ⟨0x60, 1, 1⟩
abbrev ALERT_STAT_LAST_STATUS : Fld := ⟨0x60, 8, 8⟩
abbrev ALERT_STAT_LAST_HEAD : Fld := ⟨0x60, 16, 4⟩
abbrev HEAT_REG : Fld := ⟨0x64, 0, 8⟩
abbrev ADI_CAL_PHASE_OVR : Fld := ⟨0x70, 0, 3⟩
abbrev ADI_CAL_OVR_EN : Fld := ⟨0x70, 3, 1⟩
end LNK

namespace HCH
-- R105
abbrev ZPT_SEL_ZONE : Fld := ⟨0x40, 0, 6⟩
abbrev AFE_STAT_REFUSED_ZONE : Fld := ⟨0x44, 8, 6⟩
abbrev AFE_STAT_SAT_A : Fld := ⟨0x44, 16, 1⟩
abbrev AFE_STAT_SAT_B : Fld := ⟨0x44, 17, 1⟩
abbrev ADAPT_CTL_SEED : Fld := ⟨0x48, 0, 1⟩
abbrev ADAPT_CTL_FRZ_VGA : Fld := ⟨0x48, 1, 1⟩
abbrev ADAPT_CTL_FRZ_OFS : Fld := ⟨0x48, 2, 1⟩
abbrev ADAPT_CTL_FRZ_ASYM : Fld := ⟨0x48, 3, 1⟩
abbrev ADAPT_CTL_LEARN_EN : Fld := ⟨0x48, 4, 1⟩
abbrev WAKE_LATE : Fld := ⟨0x4c, 0, 32⟩
abbrev LIVE_A : Fld := ⟨0x50, 0, 32⟩
abbrev LIVE_B : Fld := ⟨0x54, 0, 32⟩
abbrev CLIP_A : Fld := ⟨0x58, 0, 32⟩
abbrev CLIP_B : Fld := ⟨0x5c, 0, 32⟩
-- R145
abbrev RD_CTRL_SWEEP_DIS : Fld := ⟨0x100, 0, 1⟩
abbrev RD_CTRL_EQ_FREEZE : Fld := ⟨0x100, 1, 1⟩
abbrev LAND_BASE_LO : Fld := ⟨0x104, 8, 24⟩
abbrev LAND_BASE_HI : Fld := ⟨0x108, 0, 16⟩
abbrev LAND_CFG_STRIDE : Fld := ⟨0x10c, 0, 8⟩
abbrev LAND_CFG_LOG2 : Fld := ⟨0x10c, 16, 4⟩
abbrev LAND_WR : Fld := ⟨0x110, 0, 32⟩
abbrev LAND_RD : Fld := ⟨0x114, 0, 32⟩
abbrev STS_BASE_LO : Fld := ⟨0x118, 5, 27⟩
abbrev STS_BASE_HI : Fld := ⟨0x11c, 0, 16⟩
abbrev STS_SIZE_LOG2 : Fld := ⟨0x120, 0, 4⟩
abbrev STS_WR : Fld := ⟨0x124, 0, 32⟩
abbrev STS_RD : Fld := ⟨0x128, 0, 32⟩
abbrev RD_STAT_PIN : Fld := ⟨0x12c, 4, 2⟩
abbrev RD_STAT_LAST_STATUS : Fld := ⟨0x12c, 16, 8⟩
abbrev SECT_CNT : Fld := ⟨0x130, 0, 32⟩
abbrev FAIL_CNT : Fld := ⟨0x134, 0, 32⟩
abbrev MARK_MISS_CNT : Fld := ⟨0x138, 0, 32⟩
abbrev ITER_SUM : Fld := ⟨0x13c, 0, 32⟩
abbrev TIMEOUT_CNT : Fld := ⟨0x140, 0, 32⟩
abbrev TR_CLAMP_CNT : Fld := ⟨0x144, 0, 32⟩
abbrev BG_ABORT_CNT : Fld := ⟨0x148, 0, 32⟩
abbrev STS_LOST : Fld := ⟨0x14c, 0, 32⟩
abbrev TR_FREQ : Fld := ⟨0x150, 0, 24⟩
abbrev EQB (i : Nat) : Fld := ⟨0x400 + 4 * i, 0, 32⟩
-- R189
abbrev WR_CTRL_PREFILL : Fld := ⟨0x200, 0, 8⟩
abbrev WQ_BASE_LO : Fld := ⟨0x204, 4, 28⟩
abbrev WQ_BASE_HI : Fld := ⟨0x208, 0, 16⟩
abbrev WQ_SIZE_LOG2 : Fld := ⟨0x20c, 0, 4⟩
abbrev WQ_WR : Fld := ⟨0x210, 0, 32⟩
abbrev WQ_RD : Fld := ⟨0x214, 0, 32⟩
abbrev WST_BASE_LO : Fld := ⟨0x218, 4, 28⟩
abbrev WST_BASE_HI : Fld := ⟨0x21c, 0, 16⟩
abbrev WST_SIZE_LOG2 : Fld := ⟨0x220, 0, 4⟩
abbrev WST_WR : Fld := ⟨0x224, 0, 32⟩
abbrev WST_RD : Fld := ⟨0x228, 0, 32⟩
abbrev WR_STAT_LAST_CAUSE : Fld := ⟨0x22c, 24, 8⟩
abbrev WR_INH_FAULT_LATCH : Fld := ⟨0x230, 0, 1⟩
abbrev WR_INH_FORCE : Fld := ⟨0x230, 1, 1⟩
abbrev WSECT_CNT : Fld := ⟨0x234, 0, 32⟩
abbrev WABORT_CNT : Fld := ⟨0x238, 0, 32⟩
abbrev UNDERRUN_CNT : Fld := ⟨0x23c, 0, 32⟩
abbrev ORPHAN_CNT : Fld := ⟨0x240, 0, 32⟩
abbrev WST_LOST : Fld := ⟨0x244, 0, 32⟩
end HCH

end Sys2Proof.Machine
end

