-- ==== Sys2Proof/Machine/RegMap.lean ====
section
/-! DEFINITION. The register map: the access rows of every page of the spec's register tables, each row a range of
offsets with its access code (R11, R39, R44, R53) and reset value, and the look-up of a register's reset value. The rows
follow the tables named beside each list; `own` marks the fields whose write or read is a row of its own in the table of
commands. -/

namespace Sys2Proof.Machine

/-- Access codes of R11: `own` fields change only through the command that has them as its operand; `sh` is RW on a
shadowed page (R53). -/
inductive Acc where
  | ro | rw | rwl | w1c | rc | wo | sh | own
deriving DecidableEq, Repr

/-- One access row: `cnt` registers at `off`, `off + stride`, …; `mask` the bits with this access code. -/
structure RegRow where
  off : Nat
  stride : Nat
  cnt : Nat
  acc : Acc
  mask : Nat
  reset : Nat
deriving DecidableEq, Repr

/-- The kinds of page (R36). -/
inductive PageKind where
  | sys | clk | pwr | flt | fur | drl | spn | mot | nvs | sec | xts | gln | mdc | stp | afm | bfm | dmc | dma | hif | dba | act | srv | til | prf | dil | lnk | hch
deriving DecidableEq, Repr

/-- Access rows of the common header (R38). -/
def hdrRows : List RegRow :=
  [⟨0, 4, 1, .ro, 0xffffffff, 0⟩, ⟨4, 4, 1, .ro, 0xffffffff, 0⟩, ⟨8, 4, 1, .own, 7, 0⟩, ⟨8, 4, 1, .rw, 0xffff0000, 0⟩,
    ⟨0xc, 4, 1, .ro, 0xffff001f, 0⟩, ⟨0x10, 4, 1, .ro, 0xffffffff, 0⟩, ⟨0x14, 4, 1, .rw, 0xffffffff, 0⟩,
    ⟨0x18, 4, 1, .own, 0xffffffff, 0⟩, ⟨0x1c, 4, 1, .w1c, 0xffffffff, 0⟩, ⟨0x20, 4, 1, .own, 0xffffffff, 0⟩,
    ⟨0x24, 4, 1, .ro, 0xffffffff, 0⟩, ⟨0x28, 4, 1, .own, 7, 0⟩, ⟨0x28, 4, 1, .w1c, 0x18, 0⟩,
    ⟨0x28, 4, 1, .ro, 0xff00, 0⟩, ⟨0x28, 4, 1, .rw, 0x10000, 0⟩, ⟨0x2c, 4, 1, .rw, 0xffffffff, 0⟩,
    ⟨0x30, 4, 1, .own, 3, 0⟩]

/-- Access rows of the SYS page (R51, R471, R525). -/
def sysRows : List RegRow :=
  [⟨0x40, 4, 1, .ro, 0xf, 1⟩, ⟨0x44, 4, 1, .own, 0xffff0001, 0⟩, ⟨0x48, 4, 1, .ro, 0xe0f7ff0f, 0⟩,
    ⟨0x4c, 4, 1, .own, 0xff, 0xff⟩, ⟨0x50, 4, 1, .rwl, 0xffffffff, 0⟩, ⟨0x54, 4, 1, .rwl, 0xffff, 0⟩,
    ⟨0x58, 4, 1, .ro, 0xffffffff, 0⟩, ⟨0x5c, 4, 1, .ro, 0xffffffff, 0⟩, ⟨0x100, 4, 1, .rw, 0x7f1f, 0⟩,
    ⟨0x104, 4, 1, .ro, 0x1f17ff01, 0⟩, ⟨0x108, 4, 1, .own, 1, 0⟩, ⟨0x10c, 4, 1, .own, 0x7f01ff, 0⟩,
    ⟨0x110, 4, 1, .rc, 0xffffffff, 0⟩, ⟨0x114, 4, 1, .rc, 0xffffffff, 0⟩, ⟨0x140, 4, 64, .ro, 0xffffffff, 0⟩,
    ⟨0x240, 4, 64, .rw, 0xffffffff, 0⟩, ⟨0x340, 4, 8, .rw, 0xffffffff, 0⟩, ⟨0x400, 4, 256, .rw, 0xff, 0xf⟩,
    ⟨0x800, 0x10, 9, .own, 0x800000ff, 0⟩, ⟨0x804, 0x10, 9, .own, 0xff, 0⟩, ⟨0x808, 0x10, 9, .rw, 0xf, 0⟩]

/-- Access rows of the CLK page (R452). -/
def clkRows : List RegRow :=
  [⟨0x40, 4, 1, .ro, 0xffff0007, 0⟩, ⟨0x44, 4, 1, .ro, 3, 0⟩, ⟨0x48, 4, 1, .ro, 0xffffffff, 0⟩]

/-- Access rows of the PWR page (R453). -/
def pwrRows : List RegRow :=
  [⟨0x40, 4, 1, .own, 0x1ffff, 0⟩, ⟨0x44, 4, 1, .ro, 0xffffffff, 0⟩, ⟨0x48, 4, 1, .ro, 0x1ff0fff, 0⟩,
    ⟨0x4c, 4, 1, .rw, 0xff, 0⟩, ⟨0x50, 4, 1, .ro, 0xffff0007, 0⟩, ⟨0x54, 4, 1, .rw, 0xf, 8⟩,
    ⟨0x60, 4, 5, .ro, 0xffffffff, 0⟩, ⟨0x80, 4, 1, .ro, 0x7ffff, 0⟩, ⟨0x84, 4, 1, .rc, 0xffffffff, 0⟩,
    ⟨0x88, 4, 1, .rwl, 0xffffff, 0x7d7369⟩]

/-- Access rows of the FLT page (R436). -/
def fltRows : List RegRow :=
  [⟨0x40, 4, 1, .ro, 0xffff0107, 0⟩, ⟨0x44, 4, 1, .own, 1, 0⟩, ⟨0x48, 4, 1, .ro, 0xffffffff, 0⟩,
    ⟨0x4c, 4, 1, .own, 0xffffffff, 0⟩, ⟨0x50, 4, 1, .own, 0x1ff01ff, 0⟩, ⟨0x54, 4, 1, .ro, 0x8000010f, 0⟩,
    ⟨0x58, 4, 1, .ro, 0xffffffff, 0⟩, ⟨0x5c, 4, 1, .ro, 0xffff, 0⟩, ⟨0x60, 4, 1, .rw, 0xff, 0⟩,
    ⟨0x64, 4, 1, .rwl, 0xffff, 0x64⟩, ⟨0x64, 4, 1, .own, 0x80000000, 0⟩, ⟨0x68, 4, 1, .own, 0xffffffff, 0⟩,
    ⟨0x6c, 4, 1, .ro, 0x7ffff, 0⟩, ⟨0x70, 4, 1, .own, 1, 0⟩, ⟨0x74, 4, 1, .ro, 0x37, 0⟩,
    ⟨0x78, 4, 1, .ro, 0xffffffff, 0⟩, ⟨0x7c, 4, 1, .ro, 0xffff, 0⟩, ⟨0x80, 4, 1, .ro, 0xffff, 0⟩,
    ⟨0x120, 4, 112, .ro, 0xffffffff, 0⟩, ⟨0x400, 4, 256, .ro, 0xffffffff, 0⟩]

/-- Access rows of the FUR page (R72). -/
def furRows : List RegRow :=
  [⟨0x40, 4, 1, .own, 0xffffffff, 0⟩, ⟨0x44, 4, 1, .ro, 0xffffffff, 0⟩, ⟨0x48, 4, 1, .ro, 0x83ffffff, 0⟩,
    ⟨0x4c, 4, 1, .ro, 0xffffffff, 0⟩, ⟨0x50, 4, 1, .own, 1, 0xff00⟩, ⟨0x50, 4, 1, .rw, 0xff00, 0⟩,
    ⟨0x54, 4, 1, .own, 0x7ff, 0x280⟩, ⟨0x58, 4, 1, .rw, 0xffffffff, 0x4c4b4000⟩,
    ⟨0x5c, 4, 1, .rw, 0xffffffff, 0x1002000⟩, ⟨0x60, 4, 1, .rw, 0xffffffff, 0x80402008⟩, ⟨0x64, 4, 1, .ro, 0xff17, 0⟩,
    ⟨0x68, 4, 1, .ro, 0xffff, 0⟩, ⟨0x6c, 4, 1, .rc, 0xffff, 0⟩, ⟨0x70, 4, 1, .ro, 0xffffffff, 0⟩,
    ⟨0x74, 4, 1, .rc, 0xffffffff, 0⟩, ⟨0x80, 4, 8, .rw, 0xffff, 0⟩]

/-- Access rows of the DRL page (R88). -/
def drlRows : List RegRow :=
  [⟨0x40, 4, 4, .wo, 0xffffffff, 0⟩, ⟨0x50, 4, 1, .ro, 0x81ff0f0f, 0⟩, ⟨0x54, 4, 1, .ro, 0x3ff03ff, 0⟩,
    ⟨0x58, 4, 1, .own, 1, 0⟩, ⟨0x58, 4, 1, .rw, 2, 0⟩, ⟨0x5c, 4, 1, .own, 0xffffffff, 0⟩, ⟨0x60, 4, 1, .sh, 0x3f, 0⟩,
    ⟨0x64, 4, 1, .ro, 0x80ff1fff, 0⟩, ⟨0x68, 4, 1, .rw, 0xfffffff0, 0⟩, ⟨0x6c, 4, 1, .rw, 0xffff, 0⟩,
    ⟨0x70, 4, 1, .rw, 0xf, 8⟩, ⟨0x74, 4, 1, .ro, 0xffffffff, 0⟩, ⟨0x78, 4, 1, .rw, 0xffffffff, 0⟩,
    ⟨0x7c, 4, 1, .rw, 1, 0⟩, ⟨0x80, 4, 1, .rc, 0xffffffff, 0⟩, ⟨0x84, 4, 1, .rc, 0xffffffff, 0⟩,
    ⟨0x88, 4, 1, .ro, 0xffffff, 0⟩, ⟨0x200, 0x10, 32, .sh, 0xffffffff, 0⟩, ⟨0x204, 0x10, 32, .sh, 0xfffffbff, 0⟩,
    ⟨0x208, 0x10, 32, .sh, 0xffffffff, 0⟩, ⟨0x20c, 0x10, 32, .sh, 0xffffffff, 0⟩]

/-- Access rows of the SPN page (R321). -/
def spnRows : List RegRow :=
  [⟨0x40, 4, 1, .own, 7, 0⟩, ⟨0x44, 4, 1, .ro, 0x3773f, 0⟩, ⟨0x48, 4, 1, .ro, 0xffff003f, 0⟩,
    ⟨0x4c, 4, 1, .rw, 0xffffff03, 0x140f0000⟩, ⟨0x50, 4, 1, .rw, 0xffffff, 0x3219⟩,
    ⟨0x54, 4, 1, .rw, 0xffffffff, 0x1e1e3214⟩, ⟨0x58, 4, 1, .rw, 0xffffffff, 0x5dc07d0⟩,
    ⟨0x5c, 4, 1, .rw, 0xffffffff, 0x3001a⟩, ⟨0x60, 4, 1, .rw, 0xffffffff, 0x40040⟩,
    ⟨0x64, 4, 1, .rw, 0xfffff, 0x60fc8⟩, ⟨0x68, 4, 1, .rw, 0xffffffff, 0x35e83390⟩,
    ⟨0x6c, 4, 1, .rw, 0xffffffff, 0x3a983458⟩, ⟨0x70, 4, 1, .rw, 0xffffffff, 0xa1901f4⟩,
    ⟨0x74, 4, 1, .ro, 0xffffffff, 0⟩, ⟨0x78, 4, 1, .ro, 0xffff, 0⟩, ⟨0x7c, 4, 1, .rc, 0xffffffff, 0⟩,
    ⟨0x80, 4, 1, .ro, 0xffff, 0⟩, ⟨0x84, 4, 1, .ro, 0xffff0fff, 0⟩, ⟨0x88, 4, 1, .rc, 0xffffffff, 0⟩,
    ⟨0x8c, 4, 1, .rc, 0xffffffff, 0⟩, ⟨0x90, 4, 1, .ro, 0xffffffff, 0⟩, ⟨0x94, 4, 1, .rc, 0xffffffff, 0⟩,
    ⟨0x98, 4, 1, .ro, 0xffff, 0⟩, ⟨0x9c, 4, 1, .rc, 0xffff, 0⟩]
  ++ [⟨0xa0, 4, 1, .ro, 0xffff, 0⟩, ⟨0xa4, 4, 1, .ro, 0xffff000f, 0⟩, ⟨0xa8, 4, 1, .rc, 0xffffffff, 0⟩,
    ⟨0xac, 4, 1, .ro, 0xffff000f, 0⟩]

/-- Access rows of the MOT page (R286, R287, R454). -/
def motRows : List RegRow :=
  [⟨0x40, 4, 1, .own, 1, 0⟩, ⟨0x44, 4, 1, .ro, 1, 0⟩, ⟨0x48, 4, 4, .rw, 0x3ff, 0x200⟩, ⟨0x58, 4, 1, .rw, 0xf, 0xf⟩,
    ⟨0x5c, 4, 1, .ro, 0xf, 0⟩, ⟨0x60, 4, 4, .rc, 0x3ff, 0⟩, ⟨0x70, 4, 1, .rwl, 0xffff, 0x321e⟩,
    ⟨0x74, 4, 1, .rwl, 0xffffffff, 0x7d01770⟩, ⟨0x78, 4, 1, .ro, 0xffffff0f, 0⟩, ⟨0x100, 0x20, 8, .own, 3, 0⟩,
    ⟨0x104, 0x20, 8, .ro, 0xffff000f, 0⟩, ⟨0x108, 0x20, 8, .rw, 0xf13, 1⟩, ⟨0x10c, 0x20, 8, .rw, 0xffff, 0x1f40⟩,
    ⟨0x110, 0x20, 8, .rw, 0xffffff, 0x52814⟩, ⟨0x114, 0x20, 8, .rw, 0xffffffff, 0x1401f4⟩,
    ⟨0x118, 0x20, 8, .rw, 0xffffffff, 0xf800⟩, ⟨0x11c, 0x20, 8, .ro, 0xffffffff, 0⟩,
    ⟨0x200, 4, 1, .rwl, 0xffffffff, 0x119427d8⟩, ⟨0x204, 4, 1, .rwl, 3, 3⟩, ⟨0x208, 4, 1, .ro, 0x103ff, 0⟩,
    ⟨0x20c, 4, 1, .ro, 0xffff, 0⟩, ⟨0x210, 4, 1, .ro, 0xffff, 0⟩, ⟨0x214, 4, 1, .ro, 0xffff, 0⟩,
    ⟨0x218, 4, 1, .ro, 0x77f07, 0⟩]
  ++ [⟨0x21c, 4, 1, .ro, 0xffffffff, 0⟩, ⟨0x220, 4, 1, .rc, 0xffffffff, 0⟩]

/-- Access rows of the NVS page (R492). -/
def nvsRows : List RegRow :=
  [⟨0x40, 4, 1, .rwl, 0x131f0f, 0x121402⟩, ⟨0x44, 4, 1, .rwl, 0xffffffff, 0⟩,
    ⟨0x48, 4, 1, .rwl, 0xffffffff, 0x12dc05ee⟩, ⟨0x4c, 4, 1, .rwl, 0xffffff, 0x30b006⟩,
    ⟨0x50, 4, 1, .rwl, 0xff07, 0x6000⟩, ⟨0x54, 4, 1, .rw, 1, 0⟩, ⟨0x54, 4, 1, .own, 2, 0⟩,
    ⟨0x58, 4, 1, .ro, 0x37737, 0⟩, ⟨0x5c, 4, 1, .rw, 0x3fffffff, 0⟩, ⟨0x60, 4, 1, .rw, 0xffffffff, 0⟩,
    ⟨0x64, 4, 1, .rw, 0xffff, 0⟩, ⟨0x68, 4, 1, .rw, 0x1ffff, 0x100⟩, ⟨0x6c, 4, 1, .own, 0xf, 0⟩,
    ⟨0x70, 4, 1, .ro, 0x800003ff, 0⟩, ⟨0x74, 4, 1, .rw, 0xffff, 0x1f4⟩, ⟨0x78, 4, 1, .rw, 0xff00ff, 0x280005⟩,
    ⟨0x7c, 4, 1, .ro, 0xffffffff, 0⟩, ⟨0x80, 4, 1, .ro, 0x1ffff, 0⟩, ⟨0x84, 4, 1, .ro, 0x7fff, 0⟩,
    ⟨0x88, 4, 1, .rw, 0x3fff, 0⟩, ⟨0x88, 4, 1, .ro, 0x80000000, 0⟩, ⟨0x8c, 4, 16, .ro, 0x80003fff, 0⟩,
    ⟨0xcc, 4, 1, .rc, 0xffffffff, 0⟩, ⟨0xd0, 4, 1, .rc, 0xffffffff, 0⟩]
  ++ [⟨0xd4, 4, 1, .rc, 0xffffffff, 0⟩, ⟨0x800, 4, 512, .own, 0xffffffff, 0⟩]

/-- Access rows of the SEC page (R508). -/
def secRows : List RegRow :=
  [⟨0x40, 4, 1, .ro, 0x7f03, 0⟩, ⟨0x44, 4, 4, .ro, 0xffffffff, 0⟩, ⟨0x54, 4, 1, .rw, 0x7f, 0⟩,
    ⟨0x58, 4, 1, .ro, 0xffffffff, 0⟩, ⟨0x5c, 4, 1, .ro, 0xffffffff, 0⟩, ⟨0x60, 4, 1, .wo, 0xffffffff, 0⟩,
    ⟨0x64, 4, 1, .wo, 0xffffffff, 0⟩, ⟨0x68, 4, 1, .own, 0xffff007f, 0⟩, ⟨0x6c, 4, 1, .ro, 0x80000003, 0⟩,
    ⟨0x70, 4, 1, .rw, 0xffffffc0, 0⟩, ⟨0x74, 4, 1, .rw, 0xffff, 0⟩, ⟨0x78, 4, 1, .own, 0x30f, 0⟩,
    ⟨0x7c, 4, 1, .ro, 0x8000000f, 0⟩, ⟨0x80, 4, 1, .ro, 0xffffffff, 0⟩, ⟨0x84, 4, 1, .ro, 3, 0⟩,
    ⟨0x88, 4, 1, .ro, 0xf3, 0⟩, ⟨0x8c, 4, 1, .own, 1, 0⟩, ⟨0x90, 4, 1, .ro, 1, 0⟩, ⟨0x100, 4, 33, .ro, 0xffffffff, 0⟩,
    ⟨0x200, 4, 64, .ro, 0xffffffff, 0⟩, ⟨0x300, 4, 16, .ro, 0xffffffff, 0⟩]

/-- Access rows of the XTS page (R509). -/
def xtsRows : List RegRow :=
  [⟨0x40, 4, 18, .wo, 0xffffffff, 0⟩, ⟨0x88, 4, 1, .own, 0x73f, 0⟩, ⟨0x8c, 4, 1, .ro, 0x8000000f, 0⟩,
    ⟨0x90, 4, 1, .ro, 0xffffffff, 0⟩, ⟨0x94, 4, 1, .ro, 0xffffffff, 0⟩, ⟨0x98, 4, 1, .ro, 0xffffffff, 0⟩,
    ⟨0x9c, 4, 1, .ro, 0xffffffff, 0⟩, ⟨0xa0, 4, 1, .rc, 0xffffffff, 0⟩]

/-- Access rows of the GLN page (R355). -/
def glnRows : List RegRow :=
  [⟨0x40, 4, 1, .rw, 0x1ff, 0x1ff⟩, ⟨0x44, 4, 1, .rw, 0xffffffff, 0x3c0064⟩, ⟨0x48, 4, 1, .rw, 0xffff, 0⟩,
    ⟨0x4c, 4, 1, .ro, 0xffffffff, 0⟩, ⟨0x50, 4, 1, .ro, 0xffffffff, 0⟩, ⟨0x54, 4, 1, .ro, 0xffffffff, 0⟩,
    ⟨0x58, 4, 1, .rc, 0xffffffff, 0⟩, ⟨0x5c, 4, 1, .ro, 0xffffffff, 0⟩, ⟨0x60, 4, 1, .rc, 0xffffffff, 0⟩,
    ⟨0x64, 4, 1, .ro, 0xffffffff, 0⟩, ⟨0x68, 4, 1, .ro, 0xffffffff, 0⟩, ⟨0x6c, 4, 1, .ro, 0x83ffffc0, 0⟩,
    ⟨0x70, 4, 1, .ro, 0xffffffc0, 0⟩, ⟨0x74, 4, 1, .ro, 7, 0⟩, ⟨0x78, 4, 1, .rc, 0xffffffff, 0⟩,
    ⟨0x7c, 4, 1, .rc, 0xffffffff, 0⟩, ⟨0x80, 4, 1, .rc, 0xffffffff, 0⟩, ⟨0x84, 4, 1, .ro, 0xffffffff, 0⟩,
    ⟨0x88, 4, 1, .ro, 0x81ffffff, 0⟩, ⟨0x8c, 4, 1, .ro, 0xfff01, 0⟩, ⟨0x90, 4, 1, .ro, 0xe000ffff, 0⟩,
    ⟨0x94, 4, 1, .ro, 0xff01ff, 0⟩, ⟨0x98, 4, 1, .own, 0x1ff, 0⟩]

/-- Access rows of the MDC page (R364). -/
def mdcRows : List RegRow :=
  [⟨0x40, 4, 1, .own, 1, 0⟩, ⟨0x44, 4, 1, .ro, 0x7f3f3f03, 0x3000⟩, ⟨0x48, 4, 1, .rw, 0xffffffff, 0⟩,
    ⟨0x4c, 4, 1, .rw, 0xffff, 0⟩, ⟨0x50, 4, 1, .own, 7, 0⟩, ⟨0x54, 4, 1, .ro, 0x8000000f, 0⟩,
    ⟨0x58, 4, 1, .rc, 0xffffffff, 0⟩, ⟨0x5c, 4, 1, .rc, 0xffffffff, 0⟩, ⟨0x60, 4, 1, .rc, 0xffffffff, 0⟩,
    ⟨0x64, 4, 1, .rc, 0xffffffff, 0⟩, ⟨0x68, 4, 1, .rc, 0xffffffff, 0⟩, ⟨0x6c, 4, 1, .rc, 0xffffffff, 0⟩,
    ⟨0x70, 4, 1, .rc, 0xffffffff, 0⟩, ⟨0x74, 4, 1, .ro, 0xffffffff, 0⟩, ⟨0x78, 4, 1, .ro, 0xffff, 0⟩,
    ⟨0x80, 0x10, 8, .rw, 0xfffff000, 0⟩, ⟨0x84, 0x10, 8, .rw, 0xffff, 0⟩, ⟨0x88, 0x10, 8, .rw, 0xffffff, 0⟩,
    ⟨0x8c, 0x10, 8, .rw, 0x133, 0⟩]

/-- Access rows of the STP page (R209). -/
def stpRows : List RegRow :=
  [⟨0x40, 4, 1, .rw, 0xffffffff, 0x10003e8⟩, ⟨0x44, 4, 1, .rw, 0xffffffe0, 0⟩, ⟨0x48, 4, 1, .rw, 0xffff, 0⟩,
    ⟨0x4c, 4, 1, .rw, 0xf, 8⟩, ⟨0x50, 4, 1, .ro, 0xffffffff, 0⟩, ⟨0x54, 4, 1, .rw, 0xffffffff, 0⟩,
    ⟨0x58, 4, 1, .rc, 0xffffffff, 0⟩, ⟨0x5c, 4, 1, .own, 0x3f, 0⟩, ⟨0x60, 4, 1, .ro, 0x80000f3f, 0⟩,
    ⟨0x64, 4, 1, .ro, 0x17f7f, 0⟩, ⟨0x68, 4, 1, .rc, 0xffffffff, 0⟩, ⟨0x6c, 4, 1, .rc, 0xffffffff, 0⟩,
    ⟨0x70, 4, 1, .rc, 0xffffffff, 0⟩, ⟨0x74, 4, 1, .rc, 0xffffffff, 0⟩, ⟨0x78, 4, 1, .rc, 0xffffffff, 0⟩,
    ⟨0x7c, 4, 1, .rc, 0xffffffff, 0⟩, ⟨0x100, 4, 64, .ro, 0xfff0007, 0⟩, ⟨0x800, 0x10, 64, .rw, 0xff071f, 0⟩,
    ⟨0x804, 0x10, 64, .rw, 0xfffffff, 0⟩, ⟨0x808, 0x10, 64, .rw, 0xffffff00, 0⟩, ⟨0x80c, 0x10, 64, .rw, 0xffff, 0⟩]

/-- Access rows of the AFM page (R164). -/
def afmRows : List RegRow :=
  [⟨0x40, 4, 1, .rw, 3, 2⟩, ⟨0x44, 4, 1, .rw, 0xffff0f1f, 0x2000410⟩, ⟨0x48, 4, 1, .rw, 0xff, 0xff⟩,
    ⟨0x4c, 4, 1, .rw, 0xffff, 0x1020⟩, ⟨0x50, 4, 1, .own, 0x17f, 0⟩, ⟨0x54, 4, 1, .ro, 1, 0⟩,
    ⟨0x60, 4, 4, .wo, 0xffffffff, 0⟩, ⟨0x70, 4, 1, .ro, 0x8000000f, 0⟩, ⟨0x74, 4, 1, .ro, 0xff3f3f, 0⟩,
    ⟨0x78, 4, 1, .rc, 0xffffffff, 0⟩, ⟨0x7c, 4, 1, .rc, 0xffffffff, 0⟩, ⟨0x80, 4, 1, .rc, 0xffffffff, 0⟩,
    ⟨0x84, 4, 1, .rc, 0xffffffff, 0⟩, ⟨0x88, 4, 1, .rc, 0xffffffff, 0⟩, ⟨0x8c, 4, 1, .rc, 0xffffffff, 0⟩,
    ⟨0x90, 4, 1, .rc, 0xffffffff, 0⟩, ⟨0xa0, 4, 8, .ro, 0xff1fff07, 0⟩, ⟨0x100, 4, 192, .ro, 0xffffff07, 0⟩]

/-- Access rows of the BFM page (R342). -/
def bfmRows : List RegRow :=
  [⟨0x40, 4, 1, .rwl, 3, 2⟩, ⟨0x44, 4, 1, .rwl, 0x370fff, 0x20fff⟩, ⟨0x48, 4, 1, .own, 3, 0⟩,
    ⟨0x4c, 4, 1, .ro, 0xffff0f07, 0⟩, ⟨0x4c, 4, 1, .w1c, 8, 0⟩, ⟨0x50, 4, 1, .rw, 0x77, 0x33⟩,
    ⟨0x54, 4, 1, .rc, 0xffffffff, 0⟩, ⟨0x58, 4, 1, .rc, 0xffffffff, 0⟩, ⟨0x60, 4, 6, .rc, 0xffffffff, 0⟩,
    ⟨0x100, 4, 1, .own, 3, 0⟩, ⟨0x104, 4, 1, .ro, 0x7f1, 0⟩, ⟨0x108, 4, 1, .rw, 0x1ffff, 0⟩,
    ⟨0x10c, 4, 1, .own, 0x1ffff, 0⟩, ⟨0x110, 4, 1, .ro, 0xc00fffff, 0⟩, ⟨0x114, 4, 1, .rw, 0xffffffff, 0⟩,
    ⟨0x118, 4, 1, .own, 0xffff, 0⟩, ⟨0x11c, 4, 1, .ro, 0x8700ffff, 0⟩, ⟨0x120, 4, 1, .ro, 0xffffffff, 0⟩,
    ⟨0x124, 4, 4, .ro, 0xffffffff, 0⟩, ⟨0x134, 4, 1, .rc, 0xffffffff, 0⟩]

/-- Access rows of the DMC page (R343). -/
def dmcRows : List RegRow :=
  [⟨0x40, 4, 1, .ro, 0x707, 0⟩, ⟨0x44, 4, 1, .ro, 0xffffff, 0⟩, ⟨0x48, 4, 1, .rc, 0xffffffff, 0⟩,
    ⟨0x4c, 4, 1, .ro, 0xffffffff, 0⟩, ⟨0x50, 4, 1, .rw, 0xff, 0x10⟩, ⟨0x54, 4, 1, .ro, 0xffffffff, 0⟩,
    ⟨0x58, 4, 1, .rc, 0xffffffff, 0⟩, ⟨0x5c, 4, 1, .rc, 0xffffffff, 0⟩]

/-- Access rows of the DMA page (R384, R385). -/
def dmaRows : List RegRow :=
  [⟨0x40, 4, 1, .w1c, 0xffffffff, 0⟩, ⟨0x44, 4, 1, .rw, 0xffffffff, 0⟩, ⟨0x48, 4, 1, .w1c, 0xffffffff, 0⟩,
    ⟨0x4c, 4, 1, .rw, 0xffffffff, 0⟩, ⟨0x50, 4, 1, .rw, 0x7ff, 0x410⟩, ⟨0x54, 4, 1, .ro, 3, 0⟩,
    ⟨0x58, 4, 1, .rw, 0x1f, 0⟩, ⟨0x800, 0x40, 32, .own, 0x101, 2⟩, ⟨0x800, 0x40, 32, .rw, 0x12, 0⟩,
    ⟨0x804, 0x40, 32, .ro, 0xff03ff07, 0⟩, ⟨0x808, 0x40, 32, .rw, 0xffffffc0, 0⟩, ⟨0x80c, 0x40, 32, .rw, 0xffff, 0⟩,
    ⟨0x810, 0x40, 32, .ro, 0xffffffff, 0⟩, ⟨0x814, 0x40, 32, .ro, 0xffff, 0⟩, ⟨0x818, 0x40, 32, .ro, 0xffffffff, 0⟩,
    ⟨0x81c, 0x40, 32, .ro, 0xffffffff, 0⟩, ⟨0x820, 0x40, 32, .ro, 0xffffffff, 0⟩, ⟨0x824, 0x40, 32, .ro, 0xf10f, 0⟩,
    ⟨0x828, 0x40, 32, .ro, 0xffff0fff, 0⟩, ⟨0x82c, 0x40, 32, .ro, 0xffffffff, 0⟩,
    ⟨0x830, 0x40, 32, .ro, 0xffffffff, 0⟩, ⟨0x834, 0x40, 32, .rw, 0xffff, 0x2710⟩,
    ⟨0x838, 0x40, 32, .own, 0xffffffff, 0⟩, ⟨0x83c, 0x40, 32, .rc, 0xffffffff, 0⟩]

/-- Access rows of the HIF page (R414, R415). -/
def hifRows : List RegRow :=
  [⟨0x40, 4, 1, .rwl, 0x17f, 0x4c⟩, ⟨0x44, 4, 1, .rw, 1, 0⟩, ⟨0x44, 4, 1, .own, 6, 0⟩, ⟨0x48, 4, 1, .ro, 0x7f077f, 0⟩,
    ⟨0x4c, 4, 1, .rwl, 0xffffffff, 0⟩, ⟨0x50, 4, 1, .rwl, 0xffffffff, 0⟩, ⟨0x54, 4, 1, .rwl, 0xffffffff, 0x1080201⟩,
    ⟨0x58, 4, 1, .rwl, 0x3f1f, 0xe⟩, ⟨0x5c, 4, 1, .rwl, 0xffffffff, 0⟩, ⟨0x60, 4, 1, .rwl, 0xffffffff, 0⟩,
    ⟨0x64, 4, 1, .own, 0xff, 0⟩, ⟨0x68, 4, 1, .ro, 0x1ff07, 0⟩, ⟨0x6c, 4, 1, .rw, 0xffffffff, 0⟩,
    ⟨0x70, 4, 1, .rc, 0xffffffff, 0⟩, ⟨0x74, 4, 1, .rc, 0xffffffff, 0⟩, ⟨0x78, 4, 1, .rc, 0xffffffff, 0⟩,
    ⟨0x7c, 4, 1, .rc, 0xffffffff, 0⟩, ⟨0x80, 4, 1, .rc, 0xffffffff, 0⟩, ⟨0x84, 4, 1, .rc, 0xffffffff, 0⟩,
    ⟨0x88, 4, 1, .rc, 0xffffffff, 0⟩, ⟨0x8c, 4, 1, .ro, 0xffffffff, 0⟩, ⟨0x90, 4, 1, .ro, 0x8000000f, 0⟩,
    ⟨0x94, 4, 1, .rw, 0x7f, 0x5a⟩, ⟨0x98, 4, 1, .rw, 0xffff0031, 0xa0011⟩]
  ++ [⟨0x9c, 4, 1, .own, 1, 0⟩, ⟨0xa0, 4, 1, .ro, 0x1ffff, 0⟩, ⟨0xa4, 4, 1, .ro, 0xffffffff, 0⟩,
    ⟨0xa8, 4, 1, .w1c, 0xffffffff, 0⟩, ⟨0xac, 4, 1, .w1c, 0xffffffff, 0⟩, ⟨0xb0, 4, 1, .rw, 0x7ff07ff, 0⟩,
    ⟨0xb4, 4, 1, .ro, 0x707ff, 0⟩, ⟨0xb8, 4, 1, .own, 0x7ff, 0⟩, ⟨0xbc, 4, 1, .own, 1, 0⟩,
    ⟨0xc0, 4, 1, .rc, 0xffffffff, 0⟩, ⟨0x100, 0x10, 16, .sh, 0xffffff, 0⟩, ⟨0x104, 0x10, 16, .sh, 0xffffff, 0⟩,
    ⟨0x108, 0x10, 16, .sh, 0xfffff007, 0⟩, ⟨0x10c, 0x10, 16, .sh, 0xffff, 0⟩, ⟨0x200, 4, 64, .own, 0x7ff13, 0⟩]

/-- Access rows of the DBA page (R416). -/
def dbaRows : List RegRow :=
  [⟨0x40, 4, 1, .rw, 0x103ff, 0⟩, ⟨0x44, 4, 1, .rw, 0xffff0071, 0⟩, ⟨0x48, 4, 1, .own, 0xffff, 0⟩,
    ⟨0x48, 4, 1, .ro, 0x10000, 0⟩, ⟨0x4c, 4, 1, .rc, 0xb7ffffff, 0⟩, ⟨0x50, 4, 1, .rc, 0xffffffff, 0⟩,
    ⟨0x54, 4, 1, .rc, 0xffffffff, 0⟩, ⟨0x58, 4, 1, .rc, 0xffffffff, 0⟩, ⟨0x80, 4, 8, .own, 0x8fffffff, 0⟩,
    ⟨0xa0, 4, 8, .ro, 0xfff, 0⟩]

/-- Access rows of the ACT page (R190). -/
def actRows : List RegRow :=
  [⟨0x100, 4, 1, .rw, 0x17fff, 0x200⟩, ⟨0x104, 4, 1, .rw, 0xffff0001, 0x1000001⟩, ⟨0x108, 4, 1, .rw, 0xfff, 0⟩,
    ⟨0x10c, 4, 1, .ro, 0xf0fff, 0⟩, ⟨0x110, 4, 1, .rc, 0xffffffff, 0⟩, ⟨0x114, 4, 1, .rc, 0xffffffff, 0⟩,
    ⟨0x118, 4, 1, .ro, 0xffffffff, 0⟩, ⟨0x11c, 4, 1, .ro, 0xfff, 0⟩]

/-- Access rows of the SRV page (R262). -/
def srvRows : List RegRow :=
  [⟨0x40, 4, 1, .rw, 3, 1⟩, ⟨0x44, 4, 1, .rw, 0xfff0fff, 0xfff⟩, ⟨0x48, 4, 1, .rw, 0x3ff03ff, 0x2000100⟩,
    ⟨0x4c, 4, 1, .rw, 0xff07ffff, 0x18010b3d⟩, ⟨0x50, 4, 1, .rw, 0xffffff, 0x40040⟩, ⟨0x54, 4, 1, .rw, 0xfff, 0xfff⟩,
    ⟨0x58, 4, 1, .ro, 0x30f03ff, 0⟩, ⟨0x5c, 4, 1, .ro, 0xffffffff, 0⟩, ⟨0x60, 4, 1, .rc, 0xffffffff, 0⟩,
    ⟨0x64, 4, 1, .rw, 0xffffffe0, 0⟩, ⟨0x68, 4, 1, .rw, 0xffff, 0⟩, ⟨0x6c, 4, 1, .rw, 0xf, 8⟩,
    ⟨0x70, 4, 1, .ro, 0xffffffff, 0⟩, ⟨0x74, 4, 1, .rw, 0xffffffff, 0⟩, ⟨0x78, 4, 1, .rc, 0xffffffff, 0⟩,
    ⟨0x80, 4, 12, .rw, 0xffffff, 0⟩, ⟨0xc0, 4, 12, .rw, 0xffff, 0⟩, ⟨0x100, 4, 12, .ro, 0x3fffffff, 0⟩,
    ⟨0x140, 4, 12, .ro, 0xffffffff, 0⟩, ⟨0x180, 4, 12, .ro, 0xffffffff, 0⟩, ⟨0x1c0, 4, 12, .rc, 0xffffffff, 0⟩]

/-- Access rows of the TIL page (R263, R264, R265). -/
def tilRows : List RegRow :=
  [⟨0x40, 4, 1, .rw, 0xfffff, 0x42960⟩, ⟨0x44, 4, 1, .rw, 0xfff, 0xfff⟩, ⟨0x48, 4, 1, .own, 0x1fff, 0⟩,
    ⟨0x4c, 4, 1, .own, 0x1fff, 0⟩, ⟨0x50, 4, 1, .own, 0x1fff0003, 0⟩, ⟨0x54, 4, 1, .ro, 0x1fff1fff, 0⟩,
    ⟨0x58, 4, 1, .ro, 0xfff, 0⟩, ⟨0x5c, 4, 1, .rc, 0xffffffff, 0⟩, ⟨0x60, 4, 1, .rc, 0xffffffff, 0⟩,
    ⟨0x64, 4, 1, .rc, 0xffffffff, 0⟩, ⟨0x68, 4, 1, .rc, 0xffffffff, 0⟩, ⟨0x6c, 4, 1, .rc, 0xffffffff, 0⟩,
    ⟨0x100, 0x20, 13, .ro, 0x7ff1f, 0⟩, ⟨0x104, 0x20, 13, .w1c, 0x7f, 0⟩, ⟨0x108, 0x20, 13, .rw, 0xffff, 0⟩,
    ⟨0x10c, 0x20, 13, .ro, 0xffff, 0⟩, ⟨0x110, 0x20, 13, .ro, 0xffffffff, 0⟩, ⟨0x114, 0x20, 13, .ro, 0xffff, 0⟩,
    ⟨0x118, 0x20, 13, .ro, 0xffffffff, 0⟩, ⟨0x11c, 0x20, 12, .own, 0xffff, 0⟩, ⟨0x800, 0x90, 13, .sh, 0xffffffff, 0⟩,
    ⟨0x804, 0x90, 13, .sh, 0xffffffff, 0⟩, ⟨0x808, 0x90, 13, .sh, 0xffffffff, 0⟩,
    ⟨0x80c, 0x90, 13, .sh, 0xffffffff, 0⟩]
  ++ [⟨0x810, 0x90, 13, .sh, 7, 0⟩, ⟨0x814, 0x90, 13, .sh, 0xffffffff, 0⟩, ⟨0x818, 0x90, 13, .sh, 0xffffffff, 0⟩,
    ⟨0x81c, 0x90, 13, .sh, 0xffffffff, 0⟩, ⟨0x820, 0x90, 13, .sh, 0xffffffff, 0⟩, ⟨0x824, 0x90, 13, .sh, 7, 0⟩,
    ⟨0x828, 0x90, 13, .sh, 0xffffffff, 0⟩, ⟨0x82c, 0x90, 13, .sh, 0xffffffff, 0⟩,
    ⟨0x830, 0x90, 13, .sh, 0xffffffff, 0⟩, ⟨0x834, 0x90, 13, .sh, 0xffffffff, 0⟩, ⟨0x838, 0x90, 13, .sh, 7, 0⟩,
    ⟨0x83c, 0x90, 13, .sh, 0xffffffff, 0x40000000⟩, ⟨0x840, 0x90, 13, .sh, 0xffffffff, 0⟩,
    ⟨0x844, 0x90, 13, .sh, 0xffffffff, 0⟩, ⟨0x848, 0x90, 13, .sh, 0xffffffff, 0⟩,
    ⟨0x84c, 0x90, 13, .sh, 0xffffffff, 0⟩, ⟨0x850, 0x90, 13, .sh, 0xffffffff, 0x40000000⟩,
    ⟨0x854, 0x90, 13, .sh, 0xffffffff, 0⟩, ⟨0x858, 0x90, 13, .sh, 0xffffffff, 0⟩,
    ⟨0x85c, 0x90, 13, .sh, 0xffffffff, 0⟩, ⟨0x860, 0x90, 13, .sh, 0xffffffff, 0⟩,
    ⟨0x864, 0x90, 13, .sh, 0xffffffff, 0x40000000⟩, ⟨0x868, 0x90, 13, .sh, 0xffffffff, 0⟩,
    ⟨0x86c, 0x90, 13, .sh, 0xffffffff, 0⟩]
  ++ [⟨0x870, 0x90, 13, .sh, 0xffffffff, 0⟩, ⟨0x874, 0x90, 13, .sh, 0xffffffff, 0⟩,
    ⟨0x878, 0x90, 13, .sh, 0xffffffff, 0x40000000⟩, ⟨0x87c, 0x90, 13, .sh, 0xffffffff, 0⟩,
    ⟨0x880, 0x90, 13, .sh, 0xffffffff, 0⟩, ⟨0x884, 0x90, 13, .sh, 0xffffffff, 0⟩,
    ⟨0x888, 0x90, 13, .sh, 0xffffffff, 0⟩, ⟨0x88c, 0x90, 12, .sh, 0xffffffff, 0x7fff⟩, ⟨0xf4c, 4, 1, .sh, 0xffff, 0x7fff⟩]

/-- Access rows of the PRF page (R285). -/
def prfRows : List RegRow :=
  [⟨0x40, 4, 1, .own, 1, 0⟩, ⟨0x44, 4, 1, .ro, 0xffff0ff7, 0⟩, ⟨0x48, 4, 1, .rw, 0xffffff, 0⟩,
    ⟨0x4c, 4, 1, .rw, 0xffffff, 0xffffff⟩, ⟨0x50, 4, 1, .ro, 0xffffffff, 0⟩, ⟨0x54, 4, 1, .ro, 0xffffffff, 0⟩,
    ⟨0x58, 4, 1, .ro, 0xffff, 0⟩, ⟨0x5c, 4, 1, .ro, 0xffff, 0⟩, ⟨0x60, 4, 1, .ro, 0xffffffff, 0⟩,
    ⟨0x64, 4, 1, .ro, 0xffffffff, 0⟩, ⟨0x68, 4, 1, .rc, 0xffffffff, 0⟩, ⟨0x6c, 4, 1, .rc, 0xffffffff, 0⟩,
    ⟨0x80, 4, 12, .rw, 0xffff, 0⟩, ⟨0x200, 0x20, 16, .rw, 0xfffffff, 0⟩, ⟨0x204, 0x20, 16, .rw, 0x10fff, 0⟩,
    ⟨0x208, 0x20, 16, .rw, 0xffffff, 0⟩, ⟨0x20c, 0x20, 16, .rw, 0xffffffff, 0⟩, ⟨0x210, 0x20, 16, .rw, 0xffffffff, 0⟩,
    ⟨0x214, 0x20, 16, .rw, 0xffffffff, 0⟩, ⟨0x218, 0x20, 16, .rw, 0xffffffff, 0⟩, ⟨0x21c, 0x20, 16, .rw, 0xffffffff, 0⟩]

/-- Access rows of the DIL page (R236). -/
def dilRows : List RegRow :=
  [⟨0x40, 4, 1, .own, 0x1fff, 0⟩, ⟨0x44, 4, 1, .own, 3, 0⟩, ⟨0x48, 4, 1, .ro, 0x1ffff77f, 0⟩,
    ⟨0x4c, 4, 1, .ro, 0x1fffffff, 0⟩, ⟨0x50, 4, 8, .rw, 0xffffffff, 0⟩, ⟨0x70, 4, 1, .ro, 0xffff, 0⟩,
    ⟨0x74, 4, 1, .own, 0xffff, 0⟩, ⟨0x78, 4, 1, .own, 0xffff, 0⟩, ⟨0x7c, 4, 1, .rw, 0xffff, 0⟩,
    ⟨0x80, 4, 16, .rw, 0x1fff, 0⟩, ⟨0xc0, 4, 1, .ro, 0x801f0f0f, 0⟩, ⟨0xc4, 4, 1, .ro, 0xf1f, 0⟩,
    ⟨0xc8, 8, 4, .rw, 0xffffffff, 0⟩, ⟨0xcc, 8, 4, .rw, 0xffff, 0⟩, ⟨0xe8, 4, 1, .rc, 0xffffffff, 0⟩,
    ⟨0xec, 4, 1, .own, 0x31fff, 0⟩, ⟨0xf0, 4, 1, .own, 0xffffffff, 0⟩, ⟨0xf4, 4, 1, .ro, 0x307, 0⟩,
    ⟨0xf8, 4, 1, .ro, 0xffffffff, 0⟩, ⟨0x100, 4, 8, .ro, 0xffffffff, 0⟩, ⟨0x120, 4, 8, .ro, 0x1ff11fff, 0⟩,
    ⟨0x180, 4, 32, .ro, 0xffffffff, 0⟩]

/-- Access rows of the LNK page (R115). -/
def lnkRows : List RegRow :=
  [⟨0x40, 4, 1, .ro, 0xff0703, 0⟩, ⟨0x44, 4, 1, .own, 0xfcffff00, 0⟩, ⟨0x48, 4, 1, .ro, 0xc700ff0f, 0⟩,
    ⟨0x4c, 4, 1, .rw, 0x3ff, 0x1e0⟩, ⟨0x50, 4, 1, .rc, 0xffffffff, 0⟩, ⟨0x54, 4, 1, .rc, 0xffffffff, 0⟩,
    ⟨0x58, 4, 1, .rc, 0xffffffff, 0⟩, ⟨0x5c, 4, 1, .rc, 0xffffffff, 0⟩, ⟨0x60, 4, 1, .ro, 0xfff01, 0⟩,
    ⟨0x60, 4, 1, .own, 2, 0⟩, ⟨0x64, 4, 1, .rwl, 0xff, 0x10⟩, ⟨0x68, 4, 1, .rwl, 0xff, 0⟩, ⟨0x6c, 4, 1, .rwl, 0xff, 0⟩,
    ⟨0x70, 4, 1, .rw, 0xf, 0⟩]

/-- Access rows of ZP0–ZP16: the fields of a parameter set (R99, R120, R174); ZP17 is reserved. -/
def zpRows : List RegRow :=
  [⟨0x80, 4, 1, .sh, 0xf83f0000, 0⟩, ⟨0x84, 4, 1, .sh, 0xffffff, 0⟩, ⟨0x88, 4, 1, .sh, 0xf1f, 0⟩, ⟨0x8c, 4, 1, .sh, 0xffffff, 0⟩,
    ⟨0x90, 4, 1, .sh, 0xf1f, 0⟩, ⟨0x94, 4, 1, .sh, 0xffffff, 0⟩, ⟨0x98, 4, 1, .sh, 0xff0fff3f, 0⟩, ⟨0x9c, 4, 1, .sh, 0xffffff, 0⟩,
    ⟨0xa0, 4, 1, .sh, 0xffff0fff, 0⟩, ⟨0xa4, 4, 1, .sh, 0xffffffff, 0⟩, ⟨0xa8, 4, 1, .sh, 0xffffffff, 0⟩, ⟨0xac, 4, 1, .sh, 0xf01ffff, 0⟩,
    ⟨0xb0, 4, 1, .sh, 0x3fffff7, 0⟩, ⟨0xb4, 4, 1, .sh, 0xff3f3f, 0⟩, ⟨0xb8, 4, 1, .sh, 0x3f3f3f3f, 0⟩, ⟨0xbc, 4, 1, .sh, 0xff, 0⟩,
    ⟨0xc0, 4, 1, .sh, 0x3, 0⟩]

/-- Access rows of the equaliser and detector banks (R128). -/
def bankRows : List RegRow :=
  [⟨0x400, 4, 17, .rw, 0xffffffff, 0⟩, ⟨0x444, 4, 1, .rw, 0xff, 0⟩, ⟨0x448, 4, 12, .rw, 0xffffffff, 0⟩,
    ⟨0x480, 4, 17, .rw, 0xffffffff, 0⟩, ⟨0x4c4, 4, 1, .rw, 0xff, 0⟩, ⟨0x4c8, 4, 12, .rw, 0xffffffff, 0⟩,
    ⟨0x500, 4, 17, .rw, 0xffffffff, 0⟩, ⟨0x544, 4, 1, .rw, 0xff, 0⟩, ⟨0x548, 4, 12, .rw, 0xffffffff, 0⟩,
    ⟨0x580, 4, 17, .rw, 0xffffffff, 0⟩, ⟨0x5c4, 4, 1, .rw, 0xff, 0⟩, ⟨0x5c8, 4, 12, .rw, 0xffffffff, 0⟩,
    ⟨0x600, 4, 17, .rw, 0xffffffff, 0⟩, ⟨0x644, 4, 1, .rw, 0xff, 0⟩, ⟨0x648, 4, 12, .rw, 0xffffffff, 0⟩,
    ⟨0x680, 4, 17, .rw, 0xffffffff, 0⟩, ⟨0x6c4, 4, 1, .rw, 0xff, 0⟩, ⟨0x6c8, 4, 12, .rw, 0xffffffff, 0⟩,
    ⟨0x700, 4, 17, .rw, 0xffffffff, 0⟩, ⟨0x744, 4, 1, .rw, 0xff, 0⟩, ⟨0x748, 4, 12, .rw, 0xffffffff, 0⟩,
    ⟨0x780, 4, 17, .rw, 0xffffffff, 0⟩, ⟨0x7c4, 4, 1, .rw, 0xff, 0⟩, ⟨0x7c8, 4, 12, .rw, 0xffffffff, 0⟩]

/-- Access rows of the HCH page (R105, R145, R189). -/
def hchRows : List RegRow :=
  [⟨0x40, 4, 1, .own, 0x3f, 0⟩, ⟨0x44, 4, 1, .ro, 0x33f03, 0⟩, ⟨0x48, 4, 1, .rw, 0x1f, 0⟩,
    ⟨0x4c, 4, 1, .rc, 0xffffffff, 0⟩, ⟨0x50, 4, 1, .rw, 0xffffff, 0⟩, ⟨0x54, 4, 1, .rw, 0xffffff, 0⟩,
    ⟨0x58, 4, 1, .rc, 0xffffffff, 0⟩, ⟨0x5c, 4, 1, .rc, 0xffffffff, 0⟩,
    ⟨0x100, 4, 1, .rw, 3, 0⟩, ⟨0x104, 4, 1, .rw, 0xffffff00, 0⟩, ⟨0x108, 4, 1, .rw, 0xffff, 0⟩,
    ⟨0x10c, 4, 1, .rw, 0xf00ff, 0x80021⟩, ⟨0x110, 4, 1, .ro, 0xffffffff, 0⟩, ⟨0x114, 4, 1, .rw, 0xffffffff, 0⟩,
    ⟨0x118, 4, 1, .rw, 0xffffffe0, 0⟩, ⟨0x11c, 4, 1, .rw, 0xffff, 0⟩, ⟨0x120, 4, 1, .rw, 0xf, 8⟩,
    ⟨0x124, 4, 1, .ro, 0xffffffff, 0⟩, ⟨0x128, 4, 1, .rw, 0xffffffff, 0⟩, ⟨0x12c, 4, 1, .ro, 0xff0f37, 0⟩,
    ⟨0x130, 4, 1, .rc, 0xffffffff, 0⟩, ⟨0x134, 4, 1, .rc, 0xffffffff, 0⟩, ⟨0x138, 4, 1, .rc, 0xffffffff, 0⟩]
  ++ [⟨0x13c, 4, 1, .rc, 0xffffffff, 0⟩, ⟨0x140, 4, 1, .rc, 0xffffffff, 0⟩, ⟨0x144, 4, 1, .rc, 0xffffffff, 0⟩,
    ⟨0x148, 4, 1, .rc, 0xffffffff, 0⟩, ⟨0x14c, 4, 1, .rc, 0xffffffff, 0⟩, ⟨0x150, 4, 1, .ro, 0xffffff, 0⟩,
    ⟨0x200, 4, 1, .rw, 0xff, 0x40⟩, ⟨0x204, 4, 1, .rw, 0xfffffff0, 0⟩, ⟨0x208, 4, 1, .rw, 0xffff, 0⟩,
    ⟨0x20c, 4, 1, .rw, 0xf, 4⟩, ⟨0x210, 4, 1, .own, 0xffffffff, 0⟩, ⟨0x214, 4, 1, .ro, 0xffffffff, 0⟩,
    ⟨0x218, 4, 1, .rw, 0xfffffff0, 0⟩, ⟨0x21c, 4, 1, .rw, 0xffff, 0⟩, ⟨0x220, 4, 1, .rw, 0xf, 8⟩,
    ⟨0x224, 4, 1, .ro, 0xffffffff, 0⟩, ⟨0x228, 4, 1, .rw, 0xffffffff, 0⟩, ⟨0x22c, 4, 1, .ro, 0xff7fff07, 0⟩,
    ⟨0x230, 4, 1, .own, 1, 0⟩, ⟨0x230, 4, 1, .rw, 2, 0⟩, ⟨0x234, 4, 1, .rc, 0xffffffff, 0⟩,
    ⟨0x238, 4, 1, .rc, 0xffffffff, 0⟩, ⟨0x23c, 4, 1, .rc, 0xffffffff, 0⟩, ⟨0x240, 4, 1, .rc, 0xffffffff, 0⟩]
  ++ [⟨0x244, 4, 1, .rc, 0xffffffff, 0⟩] ++ zpRows ++ bankRows

/-- The page-specific rows of a page kind. -/
def PageKind.rows : PageKind → List RegRow
  | .sys => sysRows
  | .clk => clkRows
  | .pwr => pwrRows
  | .flt => fltRows
  | .fur => furRows
  | .drl => drlRows
  | .spn => spnRows
  | .mot => motRows
  | .nvs => nvsRows
  | .sec => secRows
  | .xts => xtsRows
  | .gln => glnRows
  | .mdc => mdcRows
  | .stp => stpRows
  | .afm => afmRows
  | .bfm => bfmRows
  | .dmc => dmcRows
  | .dma => dmaRows
  | .hif => hifRows
  | .dba => dbaRows
  | .act => actRows
  | .srv => srvRows
  | .til => tilRows
  | .prf => prfRows
  | .dil => dilRows
  | .lnk => lnkRows
  | .hch => hchRows

/-- The page at a position of the register region (R36); none where no row of R36 names one (R34). -/
def pageKind (p : Nat) : Option PageKind :=
  if p < 16 then [PageKind.sys, .clk, .pwr, .flt, .fur, .drl, .spn, .mot, .nvs, .sec, .xts, .gln, .mdc, .stp, .afm, .bfm][p]?
  else if p < 28 then some .dmc
  else if p < 0x33 then
    if p = 0x20 then some .dma else if p = 0x30 then some .hif else if p = 0x31 then some .hif
    else if p = 0x32 then some .dba else none
  else if 0x40 ≤ p ∧ p < 0xC0 then [PageKind.act, .srv, .til, .prf, .dil, .drl, .lnk][p % 16]?
  else if 0x100 ≤ p ∧ p < 0x160 then some .hch else none

/-- Whether an access row covers the register at a 4-byte aligned offset. -/
def RegRow.covers (r : RegRow) (off : Nat) : Bool :=
  decide (r.off ≤ off) && decide ((off - r.off) % r.stride = 0) && decide ((off - r.off) / r.stride < r.cnt)

/-- The access rows of the register at `off` of page `p`: header rows below 0x40, the page's own rows above. -/
def regRows (p off : Nat) : List RegRow :=
  match pageKind p with
  | none => []
  | some k => (if off < 0x40 then hdrRows else k.rows).filter (·.covers off)

/-- The bits of the register that have access code `a`. -/
def accMask (p off : Nat) (a : Acc) : Word :=
  (regRows p off).foldl (fun m r => if r.acc = a then m ||| BitVec.ofNat 32 r.mask else m) 0

/-- Reset value of the register at `off` of page `p` (R13). Three registers stand out: IRQ_ROUTE3 (R51), the POWER_REQ
and POWER_ACK bits, which live in the domain table, and RST_CAUSE (R456). -/
def resetOf (p off : Nat) : Word :=
  if p = 0 ∧ off = 0x40C then 0xF8
  else (regRows p off).foldl (fun m r => m ||| BitVec.ofNat 32 r.reset) 0

end Sys2Proof.Machine
end

