-- ==== Sys2Proof/Machine/State.lean ====
section
/-! DEFINITION. The state of the module as plain data, and the state after reset. Every register the spec names, read-only
status registers included, has its one home in `regs` (its shadow copy in `shadow`, its per-master copy in `mregs`);
the other fields hold what no register holds: queues, work in flight, arrays and timers. -/

namespace Sys2Proof.Machine

/-- The variants of R3. -/
inductive Part where
  | fs9600 | fs9648 | fs9624 | fs9600n | fs9648n | fs9624n
deriving DecidableEq, Repr

/-- Why a step faults. No command does: every error the spec describes is a response, a status or a fault report that
the machine carries on from, so the type has no constructor (safe). -/
inductive Fault where
deriving DecidableEq, Repr

/-- Why a step is refused. -/
inductive Refusal where
  /-- Raised by an arm of `exec` whose command has no meaning yet. Safe: the machine stops. -/
  | notModelled (mnemonic : String)
deriving DecidableEq, Repr

/-- The response of the last bus access: a value (0 for a write) or an error response. -/
structure Resp where
  value : Nat := 0
  err : Bool := false
deriving DecidableEq, Repr

/-- One fault report on its way to FLT (R418): source page and bit, class, base level, sub-unit, requester, access,
address, and the Furrow time of the detection in sub-ticks. -/
structure Report where
  time : Nat
  page : Nat
  bit : Nat
  cls : Nat
  base : Nat
  sub : Option Nat
  master : Nat
  access : Nat
  addr : Nat
  forced : Bool
deriving DecidableEq, Repr

/-- A switched power domain (R441–R447). `st`: 0 OFF, 1 WAIT, 2 RAMP, 3 FILL, 4 TEST, 5 ON, 6 FAILED; `req` its request
bit; `since` when `st` was entered, `ramp0` when RAMP was, `offAt` until when a domain just switched off is not yet off
(sub-ticks); `up` the microseconds of the last power-up. -/
structure Dom where
  st : Nat := 0
  req : Bool := false
  since : Nat := 0
  ramp0 : Nat := 0
  offAt : Nat := 0
  up : Nat := 0
deriving DecidableEq, Repr

/-- One actuator's timing reference of a wedge, as SRVa delivers it (R63): time in unwrapped sub-ticks, decoded wedge
number in its pivot's frame, quality. -/
structure WedgeMeas where
  act : Nat
  time : Int
  wedge : Nat
  good : Bool
deriving DecidableEq, Repr

/-- The angle tracker (R63–R67). `phase` is the predicted time of wedge `idx` (P0 frame) in unwrapped sub-ticks, `period`
the wedge-period estimate in sub-ticks; `acq` the acquiring wedges, newest first; the counts are of consecutive wedges. -/
structure Tracker where
  phase : Rat := 0
  period : Rat := 0
  idx : Nat := 0
  rev : Nat := 0
  acq : List (Rat × Nat) := []
  good : Nat := 0
  bad : Nat := 0
  miss : Nat := 0
  hold : Nat := 0
  disagree : Bool := false
  acqStart : Nat := 0
  noLockTold : Bool := false
deriving DecidableEq, Repr

/-- A pending Drill entry (R73): its words, the admitted launch and close times (unwrapped sub-ticks), the earliest launch
time its occurrence may have (R74), whether it has resolved finally, its place in enqueue order, its slots, the instant at which
it resolves finally as its current resolution predicts it (R74), whether its open has retired and whether it launched, whether its
close keeps no record (R86) or retires SKIPPED (R87). -/
structure Entry where
  w0 : Word
  w1 : Word
  w2 : Word
  w3 : Word
  t : Int
  c : Int
  lo : Int
  fin : Bool
  seq : Nat
  slot : Nat
  slotC : Nat
  point : Rat := 0
  opened : Bool := false
  launched : Bool := false
  quiet : Bool := false
  skipClose : Bool := false
deriving DecidableEq, Repr

/-- A core's direct enqueue of the present FCLK cycle (R227): its place in the order of the cycle, its master and words, when it arrived, the
enqueue number of its entry if it was admitted. -/
structure EnqReq where
  rank : Nat
  master : Master
  w0 : Word
  w1 : Word
  w2 : Word
  w3 : Word
  now : Nat
  seq : Option Nat := none
deriving DecidableEq, Repr

/-- A Drill queue: pending entries, enqueue count, running retire count (R85, from 0 at reset: DESIGN CHOICE, log 112), a batch waiting for admission with its
commit time and EPOCH (R81), the time its link is next free for a serialised action (R78), the direct enqueues of an FCLK cycle with that
cycle plus 1. -/
structure DrillQ where
  ents : List Entry := []
  seq : Nat := 0
  retired : Nat := 0
  batch : Option (Nat × Nat) := none
  linkFree : Nat := 0
  reqs : List EnqReq := []
  reqCycle : Nat := 0
deriving DecidableEq, Repr

/-- One reader's adaptation loops (R96, R97), each with 8 fraction bits, its runs of clipped and of identical samples inside
the gate (R93), and the runs that have reached their length and are still to be reported. -/
structure Reader where
  vga : Int := 0
  ofs : Int := 0
  asym : Int := 0
  clipRun : Nat := 0
  sameRun : Nat := 0
  last : Int := 0
  clipDue : Nat := 0
  stuckDue : Nat := 0
deriving DecidableEq, Repr

/-- A head channel's front end (R94–R104): the two readers, when a dozing front end is ready (none: powered down), when it powers
down after a servo window (R240), the EPOCH at the last read-gate close, samples taken in the open gate, when a commit last changed the set. -/
structure Afe where
  rdA : Reader := {}
  rdB : Reader := {}
  readyAt : Option Nat := none
  sleepAt : Option Nat := none
  closeEpoch : Option Nat := none
  samples : Nat := 0
  settleTo : Nat := 0
deriving DecidableEq, Repr

/-- Who asked for an Adeub frame (R112). -/
inductive TxFrom where
  | page | drill | alert
deriving DecidableEq, Repr

/-- An Adeub command frame (R107), its retransmissions so far, and the time of its last bit once sent. -/
structure Tx where
  typ : Nat
  head : Nat
  seq : Nat
  reg : Nat
  data : Nat
  source : TxFrom
  tries : Nat := 0
  sentEnd : Nat := 0
deriving DecidableEq, Repr

/-- An Adeub link (R106–R114): the next SEQ, transmissions awaiting a response (oldest first) and a retransmission, an
alert STATUS_REQ waiting to be sent, the CMD FIFO, when the next frame may start, since when AALERT is high and
unmasked, the last command frame put on ADO. -/
structure Link where
  seq : Nat := 0
  unans : List Tx := []
  retx : List Tx := []
  alert : Bool := false
  fifo : List Tx := []
  nextStart : Nat := 0
  alertAt : Nat := 0
  ado : Nat := 0
deriving DecidableEq, Repr

/-- A record on its way to STP (R197): head, SECTOR_ID, whether a write record, STATUS (read) or 1 for WRITTEN (write),
FINAL, landing slot (0xFFFF none), W1 time, whether a write record's sector drove a fragment. -/
structure StpRec where
  head : Nat
  sid : Nat
  write : Bool
  status : Nat
  final : Bool
  land : Nat
  time : Nat
  driven : Bool := true
deriving DecidableEq, Repr

/-- Timing recovery and equalisation of a gate's samples (R122–R125): the last 8 corrected sample pairs, newest first (none:
not of this gate); samples taken; the next sample interval, by the sample at which it starts, and the phase accumulator there,
in 2^-32 symbol; F; the last 16 interpolated pairs, newest first; symbols so far, their instants (newest first, in quarters of a
sub-tick), pairs formed and not yet retained (newest first); the taps CA0–CA15, CB0–CB15 as adapted, in 2^-14; whether F has
reached its clamp; the first of the free numbers that stand for equaliser outputs at the fragment's start. -/
structure Chain where
  win : List (Option (Int × Int)) := []
  n : Nat := 0
  j : Int := 0
  phi : Int := 0
  f : Nat := 0
  us : List (Int × Int) := []
  m : Nat := 0
  ts : List Nat := []
  kept : List (BitVec 12) := []
  taps : List Rat := []
  clamp : Bool := false
  seed : Nat := 0
deriving DecidableEq, Repr

/-- A read sector (R116–R144): SECTOR_ID and options of its first fragment, the set latched there, its fragments so far
with their symbol counts, first-symbol times and symbol instants (quarters of a sub-tick), the Aftermath slot it holds and whether
it ran without one, its landing slot, its framing (`mark`: 0 sync search, 1 resync search, 2 framed, 3 missed), passes, F at its last
close, the accumulator there (2^-32 symbol) and the SCLK edge at which it stands, the copy of its equaliser and detector bank with
the taps as adapted (R125), the LLRs of its last detector pass. -/
structure RdSector where
  sid : Nat
  opts : Nat
  set : List Word
  zone : Nat
  epoch : Nat
  frags : Nat := 0
  syms : List Nat := []
  times : List Nat := []
  lastClose : Nat := 0
  slot : Option Nat := none
  unret : Bool := false
  land : Nat := 0xFFFF
  oneReader : Bool := false
  mark : Nat := 0
  markOfs : Int := 0
  markSrc : Bool := false
  markFrag : Nat := 0
  markTime : Nat := 0
  passes : Nat := 0
  clamp : Bool := false
  freq : Nat := 0
  phi : Int := 0
  edge : Nat := 0
  insts : List (List Nat) := []
  bank : List Word := []
  taps : List Rat := []
  llr : List Int := []
deriving DecidableEq, Repr

/-- An open read gate: whether it belongs to the receiving sector (an ORPHAN or mismatched fragment does not), background,
its open and close times, the set it latched, the chain of its samples. -/
structure RdGate where
  live : Bool
  bg : Bool
  opened : Int
  closes : Int
  set : List Word
  zone : Nat
  last : Bool
  chain : Chain := {}
deriving DecidableEq, Repr

/-- The read path of a head channel: the open gate, the sector being received or pending, closed sectors in detection or
decoding (oldest first), the slot its previous sector claimed, the running record count. -/
structure RdHead where
  gate : Option RdGate := none
  recv : Option RdSector := none
  dec : List RdSector := []
  lastSlot : Option Nat := none
  seq : Nat := 0
deriving DecidableEq, Repr

/-- An Aftermath job (R155, R159): type 1 REDECODE, 2 REFRAME, 3 JOINT, 4 SWEEP; the bank that EQ_SRC names, copied at
submission; `hand` a sweep handed over by R132, `back` once it has returned to its queue (R162). -/
structure Job where
  typ : Nat
  head : Nat
  slot : Nat
  slot2 : Option (Nat × Nat) := none
  hint : Nat := 0
  iterMax : Nat := 0
  passes : Nat := 0
  ofs : Int := 0
  scale : Nat := 0
  eqSrc : Nat := 0
  bank : List Word := []
  dest : Nat := 0
  hand : Bool := false
  back : Bool := false
deriving DecidableEq, Repr

/-- How a job ends: STATUS, the offset of its final try, iterations, passes, unsatisfied checks, the decoded payload if it
succeeded. -/
structure TryEnd where
  status : Nat
  ofs : Int := 0
  iters : Nat := 0
  passes : Nat := 0
  unsat : Nat := 0
  data : Option (List Byte) := none
deriving DecidableEq, Repr

/-- A deep decoder at work: its job, the offset of the try in progress and when it began, whether that try goes on past the check of
SWEEP_CFG (R158), the offsets left, tries done, the hint windows it applies (R154), the equaliser and detector words it detects with
(EQ_SRC), the LLRs its decoder had in the last try, the job's end once known. -/
structure DeepRun where
  job : Job
  cur : Int := 0
  since : Nat := 0
  past : Bool := false
  left : List Int := []
  tries : Nat := 0
  wins : List (Nat × Nat) := []
  eq : List Word := []
  llr : List Int := []
  ended : Option TryEnd := none
deriving DecidableEq, Repr

/-- What AFM keeps with a slot beside its descriptor: the re-frame offsets whose codeword lies within the retained symbols
(R157), fragment and retained index of the framing mark, the STRIPE option (R197), and what places codeword symbols: the set, the
symbol counts of the fragments, the mark's shift (R119). -/
structure SlotInfo where
  lo : Int := 0
  hi : Int := 0
  markFrag : Nat := 0
  markIdx : Int := 0
  stripe : Bool := false
  set : List Word := []
  syms : List Nat := []
  shift : Int := 0
deriving DecidableEq, Repr

/-- Aftermath: queued sweep and firmware jobs in arrival order, the running deep decoders, what is kept with slots. -/
structure Afm where
  sweeps : List Job := []
  jobs : List Job := []
  runs : List (Nat × DeepRun) := []
  info : List (Nat × SlotInfo) := []
deriving DecidableEq, Repr
/-- A write descriptor as fetched (R167), with the payload bytes taken so far (R168). -/
structure WrDesc where
  src : Nat
  addr : Nat
  sid : Nat
  tag : Nat
  payload : List Byte := []
deriving DecidableEq, Repr

/-- The cells of a fragment (R171): index of its first cell, symbols before the codeword's, codeword and resync symbols, pad,
whether the sector's rest fits in it. -/
structure WrPlan where
  first : Nat
  lead : Nat
  body : Nat
  pad : Nat
  ends : Bool
deriving DecidableEq, Repr

/-- A driven write gate: open, close, its plan, whether it goes on past a supply-loss decision (R183). -/
structure WrGate where
  opened : Int
  closes : Int
  plan : WrPlan
  kept : Bool := false
deriving DecidableEq, Repr

/-- A write sector, driving or pending (R171, R172): SECTOR_ID and options of its first fragment, the set latched there,
fragments driven, boundary 0, codeword and resync symbols written by closed fragments, whether a gate of it was driven
during an unanswered alert (R182). -/
structure WrSector where
  sid : Nat
  opts : Nat
  set : List Word
  zone : Nat
  epoch : Nat
  frags : Nat := 0
  start : Int := 0
  done : Nat := 0
  lastClose : Nat := 0
  alert : Bool := false
deriving DecidableEq, Repr

/-- A write record (R187). -/
structure WrRec where
  sid : Nat
  cause : Nat
  stripe : Bool
  pattern : Bool
  frags : Nat
  first : Nat
  dropped : Nat
  zone : Nat
  epoch : Nat
deriving DecidableEq, Repr

/-- What the write-data output has carried for a fragment (R165, R174–R176), times in sub-ticks at the balls: the exit from electrical
idle, the level of the first cell, the transitions, the entry into electrical idle. -/
structure WrWave where
  begins : Rat := 0
  level : Bool := false
  edges : List Rat := []
  ends : Rat := 0
deriving DecidableEq, Repr

/-- The write path of a head channel: the driven gate, the driving or pending sector, descriptors fetched (the one at WQ_RD
first), held records, the running record count, the information bytes of the last sector WRITTEN, the output of the last fragment
driven, the last drop by an inhibit (its FCLK cycle plus 1, the cause named, where its record stands in memory). -/
structure WrHead where
  gate : Option WrGate := none
  sec : Option WrSector := none
  descs : List WrDesc := []
  held : List WrRec := []
  seq : Nat := 0
  out : List Byte := []
  wave : WrWave := {}
  cut : Nat × Nat × Option Nat := (0, 0, none)
deriving DecidableEq, Repr

/-- The PES guard of a head (R179): consecutive in-limit samples in an open window, consecutive bad samples. -/
structure PesGuard where
  good : Nat := 0
  bad : Nat := 0
deriving DecidableEq, Repr
/-- A stripe in progress (R196–R203): launch time; members decided, lost, timed out and waiting for an Aftermath record, as
masks of positions; payload addresses of surviving members; first-fragment times of write members; the data members whose descriptor
has reached their head, each with its payload address and the bytes that BFM has served of it (R26, R198); the bytes that parity
members have taken (R199). -/
structure Stripe where
  launch : Nat := 0
  decided : Nat := 0
  lost : Nat := 0
  tmo : Nat := 0
  waiting : Nat := 0
  addrs : List (Nat × Nat) := []
  times : List Nat := []
  feed : List (Nat × Nat × List Byte) := []
  took : List (Nat × Nat) := []
deriving DecidableEq, Repr
/-- A Dill sequencer beside its registers (R210–R231): the three stores, the flags Z, N, C, V, E from bit 0, whether the
operation of the word at PC is done, whether it is a read of the NOR window that waits for its data, whether that word precedes any event (R225), the run of HOLD words, the staging, a stop
request with its status (R222), the parts of a word being loaded. -/
structure Dil where
  micro : List (Nat × Nat) := []
  nano : List (Nat × Nat) := []
  dmem : List (Nat × Nat) := []
  flags : Nat := 0
  opDone : Bool := false
  xrd : Bool := false
  noEvent : Bool := false
  holdRun : Nat := 0
  entries : List (Word × Word × Word × Word) := []
  writes : List (Nat × Nat × Word) := []
  stopReq : Option Nat := none
  part : Nat := 0
deriving DecidableEq, Repr
/-- A head's servo position: the last good position in 1/4,096 track, the last velocity in the same per sample, whether the last
sample was good in a window (R242). -/
structure SrvHead where
  pos : Int := 0
  vel : Int := 0
  good : Bool := false
deriving DecidableEq, Repr

/-- The servo demodulator of an actuator: samples taken, the reference time T of the last (sub-ticks, R248), when each head's PES
was ready after T, the run of TIME_OK samples with consecutive wedges of the head VCM_CFG.REF_K names, its last wedge and that head
(R279), the words of the PES capture record not yet written (R247). -/
structure Srv where
  n : Nat := 0
  t : Int := 0
  rdy : List Nat := []
  run : Nat := 0
  runW : Nat := 0
  runK : Nat := 0
  pcap : List Nat := []
deriving DecidableEq, Repr

/-- A Tiller loop beside its registers (R250–R261): d, the notch states s1 and s2 of each section, the requested mode, the samples
from which a pending hand-over and a pending close act, whether the hand-over is firmware's, the computed output not yet in
force, when it was ready after T, the last sample handled, whether its miss limit has been reported; the FCLK cycle of the last
Drill addition to MA_REF (plus 1), MA_REF without the additions of that cycle, and these (R249). -/
structure TilLoop where
  d : Int := 0
  ns : List (Int × Int) := [(0, 0), (0, 0), (0, 0), (0, 0)]
  hoMode : Nat := 0
  hoFrom : Nat := 0
  clFrom : Nat := 0
  fw : Bool := false
  res : Option Int := none
  ready : Nat := 0
  stamp : Nat := 0
  missTold : Bool := false
  maCycle : Nat := 0
  maBase : Int := 0
  maAdds : List Int := []
deriving DecidableEq, Repr

/-- The Tillers of an actuator: the sample of the last frame, of the last hand-over and of READY_LAST, whether the overrun limit
has been reported, the frame on its way to MOT (loops 0–12). -/
structure Til where
  frameN : Nat := 0
  hoN : Nat := 0
  readyN : Nat := 0
  limTold : Bool := false
  frame : Option (List Int) := none
deriving DecidableEq, Repr

/-- A jerk-limited profile (R272) in samples and tracks: distance, jerk, peak velocity, tj, ta, tc. -/
structure Plan where
  dist : Rat := 0
  jerk : Rat := 0
  vp : Rat := 0
  tj : Rat := 0
  ta : Rat := 0
  tc : Rat := 0
deriving DecidableEq, Repr

/-- An abort stop (R277): the sample at which it begins, displacement, velocity and acceleration there, the peak deceleration with
its sign, the times of its three phases. -/
structure StopPlan where
  n0 : Nat := 0
  s0 : Rat := 0
  v0 : Rat := 0
  a0 : Rat := 0
  ap : Rat := 0
  t1 : Rat := 0
  th : Rat := 0
  t3 : Rat := 0
deriving DecidableEq, Repr

/-- The profile generator of an actuator (R269–R277): starts launched and not yet decided (slot, its words as read, the sample
count at the launch), samples for which NO_POSITION has held, the running slot's words, its reference head, x0 and the
target (1/4,096 track), the plan and stop, samples since the start, the last sample handled, the reference in 1/4,096 track and
the feed-forward in force, x_hold, the settle or follow count, an abort asked for, what has been requested (1 SETTLE, 2
FOLLOW), and the sample of that request. -/
structure Prf where
  starts : List (Nat × List Word × Nat) := []
  waited : Nat := 0
  words : List Word := []
  refK : Nat := 0
  x0 : Int := 0
  tgt : Int := 0
  plan : Plan := {}
  stop : Option StopPlan := none
  n : Nat := 0
  last : Nat := 0
  ref : Int := 0
  ff : Int := 0
  hold : Int := 0
  cnt : Nat := 0
  abort : Bool := false
  want : Nat := 0
  wantN : Nat := 0
deriving DecidableEq, Repr

/-- An actuator at MOT: the VCM code and the 12 microactuator codes applied (R268), the first servo sample whose frame is applied
(R279), when its ramp state was entered, whether retract phase 2 runs and since when (R282). -/
structure Mact where
  vcm : Int := 0
  ma : List Int := []
  from_ : Nat := 0
  since : Nat := 0
  ph2 : Option Nat := none
deriving DecidableEq, Repr

/-- The motion die beside its registers: the CAUSE of a retract asked for, an emergency stop asked for, the boost turned off by a
retract, actuators whose UNLOAD a fencing commands (R281), whether VIN12_MIN holds a sample (R454). -/
structure Mot where
  retractReq : Option Nat := none
  emergReq : Bool := false
  boostOff : Bool := false
  unloadReq : List Nat := []
  vinSeen : Bool := false
deriving DecidableEq, Repr

/-- The spindle controller beside its registers (R288–R320), times in sub-ticks: entry into the state and into ALIGN, the open-loop
step, commutation times (newest first), the last crossing and whether an accepted one awaits its commutation, consecutive
misses, misses since a catch, TQ_I in mA, largest shift and counts of the electrical period, electrical periods of the
revolution, good revolutions, the last revolution outside ±0.5 %, the grid (time, carried remainder, wedge), overrides on
their way (A, OP, LEN), QUIET windows, the end of TQ_HOLD, the braking limit, when the chopper turned on, an
emergency since STOPPED, the bridge off by over-current. -/
structure Spn where
  since : Nat := 0
  alignAt : Option Nat := none
  stepLen : Rat := 0
  comm : List Int := []
  zc : Rat := 0
  zcNew : Bool := false
  miss : Nat := 0
  catching : Option Nat := none
  tqI : Rat := 0
  maxShift : Nat := 0
  shifted : Nat := 0
  narrow : Nat := 0
  eper : Nat := 0
  good : Nat := 0
  revBad : Bool := false
  gridT : Rat := 0
  gridRem : Nat := 0
  gridW : Nat := 0
  ovr : List (Nat × Nat × Nat) := []
  quiet : List (Nat × Nat) := []
  holdUntil : Nat := 0
  brakeLim : Rat := 0
  chopSince : Nat := 0
  emerg : Bool := false
  bridgeOff : Bool := false
deriving DecidableEq, Repr
/-- A request waiting at a buffer-memory resource (R333): requester, class, access within one 64 B line, the slot of its resource at
which it arrived. -/
structure BufReq where
  master : Master
  cls : Nat
  write : Bool
  addr : Nat
  len : Nat
  data : List Byte
  slot : Nat
deriving DecidableEq, Repr

/-- The SRT lookup engine (R338–R341): lookups waiting in arrival order and the one in progress, each a master and its key; a shift in
progress (INDEX, DIR); a scan in progress. -/
structure Srt where
  queue : List (Master × Nat) := []
  run : Option (Master × Nat) := none
  shift : Option (Nat × Bool) := none
  check : Bool := false
deriving DecidableEq, Repr

/-- The Gleaner's laps (R352, R353): whether an SRAM and a DRAM lap run, when they began, whether their lateness has been
reported; the slot counts of the last beat per resource (R354). -/
structure Gln where
  sramOn : Bool := false
  dramOn : Bool := false
  sramStart : Nat := 0
  dramStart : Nat := 0
  sramLate : Bool := false
  dramLate : Bool := false
  beats : List (Nat × Nat) := []
deriving DecidableEq, Repr

/-- An MDC entry (R357, R361): line address, dirty, data, when last used, corrected errors of the count period, prefetched and
not yet hit. -/
structure MdcEntry where
  line : Option Nat := none
  dirty : Bool := false
  data : List Byte := []
  used : Nat := 0
  ces : Nat := 0
  pf : Bool := false
deriving DecidableEq, Repr

/-- A core's or sequencer's request: address, length, write data. -/
structure MdcReq where
  master : Master
  write : Bool
  addr : Nat
  len : Nat
  data : List Byte
deriving DecidableEq, Repr

/-- A fill in flight: line, entry, requesters waiting for it in order, prefetch, whether it may allocate. -/
structure MdcFill where
  line : Nat
  entry : Nat
  reqs : List MdcReq := []
  pf : Bool := false
  alloc : Bool := true
deriving DecidableEq, Repr

/-- The metadata cache (R356–R363): entries, fills in flight, victim lines whose write-back runs (with their data), requests that
wait for a place or for cleaning, maintenance operations in arrival order (master, OP, address, RESULT), the use counter. -/
structure Mdc where
  ents : List (Nat × MdcEntry) := []
  fills : List MdcFill := []
  victims : List (Nat × List Byte) := []
  waits : List MdcReq := []
  maint : List (Master × Nat × Nat × Nat) := []
  clock : Nat := 0
deriving DecidableEq, Repr
/-- A TLP that a port has taken and whose acknowledgement has not come (R370, R402). `kind`: 0 a DMA write, 1 an MSI-X message,
2 Assert_INTA, 3 Deassert_INTA, 4 PM_PME. -/
structure Tlp where
  kind : Nat
  chan : Nat := 0
  seq : Nat := 0
  addr : Nat := 0
  data : List Byte := []
  relax : Bool := false
  nosnoop : Bool := false
deriving DecidableEq, Repr

/-- A read request to the host: the offset in its transfer, host address, length, bytes returned so far. -/
structure RdReq where
  off : Nat
  host : Nat
  len : Nat
  got : Nat := 0
deriving DecidableEq, Repr

/-- A DMA descriptor in flight (R365–R370): its address, its 64 B as fetched, SEQ, the time of the fetch, bytes issued, bytes
delivered, received bytes that wait for their data unit (by offset), reads outstanding, and the error it ends with: STATUS,
DETAIL and address. -/
structure DmaDesc where
  addr : Nat
  raw : Nat
  seq : Nat
  since : Nat
  pos : Nat := 0
  given : Nat := 0
  parts : List (Nat × List Byte) := []
  reads : List RdReq := []
  err : Option (Nat × Nat × Nat) := none
deriving DecidableEq, Repr

/-- A DMA channel beside its registers: descriptors in flight, the address to fetch next, the trail (R372), a posted loss not yet
reported (its address), no further fetch in this chain, stopped by an error, an error made by FLT_FORCE that is still to be reported
(R374). -/
structure DmaChan where
  descs : List DmaDesc := []
  next : Nat := 0
  trail : List Nat := []
  lost : Option Nat := none
  last : Bool := false
  halt : Bool := false
  forced : Bool := false
deriving DecidableEq, Repr

/-- A host port beside its registers: TLPs taken, configuration space (by dword offset), MSI-X table (by dword index) and PBA, the INTx
message last sent, when an FLR began, when training began and whether its failure was told, WAKE# driven low, the DOE Error bit and
the DOE response still to be read, since when the transmit queue has stayed below 8 KiB (plus 1), the trained width, and the
last completion given to the host: its status (0 Successful, 1 Unsupported Request, 2 Request Retry, 4 Completer Abort) and data. -/
structure Port where
  txq : List Tlp := []
  cfg : List (Nat × Word) := []
  msix : List (Nat × Word) := []
  pba : List Nat := []
  intx : Bool := false
  flrAt : Option Nat := none
  trainAt : Option Nat := none
  trainTold : Bool := false
  wake : Bool := false
  doeErr : Bool := false
  doeOut : List Word := []
  idleAt : Nat := 0
  width : Nat := 0
  cpl : Nat := 0
  cplData : List Byte := []
deriving DecidableEq, Repr
/-- A doorbell (R397): EN[0], CORE[6:4], SIZE[31:16] as DB_CFG gives them; its value; the core whose list holds it. -/
structure Doorbell where
  cfg : Word := 0
  value : Nat := 0
  pend : Option Nat := none
deriving DecidableEq, Repr

/-- An entry of a core's doorbell list: port, doorbell, and the value of a RANGE write delivered as INVALID (R397). -/
structure DbEvent where
  port : Nat
  db : Nat
  bad : Option Nat := none
deriving DecidableEq, Repr
/-- A step of a program or erase (R478, R485, R486): a program page (NOR address, buffer address, length), a sector erase, a journal
record (NOR address, TYPE, SECTOR, W1). -/
inductive NorStep where
  | page (a src n : Nat)
  | erase (sector : Nat)
  | record (a typ sector w1 : Nat)
deriving DecidableEq, Repr

/-- A serial-flash operation (R478): command, sector, steps left with how many of them are the rollover's, when the command of the
first was issued or its erase resumed, whether it has been retried, the bytes it programs, the STATUS with which the operation ends
once known. -/
structure NorOp where
  cmd : Nat
  sector : Nat
  steps : List NorStep := []
  roll : Nat := 0
  since : Nat := 0
  tried : Bool := false
  data : List Byte := []
  ended : Option Nat := none
deriving DecidableEq, Repr

/-- A read of the NOR window that waits: requester, NOR address, length, whether it has been retried. -/
structure NorRead where
  master : Master
  a : Nat
  n : Nat
  tried : Bool := false
deriving DecidableEq, Repr

/-- The serial-flash controller beside its registers: the operation in progress, a suspended erase, a suspend asked for by firmware and
by a read (R481, R476), when a suspend was issued (plus 1) and whether it has been retried, an auto-suspend in force, a firmware suspend in
force, a resume that waits (R482), queued reads, the suspect set ascending (R488), what probing found (R474). -/
structure Nvs where
  op : Option NorOp := none
  susp : Option NorOp := none
  fwWant : Bool := false
  autoWant : Bool := false
  issued : Nat := 0
  suspTried : Bool := false
  autoIn : Bool := false
  fwIn : Bool := false
  resume : Bool := false
  reads : List NorRead := []
  suspects : List Nat := []
  probe : Option (Bool × Bool) := none
deriving DecidableEq, Repr
/-- A job of the security block (R500): OP and MEAS. -/
structure SecJob where
  op : Nat
  meas : Nat := 0
deriving DecidableEq, Repr

/-- The security block beside its registers: the fuse rows that differ from blank (row 2 holds VARIANT), the rows as stage FUSE read
them, the row being programmed with its value before and the bits to set, the job in progress, the identity private key, the
key-wrapping key. -/
structure Sec where
  fuses : List (Nat × Nat) := []
  used : List (Nat × Nat) := []
  prog : Option (Nat × Nat × Nat) := none
  job : Option SecJob := none
  idKey : Option Nat := none
  kek : List Byte := []
deriving DecidableEq, Repr
/-- An unfence request on its way (R430): page, sub-unit if it names one, RESULT. -/
structure UnfenceReq where
  page : Nat
  sub : Option Nat
  result : Nat
deriving DecidableEq, Repr

/-- The module. -/
structure State where
  /-- Commands waiting, first in, first out. -/
  pending : List Instr := []
  /-- Furrow time since the ROOT PLL locked, in sub-ticks, unwrapped (R58, R59). -/
  time : Nat := 0
  part : Part := .fs9600
  regs : List (Nat × Word) := []
  shadow : List (Nat × Word) := []
  mregs : List (Nat × Word) := []
  /-- Buffer memory, SRAM and DRAM, in canonical form. -/
  mem : List Host.Cell := []
  /-- The bytes of the ZPT region as they stood at the start of an FCLK cycle, where writes of that cycle have changed them (R100): the
  cycle plus 1, and the bytes by address. -/
  zptOld : Nat × List (Nat × Byte) := (0, [])
  resp : Resp := {}
  /-- Lines of 64 B (by line address) whose stored word holds an uncorrectable error (R331, R351). -/
  badLines : List Nat := []
  /-- The model's own counter of free values drawn so far. -/
  free : Nat := 0
  /-- Fault reports not yet graded, in the order of R420. -/
  fltq : List Report := []
  dom : List (Nat × Dom) := []
  /-- Domains in WAIT, in order of arrival (R443). -/
  domWait : List Nat := []
  /-- Pages whose soft reset has not finished (R43). -/
  resetting : List Nat := []
  /-- Claimed interrupt sources, each with its target and the IRQ_ROUTE in force at the claim (R52). -/
  claims : List (Nat × Nat × Word) := []
  trk : Tracker := {}
  /-- Timing references delivered for the current wedge and not yet used (R63). -/
  meas : List WedgeMeas := []
  /-- Drill queues: DRLa under key a, DRLD under key 8. -/
  drl : List (Nat × DrillQ) := []
  afe : List (Nat × Afe) := []
  lnk : List (Nat × Link) := []
  rdh : List (Nat × RdHead) := []
  afm : Afm := {}
  /-- Records on their way to STP, in order (R197). -/
  stpIn : List StpRec := []
  /-- Fenced sub-units: page position, sub-unit index (R423), class of the fence. -/
  subFence : List (Nat × Nat × Nat) := []
  /-- The time of each page's armed commit plus 1 (R54); none while the commit waits for an APPLY. -/
  commitAt : List (Nat × Nat) := []
  /-- The FCLK cycle of each page's last commit plus 1 (R57). -/
  lastCommit : List (Nat × Nat) := []
  /-- The values from before the copy of registers that a page's last commit changed, by register key (R57). -/
  preCopy : List (Nat × Word) := []
  wrh : List (Nat × WrHead) := []
  pesGuard : List (Nat × PesGuard) := []
  /-- An alert of an actuator's link between its rise and the reply: 1 without, 2 with the ALERT inhibit (R182). -/
  alertSt : List (Nat × Nat) := []
  /-- When the shock inhibit of an actuator closes, plus 1 (R180). -/
  shockEnd : List (Nat × Nat) := []
  /-- Since when a shock sensor is above its threshold (R153). -/
  shockSince : Nat := 0
  /-- The supply-loss decision td (R449), and whether its write window has closed (R183). -/
  supply : Option Nat := none
  windowClosed : Bool := false
  /-- The DEVICE write inhibit (R178, R421). -/
  deviceInh : Bool := false
  /-- The die-to-die link is lost (R15, R178). -/
  d2dLost : Bool := false
  stripes : List (Nat × Stripe) := []
  /-- Stripes in READY, in the order in which they became READY (R202). -/
  stpReady : List Nat := []
  stpSeq : Nat := 0
  dil : List (Nat × Dil) := []
  srvh : List (Nat × SrvHead) := []
  srv : List (Nat × Srv) := []
  /-- Tiller loops, by 16 × actuator + loop. -/
  loops : List (Nat × TilLoop) := []
  til : List (Nat × Til) := []
  prf : List (Nat × Prf) := []
  macts : List (Nat × Mact) := []
  mot : Mot := {}
  spn : Spn := {}
  /-- The wedge time that FUR last sent to SPN and SPN has not used: P0-frame time, wedges counted (R302). -/
  spnWedge : Option (Rat × Nat) := none
  /-- Requests waiting at each buffer-memory resource, in arrival order: DRAM channels 0–11, SRAM bank groups 12–27 (R333). -/
  bufq : List (Nat × List BufReq) := []
  /-- The next slot number of each resource, and the requester last granted in each class of it (16 × resource + class). -/
  slots : List (Nat × Nat) := []
  lastGrant : List (Nat × Nat) := []
  /-- The last response of an access that completed later than it was made, by master code. -/
  mresp : List (Nat × Resp) := []
  srt : Srt := {}
  gln : Gln := {}
  mdc : Mdc := {}
  dma : List (Nat × DmaChan) := []
  ports : List (Nat × Port) := []
  /-- Key slots of the XTS key store: 64 B, K1 then K2 (R504). -/
  keys : List (Nat × List Byte) := []
  /-- Doorbells, by 1,024 × port + doorbell, and each core's pending list, oldest first. -/
  dbs : List (Nat × Doorbell) := []
  dbq : List (Nat × List DbEvent) := []
  /-- Supply-loss causes armed (R530): bit 0 VIN12, 1 the 5 V input, 2 SGOOD, 3 the rails. -/
  supArmed : Nat := 0
  /-- NOR bytes (R473); an unlisted byte is erased, 0xFF. -/
  nor : List Host.Cell := []
  /-- Ranges of NOR bytes whose cells a failed or cut-off program or erase has left uncertain, each start and length. -/
  norUnsure : List (Nat × Nat) := []
  nvs : Nvs := {}
  sec : Sec := {}
  /-- The SMBus transmission in progress (destination, length), and the last message that went out whole (R526). -/
  smbTx : Option (Nat × Nat) := none
  smbOut : Option (Nat × List Byte) := none
  unfencing : Option UnfenceReq := none
  /-- The watchdog's window: its opening and its length, in sub-ticks (R432). -/
  wdog : Option (Nat × Nat) := none
  /-- When START landed (R433). -/
  aliveStart : Option Nat := none
  /-- The crystal oscillator is stable (R438); a TEST ball held high at power-on keeps the start-up at stage 0 (R523). -/
  oscStable : Bool := false
  testHeld : Bool := false
  /-- The PLL relocks after a warm reset in holdover (R468). -/
  relock : Bool := false
  /-- Thermal thresholds raised and not yet re-armed, WARN, HIGH, CRIT from bit 0 (R448); TEMP_MAX holds a sample. -/
  thmTold : Nat := 0
  thmSeen : Bool := false
  /-- The cause bit of a warm reset asked for (R456); MOT and SPN take their reset values when the stop of a warm reset ends (R468). -/
  warmReq : Option Nat := none
  motionDue : Bool := false
deriving DecidableEq, Repr

/-- The module right after reset. -/
def State.reset : State := {}

end Sys2Proof.Machine
end

