-- ==== Sys2Proof/Machine/Ops.lean ====
section
/-! DEFINITION. The named operations over the state: tables in canonical form, registers and their fields, buffer
memory bytes, Furrow time, pages and their presence, free values. -/

namespace Sys2Proof.Machine

/-- What a command answers. -/
abbrev Out := Host.Outcome State Fault Refusal

/-! ### Tables -/

/-- The entry of key `k`, or `d` where none is listed. -/
def tabGet {α : Type} (t : List (Nat × α)) (k : Nat) (d : α) : α :=
  match t with
  | [] => d
  | (k', v) :: r => if k' = k then v else tabGet r k d

/-- Set key `k` to `v`, keys rising; an entry equal to the default `d` is not listed. -/
def tabPut {α : Type} [DecidableEq α] (t : List (Nat × α)) (k : Nat) (v d : α) : List (Nat × α) :=
  match t with
  | [] => if v = d then [] else [(k, v)]
  | (k', v') :: r =>
    if k' = k then (if v = d then tabPut r k v d else (k, v) :: r)
    else if k < k' ∧ v ≠ d then (k, v) :: (k', v') :: r
    else (k', v') :: tabPut r k v d

/-- Keys strictly rising. -/
def tabSorted {α : Type} (t : List (Nat × α)) : Bool :=
  match t with
  | [] => true
  | [_] => true
  | (k, _) :: (k', v') :: r => decide (k < k') && tabSorted ((k', v') :: r)

/-- Canonical form: keys strictly rising, no entry equal to its key's default. -/
def tabWf {α : Type} [DecidableEq α] (dflt : Nat → α) (t : List (Nat × α)) : Bool :=
  tabSorted t && t.all (fun e => decide (e.2 ≠ dflt e.1))

/-! ### Registers -/

/-- Key of the register at offset `off` of page `p`. -/
def regKey (p off : Nat) : Nat := p * 1024 + off / 4

/-- Reset value by key. -/
def resetKey (k : Nat) : Word := resetOf (k / 1024) (k % 1024 * 4)

/-- The bits of a field in its register. -/
def Fld.mask (f : Fld) : Word := BitVec.ofNat 32 ((2 ^ f.wd - 1) * 2 ^ f.lo)

/-- A register's active copy. -/
def State.reg (s : State) (p off : Nat) : Word := tabGet s.regs (regKey p off) (resetOf p off)

def State.setReg (s : State) (p off : Nat) (v : Word) : State :=
  { s with regs := tabPut s.regs (regKey p off) v (resetOf p off) }

/-- A register's shadow copy (R53): the same keys, its own table. -/
def State.shadowReg (s : State) (p off : Nat) : Word := tabGet s.shadow (regKey p off) (resetOf p off)

def State.setShadowReg (s : State) (p off : Nat) (v : Word) : State :=
  { s with shadow := tabPut s.shadow (regKey p off) v (resetOf p off) }

/-- A field of a word. -/
def fldOf (w : Word) (f : Fld) : Nat := w.toNat / 2 ^ f.lo % 2 ^ f.wd

/-- A word with a field replaced. -/
def fldSet (w : Word) (f : Fld) (v : Nat) : Word :=
  (w &&& ~~~ f.mask) ||| BitVec.ofNat 32 (v % 2 ^ f.wd * 2 ^ f.lo)

/-- A field of the active copy, as a number. -/
def State.get (s : State) (p : Nat) (f : Fld) : Nat := fldOf (s.reg p f.off) f

def State.put (s : State) (p : Nat) (f : Fld) (v : Nat) : State :=
  s.setReg p f.off (fldSet (s.reg p f.off) f v)

/-- A one-bit field is 1. -/
def State.on (s : State) (p : Nat) (f : Fld) : Bool := decide (s.get p f = 1)

def State.putB (s : State) (p : Nat) (f : Fld) (b : Bool) : State := s.put p f (if b then 1 else 0)

/-- Add to a field, saturating ("all counters saturate"). -/
def State.addSat (s : State) (p : Nat) (f : Fld) (n : Nat) : State :=
  s.put p f (min (s.get p f + n) (2 ^ f.wd - 1))

def State.inc (s : State) (p : Nat) (f : Fld) : State := s.addSat p f 1

/-- Add to a field, wrapping. -/
def State.addWrap (s : State) (p : Nat) (f : Fld) (n : Nat) : State := s.put p f (s.get p f + n)

/-- Raise a field to a larger value (peak registers). -/
def State.putMax (s : State) (p : Nat) (f : Fld) (v : Nat) : State := if s.get p f < v then s.put p f v else s

/-- A base address held in a LO and a HI register, [31:0] and [47:32]. -/
def State.addr48 (s : State) (p : Nat) (lo hi : Fld) : Nat := s.get p lo + s.get p hi % 65536 * 2 ^ 32

/-! ### Numbers -/

/-- Two's-complement reading of the low `w` bits. -/
def sgn (w n : Nat) : Int := (BitVec.ofNat w n).toInt

/-- Two's-complement encoding in `w` bits. -/
def enc (w : Nat) (i : Int) : Nat := (BitVec.ofInt w i).toNat

/-- Clamp to a signed `w`-bit range. -/
def satS (w : Nat) (i : Int) : Int := max (- 2 ^ (w - 1)) (min i (2 ^ (w - 1) - 1))

/-- Bit `i` of a number. -/
def bit (n i : Nat) : Bool := decide (n / 2 ^ i % 2 = 1)

/-- Bits [hi:lo] of a number. -/
def bits (n hi lo : Nat) : Nat := n / 2 ^ lo % 2 ^ (hi + 1 - lo)

/-- Set bit `i` of a number to `b`. -/
def withBit (n i : Nat) (b : Bool) : Nat :=
  if bit n i then (if b then n else n - 2 ^ i) else (if b then n + 2 ^ i else n)

/-- The lowest index below `n` for which `f` holds. -/
def firstBelow (n : Nat) (f : Nat → Bool) : Option Nat := (List.range n).find? f

/-! ### Buffer memory -/

/-- A byte of buffer memory. An unlisted byte reads 0, the value that the fills of R347 and R348 leave. -/
def State.byte (s : State) (a : Nat) : Byte := tabGet s.mem a 0

def State.setByte (s : State) (a : Nat) (b : Byte) : State := { s with mem := tabPut s.mem a b 0 }

/-- `n` bytes from `a`, as a little-endian number. -/
def State.load (s : State) (a n : Nat) : Nat :=
  match n with
  | 0 => 0
  | n + 1 => (s.byte a).toNat + 256 * s.load (a + 1) n

/-- Store the low `n` bytes of `v` at `a`, least significant first. -/
def State.store (s : State) (a n v : Nat) : State :=
  match n with
  | 0 => s
  | n + 1 => (s.setByte a (BitVec.ofNat 8 v)).store (a + 1) n (v / 256)

/-- The bytes at `a` one by one. -/
def State.bytesAt (s : State) (a n : Nat) : List Byte := (List.range n).map (fun i => s.byte (a + i))

def State.storeBytes (s : State) (a : Nat) (bs : List Byte) : State :=
  match bs with
  | [] => s
  | b :: r => (s.setByte a b).storeBytes (a + 1) r

/-! ### Furrow time -/

/-- Sub-ticks in one Furrow tick, one PCLK cycle, one microsecond, one millisecond (R58, R437). -/
abbrev ftSub : Nat := 64
abbrev pclkSub : Nat := 12 * 64
abbrev usSub : Nat := 2400 * 64
abbrev msSub : Nat := 2400000 * 64

/-- Furrow time, 64 bits, wrapping (R58). -/
def State.now (s : State) : Furrow := BitVec.ofNat 64 s.time

/-- `a` is before `b` (R59): their difference modulo 2^64 is negative. -/
def before (a b : Furrow) : Bool := (a - b).slt 0

/-- The unwrapped time nearest to now that a wrapped time names (R59). -/
def State.unwrap (s : State) (t : Furrow) : Int := (s.time : Int) + (t - s.now).toInt

/-- Furrow time [31:0]. -/
def State.timeLo (s : State) : Nat := s.time % 2 ^ 32

/-- ROOT runs: Furrow counts from the PLL's lock, in holdover too (R58, R438, R440). -/
def State.rootRuns (s : State) : Bool := s.on 1 CLK.PLL_STAT_LOCKED || s.on 1 CLK.PLL_STAT_HOLDOVER

/-- One Furrow tick passes on an empty queue while ROOT runs (log 1). -/
def State.idleTick (s : State) : State := if s.rootRuns then { s with time := s.time + ftSub } else s

/-! ### Page positions (R36) -/

abbrev pSYS : Nat := 0
abbrev pCLK : Nat := 1
abbrev pPWR : Nat := 2
abbrev pFLT : Nat := 3
abbrev pFUR : Nat := 4
abbrev pDRLD : Nat := 5
abbrev pSPN : Nat := 6
abbrev pMOT : Nat := 7
abbrev pNVS : Nat := 8
abbrev pSEC : Nat := 9
abbrev pXTS : Nat := 10
abbrev pGLN : Nat := 11
abbrev pMDC : Nat := 12
abbrev pSTP : Nat := 13
abbrev pAFM : Nat := 14
abbrev pBFM : Nat := 15
abbrev pDMC (n : Nat) : Nat := 16 + n
abbrev pDMA : Nat := 0x20
abbrev pHIF (p : Nat) : Nat := 0x30 + p
abbrev pDBA : Nat := 0x32
abbrev pACT (a : Nat) : Nat := 0x40 + 16 * a
abbrev pSRV (a : Nat) : Nat := 0x41 + 16 * a
abbrev pTIL (a : Nat) : Nat := 0x42 + 16 * a
abbrev pPRF (a : Nat) : Nat := 0x43 + 16 * a
abbrev pDIL (a : Nat) : Nat := 0x44 + 16 * a
abbrev pDRL (a : Nat) : Nat := 0x45 + 16 * a
abbrev pLNK (a : Nat) : Nat := 0x46 + 16 * a
abbrev pHCH (h : Nat) : Nat := 0x100 + h

/-- The actuator of head `h` (R16). -/
abbrev actOf (h : Nat) : Nat := h / 12

/-- The pages of actuator unit `a`, in page order. -/
def actPages (a : Nat) : List Nat := (List.range 7).map (fun i => 0x40 + 16 * a + i)

/-- The page of Drill queue `d`: DRLa for `d` below 8, DRLD for 8. -/
def drlPage (d : Nat) : Nat := if d < 8 then pDRL d else pDRLD

/-! ### Variants -/

/-- SYS.CAP of each part (R5). -/
def Part.cap : Part → Nat
  | .fs9600 => 0x00600FFF
  | .fs9648 => 0x00300F0F
  | .fs9624 => 0x00180603
  | .fs9600n => 0x00600DFF
  | .fs9648n => 0x00300D0F
  | .fs9624n => 0x00180403

def Part.hasAct (q : Part) (a : Nat) : Bool := decide (a < 8) && bit q.cap a
def Part.hasHead (q : Part) (h : Nat) : Bool := q.hasAct (h / 12)

/-- The page at position `p` is present on the part (R3, R34, R36). -/
def Part.hasPage (q : Part) (p : Nat) : Bool :=
  match pageKind p with
  | none => false
  | some .stp => bit q.cap 8
  | some .xts => bit q.cap 9
  | some .hif => if p = 0x30 then bit q.cap 10 else bit q.cap 11
  | some .hch => q.hasHead (p - 0x100)
  | some .act | some .srv | some .til | some .prf | some .dil | some .lnk => q.hasAct ((p - 0x40) / 16)
  | some .drl => p = 5 || q.hasAct ((p - 0x40) / 16)
  | some _ => true

/-- The present page positions, ascending. -/
def Part.pages (q : Part) : List Nat := (List.range 0x160).filter q.hasPage

/-! ### Masters (R428) -/

end Sys2Proof.Machine

namespace Sys2Proof

/-- Kind in [15:8], index in [7:0] (R428). -/
def Master.code : Master → Nat
  | .core c => 0x100 + c.val
  | .bsc => 0x200
  | .dil a => 0x300 + a.val
  | .dma c => 0x400 + c.val
  | .host p => 0x500 + p.val
  | .dd d => 0x600 + d.val
  | .head h => 0x700 + h.val
  | .gln => 0x800
  | .stp => 0x900
  | .jtag => 0xA00

end Sys2Proof

namespace Sys2Proof.Machine

/-- A per-master register (R72, R82, R159, R338): one word for each master and register. -/
def State.mreg (s : State) (m : Master) (p off : Nat) : Word :=
  tabGet s.mregs (m.code * 2 ^ 20 + regKey p off) 0

def State.setMreg (s : State) (m : Master) (p off : Nat) (v : Word) : State :=
  { s with mregs := tabPut s.mregs (m.code * 2 ^ 20 + regKey p off) v 0 }

/-- A field of a per-master register. -/
def State.getM (s : State) (m : Master) (p : Nat) (f : Fld) : Nat := fldOf (s.mreg m p f.off) f

def State.putM (s : State) (m : Master) (p : Nat) (f : Fld) (v : Nat) : State :=
  s.setMreg m p f.off (fldSet (s.mreg m p f.off) f v)

/-! ### Free values -/

/-- The next value that the spec leaves open (log 3). -/
def State.freeVal (s : State) : Nat := (Config.freeWord s.free).toNat

/-- The state after a free value has been drawn. -/
def State.drew (s : State) : State := { s with free := s.free + 1 }

/-! ### Responses -/

def State.answer (s : State) (v : Nat) : State := { s with resp := { value := v, err := false } }
def State.answerErr (s : State) : State := { s with resp := { value := 0, err := true } }

/-- Fold a state through a list. -/
def State.each {α : Type} (s : State) (l : List α) (f : State → α → State) : State := l.foldl f s

end Sys2Proof.Machine
end

