-- ==== Sys2Proof/Machine/Crypto.lean ====
section
/-! DEFINITION. The published algorithms that the spec names by reference: SHA-512 (FIPS 180-4), HMAC, AES-256 (FIPS 197), AES key
unwrap (RFC 3394), AES-XTS (IEEE 1619), ECDSA on P-521 (FIPS 186-5). PRESUMED (log 9): taken from those standards. Byte strings are
lists of bytes, first byte first. -/

namespace Sys2Proof.Machine

/-- The number that bytes spell, most significant first, and its bytes. -/
def beNat (bs : List Byte) : Nat := bs.foldl (fun acc b => 256 * acc + b.toNat) 0
def beBytes (v n : Nat) : List Byte := (List.range n).map (fun i => BitVec.ofNat 8 (v / 256 ^ (n - 1 - i)))

/-! ### SHA-512 and HMAC -/

/-- The round constants. -/
def shaK : List Nat :=
  [0x428a2f98d728ae22, 0x7137449123ef65cd, 0xb5c0fbcfec4d3b2f, 0xe9b5dba58189dbbc] ++
  [0x3956c25bf348b538, 0x59f111f1b605d019, 0x923f82a4af194f9b, 0xab1c5ed5da6d8118] ++
  [0xd807aa98a3030242, 0x12835b0145706fbe, 0x243185be4ee4b28c, 0x550c7dc3d5ffb4e2] ++
  [0x72be5d74f27b896f, 0x80deb1fe3b1696b1, 0x9bdc06a725c71235, 0xc19bf174cf692694] ++
  [0xe49b69c19ef14ad2, 0xefbe4786384f25e3, 0x0fc19dc68b8cd5b5, 0x240ca1cc77ac9c65] ++
  [0x2de92c6f592b0275, 0x4a7484aa6ea6e483, 0x5cb0a9dcbd41fbd4, 0x76f988da831153b5] ++
  [0x983e5152ee66dfab, 0xa831c66d2db43210, 0xb00327c898fb213f, 0xbf597fc7beef0ee4] ++
  [0xc6e00bf33da88fc2, 0xd5a79147930aa725, 0x06ca6351e003826f, 0x142929670a0e6e70] ++
  [0x27b70a8546d22ffc, 0x2e1b21385c26c926, 0x4d2c6dfc5ac42aed, 0x53380d139d95b3df] ++
  [0x650a73548baf63de, 0x766a0abb3c77b2a8, 0x81c2c92e47edaee6, 0x92722c851482353b] ++
  [0xa2bfe8a14cf10364, 0xa81a664bbc423001, 0xc24b8b70d0f89791, 0xc76c51a30654be30] ++
  [0xd192e819d6ef5218, 0xd69906245565a910, 0xf40e35855771202a, 0x106aa07032bbd1b8] ++
  [0x19a4c116b8d2d0c8, 0x1e376c085141ab53, 0x2748774cdf8eeb99, 0x34b0bcb5e19b48a8] ++
  [0x391c0cb3c5c95a63, 0x4ed8aa4ae3418acb, 0x5b9cca4f7763e373, 0x682e6ff3d6b2b8a3] ++
  [0x748f82ee5defb2fc, 0x78a5636f43172f60, 0x84c87814a1f0ab72, 0x8cc702081a6439ec] ++
  [0x90befffa23631e28, 0xa4506cebde82bde9, 0xbef9a3f7b2c67915, 0xc67178f2e372532b] ++
  [0xca273eceea26619c, 0xd186b8c721c0c207, 0xeada7dd6cde0eb1e, 0xf57d4f7fee6ed178] ++
  [0x06f067aa72176fba, 0x0a637dc5a2c898a6, 0x113f9804bef90dae, 0x1b710b35131c471b] ++
  [0x28db77f523047d84, 0x32caab7b40c72493, 0x3c9ebe0a15c9bebc, 0x431d67c49c100d4c] ++
  [0x4cc5d4becb3e42b6, 0x597f299cfc657e2a, 0x5fcb6fab3ad6faec, 0x6c44198c4a475817]

/-- The initial hash value. -/
def shaH : List Nat :=
  [0x6a09e667f3bcc908, 0xbb67ae8584caa73b, 0x3c6ef372fe94f82b, 0xa54ff53a5f1d36f1] ++
  [0x510e527fade682d1, 0x9b05688c2b3e6c1f, 0x1f83d9abfb41bd6b, 0x5be0cd19137e2179]

def rotr64 (x : BitVec 64) (n : Nat) : BitVec 64 := x.rotateRight n

/-- The message schedule, newest word first, from the 16 words of a block. -/
def shaSchedule (ws : List (BitVec 64)) : List (BitVec 64) :=
  (List.range 64).foldl (fun acc _ =>
    let g := fun i => acc.getD i 0
    let s0 := rotr64 (g 14) 1 ^^^ rotr64 (g 14) 8 ^^^ (g 14 >>> 7)
    let s1 := rotr64 (g 1) 19 ^^^ rotr64 (g 1) 61 ^^^ (g 1 >>> 6)
    (g 15 + s0 + g 6 + s1) :: acc) ws.reverse

/-- The eight working variables. -/
structure ShaState where
  a : BitVec 64
  b : BitVec 64
  c : BitVec 64
  d : BitVec 64
  e : BitVec 64
  f : BitVec 64
  g : BitVec 64
  h : BitVec 64
deriving DecidableEq, Repr

def shaRound (v : ShaState) (kw : BitVec 64) : ShaState :=
  let s1 := rotr64 v.e 14 ^^^ rotr64 v.e 18 ^^^ rotr64 v.e 41
  let ch := (v.e &&& v.f) ^^^ (~~~ v.e &&& v.g)
  let t1 := v.h + s1 + ch + kw
  let s0 := rotr64 v.a 28 ^^^ rotr64 v.a 34 ^^^ rotr64 v.a 39
  let maj := (v.a &&& v.b) ^^^ (v.a &&& v.c) ^^^ (v.b &&& v.c)
  { a := t1 + (s0 + maj), b := v.a, c := v.b, d := v.c, e := v.d + t1, f := v.e, g := v.f, h := v.g }

/-- One 128 B block. -/
def shaBlock (v : ShaState) (blk : List Byte) : ShaState :=
  let ws := (List.range 16).map (fun i => BitVec.ofNat 64 (beNat ((blk.drop (8 * i)).take 8)))
  let r := ((shaSchedule ws).reverse.zip shaK).foldl (fun v x => shaRound v (x.1 + BitVec.ofNat 64 x.2)) v
  { a := v.a + r.a, b := v.b + r.b, c := v.c + r.c, d := v.d + r.d, e := v.e + r.e, f := v.f + r.f, g := v.g + r.g, h := v.h + r.h }

def shaInit : ShaState :=
  let g := fun i => BitVec.ofNat 64 (shaH.getD i 0)
  { a := g 0, b := g 1, c := g 2, d := g 3, e := g 4, f := g 5, g := g 6, h := g 7 }

/-- The padding of a message of `n` bytes. -/
def shaPad (n : Nat) : List Byte := [0x80] ++ List.replicate ((239 - n % 128) % 128) 0 ++ beBytes (8 * n) 16

/-- `k` blocks of 128 B. -/
def shaBlocks (v : ShaState) (k : Nat) (bs : List Byte) : ShaState :=
  match k with
  | 0 => v
  | k + 1 => shaBlocks (shaBlock v (bs.take 128)) k (bs.drop 128)

/-- SHA-512: 64 bytes. -/
def sha512 (m : List Byte) : List Byte :=
  let p := m ++ shaPad m.length
  let r := shaBlocks shaInit (p.length / 128) p
  ([r.a, r.b, r.c, r.d, r.e, r.f, r.g, r.h].map (fun x => beBytes x.toNat 8)).flatten

/-- HMAC-SHA-512 with a key of at most 128 bytes. -/
def hmac512 (key m : List Byte) : List Byte :=
  let k := key ++ List.replicate (128 - key.length) 0
  sha512 (k.map (fun b => b ^^^ 0x5c) ++ sha512 (k.map (fun b => b ^^^ 0x36) ++ m))

/-! ### AES-256 -/

/-- The S-box, read as one number: its first row leads, and entry 0 is the first byte. -/
def aesS : Nat :=
  0x637c777bf26b6fc53001672bfed7ab76ca82c97dfa5947f0add4a2af9ca472c0b7fd9326363ff7cc34a5e5f171d8311504c723c31896059a071280e2eb27b27509832c1a1b6e5aa0523bd6b329e32f8453d100ed20fcb15b6acbbe394a4c58cfd0efaafb434d338545f9027f503c9fa851a3408f929d38f5bcb6da2110fff3d2cd0c13ec5f974417c4a77e3d645d197360814fdc222a908846eeb814de5e0bdbe0323a0a4906245cc2d3ac629195e479e7c8376d8dd54ea96c56f4ea657aae08ba78252e1ca6b4c6e8dd741f4bbd8b8a703eb5664803f60e613557b986c11d9ee1f8981169d98e949b1e87e9ce5528df8ca1890dbfe6426841992d0fb054bb16

/-- The inverse S-box, read as one number: its first row leads, and entry 0 is the first byte. -/
def aesInvS : Nat :=
  0x52096ad53036a538bf40a39e81f3d7fb7ce339829b2fff87348e4344c4dee9cb547b9432a6c2233dee4c950b42fac34e082ea16628d924b2765ba2496d8bd12572f8f66486689816d4a45ccc5d65b6926c704850fdedb9da5e154657a78d9d8490d8ab008cbcd30af7e45805b8b34506d02c1e8fca3f0f02c1afbd0301138a6b3a9111414f67dcea97f2cfcef0b4e67396ac7422e7ad3585e2f937e81c75df6e47f11a711d29c5896fb7620eaa18be1bfc563e4bc6d279209adbc0fe78cd5af41fdda8338807c731b11210592780ec5f60517fa919b54a0d2de57a9f93c99cefa0e03b4dae2af5b0c8ebbb3c83539961172b047eba77d626e169146355210c7d

def aesSub (b : Byte) : Byte := BitVec.ofNat 8 (aesS / 256 ^ (255 - b.toNat))
def aesInvSub (b : Byte) : Byte := BitVec.ofNat 8 (aesInvS / 256 ^ (255 - b.toNat))

/-- Multiplication in GF(2^8). -/
def xtime (b : Byte) : Byte := if b.msb then (b <<< 1) ^^^ 0x1b else b <<< 1
def gmul (a : Byte) (k : Nat) : Byte :=
  let a2 := xtime a
  let a4 := xtime a2
  let a8 := xtime a4
  (if k % 2 = 1 then a else 0) ^^^ (if k / 2 % 2 = 1 then a2 else 0) ^^^ (if k / 4 % 2 = 1 then a4 else 0) ^^^ (if k / 8 % 2 = 1 then a8 else 0)

def xorStr (x y : List Byte) : List Byte := (x.zip y).map (fun p => p.1 ^^^ p.2)

/-- The key schedule's words, newest first, from the 8 words of the key. -/
def aesExpand (key : List Byte) : List (List Byte) :=
  let ws := (List.range 8).map (fun i => (key.drop (4 * i)).take 4)
  ((List.range 52).foldl (fun (acc : List (List Byte) × Byte) j =>
    let i := j + 8
    let prev := acc.1.getD 0 []
    let old := acc.1.getD 7 []
    if i % 8 = 0 then
      (xorStr old (xorStr ((prev.drop 1 ++ prev.take 1).map aesSub) [acc.2, 0, 0, 0]) :: acc.1, xtime acc.2)
    else if i % 8 = 4 then (xorStr old (prev.map aesSub) :: acc.1, acc.2)
    else (xorStr old prev :: acc.1, acc.2)) (ws.reverse, 1)).1

/-- The 15 round keys. -/
def aesKeys (key : List Byte) : List (List Byte) :=
  let ws := (aesExpand key).reverse
  (List.range 15).map (fun r => (((ws.drop (4 * r)).take 4)).flatten)

def shiftRows (s : List Byte) : List Byte := (List.range 16).map (fun i => s.getD ((i + 4 * (i % 4)) % 16) 0)
def invShiftRows (s : List Byte) : List Byte := (List.range 16).map (fun i => s.getD ((i + 12 * (i % 4)) % 16) 0)

/-- MixColumns with the coefficients of the first row. -/
def mixWith (k0 k1 k2 k3 : Nat) (s : List Byte) : List Byte :=
  (List.range 16).map (fun i =>
    let c := i / 4 * 4
    let g := fun j => s.getD (c + (i + j) % 4) 0
    gmul (g 0) k0 ^^^ gmul (g 1) k1 ^^^ gmul (g 2) k2 ^^^ gmul (g 3) k3)

def aesEncrypt (ks : List (List Byte)) (b : List Byte) : List Byte :=
  let k := fun i => ks.getD i []
  let s := (List.range 13).foldl (fun s r => xorStr (mixWith 2 3 1 1 (shiftRows (s.map aesSub))) (k (r + 1))) (xorStr b (k 0))
  xorStr (shiftRows (s.map aesSub)) (k 14)

def aesDecrypt (ks : List (List Byte)) (b : List Byte) : List Byte :=
  let k := fun i => ks.getD i []
  let s := (List.range 13).foldl (fun s r => mixWith 14 11 13 9 (xorStr ((invShiftRows s).map aesInvSub) (k (13 - r)))) (xorStr b (k 14))
  xorStr ((invShiftRows s).map aesInvSub) (k 0)

/-- AES key unwrap of a 72 B wrapped key; none where the integrity check fails. -/
def keyUnwrap (kek w : List Byte) : Option (List Byte) :=
  let ks := aesKeys kek
  let r0 := (List.range 8).map (fun i => (w.drop (8 * (i + 1))).take 8)
  let out := (List.range 48).foldl (fun (x : List Byte × List (List Byte)) q =>
    let t := 48 - q
    let i := (t - 1) % 8
    let b := aesDecrypt ks (xorStr x.1 (beBytes t 8) ++ x.2.getD i [])
    (b.take 8, x.2.set i (b.drop 8))) (w.take 8, r0)
  if out.1 = List.replicate 8 (0xA6 : Byte) then some out.2.flatten else none

/-! ### XTS -/

/-- The tweak of block `j` of the data unit numbered `u`. -/
def xtsTweak (k2 : List (List Byte)) (u j : Nat) : Nat :=
  let t0 := aesEncrypt k2 ((List.range 16).map (fun i => BitVec.ofNat 8 (u / 256 ^ i)))
  let n0 := t0.foldr (fun b acc => b.toNat + 256 * acc) 0
  (List.range j).foldl (fun t _ => if 2 ^ 127 ≤ t then Nat.xor ((2 * t) % 2 ^ 128) 0x87 else 2 * t) n0

/-- Whole blocks of a data unit from block `j` on, encrypted or decrypted under the key pair `key` (K1 then K2, 64 B). -/
def xtsBlocks (enc : Bool) (key : List Byte) (u j : Nat) (d : List Byte) : List Byte :=
  let k1 := aesKeys (key.take 32)
  let k2 := aesKeys (key.drop 32)
  let r := (List.range (d.length / 16)).foldl (fun (x : List Byte × Nat) i =>
    let t := (List.range 16).map (fun b => (BitVec.ofNat 8 (x.2 / 256 ^ b) : Byte))
    let p := xorStr ((d.drop (16 * i)).take 16) t
    let c := xorStr (if enc then aesEncrypt k1 p else aesDecrypt k1 p) t
    (x.1 ++ c, if 2 ^ 127 ≤ x.2 then Nat.xor ((2 * x.2) % 2 ^ 128) 0x87 else 2 * x.2)) ([], xtsTweak k2 u j)
  r.1

/-! ### P-521 -/

def ecP : Nat := 2 ^ 521 - 1
/-- The order of the group. -/
def ecN : Nat :=
  0x3bb5c9b8899c47aebb6fb71e91386409 +
  0x51868783bf2f966b7fcc0148f709a5d0 * 2 ^ 128 +
  0xfffffffffffffffffffffffffffffffa * 2 ^ 256 +
  0xffffffffffffffffffffffffffffffff * 2 ^ 384 +
  0x1ff * 2 ^ 512
/-- The coefficient b. -/
def ecB : Nat :=
  0x3573df883d2c34f1ef451fd46b503f00 +
  0x56193951ec7e937b1652c0bd3bb1bf07 * 2 ^ 128 +
  0xa2da725b99b315f3b8b489918ef109e1 * 2 ^ 256 +
  0x953eb9618e1c9a1f929a21a0b68540ee * 2 ^ 384 +
  0x51 * 2 ^ 512
/-- The base point. -/
def ecGx : Nat :=
  0x3348b3c1856a429bf97e7e31c2e5bd66 +
  0xa14b5e77efe75928fe1dc127a2ffa8de * 2 ^ 128 +
  0x9c648139053fb521f828af606b4d3dba * 2 ^ 256 +
  0x858e06b70404e9cd9e3ecb662395b442 * 2 ^ 384 +
  0xc6 * 2 ^ 512
/-- The base point. -/
def ecGy : Nat :=
  0x353c7086a272c24088be94769fd16650 +
  0x97ee72995ef42640c550b9013fad0761 * 2 ^ 128 +
  0x98f54449579b446817afbd17273e662c * 2 ^ 256 +
  0x39296a789a3bc0045c8a5fb42c7d1bd9 * 2 ^ 384 +
  0x118 * 2 ^ 512

/-- `b ^ e mod m`. -/
def powMod (fuel b e m acc : Nat) : Nat :=
  match fuel with
  | 0 => acc
  | fuel + 1 => if e = 0 then acc else powMod fuel (b * b % m) (e / 2) m (if e % 2 = 1 then acc * b % m else acc)

/-- The inverse modulo a prime. -/
def invMod (a m : Nat) : Nat := powMod 600 (a % m) (m - 2) m 1

def subMod (a b m : Nat) : Nat := (a + m - b % m) % m

/-- Jacobian coordinates; z = 0 is the point at infinity. -/
structure EcPoint where
  x : Nat
  y : Nat
  z : Nat
deriving DecidableEq, Repr

def ecInf : EcPoint := { x := 1, y := 1, z := 0 }

def ecDouble (q : EcPoint) : EcPoint :=
  if q.z = 0 ∨ q.y = 0 then ecInf
  else
    let p := ecP
    let yy := q.y * q.y % p
    let s := 4 * q.x * yy % p
    let zz := q.z * q.z % p
    let m := 3 * (subMod q.x zz p) * (q.x + zz) % p
    let x := subMod (m * m % p) (2 * s) p
    { x := x, y := subMod (m * subMod s x p % p) (8 * yy * yy % p) p, z := 2 * q.y * q.z % p }

def ecAdd (a b : EcPoint) : EcPoint :=
  if a.z = 0 then b
  else if b.z = 0 then a
  else
    let p := ecP
    let za := a.z * a.z % p
    let zb := b.z * b.z % p
    let u1 := a.x * zb % p
    let u2 := b.x * za % p
    let s1 := a.y * zb % p * b.z % p
    let s2 := b.y * za % p * a.z % p
    if u1 = u2 then (if s1 = s2 then ecDouble a else ecInf)
    else
      let h := subMod u2 u1 p
      let r := subMod s2 s1 p
      let hh := h * h % p
      let hhh := h * hh % p
      let v := u1 * hh % p
      let x := subMod (subMod (r * r % p) hhh p) (2 * v) p
      { x := x, y := subMod (r * subMod v x p % p) (s1 * hhh % p) p, z := h * a.z % p * b.z % p }

/-- `k` times a point: `fuel` bits of `k`, least significant first. -/
def ecMul (fuel k : Nat) (q acc : EcPoint) : EcPoint :=
  match fuel with
  | 0 => acc
  | fuel + 1 => ecMul fuel (k / 2) (ecDouble q) (if k % 2 = 1 then ecAdd acc q else acc)

/-- Affine coordinates. -/
def ecAffine (q : EcPoint) : Nat × Nat :=
  let zi := invMod q.z ecP
  let z2 := zi * zi % ecP
  (q.x * z2 % ecP, q.y * z2 % ecP * zi % ecP)

def ecG : EcPoint := { x := ecGx, y := ecGy, z := 1 }

/-- The public key of a private key: X then Y, 66 B each (R496). -/
def ecPublic (d : Nat) : List Byte :=
  let q := ecAffine (ecMul 521 d ecG ecInf)
  beBytes q.1 66 ++ beBytes q.2 66

/-- A public key names a point of the curve. -/
def ecOnCurve (x y : Nat) : Bool :=
  decide (x < ecP) && decide (y < ecP) && decide (y * y % ecP = (x * x * x + ecB + 3 * (ecP - x)) % ecP)

/-- ECDSA verification of a 64 B digest: public key X then Y, signature r then s, big-endian, 66 B each (R496). -/
def ecdsaVerify (digest pub sig : List Byte) : Bool :=
  let x := beNat (pub.take 66)
  let y := beNat ((pub.drop 66).take 66)
  let r := beNat (sig.take 66)
  let s := beNat ((sig.drop 66).take 66)
  if r = 0 ∨ s = 0 ∨ ecN ≤ r ∨ ecN ≤ s ∨ ecOnCurve x y = false then false
  else
    let w := invMod s ecN
    let q := ecAdd (ecMul 521 (beNat digest * w % ecN) ecG ecInf) (ecMul 521 (r * w % ecN) { x := x, y := y, z := 1 } ecInf)
    decide (q.z ≠ 0) && decide ((ecAffine q).1 % ecN = r)

/-- An ECDSA signature of a 64 B digest by private key `d` with the random number `k`. -/
def ecdsaSign (digest : List Byte) (d k : Nat) : List Byte :=
  let r := (ecAffine (ecMul 521 k ecG ecInf)).1 % ecN
  let s := invMod k ecN * (beNat digest + r * d) % ecN
  beBytes r 66 ++ beBytes s 66

end Sys2Proof.Machine
end

