-- ==== Sys2Proof/Machine/Flags.lean ====
section
/-! DEFINITION. The flags a command raises: the class and level of every fault source (R45, R417, and the FLT_STAT list
of each page's chapter), the report of a fault to FLT, and the interrupt bits of a page (R44). -/

namespace Sys2Proof.Machine

/-- Fault class codes (R417). -/
abbrev cMEM : Nat := 1
abbrev cDL : Nat := 2
abbrev cCTL : Nat := 3
abbrev cCH : Nat := 4
abbrev cLNK : Nat := 5
abbrev cSEQ : Nat := 6
abbrev cDMA : Nat := 7
abbrev cHIF : Nat := 8
abbrev cNVS : Nat := 9
abbrev cSEC : Nat := 10
abbrev cPWR : Nat := 11
abbrev cTHM : Nat := 12
abbrev cCLK : Nat := 13
abbrev cSPN : Nat := 14

/-- The FLT_STAT sources of a page kind: bit, class, level. -/
def PageKind.sources : PageKind → List (Nat × Nat × Nat)
  | .sys => [(0, cMEM, 0), (16, cSEQ, 0)]                                             -- R33, R471
  | .clk => [(0, cCLK, 4), (1, cCLK, 4)]                                              -- R452
  | .pwr => [(0, cPWR, 1), (1, cPWR, 0), (2, cPWR, 0), (3, cTHM, 0), (4, cTHM, 3), (5, cTHM, 4), (6, cPWR, 4)] -- R453
  | .flt => [(0, cMEM, 4), (1, cMEM, 0), (2, cDL, 0), (3, cDL, 3)]                    -- R436
  | .fur => [(0, cCLK, 0), (1, cCLK, 0), (2, cCLK, 3), (3, cCLK, 4), (4, cCLK, 0)]    -- R72
  | .drl => [(0, cDL, 0), (1, cDL, 0), (2, cSEQ, 0), (3, cSEQ, 0), (4, cSEQ, 0), (5, cMEM, 2), (6, cMEM, 0),
      (30, cDL, 0)]                                                                   -- R88; DRLD's ENTRY_UE is FL4
  | .spn => [(0, cSPN, 0), (1, cSPN, 0), (2, cSPN, 4), (3, cSPN, 3), (4, cSPN, 2), (5, cSPN, 4), (6, cSPN, 0),
      (7, cSPN, 0), (8, cSPN, 4), (9, cSPN, 0)]                                       -- R320
  | .mot => [(0, cCTL, 0), (1, cCTL, 3), (2, cPWR, 3), (3, cPWR, 3), (4, cPWR, 0), (5, cPWR, 4)]  -- R286, R454
  | .nvs => [(0, cNVS, 0), (1, cNVS, 0), (2, cNVS, 1), (3, cNVS, 1), (4, cNVS, 0), (5, cNVS, 0)]  -- R492
  | .sec => [(0, cSEC, 1), (1, cSEC, 0), (2, cSEC, 0), (3, cSEC, 0)]                  -- R508
  | .xts => [(0, cSEC, 1), (1, cSEC, 0), (2, cMEM, 0), (3, cSEC, 0)]                  -- R509
  | .gln => [(0, cMEM, 0), (1, cMEM, 0), (2, cMEM, 0)]                                -- R355
  | .mdc => [(0, cMEM, 1), (1, cMEM, 0), (2, cMEM, 1), (3, cMEM, 1), (4, cMEM, 0), (5, cMEM, 0), (6, cMEM, 0),
      (7, cMEM, 0)]                                                                   -- R364
  | .stp => [(0, cSEQ, 0), (1, cSEQ, 0), (2, cSEQ, 0), (3, cMEM, 1), (4, cMEM, 0), (5, cCH, 1)]   -- R209
  | .afm => [(0, cMEM, 1), (1, cMEM, 0), (2, cSEQ, 0), (3, cSEQ, 0), (4, cSEQ, 0)] ++
      (List.range 8).map (fun d => (8 + d, cMEM, 1)) ++ (List.range 8).map (fun d => (16 + d, cCH, 1))  -- R164
  | .bfm => [(0, cMEM, 0), (1, cMEM, 1), (2, cMEM, 0), (3, cSEQ, 0), (4, cSEQ, 0), (5, cMEM, 4)]  -- R342
  | .dmc => [(0, cMEM, 1), (1, cMEM, 1), (2, cMEM, 0), (3, cMEM, 1), (4, cMEM, 0), (5, cTHM, 0), (6, cMEM, 0)]  -- R343
  | .dma => [(0, cDMA, 1), (1, cDMA, 1), (2, cDMA, 1)]                                -- R384; FL0 with STOP_ON_ERR 0
  | .hif => [(0, cHIF, 0), (1, cHIF, 0), (2, cHIF, 2), (3, cMEM, 0), (4, cSEQ, 0), (5, cHIF, 0), (6, cPWR, 4),
      (7, cSEQ, 0), (30, cDL, 0)]                                                     -- R413
  | .dba => [(0, cMEM, 1), (1, cMEM, 0)]                                              -- R416
  | .act => []
  | .srv => [(0, cMEM, 2), (1, cMEM, 0)]                                              -- R262
  | .til => [(0, cCTL, 0), (1, cCTL, 0), (2, cCTL, 0), (3, cCTL, 0), (4, cDL, 0), (5, cDL, 2), (6, cCTL, 1),
      (7, cCTL, 2), (8, cMEM, 2), (9, cMEM, 0), (10, cCTL, 0), (30, cDL, 0)]          -- R263
  | .prf => [(0, cSEQ, 0), (1, cMEM, 2), (2, cMEM, 0)]                                -- R285
  | .dil => [(0, cSEQ, 1), (1, cSEQ, 1), (2, cSEQ, 1), (3, cSEQ, 1), (4, cSEQ, 1), (5, cSEQ, 1), (6, cSEQ, 1),
      (7, cMEM, 1), (8, cMEM, 0), (9, cSEQ, 0), (10, cSEQ, 0), (11, cSEQ, 0), (12, cSEQ, 0)]      -- R235
  | .lnk => [(0, cLNK, 1), (1, cLNK, 1), (2, cLNK, 0), (3, cLNK, 0)]                  -- R115
  | .hch => [(0, cMEM, 1), (1, cMEM, 0), (2, cSEQ, 0), (3, cCH, 0), (4, cCH, 1), (8, cMEM, 1), (9, cMEM, 0),
      (10, cCH, 1), (11, cSEQ, 0), (12, cSEQ, 0), (16, cSEQ, 0), (17, cDL, 0), (18, cCH, 0), (19, cMEM, 1),
      (20, cMEM, 0), (21, cCH, 1), (22, cDL, 0), (30, cDL, 0)]                        -- R105, R145, R189

/-- Class and base level of bit `b` of page `p`, before a level that depends on the state. -/
def faultGrade (p b : Nat) : Option (Nat × Nat) :=
  match pageKind p with
  | none => none
  | some k =>
    match k.sources.find? (fun e => e.1 = b) with
    | none => none
    | some e => if p = 5 ∧ b = 5 then some (cMEM, 4) else some e.2

/-! ### Interrupt bits -/

/-- Latch bits of IRQ_PEND (R44). -/
def State.irqBits (s : State) (p : Nat) (m : Nat) : State :=
  s.setReg p 0x18 (s.reg p 0x18 ||| BitVec.ofNat 32 m)

/-- A pulsed source: 1 in IRQ_RAW for one PCLK cycle, latched in IRQ_PEND (R44). -/
def State.irq (s : State) (p b : Nat) : State := s.irqBits p (2 ^ b)

/-! ### Reports -/

/-- The order of R420: PCLK cycle, then page position, FLT_STAT bit, sub-unit. -/
def Report.le (x y : Report) : Bool :=
  let cx := x.time / pclkSub
  let cy := y.time / pclkSub
  let sx := x.sub.getD 0
  let sy := y.sub.getD 0
  decide (cx < cy) || (decide (cx = cy) && (decide (x.page < y.page) || (decide (x.page = y.page) &&
    (decide (x.bit < y.bit) || (decide (x.bit = y.bit) && decide (sx ≤ sy))))))

/-- Insert a report behind every report that precedes or equals it in the order of R420. -/
def insertReport (r : Report) (q : List Report) : List Report :=
  match q with
  | [] => [r]
  | x :: t => if x.le r then x :: insertReport r t else r :: x :: t

/-- What a detection names beside its source (R418, R428). -/
structure Detail where
  sub : Option Nat := none
  master : Nat := 0
  access : Nat := 0
  addr : Nat := 0
  forced : Bool := false
  level : Option Nat := none
deriving DecidableEq, Repr

/-- Source `b` of page `p` detects its fault: its FLT_STAT bit is set, FAULT of IRQ_RAW follows, and FLT receives a
report (R44, R45, R418). An absent page or an unnamed bit has no source (R7). -/
def State.raiseWith (s : State) (p b : Nat) (d : Detail) : State :=
  match faultGrade p b with
  | none => s
  | some (cls, base) =>
    if s.part.hasPage p then
      let s1 := (s.setReg p 0x1C (s.reg p 0x1C ||| BitVec.ofNat 32 (2 ^ b))).irq p 31
      { s1 with fltq := insertReport { time := s.time, page := p, bit := b, cls := cls, base := d.level.getD base, sub := d.sub, master := d.master, access := d.access, addr := d.addr, forced := d.forced } s1.fltq }
    else s

/-- A detection with no requester (R428, kind 0). -/
def State.raise (s : State) (p b : Nat) : State := s.raiseWith p b {}

/-- A detection that belongs to a sub-unit (R423). -/
def State.raiseSub (s : State) (p b sub : Nat) : State := s.raiseWith p b { sub := some sub }

/-- The master code of a requester, 0 for a unit with no requester (R428). -/
def codeOf (m : Option Master) : Nat := match m with | none => 0 | some x => x.code

/-- A refused access, reported through SYS ACCESS: MEM FL0 with the master, the access and the address; SUB is the core
when the master is an application core (R33). -/
def State.raiseAccess (s : State) (m : Option Master) (access addr : Nat) : State :=
  s.raiseWith pSYS 0
    { sub := (match m with | some (.core c) => some c.val | _ => none), master := codeOf m, access := access, addr := addr }

/-- A fault named with its master (R428). -/
def State.raiseBy (s : State) (p b : Nat) (m : Master) (access addr : Nat) : State :=
  s.raiseWith p b { master := m.code, access := access, addr := addr }

end Sys2Proof.Machine
end

