-- ==== Sys2Proof/Machine/Buffer.lean ====
section
/-! DEFINITION. Access to buffer memory: which master may read or write which region (R32, R33, R322, R323, R328), the
channel of a DRAM address (R329), and the reads and writes that the module's own streams make. -/

namespace Sys2Proof.Machine

abbrev afmBase : Nat := 0x10000000
abbrev scrBase : Nat := 0x11800000
abbrev stgBase : Nat := 0x12000000
abbrev ldpcBase : Nat := 0x12800000
abbrev srtBase : Nat := 0x12D80000
abbrev dilBase : Nat := 0x12E80000
abbrev zptBase : Nat := 0x12F80000
abbrev sramEnd : Nat := 0x13000000
abbrev dramBase : Nat := 0x100000000
abbrev dramEnd : Nat := 0x900000000
abbrev norWindow : Nat := 0x40000000
abbrev regBase : Nat := 0xF0000000
abbrev regEnd : Nat := 0xF0200000

/-- Bytes of the core region that the shared L2 takes (R323). -/
def State.l2Bytes (s : State) : Nat := ([0, 0x200000, 0x400000, 0x800000][s.get pBFM BFM.SRAM_CFG_L2_SIZE]?).getD 0

/-- Enabled channels, ascending (R324, R329). -/
def State.channels (s : State) : List Nat := (List.range 12).filter (bit (s.get pBFM BFM.DRAM_CFG_CH_MASK))

def State.dramState (s : State) : Nat := s.get pBFM BFM.DRAM_STAT_STATE

/-- The resource grants nothing now: DRAM on its way into, in, or on its way out of self-refresh (R332). -/
def State.grantsHeld (s : State) (r : Nat) : Bool :=
  decide (r < 12) && ((s.on pBFM BFM.DRAM_CTRL_SR_REQ && decide (s.dramState = 3)) || decide (s.dramState = 4))

/-- An access to this address waits for DRAM to leave self-refresh (R328, R332). -/
def State.dramHeld (s : State) (a : Nat) : Bool := decide (dramBase ≤ a) && s.grantsHeld 0

/-- The usable DRAM capacity in bytes (R329). -/
def State.usable (s : State) : Nat := s.get pBFM BFM.DRAM_STAT_USABLE * 2 ^ 20

/-- The DMC channel that serves DRAM address `x` (R329 steps 1 and 2). -/
def State.chanOf (s : State) (x : Nat) : Nat :=
  let ch := s.channels
  let g := (x - dramBase) / 64 / 7
  (ch[g % ch.length]?).getD 0

/-- The channel byte address of the data line of DRAM address `x` (R329 step 3). -/
def State.chanAddr (s : State) (x : Nat) : Nat :=
  let l := (x - dramBase) / 64
  512 * (l / 7 / s.channels.length) + 64 * (l % 7)

/-- The regions of buffer memory that DMA and host windows may use (R35, R322, R323, R329), each [start, end). -/
def State.dmaRegions (s : State) : List (Nat × Nat) :=
  [(afmBase, scrBase), (scrBase + s.l2Bytes, stgBase), (stgBase, ldpcBase), (srtBase, dilBase), (zptBase, sramEnd),
    (dramBase, dramBase + s.usable)]

/-- A range lies wholly inside one of those regions. -/
def State.dmaRange (s : State) (a n : Nat) : Bool := s.dmaRegions.any (fun r => decide (r.1 ≤ a) && decide (a + n ≤ r.2))

/-- A requester that is a head channel or a deep decoder (R322, working region). -/
def ownsWorking (m : Option Master) : Bool :=
  match m with
  | some (.head _) => true
  | some (.dd _) => true
  | _ => false

/-- A requester that may write the Aftermath region: the head channels (R151, R322). -/
def writesAfm (m : Option Master) : Bool := match m with | some (.head _) => true | _ => false

/-- A byte of hint entries 8–15 of a slot in PINNED state (R151). -/
def State.hintByte (s : State) (a : Nat) : Bool :=
  let o := (a - afmBase) % 0x20000
  decide (0x1E140 ≤ o) && decide (o < 0x1E180) && decide (s.get pAFM (AFM.SLOT_STAT_STATE ((a - afmBase) / 0x20000)) = 2)

/-- Why a byte access is refused: `none` where it is allowed, `some none` for a refusal that SYS ACCESS reports (R33),
`some (some n)` for an access to the fenced channel DMCn (R331). -/
def State.byteRefusal (s : State) (m : Option Master) (w : Bool) (a : Nat) : Option (Option Nat) :=
  if afmBase ≤ a ∧ a < scrBase then (if w && !writesAfm m && !s.hintByte a then some none else none)
  else if scrBase ≤ a ∧ a < stgBase then (if a < scrBase + s.l2Bytes then some none else none)
  else if stgBase ≤ a ∧ a < ldpcBase then none
  else if ldpcBase ≤ a ∧ a < srtBase then (if ownsWorking m then none else some none)
  else if srtBase ≤ a ∧ a < dilBase then none
  else if dilBase ≤ a ∧ a < zptBase then some none
  else if zptBase ≤ a ∧ a < sramEnd then none
  else if dramBase ≤ a ∧ a < dramEnd then
    if a < dramBase + s.usable ∧ (s.get pBFM BFM.DRAM_STAT_STATE = 3 ∨ s.get pBFM BFM.DRAM_STAT_STATE = 4) then
      (if s.on (pDMC (s.chanOf a)) HDR.FENCE_FENCED then some (some (s.chanOf a)) else none)
    else some none
  else some none

/-- The addresses that stand for the lines of an access: its first byte, the starts of the lines it enters, its last. -/
def spanPoints (a n : Nat) : List Nat :=
  a :: ((List.range ((a % 64 + n + 63) / 64)).map (fun i => a / 64 * 64 + 64 * i)).filter (fun x => a < x) ++ [a + (n - 1)]

/-- The first refusal met by an access of `n` bytes at `a`. -/
def State.spanRefusal (s : State) (m : Option Master) (w : Bool) (a n : Nat) : Option (Option Nat × Nat) :=
  (spanPoints a n).findSome? (fun x => (s.byteRefusal m w x).map (fun r => (r, x)))

/-- Report a refused access (R33, R331). ACCESS 1 is a read, 2 a write (R428). -/
def State.raiseRefusal (s : State) (m : Option Master) (w : Bool) (r : Option Nat) (x : Nat) : State :=
  match r with
  | none => s.raiseAccess m (if w then 2 else 1) x
  | some n => s.raiseWith (pDMC n) 6 { master := codeOf m, access := if w then 2 else 1, addr := x }

/-- The line addresses of a span. -/
def lineSpan (a n : Nat) : List Nat :=
  (List.range ((a % 64 + n + 63) / 64)).map (fun i => a / 64 * 64 + 64 * i)

/-- A line that a span covers whole (a full aligned 64 B write clears its error, R331). -/
def coversLine (a n l : Nat) : Bool := decide (a ≤ l) && decide (l + 64 ≤ a + n)

/-- A DRAM read that meets an uncorrectable error: MEM FL0 on the channel, UE_CNT, and MEM FL1 at UE_LIMIT (R331). -/
def State.dramUe (s : State) (m : Option Master) (w : Bool) (l : Nat) : State :=
  let n := s.chanOf l
  let p := pDMC n
  let s1 := ((s.put p DMC.ERR_ADDR (s.chanAddr l)).inc p DMC.UE_CNT).raiseWith p 2
    { master := codeOf m, access := if w then 4 else 1, addr := l }
  let s2 := s1.irq p 1
  if max 1 (s2.get p DMC.UE_LIMIT) ≤ s2.get p DMC.UE_CNT then s2.raise p 3 else s2

/-- The reports of an access of `n` bytes at `a` that meets a bad line `l`: a DRAM line is DMCn's error. -/
def State.badRead (s : State) (m : Option Master) (w : Bool) (l : Nat) : State :=
  if dramBase ≤ l then s.dramUe m w l else s

/-- RMW_CNT of the channels of the lines that a DRAM write touches but does not cover (R329). -/
def State.countRmw (s : State) (a n : Nat) : State :=
  s.each ((lineSpan a n).filter (fun l => decide (dramBase ≤ l) && !coversLine a n l))
    (fun s l => s.inc (pDMC (s.chanOf l)) DMC.RMW_CNT)

/-- Bytes of the ZPT region about to be written keep the value that they had at the start of this FCLK cycle (R100). -/
def State.noteZpt (s : State) (a n : Nat) : State :=
  if a < sramEnd ∧ zptBase < a + n then
    let old := if s.zptOld.1 = s.time / 192 + 1 then s.zptOld.2 else []
    let new := (((List.range n).map (fun i => a + i)).filter (fun x => decide (zptBase ≤ x) && decide (x < sramEnd) && !old.any (fun e => decide (e.1 = x)))).map (fun x => (x, s.byte x))
    { s with zptOld := (s.time / 192 + 1, old ++ new) }
  else s

/-- A write to buffer memory, refused with its report or performed; the flag says that it landed. A partly written line
that holds an uncorrectable error refuses the write, a line written whole loses its error (R331). -/
def State.bufWrite (s : State) (m : Option Master) (a : Nat) (bs : List Byte) : State × Bool :=
  match s.spanRefusal m true a bs.length with
  | some (r, x) => (s.raiseRefusal m true r x, false)
  | none =>
    match s.badLines.find? (fun l => (lineSpan a bs.length).contains l && !coversLine a bs.length l) with
    | some l => (s.badRead m true l, false)
    | none =>
      let s1 := ((s.noteZpt a bs.length).countRmw a bs.length).storeBytes a bs
      ({ s1 with badLines := s1.badLines.filter (fun l => !coversLine a bs.length l) }, true)

/-- A read of buffer memory: the bytes, or the error response with its report (R33, R331). -/
def State.bufRead (s : State) (m : Option Master) (a n : Nat) : State × Option (List Byte) :=
  match s.spanRefusal m false a n with
  | some (r, x) => (s.raiseRefusal m false r x, none)
  | none =>
    match s.badLines.find? (fun l => (lineSpan a n).contains l) with
    | some l => (s.badRead m false l, none)
    | none => (s, some (s.bytesAt a n))

/-- `n` bytes of a number, least significant first. -/
def leBytes (v n : Nat) : List Byte := (List.range n).map (fun i => BitVec.ofNat 8 (v / 256 ^ i))

/-- A number from bytes, least significant first. -/
def leNat (bs : List Byte) : Nat := bs.foldr (fun b acc => b.toNat + 256 * acc) 0

/-- Bytes of a list of 32-bit words. -/
def wordBytes (ws : List Nat) : List Byte := (ws.map (fun w => leBytes w 4)).flatten

/-- A record ring: page, base, size, write and read index, lost counter, its fault source and its pending IRQ bit. -/
structure Ring where
  page : Nat
  baseLo : Fld
  baseHi : Fld
  log2 : Fld
  lo : Nat
  hi : Nat
  wr : Fld
  rd : Fld
  lost : Fld
  recBytes : Nat
  fault : Nat
  pend : Nat
deriving DecidableEq, Repr

/-- The number of records of a ring: LOG2 outside its limits acts as the nearest limit (R88, R145, R189, R209, R262). -/
def State.ringSize (s : State) (r : Ring) : Nat := 2 ^ (max r.lo (min (s.get r.page r.log2) r.hi))

/-- The ring is full when its write index plus 1 equals its read index, modulo the ring size. -/
def State.ringFull (s : State) (r : Ring) : Bool :=
  decide ((s.get r.page r.wr + 1) % s.ringSize r = s.get r.page r.rd % s.ringSize r)

/-- A dropped record: counted, with the ring's lost-record source (R85). -/
def State.ringDrop (s : State) (r : Ring) : State := (s.inc r.page r.lost).raise r.page r.fault

/-- Write one record into a ring: dropped when the ring is full or BFM refuses the write (R85); otherwise the index
advances and the pending source stays set until firmware has read it. The flag says that it was written. -/
def State.ringWrite (s : State) (r : Ring) (m : Option Master) (ws : List Nat) : State × Bool :=
  if s.ringFull r then (s.ringDrop r, false)
  else
    let size := s.ringSize r
    let i := s.get r.page r.wr % size
    match s.bufWrite m (s.addr48 r.page r.baseLo r.baseHi + r.recBytes * i) (wordBytes ws) with
    | (s1, false) => (s1.ringDrop r, false)
    | (s1, true) => ((s1.put r.page r.wr ((i + 1) % size)).irq r.page r.pend, true)

end Sys2Proof.Machine
end

