-- ==== Sys2Proof/Machine/EccCode.lean ====
section
/-! DEFINITION. The check codes (R344, R345): columns, stored check bits, syndromes, and what a syndrome says; corrected errors met
by reads (R331, R346). -/

namespace Sys2Proof.Machine

/-- Set bits of a number below 2^8. -/
def weight8 (n : Nat) : Nat := ((List.range 8).filter (bit n)).length

/-- The columns of data bits 0–63 (R344 steps 1 and 2). -/
def cols72 : List Nat :=
  (List.range 256).filter (fun n => decide (weight8 n = 3)) ++ ((List.range 256).filter (fun n => decide (weight8 n = 5))).take 8

/-- The columns of data bits 0–31 of the (39,32) code (R345). -/
def cols39 : List Nat := ((List.range 128).filter (fun n => decide (weight8 n = 3))).take 32

/-- The computed check of a data word (R344 step 3). -/
def checkOf (cols : List Nat) (d : Nat) : Nat :=
  (((List.range cols.length).zip cols).filter (fun c => bit d c.1)).foldl (fun acc c => Nat.xor acc c.2) 0

/-- The stored check byte of an 8 B word and the stored check of a 32-bit word (R344 step 4, R345). -/
def stored72 (d : Nat) : Nat := Nat.xor (checkOf cols72 d) 0xFF
def stored39 (d : Nat) : Nat := Nat.xor (checkOf cols39 d) 0x7F

/-- The check line of the group of DRAM address `x`, and its channel byte address (R329 step 4): the check bytes of the 56 data words, the
check bytes of its own words 0–6, and 0. -/
def State.checkAddr (s : State) (x : Nat) : Nat := s.chanAddr x / 512 * 512 + 448
def State.checkLine (s : State) (x : Nat) : List Byte :=
  let g := dramBase + (x - dramBase) / 448 * 448
  let cs := (List.range 56).map (fun k => BitVec.ofNat 8 (stored72 (s.load (g + 8 * k) 8)))
  cs ++ (List.range 7).map (fun w => BitVec.ofNat 8 (stored72 (leNat ((cs.drop (8 * w)).take 8)))) ++ [0]

/-- The syndrome of a word read with its stored check. -/
def syndrome72 (d c : Nat) : Nat := Nat.xor (Nat.xor (checkOf cols72 d) c) 0xFF
def syndrome39 (d c : Nat) : Nat := Nat.xor (Nat.xor (checkOf cols39 d) c) 0x7F

/-- What a syndrome says (R344): clean, one error in a data or check bit, uncorrectable. -/
def eccOf (cols : List Nat) (w syn : Nat) : Ecc :=
  if syn = 0 then .good
  else if cols.contains syn || (List.range w).any (fun i => decide (syn = 2 ^ i)) then .ce
  else .ue

/-- The syndrome of a word that was stored valid and read with these bits flipped: the code is linear. -/
def errSyndrome (e : WordErr) : Nat := Nat.xor (checkOf cols72 e.data.toNat) e.chk.toNat

def errVerdict (e : WordErr) : Ecc := eccOf cols72 8 (errSyndrome e)

/-- A corrected error in a DRAM line: corrected data, MEM FL0 on the channel (R331). -/
def State.dramCe (s : State) (l : Nat) : State :=
  let p := pDMC (s.chanOf l)
  ((s.put p DMC.ERR_ADDR (s.chanAddr l)).inc p DMC.CE_CNT).raise p 4

/-- A corrected error that a read of the line at `l` meets, in buffer memory. -/
def State.lineCe (s : State) (l : Nat) : State :=
  if dramBase ≤ l then s.dramCe l
  else if srtBase ≤ l ∧ l < dilBase then s.raise pBFM 2
  else s

/-- A line's stored word has become uncorrectable. -/
def State.markBad (s : State) (l : Nat) : State :=
  if s.badLines.contains l then s else { s with badLines := l :: s.badLines }

/-- What a read of the line at `l` finds: errors beyond those already known. -/
def State.applyErr (s : State) (l : Nat) (e : WordErr) : State :=
  match errVerdict e with
  | .good => s
  | .ce => if s.badLines.contains l then s else s.lineCe l
  | .ue => s.markBad l

end Sys2Proof.Machine
end

