-- ==== Sys2Proof/Machine/Pages.lean ====
section
/-! DEFINITION. Pages as the bus sees them: power domains (R441), presence (R6), soft reset in progress (R43), fencing,
and the guard that every register access passes before its own effect. -/

namespace Sys2Proof.Machine

/-- The switched domain of a page; none for a page in the always-on domain or on the motion die (R441). -/
def pageDom (p : Nat) : Option Nat :=
  match pageKind p with
  | some .hch => some (p - 0x100)
  | some .act | some .srv | some .til | some .prf | some .dil | some .lnk => some (96 + (p - 0x40) / 16)
  | some .drl => if p = 5 then none else some (96 + (p - 0x40) / 16)
  | some .dmc => some (104 + (p - 16))
  | some .hif => some (116 + (p - 0x30))
  | some .stp => some 134
  | some .xts => some 135
  | some .afm => some 136
  | some .mdc => some 137
  | some .gln => some 138
  | some .nvs => some 139
  | _ => none

/-- Domains of application core `c`, deep decoder `d` and the key store (R441). -/
abbrev domCore (c : Nat) : Nat := 118 + c
abbrev domDD (d : Nat) : Nat := 126 + d
abbrev domKS : Nat := 140

def State.domOf (s : State) (d : Nat) : Dom := tabGet s.dom d {}
def State.setDom (s : State) (d : Nat) (v : Dom) : State := { s with dom := tabPut s.dom d v {} }

/-- POWER_ACK of a domain: the domain is ON (R442). -/
def State.domOn (s : State) (d : Nat) : Bool := decide ((s.domOf d).st = 5)

/-- STAT.POWER_ACK of a page (R42). -/
def State.powered (s : State) (p : Nat) : Bool :=
  match pageDom p with
  | none => true
  | some d => s.domOn d

/-- CTRL.POWER_REQ of a page: 1 on always-on pages, the domain's one request bit elsewhere (R39, R40). -/
def State.powerReq (s : State) (p : Nat) : Bool :=
  match pageDom p with
  | none => true
  | some d => (s.domOf d).req

def State.present (s : State) (p : Nat) : Bool := s.part.hasPage p
def State.fenced (s : State) (p : Nat) : Bool := s.on p HDR.FENCE_FENCED
def State.enabled (s : State) (p : Nat) : Bool := s.on p HDR.CTRL_ENABLE
def State.isResetting (s : State) (p : Nat) : Bool := s.resetting.contains p
def State.locked (s : State) (p : Nat) : Bool := s.on p HDR.LOCK_LOCK

/-- A unit works: present, powered, enabled. -/
def State.running (s : State) (p : Nat) : Bool := s.present p && s.powered p && s.enabled p

/-- Register-region address of a register (R36). -/
def regAddr (p off : Nat) : Nat := 0xF0000000 + 0x1000 * p + off

/-- The guard of a write to a page-specific register that has a command of its own: without effect on an absent page
(R6), PWR FL0 with the master's identity on a page whose unit is off (R41), without effect during a soft reset (R43). -/
def State.regCmd (s : State) (m : Master) (p off : Nat) (k : State → State) : State :=
  if !s.present p then s
  else if !s.powered p then s.raiseBy pPWR 1 m 2 (regAddr p off)
  else if s.isResetting p then s
  else k s

/-- The guard of a read that has a command of its own: an absent page, a unit that is off and one in soft reset read 0. -/
def State.regRead (s : State) (m : Master) (p off : Nat) (k : State → State) : State :=
  if !s.present p then s.answer 0
  else if !s.powered p then (s.raiseBy pPWR 1 m 1 (regAddr p off)).answer 0
  else if s.isResetting p then s.answer 0
  else k s

/-- A write to the page header that has a command of its own: header logic is always on (R38), a soft reset in progress
makes the page ignore it (R43). -/
def State.hdrCmd (s : State) (p : Nat) (k : State → State) : State :=
  if !s.present p || s.isResetting p then s else k s

end Sys2Proof.Machine
end

