-- ==== Sys2Proof/Machine/Furrow.lean ====
section
/-! DEFINITION. The Furrow clock's page and the angle tracker (R58–R72): predictions, the loop, the state transitions. -/

namespace Sys2Proof.Machine

/-- The number of wedges per revolution (R71). -/
def State.wedgesN (s : State) : Nat := s.get pFUR FUR.WEDGES_N

/-- TRK_STAT.STATE (R66): 0 IDLE, 1 ACQUIRE, 2 TRACK, 3 LOCKED, 4 HOLDOVER, 5 LOST. -/
def State.trkState (s : State) : Nat := s.get pFUR FUR.TRK_STAT_STATE

/-- The angle is valid or extrapolated: TRACK, LOCKED or HOLDOVER (R66; VALID in HOLDOVER is DESIGN CHOICE, log 114). -/
def State.angleOk (s : State) : Bool := s.trkState = 2 || s.trkState = 3 || s.trkState = 4

/-- PIVOT_TRIMa, signed sub-ticks (R72). -/
def State.pivotTrim (s : State) (a : Nat) : Int := sgn 16 (s.get pFUR (FUR.PIVOT_TRIM a))

/-- A wedge number at pivot p in the P0 frame (R18, R63). -/
def toP0 (n p w : Nat) : Nat := (w + n * p / 4) % n

/-- A P0-frame index in the frame of pivot p (R18, R65). -/
def fromP0 (n p i : Nat) : Nat := (i + n - n * p / 4 % n) % n

/-- Wedges passed since the tracker's wedge at unwrapped time `t` (R65). -/
def Tracker.passed (k : Tracker) (t : Int) : Int := if k.period = 0 then 0 else (((t : Rat) - k.phase) / k.period).floor

/-- The P0 wedge index at time `t` (R65). -/
def State.angIndex (s : State) (t : Int) : Nat := (((s.trk.idx : Int) + s.trk.passed t) % (s.wedgesN : Int)).toNat

/-- The fraction of the wedge at time `t`, in 1/65,536 wedge, rounded down (R65; DESIGN CHOICE, log 113). -/
def State.angFrac (s : State) (t : Int) : Nat :=
  if s.trk.period = 0 then 0
  else
    ((((t : Rat) - s.trk.phase - (s.trk.passed t : Rat) * s.trk.period) / s.trk.period * 65536).floor.toNat) % 65536

/-- The revolution count at time `t` (R65), wrapping at 2^32. -/
def State.angRev (s : State) (t : Int) : Nat :=
  (((s.trk.rev : Int) + ((s.trk.idx : Int) + s.trk.passed t) / (s.wedgesN : Int)) % 2 ^ 32).toNat

/-- Predicted time of the occurrence of P0 wedge `i` in the revolution of the tracker's wedge, as an exact number. -/
def State.wedgeTime (s : State) (i : Nat) : Rat :=
  s.trk.phase + (((i + s.wedgesN - s.trk.idx) % s.wedgesN : Nat) : Rat) * s.trk.period

/-- Nearest sub-tick, a half rounded up (R74). -/
def roundUp (x : Rat) : Int := (x + 1 / 2).floor

/-- One predicted revolution in sub-ticks. -/
def State.revPeriod (s : State) : Rat := (s.wedgesN : Rat) * s.trk.period

/-- The first occurrence, rounded to the sub-tick, of an event at exact time `b` modulo the revolution that is at `lo` or
later (R74). -/
def State.firstAt (s : State) (b : Rat) (lo : Int) : Int :=
  let rev := s.revPeriod
  if rev ≤ 0 then roundUp b
  else
    let m := (((lo : Rat) - b) / rev).floor
    (([m - 1, m, m + 1, m + 2].map (fun k : Int => roundUp (b + (k : Rat) * rev))).find? (fun t => decide (lo ≤ t))).getD (roundUp b)

/-- The tracker enters IDLE (R66): the angle is invalid, NO_LOCK clears (R67), fine regulation ends (R302). -/
def State.trackerIdle (s : State) : State :=
  { ((s.put pFUR FUR.TRK_STAT_STATE 0).put pFUR FUR.TRK_STAT_NO_LOCK 0).put pSPN SPN.SPN_STAT_FINE 0 with trk := { rev := s.trk.rev }, meas := [] }

/-- Entry into ACQUIRE from IDLE with FUR enabled, TRACK_EN at 1 and the spindle at speed (R66, R72). -/
def State.trackerStart (s : State) : State :=
  if s.trkState = 0 ∧ s.enabled pFUR = true ∧ s.on pFUR FUR.TRK_CTRL_TRACK_EN = true ∧ s.on pSPN SPN.SPN_STAT_AT_SPEED = true then
    { s.put pFUR FUR.TRK_STAT_STATE 1 with trk := { rev := s.trk.rev, acqStart := s.time }, meas := [] }
  else s

/-- A measurement in the P0 frame (R63). -/
def State.toFrame (s : State) (m : WedgeMeas) : WedgeMeas :=
  { m with wedge := toP0 s.wedgesN (m.act / 2) m.wedge, time := m.time - s.pivotTrim m.act }

/-- The measurements that REF_MASK, fencing and quality let in (R63), in the P0 frame. -/
def State.refMeas (s : State) : List WedgeMeas :=
  (s.meas.filter (fun m => bit (s.get pFUR FUR.TRK_CTRL_REF_MASK) m.act && !s.fenced (pACT m.act) && m.good)).map s.toFrame

/-- In ACQUIRE, the index that most measurements give; a tie goes to the group of the lowest-numbered actuator (R63). -/
def votedIndex (ms : List WedgeMeas) : Option Nat :=
  let votes := fun i => (ms.filter (fun m => m.wedge = i)).length
  let top := (ms.map (fun m => votes m.wedge)).foldl max 0
  let tied := ms.filter (fun m => votes m.wedge = top)
  let low := (tied.map (·.act)).foldl min 255
  (tied.find? (fun m => m.act = low)).map (·.wedge)

/-- Mean of exact times. -/
def meanTime (ms : List WedgeMeas) : Rat := ((ms.map (·.time)).sum : Rat) / (ms.length : Rat)

/-- REF_ACTIVE: the actuators whose measurement was used (R72). -/
def refActive (ms : List WedgeMeas) : Nat := ms.foldl (fun r m => withBit r m.act true) 0

/-- A spacing within ±1 % of NOM_REV / N (R66). -/
def State.spacingOk (s : State) (d : Rat) : Bool :=
  let nom : Rat := (s.get pFUR FUR.NOM_REV : Rat) / (s.wedgesN : Rat)
  decide (nom * 99 / 100 ≤ d) && decide (d ≤ nom * 101 / 100)

/-- A wedge in ACQUIRE (R63, R67): the run of consecutive wedges grows, or restarts at this wedge, or is broken. -/
def State.acquireWedge (s : State) : State :=
  let ms := s.refMeas
  match votedIndex ms with
  | none =>
    { (s.inc pFUR FUR.MISS_WEDGES).put pFUR FUR.TRK_STAT_REF_ACTIVE 0 with trk := { s.trk with acq := [] }, meas := [] }
  | some i =>
    let us := ms.filter (fun m => m.wedge = i)
    let t := meanTime us
    let acq := match s.trk.acq with
      | (t0, i0) :: r => if (i0 + 1) % s.wedgesN = i && s.spacingOk (t - t0) then (t, i) :: (t0, i0) :: r else [(t, i)]
      | [] => [(t, i)]
    { s.put pFUR FUR.TRK_STAT_REF_ACTIVE (refActive us) with trk := { s.trk with acq := acq.take 3 }, meas := [] }

/-- PHASE_ERR and ERR_MAX (R72): the phase error in whole sub-ticks, toward zero (DESIGN CHOICE, log 113), saturating. -/
def State.notePhase (s : State) (e : Rat) : State :=
  let i : Int := if 0 ≤ e then e.floor else -((-e).floor)
  (s.put pFUR FUR.PHASE_ERR (enc 16 (satS 16 i))).putMax pFUR FUR.ERR_MAX (min i.natAbs 0xFFFF)

/-- A wedge in TRACK, LOCKED or HOLDOVER (R63, R64, R66, R67): the error against the prediction made before the
correction, the correction, the counts, the next prediction. PERIOD shows the estimate rounded down (DESIGN CHOICE, log 113). -/
def State.trackWedge (s : State) : State :=
  let st := s.trkState
  let n := s.wedgesN
  let k := s.trk
  let i := (k.idx + 1) % n
  let pred := k.phase + k.period
  let ms := s.refMeas
  let us := ms.filter (fun m => m.wedge = i)
  let has := !us.isEmpty
  let e : Rat := if has then meanTime us - pred else 0
  let ae : Rat := if 0 ≤ e then e else -e
  let within := has && decide (ae ≤ (s.get pFUR FUR.LOCK_CFG_LOCK_THR : Rat))
  let big := decide ((s.get pFUR FUR.LOCK_CFG_UNLOCK_THR : Rat) < ae)
  let correct := has && (st != 4 || !big)
  let kp : Rat := (s.get pFUR FUR.TRK_GAIN_KP : Rat) / 65536
  let ki : Rat := (s.get pFUR FUR.TRK_GAIN_KI : Rat) / 16777216
  let k1 : Tracker := { k with
    phase := if correct then pred + kp * e else pred
    period := if correct then k.period + ki * e else k.period
    idx := i
    rev := if i = 0 then (k.rev + 1) % 2 ^ 32 else k.rev
    good := if within then k.good + 1 else 0
    bad := if has && !big then 0 else k.bad + 1
    miss := if has then 0 else k.miss + 1
    hold := if st = 4 then k.hold + 1 else 0
    disagree := !ms.isEmpty && !has }
  let s1 := { s with trk := k1, meas := [], spnWedge := if has then some (meanTime us, k1.rev * n + i) else s.spnWedge }
  let s2 := (if has then s1.notePhase e else s1.inc pFUR FUR.MISS_WEDGES).put pFUR FUR.TRK_STAT_REF_ACTIVE (refActive us)
  let s3 := s2.put pFUR FUR.PERIOD ((k1.period * 256).floor.toNat % 2 ^ 32)
  if i = 0 then s3.irq pFUR 3 else s3

/-- `LOCK_CFG` counts: 0 acts as 1 (R72). -/
def State.lockCount (s : State) : Nat := max 1 (s.get pFUR FUR.LOCK_CFG_LOCK_COUNT)
def State.holdMax (s : State) : Nat := max 1 (s.get pFUR FUR.LOCK_CFG_HOLD_MAX)

/-! ### Meanings -/

/-- R70: the two counter copies disagree. -/
def execCounterMismatch (s : State) : Out := .next (s.raise pFUR 3)

/-- R72: a TIME_LO read returns Furrow time [31:0] and latches TIME_HI and the angle for the reading master; while the angle is
invalid it latches ANG_WEDGE and ANG_REV as 0 (DESIGN CHOICE, log 114). -/
def execTimeLoRead (m : Master) (s : State) : Out :=
  let t : Int := s.time
  let ang := if s.angleOk then 2 ^ 31 + s.angIndex t * 2 ^ 16 + s.angFrac t else 0
  let rev := if s.angleOk then s.angRev t else 0
  .next ((((s.setMreg m pFUR 0x44 (BitVec.ofNat 32 (s.time / 2 ^ 32))).setMreg m pFUR 0x48 (BitVec.ofNat 32 ang)).setMreg
    m pFUR 0x4C (BitVec.ofNat 32 rev)).answer s.timeLo)

/-- R66: writing TRACK_EN. -/
def execTrackEn (m : Master) (en : Bool) (s : State) : Out :=
  .next (s.regCmd m pFUR 0x50 (fun s =>
    let s1 := s.putB pFUR FUR.TRK_CTRL_TRACK_EN en
    if en then s1.trackerStart else s1.trackerIdle))

/-- R71: a write of WEDGES. -/
def execWedges (m : Master) (n : BitVec 11) (s : State) : Out :=
  .next (s.regCmd m pFUR 0x54 (fun s =>
    if n.toNat % 4 = 0 ∧ 256 ≤ n.toNat ∧ n.toNat ≤ 1024 ∧ s.trkState = 0 then s.put pFUR FUR.WEDGES_N n.toNat
    else (s.irq pFUR 4).raise pFUR 0))

/-- R63, R64: the references of one wedge reach the tracker. -/
def execWedgeMeasurement (s : State) : Out :=
  .next (if s.trkState = 1 then s.acquireWedge
    else if s.angleOk then s.trackWedge
    else { s with meas := [] })

/-- R66, R64: three consecutive good acquiring wedges. -/
def execTrackerEnterTrack (s : State) : Out :=
  match s.trkState, s.trk.acq with
  | 1, (t2, i2) :: (_, _) :: (t0, _) :: [] =>
    let per := (t2 - t0) / 2
    .next ({ (s.put pFUR FUR.TRK_STAT_STATE 2).put pFUR FUR.PERIOD ((per * 256).floor.toNat % 2 ^ 32) with trk := { s.trk with phase := t2, period := per, idx := i2, acq := [], good := 0, bad := 0, miss := 0, hold := 0, disagree := false } })
  | _, _ => .next s

/-- R66: LOCK_COUNT consecutive wedges within LOCK_THR, in TRACK or HOLDOVER. -/
def execTrackerLocked (s : State) : Out :=
  if (s.trkState = 2 ∨ s.trkState = 4) ∧ s.lockCount ≤ s.trk.good then
    let s1 := ((s.put pFUR FUR.TRK_STAT_STATE 3).put pFUR FUR.TRK_STAT_NO_LOCK 0).irq pFUR 0
    .next { s1 with trk := { s1.trk with bad := 0, hold := 0 } }
  else .next s

/-- R66, R70, R302: two consecutive bad wedges in LOCKED. -/
def execTrackerHoldover (s : State) : Out :=
  if s.trkState = 3 ∧ 2 ≤ s.trk.bad then
    let s1 := (((s.put pFUR FUR.TRK_STAT_STATE 4).put pSPN SPN.SPN_STAT_FINE 0).irq pFUR 1).raise pFUR 1
    .next { s1 with trk := { s1.trk with good := 0, hold := 0 } }
  else .next s

/-- R66, R70: HOLD_MAX wedges in HOLDOVER; LOCKED wins when both counts are reached at the same wedge. -/
def execTrackerLost (s : State) : Out :=
  if s.trkState = 4 ∧ s.holdMax ≤ s.trk.hold ∧ s.trk.good < s.lockCount then
    .next (((s.put pFUR FUR.TRK_STAT_STATE 5).irq pFUR 2).raise pFUR 2)
  else .next s

/-- R67: TRACK returns to ACQUIRE; the count towards ACQ_TIMEOUT goes on. -/
def execTrackToAcquire (s : State) : Out :=
  if s.trkState = 2 ∧ (2 ≤ s.trk.miss ∨ s.trk.disagree = true) then
    .next { s.put pFUR FUR.TRK_STAT_STATE 1 with trk := { s.trk with acq := [], good := 0, bad := 0, miss := 0, disagree := false } }
  else .next s

/-- R67: LOCKED not reached within 2 · NOM_REV of the entry into ACQUIRE from IDLE, reported once. -/
def execAcqTimeout (s : State) : Out :=
  if (s.trkState = 1 ∨ s.trkState = 2) ∧ s.trk.noLockTold = false ∧
      s.trk.acqStart + 2 * s.get pFUR FUR.NOM_REV ≤ s.time then
    let s1 := ((s.put pFUR FUR.TRK_STAT_NO_LOCK 1).irq pFUR 5).raise pFUR 4
    .next { s1 with trk := { s1.trk with noLockTold := true } }
  else .next s

end Sys2Proof.Machine
end

