-- ==== Sys2Proof/Machine/Drill.lean ====
section
/-! DEFINITION. The Drill queues (R73–R88, R537): entry fields, resolution, admission, the order of launches, retirement,
removal. Queue `d` is DRLa for d = a below 8 and DRLD for d = 8. -/

namespace Sys2Proof.Machine

def State.drlOf (s : State) (d : Nat) : DrillQ := tabGet s.drl d {}
def State.setDrl (s : State) (d : Nat) (q : DrillQ) : State := { s with drl := tabPut s.drl d q {} }

/-! ### Entry fields (R73) -/

def Entry.action (e : Entry) : Nat := bits e.w1.toNat 7 0
def Entry.angle (e : Entry) : Bool := bit e.w1.toNat 8
def Entry.revSkip (e : Entry) : Bool := bit e.w1.toNat 9
def Entry.target (e : Entry) : Nat := bits e.w1.toNat 15 11
def Entry.tag (e : Entry) : Nat := bits e.w1.toNat 31 16
def Entry.arg (e : Entry) : Nat := e.w2.toNat
/-- SLACK in sub-ticks. -/
def Entry.slack (e : Entry) : Int := bits e.w3.toNat 11 0 * 64

/-- Action codes (R76). -/
abbrev aRG : Nat := 1
abbrev aWG : Nat := 2
abbrev aHEAT : Nat := 3
abbrev aPRE : Nat := 4
abbrev aAPPLY : Nat := 5
abbrev aMAOFS : Nat := 6
abbrev aSTP : Nat := 7
abbrev aPROF : Nat := 8
abbrev aSPN : Nat := 9
abbrev aEVENT : Nat := 10

def Entry.gate (e : Entry) : Bool := e.action = aRG || e.action = aWG
def Entry.serial (e : Entry) : Bool := e.action = aHEAT || e.action = aPRE || e.action = aSPN
/-- A background read pair: option BG of an RG entry (R144). -/
def Entry.bg (e : Entry) : Bool := e.action = aRG && bit e.arg 22
/-- Slots an entry holds: a gate pair two until its open has launched (R82). -/
def Entry.slots (e : Entry) : Nat := if e.gate && !e.opened then 2 else 1

/-- Phase of an open or single action (R76). -/
def Entry.phase (e : Entry) : Nat := if e.action = aAPPLY then 1 else 2

/-- Slots of a queue. -/
def drlCap (d : Nat) : Nat := if d < 8 then 512 else 256

/-- The units an action acts on and that R82 and R84 check; none where the action or target is not allowed (R537). -/
def drillUnits (d action target arg : Nat) : Option (List Nat) :=
  if d < 8 then
    if action = aRG ∨ action = aWG then (if target < 12 then some [pHCH (12 * d + target)] else none)
    else if action = aHEAT ∨ action = aPRE then (if target < 12 then some [pHCH (12 * d + target), pLNK d] else none)
    else if action = aMAOFS then (if target < 12 then some [pTIL d] else none)
    else if action = aAPPLY then
      (if target < 12 then some [pHCH (12 * d + target)] else if target < 19 then some [0x40 + 16 * d + (target - 12)] else none)
    else if action = aSTP then some [pSTP]
    else if action = aPROF then some [pPRF d]
    else if action = aEVENT then some [pDIL d]
    else none
  else
    if action = aAPPLY then some [arg % 512]
    else if action = aSPN then some [pSPN]
    else if action = aEVENT then some []
    else none

/-- The unit of an entry is fenced: a page of its units, or the loop itself for MA_OFFSET (R537). -/
def State.drillFenced (s : State) (d action target arg : Nat) : Bool :=
  ((drillUnits d action target arg).getD []).any s.fenced ||
    (d < 8 && action = aMAOFS && s.on (pTIL d) (LOOP.LSTAT_FENCED target))

/-! ### Resolution (R59, R74) -/

/-- The unwrapped time that a 32-bit Furrow field names (R59). -/
def nearest32 (now : Int) (w : Word) : Int := now + (w - BitVec.ofInt 32 now).toInt

/-- The pivot of a queue's frame: a div 2 for DRLa, P0 for DRLD (R74). -/
def drlPivot (d : Nat) : Nat := if d < 8 then d / 2 else 0

/-- Exact time, modulo the revolution, of an ANGLE word in queue `d` (R74). -/
def State.angleBase (s : State) (d : Nat) (w : Word) : Rat :=
  s.wedgeTime (toP0 s.wedgesN (drlPivot d) (bits w.toNat 31 22)) +
    (((if d < 8 then s.pivotTrim d else 0) + (bits w.toNat 21 0 : Int) : Int) : Rat)

/-- Launch time of an entry: the Furrow time of WHEN, or the first occurrence of the angle at `lo` or later, one further
with REV_SKIP (R74). -/
def State.resolveOpen (s : State) (d : Nat) (e : Entry) (lo : Int) : Int :=
  if e.angle then
    let t := s.firstAt (s.angleBase d e.w0) lo
    if e.revSkip then s.firstAt (s.angleBase d e.w0) (t + 1) else t
  else nearest32 s.time e.w0

/-- Close time of a gate pair: in ANGLE mode the first occurrence after the open (R74). -/
def State.resolveClose (s : State) (d : Nat) (e : Entry) (t : Int) : Int :=
  if e.angle then s.firstAt (s.angleBase d e.w3) (t + 1) else nearest32 s.time e.w3

/-- The resolution point of an ANGLE entry that resolves now to `e.t`: the predicted servo sample of the preceding wedge (R74). -/
def State.resolvePoint (s : State) (e : Entry) : Rat :=
  (e.t : Rat) - (bits e.w0.toNat 21 0 : Nat) - s.trk.period

/-! ### Admission (R81–R83) -/

/-- A refusal: RESULT, DETAIL and the FLT_STAT bit it raises. -/
structure Verdict where
  result : Nat := 0
  detail : Nat := 0
  fault : Option Nat := none
deriving DecidableEq, Repr

/-- Every gate pair and other entry pending in DRLa queues, with its queue. -/
def State.allEntries (s : State) : List (Nat × Entry) :=
  ((List.range 8).map (fun d => (s.drlOf d).ents.map (fun e => (d, e)))).flatten

/-- Two half-open intervals intersect (R61). -/
def overlaps (a b c d : Int) : Bool := decide (a < d) && decide (c < b)

/-- The interval that the write table holds for a pair: ANGLE pairs widened by 64 ft at each end (R83). -/
def Entry.writeSpan (e : Entry) : Int × Int := if e.angle then (e.t - 4096, e.c + 4096) else (e.t, e.c)

/-- Writing heads at instant `x`, each named once. -/
def headsAt (ws : List (Nat × Entry)) (x : Int) : List Nat :=
  ((ws.filter (fun p => decide (p.2.writeSpan.1 ≤ x) && decide (x < p.2.writeSpan.2))).map
    (fun p => 12 * p.1 + p.2.target)).eraseDups

/-- A new write pair breaks no limit: at most 48 heads device-wide and 12 on the actuator at every instant (R83). -/
def writeFits (ws : List (Nat × Entry)) (d : Nat) (e : Entry) : Bool :=
  let sp := e.writeSpan
  let all := (d, e) :: ws
  let starts := sp.1 :: ((ws.map (fun p => p.2.writeSpan.1)).filter (fun x => decide (sp.1 ≤ x) && decide (x < sp.2)))
  starts.all (fun x => let h := headsAt all x
    decide (h.length ≤ 48) && decide ((h.filter (fun y => y / 12 = d)).length ≤ 12))

/-- A pair of one head that refuses the new pair: an overlap, unless the admitted one is a background read and the new one
is a foreground gate (R82, R144, R173). -/
def clashes (new old : Entry) : Bool :=
  old.gate && new.gate && decide (old.target = new.target) && overlaps new.t new.c old.t old.c && !(old.bg && !new.bg)

/-- The checks of R82 in the table's order. `others` are the entries counted as admitted, `used` the slots taken before. -/
def State.admitCheck (s : State) (d : Nat) (e : Entry) (now lead : Int) (others : List (Nat × Entry)) (used : Nat) : Verdict :=
  match drillUnits d e.action e.target e.arg with
  | none => { result := 1, detail := 7, fault := some 2 }
  | some us =>
    if e.serial && decide (e.slack = 0) then { result := 1, detail := 8, fault := some 2 }
    else if us.any (fun p => !s.present p) then { result := 1, detail := 1, fault := some 2 }
    else if us.any (fun p => !s.powered p) then { result := 1, detail := 0xB, fault := some 2 }
    else if s.drillFenced d e.action e.target e.arg then { result := 1, detail := 2, fault := some 2 }
    else if e.angle && !s.angleOk then { result := 1, detail := 0xA, fault := some 2 }
    else if decide (2 ^ 31 ≤ e.t - now) ||
        (e.angle && (decide (s.wedgesN ≤ bits e.w0.toNat 31 22) || (e.gate && decide (s.wedgesN ≤ bits e.w3.toNat 31 22))))
      then { result := 1, detail := 9, fault := some 2 }
    else if (e.gate && (decide (e.c ≤ e.t) || decide (1048576 * 64 < e.c - e.t))) || (!e.gate && decide (bits e.w3.toNat 31 12 ≠ 0))
      then { result := 1, detail := 6, fault := some 2 }
    else if (if e.serial then decide (e.t + e.slack ≤ now + lead) else decide (e.t < now + lead))
      then { result := 2, detail := 0, fault := some 1 }
    else if others.any (fun p => decide (p.1 = d) && clashes e p.2) then { result := 1, detail := 5, fault := some 2 }
    else if decide (e.action = aWG) && !writeFits (others.filter (fun p => decide (p.2.action = aWG))) d e
      then { result := 1, detail := 3, fault := some 2 }
    else if decide (drlCap d < used + e.slots) then { result := 3, detail := 0, fault := some 2 }
    else {}

/-- An entry from its words, resolved at `now` with lead `lead`; final at once when its resolution point has passed. -/
def State.makeEntry (s : State) (d : Nat) (w0 w1 w2 w3 : Word) (now lead : Int) : Entry :=
  let e0 : Entry := { w0 := w0, w1 := w1, w2 := w2, w3 := w3, t := 0, c := 0, lo := now + lead, fin := false, seq := 0, slot := 0, slotC := 0 }
  let t := if e0.angle then s.resolveOpen d e0 (now + lead) else nearest32 now w0
  let e1 := { e0 with t := t, c := if !e0.gate then 0 else if e0.angle then s.resolveClose d e0 t else nearest32 now w3 }
  if e1.angle then { e1 with point := s.resolvePoint e1, fin := decide (s.resolvePoint e1 ≤ (now : Rat)) } else { e1 with fin := true }

/-- Slots taken in a queue. -/
def DrillQ.used (q : DrillQ) : Nat := (q.ents.map Entry.slots).sum

/-- Slot numbers in use. -/
def DrillQ.slotsUsed (q : DrillQ) : List Nat :=
  (q.ents.map (fun e => if e.gate then (if e.opened then [e.slotC] else [e.slot, e.slotC]) else [e.slot])).flatten

/-- A free slot. The spec does not say which one an entry takes: a free value picks it (log 4). -/
def State.takeSlot (s : State) (d : Nat) (used : List Nat) : State × Nat :=
  let free := (List.range (drlCap d)).filter (fun i => !used.contains i)
  (s.drew, (free[s.freeVal % free.length]?).getD 0)

/-- Q_STAT (R88). -/
def State.noteQueue (s : State) (d : Nat) : State :=
  let q := s.drlOf d
  let s1 := s.put (drlPage d) DRL.Q_STAT_PENDING q.used
  if d < 8 then s1.put (drlPage d) DRL.Q_STAT_WPAIRS (q.ents.filter (fun e => e.action = aWG)).length else s1

/-- Enter an admitted entry into its queue; answers the state and the open's slot. -/
def State.enterEntry (s : State) (d : Nat) (e : Entry) : State × Nat :=
  let u := (s.drlOf d).slotsUsed
  let r1 := s.takeSlot d u
  let r2 := if e.gate then r1.1.takeSlot d (r1.2 :: u) else (r1.1, 0)
  let q := r2.1.drlOf d
  ((r2.1.setDrl d { q with ents := q.ents ++ [{ e with seq := q.seq, slot := r1.2, slotC := r2.2 }], seq := q.seq + 1 }).noteQueue d, r1.2)

/-- The fault and interrupt of a refusal (R82, R88). -/
def State.noteRefusal (s : State) (d : Nat) (v : Verdict) : State :=
  let s1 := s.irq (drlPage d) 2
  match v.fault with
  | none => s1
  | some b => s1.raise (drlPage d) b

/-- The queue takes no entries: HOLD_ENQ, or not enabled (R82 STOPPED). -/
def State.drlStopped (s : State) (d : Nat) : Bool := s.on (drlPage d) DRL.Q_CTRL_HOLD_ENQ || !s.enabled (drlPage d)

/-- One entry that arrives at `now`, checked and admitted or refused (R80, R82): the state, the verdict and the open's slot. -/
def State.enqueueOne (s : State) (d : Nat) (w0 w1 w2 w3 : Word) (now : Nat) (lead : Int) : State × Verdict × Nat :=
  if s.drlStopped d then
    let v : Verdict := { result := 4 }
    (s.noteRefusal d v, v, 0)
  else
    let e := s.makeEntry d w0 w1 w2 w3 now lead
    let v := s.admitCheck d e now lead s.allEntries (s.drlOf d).used
    if v.result = 0 then
      let r := s.enterEntry d e
      (r.1, v, r.2)
    else (s.noteRefusal d v, v, 0)

/-- The first entry of a batch that fails a check, with its index and verdict (R82). Every other gate pair of the batch
counts as admitted; slots are counted up to and including the entry. -/
def State.batchFail (s : State) (d : Nat) (now lead : Int) (pre rest : List Entry) (used : Nat) (i : Nat) : Option (Nat × Verdict) :=
  match rest with
  | [] => none
  | e :: r =>
    let mates := ((pre ++ r).filter Entry.gate).map (fun x => (d, x))
    let v := s.admitCheck d e now lead (s.allEntries ++ mates) used
    if v.result = 0 then s.batchFail d now lead (pre ++ [e]) r (used + e.slots) (i + 1) else some (i, v)

/-- A batch, admitted whole or refused whole (R81): the state, the verdict and the index of the first entry refused. -/
def State.admitBatch (s : State) (d : Nat) (es : List Entry) (now lead : Int) : State × Verdict × Nat :=
  if s.drlStopped d then
    let v : Verdict := { result := 4 }
    (s.noteRefusal d v, v, 0)
  else
    match s.batchFail d now lead [] es (s.drlOf d).used 0 with
    | some (i, v) => (s.noteRefusal d v, v, i)
    | none => (s.each es (fun s e => (s.enterEntry d e).1), {}, 0)

/-! ### Retirement (R84, R85) -/

/-- The retire ring of a queue. -/
def drlRing (d : Nat) : Ring :=
  { page := drlPage d, baseLo := { DRL.RET_BASE_LO with lo := 0, wd := 32 }, baseHi := DRL.RET_BASE_HI, log2 := DRL.RET_SIZE_LOG2, lo := 4, hi := 12, wr := DRL.RET_WR, rd := DRL.RET_RD, lost := DRL.RET_LOST, recBytes := 16, fault := 4, pend := 0 }

/-- The retire record (R85). -/
def retireWords (e : Entry) (isClose : Bool) (outcome : Nat) (launch : Option Int) (late : Int) (seq : Nat) : List Nat :=
  [e.tag + e.action * 2 ^ 16 + outcome * 2 ^ 24 + (if isClose then 2 ^ 28 else 0),
   (match launch with | some t => (t % 2 ^ 32).toNat | none => 0),
   (min late.toNat (2 ^ 24 - 1)) + e.target * 2 ^ 24,
   (if isClose then e.slotC else e.slot) + seq % 2 ^ 16 * 2 ^ 16]

/-- One retirement: the running count, the record that RET_CTRL.MODE selects, and what a MISSED or NOT_ARMED outcome
raises (R79, R84, R85, R55). The count advances at every retirement, recorded or not (DESIGN CHOICE, log 112). -/
def State.retire (s : State) (d : Nat) (e : Entry) (isClose : Bool) (outcome : Nat) (launch : Option Int) (late : Int) : State :=
  let q := s.drlOf d
  let s1 := s.setDrl d { q with retired := (q.retired + 1) % 2 ^ 16 }
  let s2 :=
    if (outcome ≠ 0 ∨ s.on (drlPage d) DRL.RET_CTRL_MODE = true) ∧ e.quiet = false then
      match s1.ringWrite (drlRing d) none (retireWords e isClose outcome launch late q.retired) with
      | (s', true) => s'
      | (s', false) => s'.irq (drlPage d) 4
    else s1
  if outcome = 2 then
    (((s2.inc (drlPage d) DRL.MISS_COUNT).put (drlPage d) DRL.LAST_MISS (e.tag + e.action * 2 ^ 16)).irq (drlPage d) 1).raise (drlPage d) 0
  else if outcome = 4 then s2.raise (drlPage d) 3
  else s2

/-- Take the entry with enqueue number `n` out of a queue. -/
def State.dropEntry (s : State) (d n : Nat) : State :=
  let q := s.drlOf d
  (s.setDrl d { q with ents := q.ents.filter (fun e => e.seq ≠ n) }).noteQueue d

/-- Replace the entry with the same enqueue number. -/
def State.updEntry (s : State) (d : Nat) (e : Entry) : State :=
  let q := s.drlOf d
  (s.setDrl d { q with ents := q.ents.map (fun x => if x.seq = e.seq then e else x) }).noteQueue d

/-- The open of a gate pair retires; its close stays pending. -/
def State.retireOpen (s : State) (d : Nat) (e : Entry) (outcome : Nat) : State :=
  (s.updEntry d { e with opened := true, launched := decide (outcome = 0) }).retire d e false outcome (if outcome = 0 then some e.t else none) 0

/-- The close of a gate pair retires and the pair leaves the queue. -/
def State.retireClose (s : State) (d : Nat) (e : Entry) (outcome : Nat) : State :=
  (s.dropEntry d e.seq).retire d e true outcome (if outcome = 0 then some e.c else none) 0

/-- The outcome of a gate's close at its launch: SKIPPED where its unit is fenced or the actuator was (R28, R84, R87, R143). -/
def State.closeOutcome (s : State) (d : Nat) (e : Entry) : Nat :=
  if e.skipClose || s.drillFenced d e.action e.target e.arg then 3 else 0

/-- A single action retires and leaves the queue. -/
def State.retireOne (s : State) (d : Nat) (e : Entry) (outcome : Nat) (late : Int) : State :=
  (s.dropEntry d e.seq).retire d e false outcome (if outcome ≤ 1 then some (e.t + late) else none) late

/-- A pending entry is removed with one outcome: a gate pair retires what is left of it, its open and its close (R84, R86). -/
def State.retireWhole (s : State) (d : Nat) (e : Entry) (outcome : Nat) : State :=
  let s0 := s.dropEntry d e.seq
  let s1 := if e.opened then s0 else s0.retire d e false outcome none 0
  if e.gate then s1.retire d e true outcome none 0 else s1

/-- Remove the pending entries that `f` selects, except closes of gates whose opens have launched (R86). -/
def State.removeEntries (s : State) (d : Nat) (f : Entry → Bool) (outcome : Nat) : State :=
  s.each ((s.drlOf d).ents.filter (fun e => f e && !e.launched)) (fun s e => s.retireWhole d e outcome)

/-- Every pending entry retires FLUSHED (R86). -/
def State.flushDrill (s : State) (d : Nat) : State := s.removeEntries d (fun _ => true) 5

/-- A fenced actuator's queue: every pending entry retires SKIPPED, the closes of open gates stay and will (R87). -/
def State.skipDrill (s : State) (d : Nat) : State :=
  let s1 := s.removeEntries d (fun _ => true) 3
  let q := s1.drlOf d
  s1.setDrl d { q with ents := q.ents.map (fun e => { e with skipClose := true }) }

/-- SOFT_RESET of a queue removes pending entries without records; the closes of open gates stay and write none (R86). -/
def State.resetDrill (s : State) (d : Nat) : State :=
  let q := s.drlOf d
  (s.setDrl d { q with ents := (q.ents.filter (·.launched)).map (fun e => { e with quiet := true }), batch := none }).noteQueue d

/-! ### The order of launches (R77) -/

/-- A lane item: its queue, its entry, whether it is the close, and its key of R77. -/
structure LaneItem where
  d : Nat
  e : Entry
  isClose : Bool
  time : Int
  phase : Nat
deriving DecidableEq, Repr

/-- `x` launches before `y` (R77): final time, phase, DRLD before DRLa in order of a, order of enqueue. -/
def LaneItem.first (x y : LaneItem) : Bool :=
  let qx := if x.d = 8 then 0 else x.d + 1
  let qy := if y.d = 8 then 0 else y.d + 1
  decide (x.time < y.time) || (decide (x.time = y.time) && (decide (x.phase < y.phase) || (decide (x.phase = y.phase) &&
    (decide (qx < qy) || (decide (qx = qy) && decide (x.e.seq < y.e.seq))))))

/-- The next lane item of an entry: its open or action, or the close once the open has launched. -/
def laneItem (d : Nat) (e : Entry) : Option LaneItem :=
  if e.serial || !e.fin then none
  else if e.opened then some ⟨d, e, true, e.c, 0⟩
  else some ⟨d, e, false, e.t, e.phase⟩

def firstItem (l : List LaneItem) : Option LaneItem :=
  match l with
  | [] => none
  | x :: r => match firstItem r with
    | none => some x
    | some y => if x.first y then some x else some y

/-- Whether `x` precedes `y` in one queue's order. -/
def entryFirst (x y : Entry) : Bool := decide (x.t < y.t) || (decide (x.t = y.t) && decide (x.seq < y.seq))

def firstEntry (l : List Entry) : Option Entry :=
  match l with
  | [] => none
  | x :: r => match firstEntry r with
    | none => some x
    | some y => if entryFirst x y then some x else some y

/-- The serialised entry first in order in a queue, of those whose window has not closed (R79). -/
def State.nextSerial (s : State) (d : Nat) : Option Entry :=
  firstEntry ((s.drlOf d).ents.filter (fun e => e.serial && e.fin && decide ((s.time : Int) < e.t + e.slack)))

/-- The serialised entry of a queue that can launch now: its time has come and its link is free (R78, R79). -/
def State.readySerial (s : State) (d : Nat) : Option LaneItem :=
  match s.nextSerial d with
  | some e => if e.t ≤ (s.time : Int) ∧ (s.drlOf d).linkFree ≤ s.time then some ⟨d, e, false, e.t, 2⟩ else none
  | none => none

/-- What launches next, of all queues, once its time has come (R75, R77): lane items, and serialised entries that can launch. -/
def State.dueItem (s : State) : Option LaneItem :=
  match firstItem (((List.range 9).map (fun d => (s.drlOf d).ents.filterMap (laneItem d))).flatten ++ (List.range 9).filterMap s.readySerial) with
  | some x => if x.time ≤ (s.time : Int) then some x else none
  | none => none

/-- The lane item that launches next. -/
def State.dueLane (s : State) : Option LaneItem :=
  match s.dueItem with
  | some x => if x.e.serial then none else some x
  | none => none

/-- The due lane item, if it is an action `act` of queue `d`. -/
def State.dueAction (s : State) (d act : Nat) (isClose : Bool) : Option Entry :=
  match s.dueLane with
  | some x => if x.d = d ∧ x.e.action = act ∧ x.isClose = isClose then some x.e else none
  | none => none

/-- The serialised action `act` of queue `d` that launches next (R77–R79). -/
def State.dueSerial (s : State) (d act : Nat) : Option Entry :=
  match s.dueItem with
  | some x => if x.d = d ∧ x.e.serial = true ∧ x.e.action = act then some x.e else none
  | none => none

/-- The first serialised entry of a queue whose window has closed (R79). -/
def State.missedSerial (s : State) (d : Nat) : Option Entry :=
  firstEntry ((s.drlOf d).ents.filter (fun e => e.serial && e.fin && decide (e.t + e.slack ≤ (s.time : Int))))

/-- A serialised action launches now: LAUNCHED, or LAUNCHED_LATE; the link is busy for `gap` ft (R78, R79, R84). -/
def State.launchSerial (s : State) (d : Nat) (e : Entry) (gap : Nat) : State :=
  let late : Int := s.time - e.t
  let q := s.drlOf d
  (s.setDrl d { q with linkFree := s.time + gap * 64 }).retireOne d e (if late = 0 then 0 else 1) late

/-! ### Meanings -/

/-- The entry whose resolution point comes first (R74), the earlier in the list winning a tie. -/
def firstResolved (l : List Entry) : Option Entry :=
  match l with
  | [] => none
  | x :: r => match firstResolved r with
    | none => some x
    | some y => if x.point ≤ y.point then some x else some y

/-- The unresolved ANGLE entry of a queue whose resolution point comes first. -/
def State.nextUnresolved (s : State) (d : Nat) : Option Entry := firstResolved ((s.drlOf d).ents.filter (fun e => !e.fin))

/-- R74, R69: final resolution at the preceding wedge's servo sample, or NO_ANGLE. -/
def execFinalResolution (d : Fin 9) (s : State) : Out :=
  match s.nextUnresolved d.val with
  | none => .next s
  | some e =>
    if e.point ≤ (s.time : Rat) then
      if s.angleOk then
        let t := s.resolveOpen d.val e e.lo
        .next (s.updEntry d.val { e with t := t, c := if e.gate then s.resolveClose d.val e t else 0, fin := true })
      else .next (s.retireWhole d.val e 7)
    else .next s

/-- R79, R28: the window of a serialised entry closes before its launch: MISSED, or SKIPPED where its unit is fenced. -/
def execMissed (d : Fin 9) (s : State) : Out :=
  match s.missedSerial d.val with
  | some e => .next (s.retireOne d.val e (if s.drillFenced d.val e.action e.target e.arg then 3 else 2) 0)
  | none => .next s

/-- R86: a write of 1 to Q_CTRL.FLUSH. -/
def execFlush (m : Master) (d : Fin 9) (s : State) : Out :=
  .next (s.regCmd m (drlPage d.val) 0x58 (fun s => (s.flushDrill d.val).put (drlPage d.val) DRL.Q_CTRL_FLUSH 1))

/-- R86: the flush completes. -/
def execFlushDone (d : Fin 9) (s : State) : Out := .next (s.put (drlPage d.val) DRL.Q_CTRL_FLUSH 0)

/-- R86: a write of Q_CANCEL. -/
def execQCancel (m : Master) (d : Fin 9) (tag mask : BitVec 16) (s : State) : Out :=
  .next (s.regCmd m (drlPage d.val) 0x5C (fun s =>
    s.removeEntries d.val (fun e => BitVec.ofNat 16 e.tag &&& mask = tag &&& mask) 5))

end Sys2Proof.Machine
end

