-- ==== Sys2Proof/Machine/Commit.lean ====
section
/-! DEFINITION. The shadow commit (R53–R57): arming, the commit cycle, what a commit copies on each page (R56, R81, R256,
R394), and writes to shadow copies. -/

namespace Sys2Proof.Machine

/-- Sub-ticks of an FCLK cycle: 3 ft (R54). -/
abbrev fclkSub : Nat := 192

/-- The first FCLK edge at or after a time. -/
def edgeAfter (t : Nat) : Nat := (t + 191) / 192 * 192

def State.commitTime (s : State) (p : Nat) : Nat := tabGet s.commitAt p 0
def State.setCommitTime (s : State) (p t : Nat) : State := { s with commitAt := tabPut s.commitAt p t 0 }

/-- A page with a shadow set (R38). -/
def hasShadow (p : Nat) : Bool :=
  match pageKind p with
  | some .hch | some .til | some .drl | some .hif => true
  | _ => false

/-- The offsets of a page's shadowed registers (R53); ZPT_SEL is one of HCHh's (R104, R105). -/
def shadowOffs (p : Nat) : List Nat :=
  match pageKind p with
  | none => []
  | some k => (if k = .hch then [0x40] else []) ++ ((k.rows.filter (fun r => r.acc = .sh)).map (fun r => (List.range r.cnt).map (fun i => r.off + r.stride * i))).flatten.eraseDups

/-- Copy the shadow copies of registers to the active copies. -/
def State.copyShadow (s : State) (p : Nat) (offs : List Nat) : State := s.each offs (fun s o => s.setReg p o (s.shadowReg p o))

/-- The coefficient bank of loop `j` in the commit cycle: copied while the loop is open; a closed loop whose shadow bank
differs keeps its bank, with COEF_SKIP and CTL FL0 (R256). -/
def State.commitBank (s : State) (p j : Nat) : State :=
  let offs := (List.range 36).map (fun i => 0x800 + 0x90 * j + 4 * i)
  if s.on p (LOOP.LSTAT_CLOSED j) then
    if offs.all (fun o => s.shadowReg p o = s.reg p o) then s
    else (s.put p (LOOP.FLAGS_COEF_SKIP j) 1).raise p 3
  else s.copyShadow p offs

/-- The target range of window `j`. -/
def State.winTarget (s : State) (p j : Nat) : Nat := s.get p (WIN.TGT_LO_TARGET j) * 4096 + s.get p (WIN.TGT_HI j) * 2 ^ 32

/-- Window validation at a commit of a host port (R394). -/
def State.commitWindows (s : State) (p : Nat) : State :=
  let ok := fun j => s.dmaRange (s.winTarget p j) (s.get p (WIN.SIZE_SIZE j) * 4096)
  let en := (List.range 16).filter (fun j => s.on p (WIN.TGT_LO_EN j))
  let valid := (en.filter ok).foldl (fun r j => withBit r j true) 0
  let bad := (en.filter (fun j => !ok j)).foldl (fun r j => withBit r j true) 0
  let s1 := (s.put p HIF.WIN_STAT_VALID valid).put p HIF.WIN_STAT_INVALID bad
  if bad = 0 then s1 else s1.raise p 7

/-- The queue whose page is `p`. -/
def drlOfPage (p : Nat) : Nat := if p = pDRLD then 8 else (p - 0x45) / 16

/-- What a commit of the page copies, by page (R56, R81, R256, R394), in the FCLK cycle that begins at `t`. -/
def State.commitCopy (s : State) (p t : Nat) : State :=
  match pageKind p with
  | some .til => s.each (List.range 13) (fun s j => s.commitBank p j)
  | some .hif => (s.copyShadow p (shadowOffs p)).commitWindows p
  | some .drl =>
    let d := drlOfPage p
    (s.copyShadow p (shadowOffs p)).setDrl d { s.drlOf d with batch := some (t, s.get p HDR.SHADOW_CTL_EPOCH) }
  | some .hch =>
    let s1 := s.copyShadow p (shadowOffs p)
    let h := p - 0x100
    { s1 with afe := tabPut s1.afe h { tabGet s1.afe h ({} : Afe) with settleTo := t + 288 * 64 } {} }
  | _ => s.copyShadow p (shadowOffs p)

/-- Keep the values of a page's shadowed registers, and of WIN_STAT, that differ from those in `old`, as `old` holds them (R57, R395). -/
def State.notePre (s old : State) (p : Nat) : State :=
  let mine := ((shadowOffs p ++ (if pageKind p = some PageKind.hif then [0xA4] else [])).filter (fun o => s.reg p o ≠ old.reg p o)).map (fun o => (regKey p o, old.reg p o))
  { s with preCopy := s.preCopy.filter (fun e => decide (e.1 / 1024 ≠ p)) ++ mine }

/-- A commit in the FCLK cycle that begins at `t` (R56). -/
def State.commitPage (s : State) (p t : Nat) : State :=
  let s1 := ((s.setCommitTime p 0).put p HDR.SHADOW_CTL_ARM 0).addWrap p HDR.SHADOW_CTL_EPOCH 1
  let s2 := { s1 with lastCommit := tabPut s1.lastCommit p (t / fclkSub + 1) 0 }
  (s2.commitCopy p t).notePre s2 p

/-- A commit of the page is due by time `t`. -/
def State.commitDue (s : State) (p t : Nat) : Bool := decide (s.commitTime p ≠ 0) && decide (s.commitTime p ≤ t + 1)

/-- Perform the page's commit if its cycle has begun by time `t` (R57, R103). -/
def State.settle (s : State) (p t : Nat) : State := if s.commitDue p t then s.commitPage p (s.commitTime p - 1) else s

/-- The page's commit cycle is the present FCLK cycle. -/
def State.inCommit (s : State) (p : Nat) : Bool := decide (tabGet s.lastCommit p 0 = s.time / fclkSub + 1)

/-- A shadowed register's active copy as a read with VIEW at 1 finds it: in the commit cycle, from before the copy (R57). -/
def State.activeView (s : State) (p off : Nat) : Word :=
  if s.inCommit p then
    (match s.preCopy.find? (fun e => decide (e.1 = regKey p off)) with
    | some e => e.2
    | none => s.reg p off)
  else s.reg p off

/-- The page's registers as they stood at the start of this FCLK cycle, as far as a commit in it has changed them (R57, R395). -/
def State.beforeCopy (s : State) (p : Nat) : State :=
  if s.inCommit p then (s.preCopy.filter (fun e => decide (e.1 / 1024 = p))).foldl (fun (s : State) (e : Nat × Word) => s.setReg p (4 * (e.1 % 1024)) e.2) s
  else s

/-- A write to shadow copies: in the commit cycle it lands after the copy and sets DEFERRED (R57). -/
def State.shadowWrite (s : State) (p : Nat) (f : State → State) : State :=
  let s1 := s.settle p s.time
  let s2 := f s1
  if s1.inCommit p then s2.put p HDR.SHADOW_CTL_DEFERRED 1 else s2

/-- The arming of a commit by a write that lands at `t` (R53, R54). -/
def State.armCommit (s : State) (p src t : Nat) : State :=
  let s1 := s.put p HDR.SHADOW_CTL_SRC src
  let next := (t / fclkSub + 1) * fclkSub
  match src with
  | 0 =>
    let d := (s.reg p 0x2C - BitVec.ofNat 32 t).toInt
    let s2 := s1.put p HDR.SHADOW_CTL_ARM 1
    if d < 0 then ((s2.setCommitTime p (next + 1)).put p HDR.SHADOW_CTL_LATE 1).raise p 30
    else s2.setCommitTime p (edgeAfter (t + d.toNat) + 1)
  | 1 => s1.put p HDR.SHADOW_CTL_ARM 1
  | 2 => (s1.put p HDR.SHADOW_CTL_ARM 1).setCommitTime p (next + 1)
  | _ => s1

/-- A write of ARM and SRC: SRC is written only while ARM is 0 (R53). In the commit cycle the write lands at C + 1: with ARM = 1 it
arms from there, with ARM = 0 it has no effect (R57). -/
def State.writeArm (s : State) (p : Nat) (arm : Bool) (src : Nat) : State :=
  if hasShadow p then
    let s0 := s.settle p s.time
    if s0.on p HDR.SHADOW_CTL_ARM then (if arm then s0 else (s0.put p HDR.SHADOW_CTL_ARM 0).setCommitTime p 0)
    else if arm then s0.armCommit p src (if s0.inCommit p then (s.time / fclkSub + 1) * fclkSub else s.time)
    else if s0.inCommit p then s0
    else s0.put p HDR.SHADOW_CTL_SRC src
  else s

/-- Fencing and SOFT_RESET disarm (R43, R47). -/
def State.disarm (s : State) (p : Nat) : State := (s.put p HDR.SHADOW_CTL_ARM 0).setCommitTime p 0

/-- The page that an APPLY entry names (R76). -/
def applyPage (d : Nat) (e : Entry) : Nat :=
  if d < 8 then (if e.target < 12 then pHCH (12 * d + e.target) else 0x40 + 16 * d + (e.target - 12)) else e.arg % 512

/-! ### Meanings -/

/-- R53, R54: a write of SHADOW_CTL.ARM. -/
def execShadowArm (m : Master) (p : Fin 352) (arm : Bool) (src : BitVec 2) (s : State) : Out :=
  let _ := m
  .next (s.hdrCmd p.val (fun s => s.writeArm p.val arm src.toNat))

/-- R56: the commit cycle of a page. -/
def execShadowCommit (p : Fin 352) (s : State) : Out := .next (s.settle p.val s.time)

/-- R55: an APPLY entry launches: SKIPPED for a fenced page, NOT_ARMED with SEQ FL0, or LAUNCHED with the commit in the
first FCLK cycle at or after the launch. -/
def execApply (d : Fin 9) (s : State) : Out :=
  match s.dueAction d.val aAPPLY false with
  | none => .next s
  | some e =>
    let p := applyPage d.val e
    .next (if s.fenced p then s.retireOne d.val e 3 0
      else if s.on p HDR.SHADOW_CTL_ARM && decide (s.get p HDR.SHADOW_CTL_SRC = 1) then
        let c := edgeAfter e.t.toNat
        (((s.retireOne d.val e 0 0).setCommitTime p (c + 1)).settle p s.time)
      else s.retireOne d.val e 4 0)

end Sys2Proof.Machine
end

