-- ==== Sys2Proof/Machine/Enqueue.lean ====
section
/-! DEFINITION. Requests to a Drill queue (R80–R82, R227): direct enqueues, the batch of the STAGE area, and the order of requests
that arrive in one FCLK cycle. -/

namespace Sys2Proof.Machine

/-- Masters that have their own copy of a queue's enqueue words (R80). -/
def ownsEnq (m : Master) (d : Nat) : Bool :=
  match m with
  | .core _ => true
  | .bsc => true
  | .dil a => decide (a.val = d)
  | _ => false

/-! ### The order of one FCLK cycle (R227) -/

/-- A master's place in the order of R227: the sequencer, then the cores in ascending number, the boot-and-safety core last of them
(DEDUCED, log 133). -/
def enqRank (m : Master) : Nat :=
  match m with
  | .core c => c.val + 1
  | .bsc => 9
  | _ => 0

/-- The cores' direct enqueues of FCLK cycle `c` that the queue has taken, in their order. -/
def State.reqsOf (s : State) (d c : Nat) : List EnqReq := if (s.drlOf d).reqCycle = c + 1 then (s.drlOf d).reqs else []

/-- Note a request of FCLK cycle `c`. -/
def State.noteReq (s : State) (d c : Nat) (r : EnqReq) : State :=
  let q := s.drlOf d
  s.setDrl d { q with reqs := s.reqsOf d c ++ [r], reqCycle := c + 1 }

/-- Requests that one arriving later goes before are taken out of the queue. -/
def State.withdraw (s : State) (d c : Nat) (keep out : List EnqReq) : State :=
  let s1 := s.each (out.filterMap (·.seq)) (fun s n => s.dropEntry d n)
  s1.setDrl d { s1.drlOf d with reqs := keep, reqCycle := c + 1 }

/-- A request is checked and admitted or refused, with the result in its master's ENQ_STAT (R80). -/
def State.takeReq (s : State) (d : Nat) (r : EnqReq) : State :=
  let n := (s.drlOf d).seq
  let v := s.enqueueOne d r.w0 r.w1 r.w2 r.w3 r.now (48 * 64)
  let s1 := v.1.setMreg r.master (drlPage d) 0x50 (BitVec.ofNat 32 (2 ^ 31 + v.2.2 * 2 ^ 16 + v.2.1.detail * 2 ^ 8 + v.2.1.result))
  s1.noteReq d (r.now / fclkSub) { r with seq := if v.2.1.result = 0 then some n else none }

/-- A withdrawn request is checked again behind the one that goes before it. One that was refused stays refused: what goes before it only
takes more. -/
def State.putBack (s : State) (d : Nat) (r : EnqReq) : State :=
  if r.seq.isSome then s.takeReq d r else s.noteReq d (r.now / fclkSub) r

/-- The batch of the STAGE area that waits is admitted or refused (R81): the state with BATCH_STAT. -/
def State.admitStaged (s : State) (d : Nat) : State :=
  let q := s.drlOf d
  let p := drlPage d
  match q.batch with
  | none => s
  | some (c, ep) =>
    let s0 := s.setDrl d { q with batch := none }
    let staged := (List.range (s.get p DRL.STAGE_COUNT_COUNT)).map (fun i =>
      s0.makeEntry d (s.reg p (0x200 + 16 * i)) (s.reg p (0x204 + 16 * i)) (s.reg p (0x208 + 16 * i)) (s.reg p (0x20C + 16 * i)) c (240 * 64))
    let r :=
      if s.drlStopped d then s0.admitBatch d [] c (240 * 64)
      else if 32 < s.get p DRL.STAGE_COUNT_COUNT then
        let v : Verdict := { result := 1, detail := 0xC, fault := some 2 }
        (s0.noteRefusal d v, v, 0)
      else s0.admitBatch d staged c (240 * 64)
    ((r.1.setReg p 0x64 (BitVec.ofNat 32 (2 ^ 31 + ep * 2 ^ 16 + r.2.2 * 2 ^ 8 + r.2.1.detail * 2 ^ 4 + r.2.1.result))).put p
      DRL.STAGE_COUNT_COUNT 0).irq p 3

/-- The waiting batch goes before the cores' direct enqueues of its commit cycle (R227). -/
def State.admitWaiting (s : State) (d : Nat) : State :=
  match (s.drlOf d).batch with
  | none => s
  | some (c, _) =>
    let later := s.reqsOf d (c / fclkSub)
    if later = [] then s.admitStaged d
    else ((s.withdraw d (c / fclkSub) [] later).admitStaged d).each later (fun s r => s.putBack d r)

/-- A request of rank `k` finds its place in the FCLK cycle: a batch that has been released is admitted first, requests of a higher rank
wait behind it (R227). The state without those, and those. -/
def State.makeWay (s : State) (d k : Nat) : State × List EnqReq :=
  let s0 := (s.settle (drlPage d) s.time).admitWaiting d
  let c := s0.time / fclkSub
  let later := (s0.reqsOf d c).filter (fun r => decide (k < r.rank))
  if later = [] then (s0, []) else (s0.withdraw d c ((s0.reqsOf d c).filter (fun r => decide (r.rank ≤ k))) later, later)

/-- Direct enqueue of a master's four words (R80, R82, R227), with the result in its ENQ_STAT. -/
def State.directEnqueue (s : State) (m : Master) (d : Nat) (w0 w1 w2 w3 : Word) : State :=
  let y := s.makeWay d (enqRank m)
  (y.1.takeReq d { rank := enqRank m, master := m, w0 := w0, w1 := w1, w2 := w2, w3 := w3, now := s.time }).each y.2 (fun s r => s.putBack d r)

/-! ### Meanings -/

/-- R80, R82, R227: a write to ENQ_W3. -/
def execDirectEnqueue (m : Master) (d : Fin 9) (w3 : Word) (s : State) : Out :=
  let p := drlPage d.val
  .next (s.regCmd m p 0x4C (fun s =>
    if ownsEnq m d.val then s.directEnqueue m d.val (s.mreg m p 0x40) (s.mreg m p 0x44) (s.mreg m p 0x48) w3 else s))

/-- R81, R82, R227: the batch that a commit released. -/
def execBatchAdmission (d : Fin 9) (s : State) : Out := .next (s.admitWaiting d.val)

end Sys2Proof.Machine
end

