-- ==== Sys2Proof/Machine/Link.lean ====
section
/-! DEFINITION. The Adeub links (R106–R115, R536): frames, their order on ADO, responses, retransmission, alerts,
training, and what a link that leaves UP or TRAIN drops. -/

namespace Sys2Proof.Machine

def State.lnkOf (s : State) (a : Nat) : Link := tabGet s.lnk a {}
def State.setLnk (s : State) (a : Nat) (l : Link) : State := { s with lnk := tabPut s.lnk a l {} }

/-- LINK_STAT.STATE (R114): 0 OFF, 1 TRAIN, 2 UP, 3 FENCED. -/
def State.linkState (s : State) (a : Nat) : Nat := s.get (pLNK a) LNK.LINK_STAT_STATE

/-- One step of CRC-8 with polynomial x^8 + x^2 + x + 1, most significant bit first (R107). -/
def crc8Bit (c : Nat) (b : Bool) : Nat :=
  let top := bit c 7 != b
  let c2 := c * 2 % 256
  if top then Nat.xor c2 0x07 else c2

/-- The CRC of a frame over its bits [31:8] (R107). -/
def frameCrc (w : Nat) : Nat := (List.range 24).foldl (fun c i => crc8Bit c (bit w (31 - i))) 0xFF

/-- The 32 frame bits of a transmission (R107). -/
def Tx.word (t : Tx) : Nat :=
  let w := t.typ * 2 ^ 30 + t.head * 2 ^ 26 + t.seq * 2 ^ 24 + t.reg * 2 ^ 16 + t.data * 2 ^ 8
  w + frameCrc w

/-- Unanswered commands: sent and awaiting a response, or awaiting retransmission (R109). -/
def Link.open (l : Link) : Nat := l.unans.length + l.retx.length

/-- A page frame is queued, on the link or unanswered. -/
def Link.pageBusy (l : Link) : Bool :=
  !l.fifo.isEmpty || l.unans.any (fun t => t.source = .page) || l.retx.any (fun t => t.source = .page)

/-- CMD_STAT.FREE (R115): the free FIFO places, in place as a read finds them. OFF, the state of reset, queues nothing and reads the
0 of the Reset column (DEDUCED, log 123). -/
def State.cmdFree (s : State) (a : Nat) : Nat :=
  if s.linkState a = 0 then 0 else (4 - (s.lnkOf a).fifo.length) * 2 ^ 24

/-- A page frame ends with a RESULT; DONE sets once every page frame has ended (R115). -/
def State.pageFrameEnd (s : State) (a result : Nat) : State :=
  let s1 := s.put (pLNK a) LNK.CMD_STAT_RESULT result
  if (s1.lnkOf a).pageBusy then s1 else (s1.put (pLNK a) LNK.CMD_STAT_DONE 1).irq (pLNK a) 0

/-- Put a frame on ADO now: it takes 198 ft, and the next command frame starts at least 240 ft later (R107). -/
def State.sendFrame (s : State) (a : Nat) (t : Tx) : State :=
  let l := s.lnkOf a
  s.setLnk a { l with unans := l.unans ++ [{ t with sentEnd := s.time + 198 * 64 }], nextStart := s.time + 240 * 64, ado := t.word }

/-- A new command takes the next SEQ (R109). -/
def State.sendNew (s : State) (a : Nat) (t : Tx) : State :=
  let l := s.lnkOf a
  (s.setLnk a { l with seq := (l.seq + 1) % 4 }).sendFrame a { t with seq := l.seq }

/-- The link can start a command frame now (R107, R114). -/
def State.linkFree (s : State) (a : Nat) : Bool := s.linkState a = 2 && decide ((s.lnkOf a).nextStart ≤ s.time)

/-- A Drill frame may start: nothing of higher precedence waits and fewer than 4 commands are unanswered (R109, R112). -/
def State.drillTurn (s : State) (a : Nat) : Bool :=
  let l := s.lnkOf a
  s.linkFree a && l.retx.isEmpty && !l.alert && decide (l.open < 4)

/-- The frame of a HEAT or PRE_REG entry (R107). -/
def State.drillTx (s : State) (a : Nat) (e : Entry) : Tx :=
  { typ := 0, head := e.target, seq := 0, source := .drill, reg := if e.action = aHEAT then s.get (pLNK a) LNK.HEAT_REG else bits e.arg 15 8, data := bits e.arg 7 0 }

/-- The serialised entry of DRLa whose turn it is, whatever its action (R79). -/
def State.dueDrillFrame (s : State) (a : Nat) : Option Entry :=
  match s.nextSerial a with
  | some e => if e.t ≤ (s.time : Int) ∧ (s.time : Int) < e.t + e.slack then some e else none
  | none => none

/-- A HEAT or PRE_REG entry at its turn: SKIPPED where its unit is fenced, else its frame starts (R28, R78, R79, R84). -/
def State.launchFrame (s : State) (a : Nat) (e : Entry) : State :=
  if s.drillFenced a e.action e.target e.arg then s.retireOne a e 3 0
  else if s.drillTurn a then (s.sendNew a (s.drillTx a e)).launchSerial a e 240
  else s

/-- The link drops its work on leaving UP or TRAIN (R536). The SEQ of the next new command stays as it is: R109 numbers new commands
and names no restart (DESIGN CHOICE, log 124). -/
def State.linkDrop (s : State) (a st : Nat) : State :=
  let l := s.lnkOf a
  let had := l.pageBusy
  let s1 := (s.setLnk a { seq := l.seq, alertAt := l.alertAt }).put (pLNK a) LNK.LINK_STAT_STATE st
  if had then s1.pageFrameEnd a 2 else s1

/-- The link reaches UP: a STATUS_REQ is due if AALERT is high and not masked (R536). -/
def State.linkUp (s : State) (a : Nat) : State :=
  let s1 := s.put (pLNK a) LNK.LINK_STAT_STATE 2
  if s.on (pLNK a) LNK.ALERT_STAT_LEVEL && !s.on (pLNK a) LNK.ALERT_STAT_MASKED then
    s1.setLnk a { s1.lnkOf a with alert := true }
  else s1

/-- A transmission taken off the unanswered list waits for its retransmission, or has exhausted its three (R110). -/
def State.retransmit (s : State) (a : Nat) (t : Tx) : State :=
  if 3 ≤ t.tries then
    let s1 := if t.source = .page then s.pageFrameEnd a 1 else s
    s1.raise (pLNK a) 0
  else
    let l := s.lnkOf a
    s.setLnk a { l with retx := l.retx ++ [t] }

/-- A retransmission starts on ADO, and RETRY_CNT counts it (R110). -/
def State.resend (s : State) (a : Nat) (t : Tx) : State :=
  ((s.sendFrame a { t with tries := t.tries + 1 }).inc (pLNK a) LNK.RETRY_CNT).irq (pLNK a) 2

/-- A page request of a frame (R107, R115, R536). -/
def State.linkCmd (s : State) (a : Nat) (t : Tx) : State :=
  let p := pLNK a
  let l := s.lnkOf a
  if s.linkState a = 0 ∨ s.linkState a = 3 then s.put p LNK.CMD_STAT_RESULT 2
  else if 4 ≤ l.fifo.length then s.put p LNK.CMD_STAT_OVERFLOW 1
  else ((s.setLnk a { l with fifo := l.fifo ++ [t] }).put p LNK.CMD_STAT_DONE 0).put p LNK.CMD_STAT_OVERFLOW 0

/-- Start a frame: retransmission, alert service, Drill frame, page frame, in this order (R112). -/
def State.startFrame (s : State) (a : Nat) : State :=
  let l := s.lnkOf a
  match l.retx with
  | t :: r => (s.setLnk a { l with retx := r }).resend a t
  | [] =>
    if l.alert && decide (l.open < 4) then
      (s.setLnk a { l with alert := false }).sendNew a { typ := 3, head := 0, seq := 0, reg := 0, data := 0, source := .alert }
    else
      match s.dueDrillFrame a with
      | some e => s.launchFrame a e
      | none =>
        match l.fifo with
        | t :: r => if l.open < 4 then (s.setLnk a { l with fifo := r }).sendNew a t else s
        | [] => s

/-- The length of the circular run of passing phases that starts at `p`. -/
def runFrom (m p : Nat) : Nat :=
  ((List.range 8).takeWhile (fun i => bit m ((p + i) % 8))).length

/-- The ADI phase that training takes: the centre, rounding down, of the longest circular run of passing phases; of equal
runs the one whose first phase is lowest; phase 3 when all pass (R114). -/
def trainPhase (m : Nat) : Nat :=
  if m = 255 then 3
  else
    let starts := (List.range 8).filter (fun p => bit m p && !bit m ((p + 7) % 8))
    let best := (starts.map (runFrom m)).foldl max 0
    match starts.find? (fun p => runFrom m p = best) with
    | some p => (p + (best - 1) / 2) % 8
    | none => 0

/-! ### Meanings -/

/-- R76, R107: a HEAT entry launches. -/
def execHeat (a : Fin 8) (s : State) : Out :=
  match s.dueSerial a.val aHEAT with
  | some e => .next (s.launchFrame a.val e)
  | none => .next s

/-- R76, R107: a PRE_REG entry launches. -/
def execPreReg (a : Fin 8) (s : State) : Out :=
  match s.dueSerial a.val aPRE with
  | some e => .next (s.launchFrame a.val e)
  | none => .next s

/-- R107: CMD with TYPE WRITE. -/
def execCmdWriteFrame (m : Master) (a : Fin 8) (head : BitVec 4) (reg data : BitVec 8) (s : State) : Out :=
  .next (s.regCmd m (pLNK a.val) 0x44 (fun s =>
    s.linkCmd a.val { typ := 0, head := head.toNat, seq := 0, reg := reg.toNat, data := data.toNat, source := .page }))

/-- R107: CMD with TYPE READ. -/
def execCmdReadFrame (m : Master) (a : Fin 8) (head : BitVec 4) (reg data : BitVec 8) (s : State) : Out :=
  .next (s.regCmd m (pLNK a.val) 0x44 (fun s =>
    s.linkCmd a.val { typ := 1, head := head.toNat, seq := 0, reg := reg.toNat, data := data.toNat, source := .page }))

/-- R107: CMD with TYPE STATUS_REQ. -/
def execCmdStatusReq (m : Master) (a : Fin 8) (head : BitVec 4) (reg data : BitVec 8) (s : State) : Out :=
  .next (s.regCmd m (pLNK a.val) 0x44 (fun s =>
    s.linkCmd a.val { typ := 3, head := head.toNat, seq := 0, reg := reg.toNat, data := data.toNat, source := .page }))

/-- R107: CMD with TYPE 0b10 queues nothing, sets RESULT 0x3 and leaves DONE, whatever the state of the link (DEDUCED, log 148). -/
def execCmdTypeRefused (m : Master) (a : Fin 8) (s : State) : Out :=
  .next (s.regCmd m (pLNK a.val) 0x44 (fun s => s.put (pLNK a.val) LNK.CMD_STAT_RESULT 3))

/-- R112: the link is free and a frame starts. -/
def execFrameStart (a : Fin 8) (s : State) : Out :=
  .next (if s.linkFree a.val then s.startFrame a.val else s)

/-- R109, R110: no matching response has started within RSP_TIMEOUT of the oldest unanswered transmission's last bit. -/
def execRspTimeout (a : Fin 8) (s : State) : Out :=
  let l := s.lnkOf a.val
  match l.unans with
  | [] => .next s
  | t :: r =>
    if t.sentEnd + max 120 (s.get (pLNK a.val) LNK.RSP_TIMEOUT) * 64 ≤ s.time then
      .next ((s.setLnk a.val { l with unans := r }).retransmit a.val t)
    else .next s

/-- R113: a write of 1 to MASKED unmasks; the 1 ms starts again. An input that is still high sends no STATUS_REQ then, since R113
sends one at a rise (DESIGN CHOICE, log 125). -/
def execAlertUnmask (m : Master) (a : Fin 8) (s : State) : Out :=
  .next (s.regCmd m (pLNK a.val) 0x60 (fun s =>
    if s.on (pLNK a.val) LNK.ALERT_STAT_MASKED then (s.put (pLNK a.val) LNK.ALERT_STAT_MASKED 0).setLnk a.val { s.lnkOf a.val with alertAt := s.time } else s))

/-- The training frame: READ of TRAIN_REG to HEAD 0 (R107, R114). Each phase sends four, so the SEQ of the next command stays. -/
def State.trainTx (s : State) (a : Nat) : Tx :=
  { typ := 1, head := 0, seq := ((s.lnkOf a).seq + 3) % 4, reg := bits (s.reg (pLNK a) 0x68).toNat 7 0, data := 0, source := .page }

/-- A phase passes when all its 4 responses have a good CRC and DATA equal to TRAIN_EXP (R114). -/
def phasePasses (want : Nat) (rsp : List Word) : Bool :=
  decide (rsp.length = 4) && rsp.all (fun w => decide (frameCrc w.toNat = w.toNat % 256) && decide (bits w.toNat 15 8 = want))

/-- R114: training ends with the responses received, 4 words a phase, and AALERT's level. Without OVR_EN the 8 phases are judged, and
fewer than three passing raise LNK FL1; with OVR_EN only the frames sampled at PHASE_OVR are sent, and they decide. -/
def execLinkTrainingEnd (a : Fin 8) (rsp : List (List Word)) (high : Bool) (s : State) : Out :=
  let p := pLNK a.val
  if s.linkState a.val = 1 then
    let pass := fun i => phasePasses (bits (s.reg p 0x6C).toNat 7 0) ((rsp[i]?).getD [])
    let ovr := s.on p LNK.ADI_CAL_OVR_EN
    let ph := s.get p LNK.ADI_CAL_PHASE_OVR
    let ps := if ovr then (if pass 0 then [ph] else []) else (List.range 8).filter pass
    let mask := ps.foldl (fun n i => n + 2 ^ i) 0
    let s1 := ((s.setLnk a.val { s.lnkOf a.val with ado := (s.trainTx a.val).word }).put p LNK.LINK_STAT_PASS_MASK mask).putB p LNK.ALERT_STAT_LEVEL high
    let ok := if ovr then !ps.isEmpty else decide (3 ≤ ps.length)
    if ok then .next ((s1.put p LNK.LINK_STAT_ADI_PHASE (if ovr then ph else trainPhase mask)).linkUp a.val)
    else .next (s1.raise p 1)
  else .next s

end Sys2Proof.Machine
end

