-- ==== Sys2Proof/Machine/Sectors.lean ====
section
/-! DEFINITION. What the read path, the write path and Aftermath share: the zone set that a gate latches (R99, R120), the
recorded layout (R116–R119), CRC-64 (R118), the Aftermath slots with samples, descriptor and hints (R146–R153), the landing
ring (R138) and the status record (R139). -/

namespace Sys2Proof.Machine

def headM (h : Nat) : Master := .head (Fin.ofNat 96 h)
def ddM (d : Nat) : Master := .dd (Fin.ofNat 8 d)

/-! ### The latched set (R99, R103, R120) -/

/-- The active set of head `h`: ZP0–ZP17. -/
def State.activeSet (s : State) (h : Nat) : List Word := (List.range 18).map (fun i => s.reg (pHCH h) (0x80 + 4 * i))

/-- Word `i` of a set. -/
def zW (set : List Word) (i : Nat) : Nat := ((set[i]?).getD 0).toNat

def zFormat (set : List Word) : Nat := bits (zW set 0) 30 30
def zCode (set : List Word) : Nat := bits (zW set 0) 29 28
def zSyncW (set : List Word) : Nat := bits (zW set 0) 21 16
def zRate (set : List Word) : Nat := bits (zW set 1) 23 0
def zPre (set : List Word) : Nat := max 64 (bits (zW set 8) 11 0)
def zPad (set : List Word) : Nat := bits (zW set 8) 23 16
def zGuard (set : List Word) : Nat := max 16 (bits (zW set 8) 31 24)
def zResyncPos (set : List Word) : Nat := bits (zW set 11) 16 0
def zEarly (set : List Word) : Bool := bit (zW set 11) 27
def zBank (set : List Word) : Nat := bits (zW set 12) 2 0
def zEqMu (set : List Word) : Nat := bits (zW set 12) 7 4
def zPasses (set : List Word) : Nat := max 1 (bits (zW set 12) 25 24)
def zIterMax (set : List Word) : Nat := max 1 (bits (zW set 13) 5 0)
def zIterPass (set : List Word) : Nat := bits (zW set 13) 13 8
def zLlr (set : List Word) : Nat := bits (zW set 13) 23 16

/-- A valid set or entry (R99, R104). -/
def setValid (set : List Word) : Bool :=
  bit (zW set 0) 31 && decide (zCode set ≠ 3) && decide (0x300000 ≤ zRate set) && decide (zRate set ≤ 0x900000)

/-- Codeword length n by format and code set (R117). -/
def codeLen (format code : Nat) : Nat :=
  if format = 0 then (([73472, 76032, 71168] : List Nat)[code]?).getD 0 else (([36864, 38144, 35712] : List Nat)[code]?).getD 0

/-- Payload bytes by format: 8,272 or 4,144 (R117); 16 fewer in the write stream (R167). -/
def payloadBytes (format : Nat) : Nat := if format = 0 then 8272 else 4144
def streamBytes (format : Nat) : Nat := payloadBytes format - 16

/-- The resync mark is present (R116). -/
def zResync (set : List Word) : Bool :=
  bit (zW set 0) 27 && decide (1 ≤ zResyncPos set) && decide (zResyncPos set < codeLen (zFormat set) (zCode set))

/-- Codeword symbols together with the resync mark. -/
def streamSyms (set : List Word) : Nat := codeLen (zFormat set) (zCode set) + (if zResync set then 32 else 0)

/-- Fragment and retained index of symbol `c` of codeword and resync mark (R119), for fragments of `syms` symbols: the first
begins with preamble and sync mark, the others with the guard, all but the last end with the pad. -/
def placeSym (set : List Word) (k base c : Nat) (syms : List Nat) : Nat × Nat :=
  match syms with
  | [] => (k, base + c)
  | n :: r =>
    let lead := if k = 0 then zPre set + 32 else zGuard set
    let room := n - lead - zPad set
    if c < room ∨ r = [] then (k, base + lead + c) else placeSym set (k + 1) (base + n) (c - room) r

/-! ### CRC-64 (R118) -/

def crc64Bit (c : Nat) (b : Bool) : Nat :=
  let top := bit c 63 != b
  let c2 := c * 2 % 2 ^ 64
  if top then Nat.xor c2 0x42F0E1EBA9EA3693 else c2

/-- CRC-64 over bytes, most significant bit first, initial value all ones, final inversion. -/
def crc64 (bs : List Byte) : Nat :=
  Nat.xor (bs.foldl (fun c b => (List.range 8).foldl (fun c i => crc64Bit c (bit b.toNat (7 - i))) c) (2 ^ 64 - 1)) (2 ^ 64 - 1)

/-- `n` bytes: a list cut, or filled with zeros. -/
def fitBytes (n : Nat) (bs : List Byte) : List Byte := (bs ++ List.replicate n 0).take n

/-- A 64-bit number of the internal field; the spec gives no byte order for it (log 5). -/
def internal64 (bs : List Byte) : Nat := leNat (if Config.internalBigEndian then bs.reverse else bs)

/-- The bytes of a 64-bit number of the internal field. -/
def internalBytes (v : Nat) : List Byte := if Config.internalBigEndian then (leBytes v 8).reverse else leBytes v 8

/-- The CRC of a decoded payload agrees with its internal field (R118, R134). -/
def payloadCrcOk (format : Nat) (data : List Byte) : Bool :=
  let d := fitBytes (payloadBytes format) data
  decide (crc64 (d.take (streamBytes format)) = internal64 ((d.drop (streamBytes format)).take 8))

/-- ADDR_TAG of a payload. -/
def payloadTag (format : Nat) (data : List Byte) : Nat :=
  internal64 ((fitBytes (payloadBytes format) data).drop (streamBytes format + 8))

/-! ### Heads -/

def State.rdOf (s : State) (h : Nat) : RdHead := tabGet s.rdh h {}
def State.setRd (s : State) (h : Nat) (v : RdHead) : State := { s with rdh := tabPut s.rdh h v {} }

/-- SHADOW_CTL.EPOCH of a page. -/
def State.epochOf (s : State) (p : Nat) : Nat := s.get p HDR.SHADOW_CTL_EPOCH

/-! ### Aftermath slots (R146–R149) -/

def slotIdx (h k : Nat) : Nat := 2 * h + k
def slotAddr (h k : Nat) : Nat := afmBase + 0x20000 * slotIdx h k

/-- AFM.SLOT_STATi.STATE: 0 FREE, 1 FILLING, 2 PINNED, 3 QUEUED, 4 DEEP, 5 RELEASING. -/
def State.slotState (s : State) (h k : Nat) : Nat := s.get pAFM (AFM.SLOT_STAT_STATE (slotIdx h k))

/-- RD_STAT.PIN: the head's slots in states 2 to 5 (R145, R149). -/
def State.pins (s : State) (h : Nat) : Nat := (if 2 ≤ s.slotState h 0 then 1 else 0) + (if 2 ≤ s.slotState h 1 then 2 else 0)

/-- A slot's state; BOTH_PINNED latches when it makes both slots of the head pinned (R164). -/
def State.setSlot (s : State) (h k st : Nat) : State :=
  let s1 := s.put pAFM (AFM.SLOT_STAT_STATE (slotIdx h k)) st
  if s1.pins h = 3 ∧ s.pins h ≠ 3 then s1.irq pAFM 2 else s1

/-- Word `i` of a slot's descriptor (R148). -/
def State.descWord (s : State) (h k i : Nat) : Nat := s.load (slotAddr h k + 0x1E080 + 4 * i) 4

/-- Store one symbol pair at retained index `i` of a slot (R147). -/
def State.storePair (s : State) (base i : Nat) (p : BitVec 12) : State :=
  let j := i % 16
  let a := base + 24 * (i / 16) + 12 * j / 8
  let v := s.load a 2
  if j % 2 = 0 then s.store a 2 (v / 4096 * 4096 + p.toNat) else s.store a 2 (v % 16 + p.toNat * 16)

/-- Store a fragment's pairs from index `i`; writing stops after symbol 81,919 (R147). -/
def State.storePairs (s : State) (base i : Nat) (ps : List (BitVec 12)) : State :=
  match ps with
  | [] => s
  | p :: r => if i < 81920 then (s.storePair base i p).storePairs base (i + 1) r else s

/-! ### Erasure hints (R153) -/

def hintAddr (h k i : Nat) : Nat := slotAddr h k + 0x1E100 + 8 * i

/-- With HINT_EN every hint entry of a slot is emptied. -/
def State.clearHints (s : State) (h k : Nat) : State := if s.on pAFM AFM.AFM_CTRL_HINT_EN then s.store (hintAddr h k 0) 128 0 else s

/-- Wrapped 32-bit times: `a` before `b`. -/
def before32 (a b : Nat) : Bool := (BitVec.ofNat 32 a - BitVec.ofNat 32 b).slt 0

/-- Hint entry `i`, empty unless its CLOSE is after its OPEN. -/
def State.hintAt (s : State) (h k i : Nat) : Option (Nat × Nat) :=
  let o := s.load (hintAddr h k i) 4
  let c := s.load (hintAddr h k i + 4) 4
  if before32 o c then some (o, c) else none

/-- Add a window of Furrow times, widened by PAD at each end: the first empty entry of 0–7, else merged into entry 7. -/
def State.addHint (s : State) (h k : Nat) (opn cls : Int) : State :=
  if s.on pAFM AFM.AFM_CTRL_HINT_EN then
    let pad : Int := s.get pAFM AFM.HINT_CFG_PAD * 64
    let o := ((opn - pad) % 2 ^ 32).toNat
    let c := ((cls + pad) % 2 ^ 32).toNat
    match firstBelow 8 (fun i => (s.hintAt h k i).isNone) with
    | some i => (s.store (hintAddr h k i) 4 o).store (hintAddr h k i + 4) 4 c
    | none =>
      match s.hintAt h k 7 with
      | some (o', c') =>
        (s.store (hintAddr h k 7) 4 (if before32 o o' then o else o')).store (hintAddr h k 7 + 4) 4 (if before32 c' c then c else c')
      | none => s
  else s

/-- A shock interval adds a window to every FILLING slot of the device (R153, R180). -/
def State.shockHints (s : State) (opn cls : Int) : State :=
  s.each (List.range 192) (fun s i => if s.slotState (i / 2) (i % 2) = 1 then s.addHint (i / 2) (i % 2) opn cls else s)

/-- Equaliser and detector bank `b` of a head (R128). -/
def State.bankWords (s : State) (h b : Nat) : List Word := (List.range 32).map (fun i => s.reg (pHCH h) (0x400 + 0x80 * b + 4 * i))

/-! ### Stripe descriptors (R194) -/

/-- Word `w` of stripe descriptor `i`. -/
def State.stpDesc (s : State) (i w : Nat) : Nat := (s.reg pSTP (0x800 + 16 * i + 4 * w)).toNat

/-- Included positions of stripe `i` (R204). -/
def State.stpIncluded (s : State) (i : Nat) : List Nat := (List.range 12).filter (fun k => !bit (s.stpDesc i 1) (16 + k))

/-- Head `h`'s sector `sid` is a member of stripe descriptor `i` (R191, R204). -/
def State.stpHolds (s : State) (i h sid : Nat) : Bool :=
  decide (bits (s.stpDesc i 0) 10 8 = actOf h) && decide ((bits (s.stpDesc i 1) 15 0 + h % 12) % 65536 = sid) && !bit (s.stpDesc i 1) (16 + h % 12)

/-- The stripe of head `h`'s sector `sid`: one that is OPEN, READY or in REBUILD, else one that is DONE (R196, R197; of several that are
DONE the lowest: DESIGN CHOICE, log 126). -/
def State.stripeOf (s : State) (h sid : Nat) : Option Nat :=
  let st := fun i => s.get pSTP (STP.STRIPE_STAT_STATE i)
  let mine := (List.range 64).filter (fun i => decide (st i ≠ 0) && s.stpHolds i h sid)
  (mine.find? (fun i => decide (st i ≠ 4))).or mine.head?

/-- The member list that STP provides: head and SECTOR_ID of every member of that stripe but the one asked for (R154, R197). -/
def State.stripeMates (s : State) (h sid : Nat) : List (Nat × Nat) :=
  match s.stripeOf h sid with
  | some i => ((s.stpIncluded i).filter (fun k => decide (k ≠ h % 12))).map (fun k => (12 * actOf h + k, (bits (s.stpDesc i 1) 15 0 + k) % 65536))
  | none => []

/-! ### Landing ring (R138) -/

/-- Slots of the landing ring: LOG2 outside 1–12 acts as the nearest limit (R145). -/
def State.landSize (s : State) (h : Nat) : Nat := 2 ^ (max 1 (min (s.get (pHCH h) HCH.LAND_CFG_LOG2) 12))

/-- Bytes of a landing slot: STRIDE below the payload acts as the payload rounded up (R145). -/
def State.landStride (s : State) (h format : Nat) : Nat :=
  256 * max (s.get (pHCH h) HCH.LAND_CFG_STRIDE) ((payloadBytes format + 255) / 256)

/-- Address of a landing slot. -/
def State.landAddr (s : State) (h format slot : Nat) : Nat :=
  s.get (pHCH h) HCH.LAND_BASE_LO * 256 + s.get (pHCH h) HCH.LAND_BASE_HI * 2 ^ 32 + s.landStride h format * slot

/-- Claim a landing slot: 0xFFFF with NO_LANDING raised when the ring is full (R138). -/
def State.claimLanding (s : State) (h : Nat) : State × Nat :=
  let p := pHCH h
  let n := s.landSize h
  let i := s.get p HCH.LAND_WR % n
  if (i + 1) % n = s.get p HCH.LAND_RD % n then ((s.irq p 10).raise p 12, 0xFFFF)
  else (s.put p HCH.LAND_WR ((i + 1) % n), i)

/-! ### Status records (R139) -/

/-- The status ring of a head. -/
def stsRing (h : Nat) : Ring :=
  { page := pHCH h, baseLo := { HCH.STS_BASE_LO with lo := 0, wd := 32 }, baseHi := HCH.STS_BASE_HI, log2 := HCH.STS_SIZE_LOG2, lo := 4, hi := 12, wr := HCH.STS_WR, rd := HCH.STS_RD, lost := HCH.STS_LOST, recBytes := 32, fault := 11, pend := 8 }

/-- The fields of a status record. -/
structure StsRec where
  sid : Nat
  status : Nat
  final : Bool := true
  pinned : Bool := false
  slot : Nat := 0
  unret : Bool := false
  timeout : Bool := false
  oneReader : Bool := false
  deep : Bool := false
  bg : Bool := false
  time : Nat := 0
  markOfs : Int := 0
  reframe : Int := 0
  iter : Nat := 0
  pass : Nat := 0
  markSrc : Bool := false
  clamp : Bool := false
  zone : Nat := 0
  land : Nat := 0xFFFF
  frags : Nat := 0
  code : Nat := 0
  tag : Nat := 0
  unsat : Nat := 0
  epoch : Nat := 0
deriving DecidableEq, Repr

def b2n (b : Bool) : Nat := if b then 1 else 0

def StsRec.words (r : StsRec) (seq : Nat) : List Nat :=
  [r.sid + r.status * 2 ^ 16 + b2n r.final * 2 ^ 24 + b2n r.pinned * 2 ^ 25 + r.slot % 2 * 2 ^ 26 + b2n r.unret * 2 ^ 27 +
     b2n r.timeout * 2 ^ 28 + b2n r.oneReader * 2 ^ 29 + b2n r.deep * 2 ^ 30 + b2n r.bg * 2 ^ 31,
   r.time,
   enc 8 r.markOfs + enc 8 r.reframe * 2 ^ 8 + min r.iter 63 * 2 ^ 16 + min r.pass 3 * 2 ^ 22 + b2n r.markSrc * 2 ^ 24 +
     b2n r.clamp * 2 ^ 25 + r.zone * 2 ^ 26,
   r.land + r.frags % 16 * 2 ^ 16 + r.code * 2 ^ 20,
   r.tag % 2 ^ 32, r.tag / 2 ^ 32, min r.unsat 0xFFFF,
   r.epoch % 256 + seq % 65536 * 2 ^ 16]

/-- Write a status record, and hand it to STP where the sector was read with STRIPE (R139, R197). -/
def State.writeSts (s : State) (h : Nat) (r : StsRec) (stripe : Bool) : State :=
  let rd := s.rdOf h
  let s1 := (s.setRd h { rd with seq := (rd.seq + 1) % 65536 }).put (pHCH h) HCH.RD_STAT_LAST_STATUS r.status
  let s2 := (s1.ringWrite (stsRing h) (some (headM h)) (r.words rd.seq)).1
  if stripe && s2.present pSTP then
    { s2 with stpIn := s2.stpIn ++ [{ head := h, sid := r.sid, write := false, status := r.status, final := r.final, land := r.land, time := r.time }] }
  else s2

end Sys2Proof.Machine
end

