-- ==== Sys2Proof/Machine/FrontEnd.lean ====
section
/-! DEFINITION. The analog front end of a head (R91–R104): doze and wake, clipping, the adaptation loops, LEARN words, and the
load of a zone into the shadow set. -/

namespace Sys2Proof.Machine

def State.afeOf (s : State) (h : Nat) : Afe := tabGet s.afe h {}
def State.setAfe (s : State) (h : Nat) (v : Afe) : State := { s with afe := tabPut s.afe h v {} }

/-- CTRL.AFE_DOZE, RDR_A_OFF, RDR_B_OFF (R105). -/
def State.afeDoze (s : State) (h : Nat) : Bool := bit (s.reg (pHCH h) 8).toNat 16
def State.rdrOff (s : State) (h : Nat) (b : Bool) : Bool := bit (s.reg (pHCH h) 8).toNat (if b then 18 else 17)

/-- A dozing front end has been woken and has not powered down again before `t` (R94, R240). -/
def Afe.awake (f : Afe) (t : Nat) : Bool :=
  f.readyAt.isSome && (match f.sleepAt with | some e => decide (t < e) | none => true)

/-- The front end delivers samples at time `t`. -/
def State.afeReady (s : State) (h : Nat) (t : Nat) : Bool :=
  !s.afeDoze h || ((s.afeOf h).awake t && decide ((s.afeOf h).readyAt.getD 0 ≤ t))

/-! ### Servo windows (R239) -/

/-- The window runs gated (R239). -/
def State.gated (s : State) : Bool := s.angleOk

/-- Predicted time of the `n`th wedge after the tracker's in the pivot frame of actuator `a`, plus PIVOT_TRIMa (R239). -/
def State.wedgeAt (s : State) (a : Nat) (n : Int) : Int := roundUp (s.trk.phase + (n : Rat) * s.trk.period) + s.pivotTrim a

/-- SG_LEAD and SG_TAIL in sub-ticks, their ranges held (R262). -/
def State.sgLead (s : State) (a : Nat) : Int := max 200 (s.get (pSRV a) SRV.WINDOW_SG_LEAD) * 64
def State.sgTail (s : State) (a : Nat) : Int := max 448 (s.get (pSRV a) SRV.WINDOW_SG_TAIL) * 64

/-- The open and the close of head `h`'s window about wedge `n` (R239). -/
def State.servoOpen (s : State) (h : Nat) (n : Int) : Int :=
  s.wedgeAt (actOf h) n + sgn 16 (s.get (pSRV (actOf h)) (SRV.SKEW (h % 12))) - s.sgLead (actOf h)
def State.servoClose (s : State) (h : Nat) (n : Int) : Int :=
  s.wedgeAt (actOf h) n + sgn 16 (s.get (pSRV (actOf h)) (SRV.SKEW (h % 12))) + s.sgTail (actOf h)

/-- SRVa demodulates head `h` (R239). -/
def State.servoOn (s : State) (h : Nat) : Bool :=
  s.running (pSRV (actOf h)) && bit (s.get (pSRV (actOf h)) SRV.HEAD_EN_EN) (h % 12)

/-- The last wedge whose predicted time has come at time `t`, counted from the tracker's (R239). -/
def State.wedgeCount (s : State) (a : Nat) (t : Int) : Int := s.trk.passed (t - s.pivotTrim a)

/-- Time `t` lies in a servo window of head `h`; a window that runs free is open throughout (R239). -/
def State.inServo (s : State) (h : Nat) (t : Int) : Bool :=
  let n := s.wedgeCount (actOf h) t
  s.servoOn h && (!s.gated || [n, n + 1].any (fun n => decide (s.servoOpen h n ≤ t) && decide (t < s.servoClose h n)))

/-- The applied codes of a reader's loops: the integer parts, saturated at the fields' ranges (R96). The integer part of a negative
value is its floor (DESIGN CHOICE, log 118). -/
def Reader.codeVga (r : Reader) : Int := max 0 (min (r.vga / 256) 255)
def Reader.codeOfs (r : Reader) : Int := satS 8 (r.ofs / 256)
def Reader.codeAsym (r : Reader) : Int := satS 8 (r.asym / 256)

/-- LIVE_A or LIVE_B. -/
def Reader.live (r : Reader) : Nat := r.codeVga.toNat + enc 8 r.codeOfs * 2 ^ 8 + enc 8 r.codeAsym * 2 ^ 16

/-- A loop's applied code is at a range limit (R97). -/
def Reader.atLimit (r : Reader) : Bool :=
  decide (r.codeVga = 0) || decide (r.codeVga = 255) || decide (r.codeOfs = -128) || decide (r.codeOfs = 127) ||
    decide (r.codeAsym = -128) || decide (r.codeAsym = 127)

/-- Loops at the codes of a word laid out as LIVE_A. -/
def seedWord (w : Nat) : Reader :=
  { vga := (bits w 7 0 : Int) * 256, ofs := sgn 8 (bits w 15 8) * 256, asym := sgn 8 (bits w 23 16) * 256 }

/-- LIVE_A and LIVE_B show the loops. -/
def State.noteLive (s : State) (h : Nat) : State :=
  let f := s.afeOf h
  (s.put (pHCH h) HCH.LIVE_A f.rdA.live).put (pHCH h) HCH.LIVE_B f.rdB.live

/-- The first SCLK edge at or after a time (R92). -/
def sclkAfter (t : Int) : Nat := ((t + 15) / 16 * 16).toNat

/-- A gate or a servo window of the head opens at `t`: WAKE_LATE when the front end is not ready (R94, R240). -/
def State.lateWake (s : State) (h t : Nat) : State :=
  if s.afeReady h t then s else (s.inc (pHCH h) HCH.WAKE_LATE).irq (pHCH h) 2

/-- A gate of the head opens at `t`: a front end still awake stays so until it closes (R94). -/
def State.gateWake (s : State) (h t : Nat) : State :=
  let f := s.afeOf h
  (s.setAfe h (if f.awake t then { f with sleepAt := none } else { f with readyAt := none, sleepAt := none })).lateWake h t

/-- A reader at a gate's open: the loops at the codes of `seed` unless kept, no run begun (R93, R96). -/
def Reader.start (r : Reader) (keep : Bool) (seed : Nat) : Reader :=
  if keep then { r with clipRun := 0, sameRun := 0 }
  else { seedWord seed with clipDue := r.clipDue, stuckDue := r.stuckDue }

/-- A read gate opens on `set` at `t`: the loops are seeded (R96), the runs start, SAT bits clear. -/
def State.openAfe (s : State) (h : Nat) (set : List Word) (t : Nat) : State :=
  let f := s.afeOf h
  let keep := s.on (pHCH h) HCH.ADAPT_CTL_SEED && decide (f.closeEpoch = some (s.epochOf (pHCH h)))
  let a := f.rdA.start keep (zW set 3)
  let b := f.rdB.start keep (zW set 5)
  let s0 := s.gateWake h t
  let s1 := s0.setAfe h { s0.afeOf h with rdA := a, rdB := b, samples := 0 }
  ((s1.put (pHCH h) HCH.AFE_STAT_SAT_A 0).put (pHCH h) HCH.AFE_STAT_SAT_B 0).noteLive h

/-- With AFE_DOZE set the front end powers down once no gate and no servo window of the head is open (R94, R240). -/
def State.afeSleep (s : State) (h : Nat) : State :=
  if s.afeDoze h && !s.inServo h s.time then s.setAfe h { s.afeOf h with readyAt := none, sleepAt := none } else s

/-- A LEARN word: the live codes and COUNT plus 1 (R98). -/
def State.learnWord (s : State) (a : Nat) (r : Reader) : State := s.store a 4 (r.live + (s.load (a + 3) 1 + 1) % 256 * 2 ^ 24)

/-- Address of a ZPT entry (R99). -/
def zptAddr (h z : Nat) : Nat := zptBase + 5120 * h + 80 * z

/-- A run of clipped samples that ends at sample `i` of the gate adds a hint window (R153). -/
def State.clipHint (s : State) (h : Nat) (run i : Nat) : State :=
  let rd := s.rdOf h
  match rd.gate, rd.recv with
  | some g, some sec =>
    match sec.slot with
    | some k =>
      let t0 := sclkAfter g.opened
      if s.get pAFM AFM.HINT_CFG_RUN ≤ run ∧ 0 < run then s.addHint h k (t0 + (i - run) * 16 : Nat) (t0 + i * 16 : Nat) else s
    | none => s
  | _, _ => s

/-- A sample joins the runs of its reader; the 256th clipped and the 4,096th identical sample of a run make it due for its report
(R93). A zero delivered in place of a sample (none: R94, R95) ends both runs (DESIGN CHOICE, log 115). -/
def Reader.count (r : Reader) (x : Option Int) : Reader :=
  match x with
  | none => { r with clipRun := 0, sameRun := 0 }
  | some x =>
    let clip := decide (x = -64) || decide (x = 63)
    let c := if clip then r.clipRun + 1 else 0
    let n := if decide (0 < r.sameRun) && decide (x = r.last) then r.sameRun + 1 else 1
    { r with clipRun := c, sameRun := n, last := x, clipDue := if c = 256 then r.clipDue + 1 else r.clipDue, stuckDue := if n = 4096 then r.stuckDue + 1 else r.stuckDue }

/-- Samples of one reader pass: clipped samples counted, runs kept, hint windows of runs that have ended (R93, R153). -/
def State.passSamples (s : State) (h : Nat) (b : Bool) (r : Reader) (i : Nat) (xs : List (Option Int)) : State × Reader :=
  match xs with
  | [] => (s, r)
  | x :: rest =>
    let r1 := r.count x
    let s1 := if 0 < r1.clipRun then s.inc (pHCH h) (if b then HCH.CLIP_B else HCH.CLIP_A) else s.clipHint h r.clipRun i
    s1.passSamples h b r1 (i + 1) rest

/-- A read gate closes: hint windows of open clip runs, LEARN words of the zone latched at the open (R98), the seeds of a
continuation (R96). -/
def State.closeAfe (s : State) (h zone : Nat) : State :=
  let f := s.afeOf h
  let s1 := (s.clipHint h f.rdA.clipRun f.samples).clipHint h f.rdB.clipRun f.samples
  let s2 := if s.on (pHCH h) HCH.ADAPT_CTL_LEARN_EN then
      (s1.learnWord (zptAddr h zone + 72) f.rdA).learnWord (zptAddr h zone + 76) f.rdB
    else s1
  (s2.setAfe h { f with closeEpoch := some (s.epochOf (pHCH h)) }).afeSleep h

/-- Rounded half away from zero. -/
def roundAway (x : Rat) : Int := if 0 ≤ x then (x + 1 / 2).floor else -((-x + 1 / 2).floor)

/-- The sample after asymmetry correction (R91). -/
def asymY (asym x : Int) : Int := satS 8 (roundAway ((x : Rat) - (asym * (x * x) : Int) / 16384))

def ratAbs (x : Rat) : Rat := if 0 ≤ x then x else -x

/-- Mean of integers. -/
def meanInt (l : List Int) : Rat := (l.sum : Rat) / ((l.length : Nat) : Rat)

/-- The value with 8 fraction bits nearest to `r`: the spec states no rounding, so a free value takes the neighbour below or
above (log 3). -/
def State.roundFree (s : State) (r : Rat) : State × Int :=
  if r.den = 1 then (s, r.num) else (s.drew, r.floor + (s.freeVal % 2 : Nat))

/-- The integer nearest to `r`; of two equally near a free value takes one (log 3). -/
def State.roundNear (s : State) (r : Rat) : State × Int :=
  if r - r.floor = 1 / 2 then (s.drew, r.floor + (s.freeVal % 2 : Nat)) else (s, roundUp r)

/-- The update of one reader's loops at the end of a block (R97). -/
def State.adaptReader (s : State) (h : Nat) (set : List Word) (fast : Bool) (xs : List Int) (r : Reader) : State × Reader :=
  let p := pHCH h
  let w6 := zW set 6
  let tgt : Rat := (bits w6 5 0 : Nat)
  let ys := xs.map (asymY r.codeAsym)
  let eA : Rat := tgt - (meanInt (ys.map (fun y => (y.natAbs : Int))))
  let mu := bits w6 11 8
  let g : Rat := 1 / ((2 ^ (if fast then mu - 3 else mu) : Nat) : Rat)
  let r1 := if s.on p HCH.ADAPT_CTL_FRZ_VGA then (s, r.vga) else s.roundFree ((r.vga : Rat) + 256 * eA * g)
  let r2 := if s.on p HCH.ADAPT_CTL_FRZ_OFS then (r1.1, r.ofs)
    else r1.1.roundFree ((r.ofs : Rat) - 256 * 4 * meanInt xs / ((2 ^ bits w6 15 12 : Nat) : Rat))
  let up := ys.filter (fun (y : Int) => decide (tgt / 2 < (y : Rat)))
  let dn := ys.filter (fun (y : Int) => decide ((y : Rat) < -(tgt / 2)))
  let r3 := if s.on p HCH.ADAPT_CTL_FRZ_ASYM || up.isEmpty || dn.isEmpty then (r2.1, r.asym)
    else r2.1.roundFree ((r.asym : Rat) + 256 * (meanInt up - meanInt (dn.map (fun y => -y))) / ((2 ^ bits w6 19 16 : Nat) : Rat))
  (r3.1, { r with vga := r1.2, ofs := r2.2, asym := r3.2 })

/-- FAST_LEN × 64 samples of the gate are in the fast phase (R97). -/
def fastSamples (set : List Word) : Nat := bits (zW set 6) 31 24 * 64

/-- SAT_A and SAT_B with IRQ SAT (R97, R105); the loops of a reader that is off have stopped (R95). -/
def State.noteSat (s : State) (h : Nat) (b : Bool) (r : Reader) : State :=
  let f := if b then HCH.AFE_STAT_SAT_B else HCH.AFE_STAT_SAT_A
  if r.atLimit && !s.rdrOff h b && !s.on (pHCH h) f then (s.put (pHCH h) f 1).irq (pHCH h) 1 else s

/-- ADC samples that reach the head channel, the first taken at `t`; none where a zero is delivered instead, from a reader that is off
or a front end that is not ready (R94, R95). -/
def State.delivered (s : State) (h : Nat) (b : Bool) (t : Nat) (xs : List (BitVec 7)) : List (Option Int) :=
  xs.zipIdx.map (fun x => if s.rdrOff h b || !s.afeReady h (t + 16 * x.2) then none else some x.1.toInt)

/-! ### Meanings -/

/-- R94, R240: with AFE_DOZE set, the front end wakes 2,400 ft before the next admitted gate open or servo window. -/
def execAfeWake (h : Fin 96) (delay : BitVec 16) (s : State) : Out :=
  let a := actOf h.val
  let gate := ((s.drlOf a).ents.any (fun e => e.gate && !e.opened && decide (e.target = h.val % 12) &&
    decide (e.t - 2400 * 64 ≤ (s.time : Int))))
  let servo := s.servoOn h.val && (s.inServo h.val s.time ||
    decide (s.servoOpen h.val (s.wedgeCount a s.time + 1) - 2400 * 64 ≤ (s.time : Int)))
  if s.present (pHCH h.val) && s.afeDoze h.val && !(s.afeOf h.val).awake s.time && (gate || servo) then
    .next (s.setAfe h.val { s.afeOf h.val with readyAt := some (s.time + delay.toNat * 64), sleepAt := none })
  else .next s

/-- R93: 256 consecutive clipped samples raise CH FL0, once a run. -/
def execClipRun (h : Fin 96) (rdB : Bool) (s : State) : Out :=
  let f := s.afeOf h.val
  let r := if rdB then f.rdB else f.rdA
  if 0 < r.clipDue then
    let r1 := { r with clipDue := r.clipDue - 1 }
    .next ((s.setAfe h.val (if rdB then { f with rdB := r1 } else { f with rdA := r1 })).raise (pHCH h.val) 3)
  else .next s

/-- R93: 4,096 consecutive identical samples raise CH FL1 on the head channel, once a run. -/
def execAdcStuck (h : Fin 96) (rdB : Bool) (s : State) : Out :=
  let f := s.afeOf h.val
  let r := if rdB then f.rdB else f.rdA
  if 0 < r.stuckDue then
    let r1 := { r with stuckDue := r.stuckDue - 1 }
    .next ((s.setAfe h.val (if rdB then { f with rdB := r1 } else { f with rdA := r1 })).raise (pHCH h.val) 4)
  else .next s

/-- A byte of the ZPT region as it stood at the start of this FCLK cycle (R100). -/
def State.zptByte (s : State) (a : Nat) : Byte :=
  if s.zptOld.1 = s.time / 192 + 1 then
    (match s.zptOld.2.find? (fun e => decide (e.1 = a)) with
    | some e => e.2
    | none => s.byte a)
  else s.byte a

/-- The words of a ZPT entry as a load sees them. -/
def State.zptEntry (s : State) (h z : Nat) : List Word :=
  (List.range 20).map (fun i => BitVec.ofNat 32 (leNat ((List.range 4).map (fun b => s.zptByte (zptAddr h z + 4 * i + b)))))

/-- A shadow write of ZPT_SEL (R100, R102); reserved bits of the entry's words read 0 (R12). -/
def State.zptSelect (s : State) (h z : Nat) (ecc : Ecc) : State :=
  let p := pHCH h
  let s0 := s.settle p s.time
  let set := s0.zptEntry h z
  match ecc with
  | .ue => s0.raise p 0
  | _ =>
    let s1 := if ecc = .ce then s0.raise p 1 else s0
    if setValid set then
      s1.shadowWrite p (fun s =>
        (s.setShadowReg p 0x40 (BitVec.ofNat 32 z)).each (List.range 18) (fun s (i : Nat) => s.setShadowReg p (0x80 + 4 * i) ((set[i]?).getD 0 &&& accMask p (0x80 + 4 * i) .sh)))
    else ((s1.put p HCH.AFE_STAT_REFUSED_ZONE z).irq p 0).raise p 2

/-- R100, R102: a write of ZPT_SEL. -/
def execZptSel (m : Master) (h : Fin 96) (zone : BitVec 6) (ecc : Ecc) (s : State) : Out :=
  .next (s.regCmd m (pHCH h.val) 0x40 (fun s => s.zptSelect h.val zone.toNat ecc))

end Sys2Proof.Machine
end

