-- ==== Sys2Proof/Machine/Signal.lean ====
section
/-! DEFINITION. The samples of a read gate (R92, R93, R97, R122–R126, R137): their interpolation to the symbol rate, the timing loop,
the two-dimensional equaliser and its adaptation, the pairs that are retained. -/

namespace Sys2Proof.Machine

/-- What the chain of a gate follows: the set, whether the gate is the sector's first, the readers that are off, whether taps are held
(R125), the gate's open, its close, the SCLK edge of its first sample. -/
structure Chain.Env where
  set : List Word
  first : Bool
  offA : Bool
  offB : Bool
  hold : Bool
  opened : Int
  closes : Int
  edge : Nat
deriving DecidableEq, Repr

/-- A value rounded without a stated rounding: the floor or the neighbour above (log 117); `u` names the place. -/
def roundOpen (u : Nat) (x : Rat) : Int := if x.den = 1 then x.num else x.floor + (if Config.roundsUp u x then 1 else 0)

/-- The interpolated sample at phase `k` of the middle interval of eight samples (R122); zeros give 0. -/
def interp (k : Nat) (w : List (Option Int)) : Int := if w.all (fun x => decide (x = some 0)) then 0 else Config.interpolate k w

/-- A detector's LLR scaled by a Q2.6 factor, 7-bit signed (R127; rounding: log 117). -/
def scaleLlr (scale : Nat) (l : Int) : Int := satS 7 (roundOpen 4 (((l * scale : Int) : Rat) / 64))

/-- A sample as retained: halved and saturated to 6-bit signed (R137). -/
def half6 (u : Int) : Nat := enc 6 (satS 6 (roundOpen 1 ((u : Rat) / 2)))

/-- Exponents of the timing loop (R120). -/
def zKpAcq (set : List Word) : Nat := bits (zW set 12) 11 8
def zKiAcq (set : List Word) : Nat := bits (zW set 12) 15 12
def zKp (set : List Word) : Nat := bits (zW set 12) 19 16
def zKi (set : List Word) : Nat := bits (zW set 12) 23 20

/-- F lies in RATE_STEP ± 0.5 % (R123): the least and the greatest frequency word, in 2^-32 symbol per sample. -/
def freqLo (set : List Word) : Int := -((-(zRate set * 256 * 995 : Int)) / 1000)
def freqHi (set : List Word) : Int := (zRate set * 256 * 1005 : Int) / 1000

/-- The loop's correction by the phase error `e` of symbol `n`, in 1/64 symbol (R123): acquisition gains over the preamble of a first
fragment and the guard of a later one. -/
def Chain.track (c : Chain) (g : Chain.Env) (n : Nat) (e : Int) : Chain :=
  let acq := decide (n < (if g.first then zPre g.set else zGuard g.set))
  let kp := if acq then zKpAcq g.set else zKp g.set
  let ki := if acq then zKiAcq g.set else zKi g.set
  let f := (c.f : Int) + e * 2 ^ (26 - ki)
  { c with phi := c.phi + e * 2 ^ (26 - kp), f := (max (freqLo g.set) (min f (freqHi g.set))).toNat, clamp := c.clamp || decide (f ≤ freqLo g.set) || decide (freqHi g.set ≤ f) }

/-- Tap `i` as the equaliser uses it: those of a reader that is off count as 0 (R126). -/
def Chain.Env.tap (g : Chain.Env) (i : Nat) (t : Rat) : Rat := if (decide (i < 16) && g.offA) || (decide (16 ≤ i) && g.offB) then 0 else t

/-- The last 16 interpolated samples of reader A, then of reader B: the operands of the taps (R125). -/
def Chain.line (c : Chain) : List Int := c.us.map (·.1) ++ c.us.map (·.2)

/-- The equaliser output whose last sample is the newest (R125). Where a sample before the fragment's first would be needed, which the spec
does not give, it is a free value. -/
def Chain.output (c : Chain) (g : Chain.Env) : Int :=
  if c.us.length = 16 then
    satS 10 (roundAway ((((c.taps.zip c.line).zipIdx.map (fun x => g.tap x.2 x.1.1 * (x.1.2 : Rat))).sum) / 16384))
  else sgn 10 (Config.freeWord (c.seed + (c.m - 8))).toNat

/-- The taps' adaptation with error `err` (R125); EQ_MU 0 and EQ_FREEZE hold them. -/
def Chain.adapt (c : Chain) (g : Chain.Env) (err : Int) : Chain :=
  if g.hold || c.us.length ≠ 16 then c
  else { c with taps := (c.taps.zip c.line).zipIdx.map (fun x => if g.tap x.2 1 = 0 then x.1.1 else x.1.1 + (err * x.1.2 : Int) / ((2 ^ (zEqMu g.set + 2) : Nat) : Rat)) }

/-- A symbol instant at fraction `frac` of the present interval (R122, R137): the pair is interpolated at 1/64 of the interval and kept; the
equaliser output of the symbol 7 before steers the loop and the taps, with its phase error and target `x`. -/
def Chain.symbol (c : Chain) (g : Chain.Env) (frac : Rat) (x : SymErr) : Chain :=
  let k := (roundOpen 0 (64 * frac)).toNat
  let w := (c.win ++ List.replicate 8 none).take 8
  let u := (interp k (w.map (fun y => y.map (·.1))), interp k (w.map (fun y => y.map (·.2))))
  let c1 : Chain := { c with us := (u :: c.us).take 16, m := c.m + 1, ts := (4 * ((g.edge : Int) + 16 * c.j) + k).toNat :: c.ts, kept := BitVec.ofNat 12 (half6 u.1 + 64 * half6 u.2) :: c.kept }
  if 8 ≤ c1.m then (c1.adapt g (x.target.toInt - c1.output g)).track g (c1.m - 8) x.phase.toInt else c1

/-- The interval from sample `c.j` to the next passes: a symbol instant lies where the accumulator is at or crosses an integer inside the
gate (R122, R124). -/
def Chain.interval (c : Chain) (g : Chain.Env) (x : Nat → SymErr) : Chain :=
  let up := -((-c.phi) / 2 ^ 32)
  let frac : Rat := if c.f = 0 then 0 else ((up * 2 ^ 32 - c.phi : Int) : Rat) / ((c.f : Nat) : Rat)
  let t : Rat := (g.edge : Rat) + 16 * ((c.j : Rat) + frac)
  let c1 := if up * 2 ^ 32 < c.phi + c.f ∧ (g.opened : Rat) ≤ t ∧ t < (g.closes : Rat) then c.symbol g frac (x c.m) else c
  { c1 with phi := c1.phi + c.f, j := c.j + 1 }

/-- A sample pair enters (none: a sample of the gate that nothing has told, or one after its close): the interval with four samples on
either side passes. -/
def Chain.push (c : Chain) (g : Chain.Env) (x : Nat → SymErr) (y : Option (Int × Int)) : Chain :=
  let c1 : Chain := { c with win := (y :: c.win).take 8, n := c.n + 1 }
  if c1.j + 5 ≤ (c1.n : Int) then c1.interval g x else c1

/-- Samples pass. -/
def Chain.run (c : Chain) (g : Chain.Env) (x : Nat → SymErr) (ys : List (Option (Int × Int))) : Chain :=
  match ys with
  | [] => c
  | y :: r => (c.push g x y).run g x r

/-- The samples of a gate: its SCLK edges from the open to before the close (R92). -/
def Chain.Env.total (g : Chain.Env) : Nat := ((g.closes - g.edge + 15) / 16).toNat

/-- The gate closes: the samples that nothing has told, and what lies after the last interval. -/
def Chain.flush (c : Chain) (g : Chain.Env) (x : Nat → SymErr) : Chain := c.run g x (List.replicate (g.total - c.n + 4) none)

/-- What the chain of the open gate follows. -/
def State.chainEnv (s : State) (h : Nat) (g : RdGate) (first : Bool) : Chain.Env :=
  { set := g.set, first := first, offA := s.rdrOff h false, offB := s.rdrOff h true, hold := decide (zEqMu g.set = 0) || s.on (pHCH h) HCH.RD_CTRL_EQ_FREEZE, opened := g.opened, closes := g.closes, edge := sclkAfter g.opened }

/-- The errors of a command's symbols, from symbol `m` of the fragment on; one that the command does not give is a free value. -/
def symErrs (xs : List SymErr) (m seed k : Nat) : SymErr :=
  match xs[k - m]? with
  | some x => x
  | none => { phase := (Config.freeWord (seed + (k - m))).setWidth 8, target := ((Config.freeWord (seed + (k - m))) >>> 8).setWidth 10 }

/-- The pairs that a chain has formed go to the sector's slot, from retained index `i` (R147). -/
def State.retain (s : State) (h : Nat) (x : RdSector) (c : Chain) : State :=
  match x.slot with
  | some k => s.storePairs (slotAddr h k) (x.syms.sum + (c.m - c.kept.length)) c.kept.reverse
  | none => s

/-- Samples of the open gate pass through its chain, where they belong to a sector. -/
def State.runChain (s : State) (h : Nat) (ys : List (Option (Int × Int))) (xs : List SymErr) (done : Bool) : State :=
  let rd := s.rdOf h
  match rd.gate, rd.recv with
  | some g, some x =>
    if g.live then
      let v := s.chainEnv h g (decide (x.frags = 1))
      let e := symErrs xs g.chain.m s.free
      let c1 := g.chain.run v e ys
      let c2 := if done then c1.flush v e else c1
      let s1 : State := { s.retain h x c2 with free := s.free + (c2.m - g.chain.m) }
      s1.setRd h { rd with gate := some { g with chain := { c2 with kept := [] } } }
    else s
  | _, _ => s

/-- The samples of a gate at its edges up to now that have not passed yet (R92). -/
def State.samplesLeft (s : State) (h : Nat) (g : RdGate) : Nat :=
  let e := sclkAfter g.opened
  min ((g.closes - e + 15) / 16).toNat (if e ≤ s.time then (s.time - e) / 16 + 1 else 0) - (s.afeOf h).samples

/-! ### Meanings -/

/-- R92, R93, R97, R122–R125: the samples of a block pass, those of the gate's edges up to now; at the block's end the loops update. A
shorter list is what the gate's close leaves of a block: its samples count, the loops stand. -/
def execAdaptBlock (h : Fin 96) (xa xb : List (BitVec 7)) (errs : List SymErr) (s : State) : Out :=
  match (s.rdOf h.val).gate with
  | none => .next s
  | some g =>
    let f := s.afeOf h.val
    let fast := decide (f.samples < fastSamples g.set)
    let block := if fast then 64 else 512
    let n := min (s.samplesLeft h.val g) (min block (min xa.length xb.length))
    let t := sclkAfter g.opened + 16 * f.samples
    let ia := s.delivered h.val false t (xa.take n)
    let ib := s.delivered h.val true t (xb.take n)
    let pa := s.passSamples h.val false f.rdA f.samples ia
    let pb := pa.1.passSamples h.val true f.rdB f.samples ib
    let whole := decide (n = block)
    let za := ia.map (fun x => x.getD 0)
    let zb := ib.map (fun x => x.getD 0)
    let ra := if whole && !s.rdrOff h.val false then pb.1.adaptReader h.val g.set fast za pa.2 else (pb.1, pa.2)
    let rb := if whole && !s.rdrOff h.val true then ra.1.adaptReader h.val g.set fast zb pb.2 else (ra.1, pb.2)
    let s1 := rb.1.setAfe h.val { f with rdA := ra.2, rdB := rb.2, samples := f.samples + n }
    let s2 := ((s1.noteLive h.val).noteSat h.val false ra.2).noteSat h.val true rb.2
    .next (s2.runChain h.val ((za.map (asymY f.rdA.codeAsym)).zip (zb.map (asymY f.rdB.codeAsym)) |>.map some) errs false)

end Sys2Proof.Machine
end

