-- ==== Sys2Proof/Machine/Aftermath.lean ====
section
/-! DEFINITION. Aftermath (R146–R164): slots and their release, jobs and their queues, deep decoders, tries, job ends. -/

namespace Sys2Proof.Machine

/-- A sub-unit is fenced (R423, R425). -/
def State.subFenced (s : State) (p sub : Nat) : Bool := s.subFence.any (fun e => decide (e.1 = p ∧ e.2.1 = sub))

/-- AFM takes sectors and jobs: powered, enabled, not fenced (R152). -/
def State.afmUsable (s : State) : Bool := s.powered pAFM && s.enabled pAFM && !s.fenced pAFM

def State.slotInfo (s : State) (i : Nat) : SlotInfo := tabGet s.afm.info i {}
def State.setSlotInfo (s : State) (i : Nat) (v : SlotInfo) : State := { s with afm := { s.afm with info := tabPut s.afm.info i v {} } }

/-- Q_STAT and STAT.IDLE's sources follow the queues (R152, R164). -/
def State.noteAfm (s : State) : State :=
  ((s.put pAFM AFM.Q_STAT_SWEEP_JOBS s.afm.sweeps.length).put pAFM AFM.Q_STAT_FW_JOBS s.afm.jobs.length).put pAFM
    AFM.Q_STAT_BUSY (s.afm.runs.foldl (fun r e => withBit r e.1 true) 0)

def State.setAfm (s : State) (q : Afm) : State := ({ s with afm := q }).noteAfm

/-- Jobs held: queued and running (R155). -/
def Afm.held (q : Afm) : Nat := q.sweeps.length + q.jobs.length + q.runs.length

/-- The slots of a job. -/
def Job.slots (j : Job) : List (Nat × Nat) := (j.head, j.slot) :: j.slot2.toList

/-- A new STATUS in a slot's descriptor and SLOT_STATi (R161, R164). -/
def State.setDescStatus (s : State) (h k st : Nat) : State :=
  (s.store (slotAddr h k + 0x1E082) 1 st).put pAFM (AFM.SLOT_STAT_STATUS (slotIdx h k)) st

/-- Furrow time [31:0] of the symbol at retained index `idx` of fragment `frag` of a slot: TIME + 16·j / F (R154). -/
def State.symbolTime (s : State) (h k frag : Nat) (idx : Int) : Nat :=
  let f := s.descWord h k 5
  let j := idx - (s.descWord h k (8 + frag) : Int)
  if f = 0 then 0 else (((s.descWord h k (16 + frag) : Int) + 16 * j * 2 ^ 32 / (f : Int)) % 2 ^ 32).toNat

/-- Furrow time of the framing mark's first symbol at offset `d` from a slot's descriptor (R148). -/
def State.markTime (s : State) (h k : Nat) (d : Int) : Nat :=
  let i := s.slotInfo (slotIdx h k)
  s.symbolTime h k i.markFrag (i.markIdx + d)

/-- The record of a job's end: STATUS, W1 and W4–W6 from the try, every other field from the descriptor (R161). -/
def State.jobRecord (s : State) (j : Job) (r : TryEnd) (pinned : Bool) : StsRec :=
  let h := j.head
  let k := j.slot
  let d0 := s.descWord h k 0
  let d1 := s.descWord h k 1
  let d6 := s.descWord h k 6
  { sid := d0 % 65536, status := r.status, pinned := pinned, slot := k, deep := true, time := if r.data.isSome then s.markTime h k r.ofs else 0, markOfs := sgn 8 d1, reframe := r.ofs, iter := r.iters, pass := r.passes, markSrc := bit d0 27, zone := bits d1 13 8, land := d6 % 65536, frags := bits d0 31 28, code := bits d0 25 24, tag := (match r.data with | some b => payloadTag (bits d0 26 26) b | none => 0), unsat := r.unsat, epoch := bits d6 23 16 }

/-- Write a job's record to the ring of its head, or drop it with its head channel powered off (R161, R162). -/
def State.postJob (s : State) (j : Job) (r : TryEnd) (pinned : Bool) : State :=
  let s1 := s.setDescStatus j.head j.slot r.status
  if s1.powered (pHCH j.head) then s1.writeSts j.head (s1.jobRecord j r pinned) (s1.slotInfo (slotIdx j.head j.slot)).stripe
  else (s1.inc pAFM AFM.REC_LOST).raise pAFM 4

/-- The stored failure status of a slot. -/
def State.storedStatus (s : State) (h k : Nat) : Nat := bits (s.descWord h k 0) 23 16

/-- JOB_DONE: counted and signalled (R164). -/
def State.jobDone (s : State) : State := (s.inc pAFM AFM.JOB_DONE).irq pAFM 0

/-- A hand-over of R132: a sweep job, or the final record at once when it cannot be queued (R162). -/
def State.handOver (s : State) (h k : Nat) : State :=
  let j : Job := { typ := 4, head := h, slot := k, hand := true }
  if s.afmUsable && decide (s.afm.held < 32) then
    (s.setSlot h k 3).setAfm { s.afm with sweeps := s.afm.sweeps ++ [j] }
  else
    let s1 := ((s.inc pAFM AFM.SWEEP_DROP).irq pAFM 1).raise pAFM 3
    s1.postJob j { status := s1.storedStatus h k } true

/-! ### What a try detects (R127, R154, R158, R159) -/

/-- The SECTOR_ID of the sector in a slot: the one that fills it, else that of its descriptor. -/
def State.slotSid (s : State) (h k : Nat) : Nat :=
  let rd := s.rdOf h
  match (if s.slotState h k = 1 then (rd.dec ++ rd.recv.toList).find? (fun x => x.slot = some k) else none) with
  | some x => x.sid
  | none => s.get pAFM (AFM.SLOT_STAT_SECTOR_ID (slotIdx h k))

/-- The windows among the first `n` hint entries of a slot. -/
def State.slotHints (s : State) (h k n : Nat) : List (Nat × Nat) := (List.range n).filterMap (s.hintAt h k)

/-- A window placed in ascending order of OPEN. -/
def insertWin (w : Nat × Nat) (ws : List (Nat × Nat)) : List (Nat × Nat) :=
  match ws with
  | [] => [w]
  | v :: r => if before32 w.1 v.1 then w :: v :: r else v :: insertWin w r

/-- The windows that a job's HINT selects, in ascending order of OPEN, the first 32 of them (R154). 'Merged' is read as one list of all, each
window as its entry gives it (DEDUCED, log 127); HINT 3, which the rule does not name, selects none (log 127). -/
def State.hintWindows (s : State) (j : Job) : List (Nat × Nat) :=
  let own := if j.hint = 1 ∨ j.hint = 2 then s.slotHints j.head j.slot 16 else []
  let mates := if j.hint = 2 then s.stripeMates j.head (s.slotSid j.head j.slot) else []
  let theirs := mates.map (fun m => ([0, 1].filter (fun k => decide (s.slotState m.1 k ≠ 0) && decide (s.slotSid m.1 k = m.2))).map (fun k => s.slotHints m.1 k 8))
  ((own ++ theirs.flatten.flatten).foldl (fun ws w => insertWin w ws) []).take 32

/-- Fragment and retained index of codeword symbol `c` of a slot framed at offset `d` (R119, R157). -/
def SlotInfo.codeSym (i : SlotInfo) (d : Int) (c : Nat) : Nat × Int :=
  let q := placeSym i.set 0 0 (if zResync i.set ∧ zResyncPos i.set ≤ c then c + 32 else c) i.syms
  (q.1, (q.2 : Int) + (if q.1 = i.markFrag then i.shift + d else 0))

/-- The detector's LLRs of a slot's codeword as the decoder takes them: scaled, those inside a window 0 (R127, R154). -/
def State.slotLlrs (s : State) (h k : Nat) (d : Int) (scale : Nat) (ws : List (Nat × Nat)) (ls : List (BitVec 7)) : List Int :=
  let i := s.slotInfo (slotIdx h k)
  let inWin := fun (c : Nat) => let q := i.codeSym d c
    let t := s.symbolTime h k q.1 q.2
    ws.any (fun w => !before32 t w.1 && before32 t w.2)
  ls.zipIdx.map (fun x => if inWin x.2 then 0 else scaleLlr scale x.1.toInt)

/-- A job's own value, or where it is 0 the descriptor's, of which 0 acts as 1 (R120, R159). -/
def orDesc (v d : Nat) : Nat := if v = 0 then max 1 d else v

/-- The scale of a job's LLRs of a slot, its iteration limit, its pass limit, and the descriptor's ITER_PASS (R148, R159). A sweep job that
firmware submits takes its own limits, where they are not 0, as any job does (DEDUCED, log 142). -/
def State.jobScale (s : State) (j : Job) (x : Nat × Nat) : Nat := if j.scale = 0 then bits (s.descWord x.1 x.2 3) 31 24 else j.scale
def State.jobIters (s : State) (j : Job) : Nat := orDesc j.iterMax (bits (s.descWord j.head j.slot 1) 21 16)
def State.jobPasses (s : State) (j : Job) : Nat := orDesc j.passes (bits (s.descWord j.head j.slot 1) 25 24)
def State.jobIterPass (s : State) (j : Job) : Nat := bits (s.descWord j.head j.slot 2) 29 24

/-- Passes made when `n` iterations are done: a further one after every ITER_PASS iterations, up to the limit (R156). -/
def State.passesAt (s : State) (j : Job) (n : Nat) : Nat :=
  if s.jobIterPass j = 0 then 1 else min (s.jobPasses j) (1 + (n - 1) / s.jobIterPass j)

/-- The LLRs that the decoder of a try has: the slot's, or for a JOINT job the sum of both with saturation (R159). -/
def State.tryLlrs (s : State) (run : DeepRun) (l1 l2 : List (BitVec 7)) : List Int :=
  let j := run.job
  let a := s.slotLlrs j.head j.slot run.cur (s.jobScale j (j.head, j.slot)) run.wins l1
  match j.slot2 with
  | some x => List.zipWith (fun u v => satS 7 (u + v)) a (s.slotLlrs x.1 x.2 0 (s.jobScale j x) run.wins l2)
  | none => a

/-- The equaliser and detector words of a job: the bank copied at submission, or the slot's snapshot (R159). -/
def State.jobBank (s : State) (j : Job) : List Word :=
  if j.eqSrc = 0 then (List.range 32).map (fun i => BitVec.ofNat 32 (s.load (slotAddr j.head j.slot + 0x1E000 + 4 * i) 4)) else j.bank

/-- SWEEP_CFG.ITER: 0 acts as 1. -/
def State.sweepIter (s : State) : Nat := max 1 (s.get pAFM AFM.SWEEP_CFG_ITER)

/-- The stage of a try `c` CCLK cycles after its start, 2 SETUP, 3 DETECT, 4 DECODE, by the durations of R156 with the slot's read port
free. -/
def State.tryStage (s : State) (run : DeepRun) (c : Nat) : Nat :=
  let j := run.job
  let d0 := s.descWord j.head j.slot 0
  let n := codeLen (bits d0 26 26) (bits d0 25 24)
  let det := (n + 63) / 64 * (if j.typ = 3 then 2 else 1)
  let period := det + s.jobIterPass j * ((n + 255) / 256)
  if c < 104 then 2
  else if s.jobIterPass j = 0 then (if c - 104 < det then 3 else 4)
  else if (c - 104) / period < s.jobPasses j ∧ (c - 104) % period < det then 3
  else 4

/-- The order of offsets of a sweep (R158). -/
def sweepOrder : List Int := ((List.range 8).map (fun (i : Nat) => ([-(Int.ofNat i + 1), Int.ofNat i + 1] : List Int))).flatten

/-- SWEEP_CFG.TRIES: 0 acts as 1, above 16 as 16. -/
def State.sweepTries (s : State) : Nat := max 1 (min (s.get pAFM AFM.SWEEP_CFG_TRIES) 16)

/-- An offset whose codeword lies within the retained symbols (R157). -/
def State.fitsAt (s : State) (j : Job) (d : Int) : Bool :=
  let i := s.slotInfo (slotIdx j.head j.slot)
  decide (i.lo ≤ d) && decide (d ≤ i.hi)

/-- Begin the next try of a run, skipping and counting the offsets that do not fit; a run without one ends (R157, R158, R161). -/
def State.nextTry (s : State) (run : DeepRun) (lost : TryEnd) : State × DeepRun :=
  if run.job.typ = 4 then
    if s.sweepTries ≤ run.tries then (s, { run with ended := some lost })
    else
      let skipped := (run.left.takeWhile (fun d => !s.fitsAt run.job d)).length
      let s1 := s.addSat pAFM AFM.SKIP_CNT skipped
      match run.left.drop skipped with
      | d :: r => (s1, { run with cur := d, left := r, since := s.time, past := false })
      | [] => (s1, { run with left := [], ended := some lost })
  else if s.fitsAt run.job run.job.ofs then (s, { run with cur := run.job.ofs, since := s.time })
  else (if run.job.typ = 2 then s.addSat pAFM AFM.SKIP_CNT 1 else s, { run with ended := some { status := 0x0D, ofs := run.job.ofs } })

/-- DD_STATd of a deep decoder at work: STATE 2 stands for a try in progress, whose stage a read finds (R156). -/
def State.noteDd (s : State) (d st : Nat) (run : DeepRun) : State :=
  s.setReg pAFM (0xA0 + 4 * d) (BitVec.ofNat 32
    (st + run.job.head * 2 ^ 8 + run.job.slot * 2 ^ 15 + run.tries % 32 * 2 ^ 16 + enc 8 run.cur * 2 ^ 24))

/-- DD_STATd of a deep decoder that holds no job. -/
def State.ddState (s : State) (d st : Nat) : State := s.setReg pAFM (0xA0 + 4 * d) (BitVec.ofNat 32 st)

def State.setRun (s : State) (d : Nat) (run : DeepRun) : State :=
  s.setAfm { s.afm with runs := s.afm.runs.filter (fun e => e.1 ≠ d) ++ [(d, run)] }

def State.dropRun (s : State) (d : Nat) : State := s.setAfm { s.afm with runs := s.afm.runs.filter (fun e => e.1 ≠ d) }

def State.runOf (s : State) (d : Nat) : Option DeepRun := (s.afm.runs.find? (fun e => e.1 = d)).map (·.2)

/-- A deep decoder that takes jobs: in DD_MASK, powered, not fenced, idle (R155). -/
def State.ddFree (s : State) (d : Nat) : Bool :=
  bit (s.get pAFM AFM.DD_MASK) d && s.domOn (domDD d) && !s.subFenced pAFM (192 + d) && (s.runOf d).isNone

/-- REL_STAT.BUSY follows the slots in RELEASING (R150). -/
def State.noteRelease (s : State) : State :=
  s.putB pAFM AFM.REL_STAT_BUSY ((List.range 192).any (fun i => s.slotState (i / 2) (i % 2) = 5))

/-- The end of a deep decoder's job: payload, slots, record, counters (R149, R150, R161). The record follows once BFM has accepted the
payload: where it answers with an error the decoder stays in WRITE (DEDUCED, log 142). -/
def State.finishRun (s : State) (d : Nat) (run : DeepRun) (r : TryEnd) : State :=
  let j := run.job
  let fmt := bits (s.descWord j.head j.slot 0) 26 26
  let land := s.descWord j.head j.slot 6 % 65536
  let rel := decide (s.slotState j.head j.slot = 5)
  let w := match r.data with
    | none => (s, true)
    | some b =>
      if j.dest ≠ 0 then s.bufWrite (some (ddM d)) j.dest (fitBytes (payloadBytes fmt) b)
      else if land ≠ 0xFFFF then s.bufWrite (some (ddM d)) (s.landAddr j.head fmt land) (fitBytes (payloadBytes fmt) b)
      else (s, true)
  let s1 := w.1
  let r1 := if r.data.isSome ∧ j.dest = 0 ∧ land = 0xFFFF then { r with status := 0x16 } else r
  let auto := r.data.isSome && s.on pAFM AFM.AFM_CTRL_AUTO_RELEASE
  let s2 := s1.each j.slots (fun s x => s.setSlot x.1 x.2 (if auto || s.slotState x.1 x.2 = 5 then 0 else 2))
  let s3 := (((s2.dropRun d).ddState d 1).postJob j r1 (!auto && !rel)).jobDone.noteRelease
  if !w.2 then s1
  else if j.typ = 4 then (if r1.status = 2 then s3.inc pAFM AFM.SWEEP_OK else if r1.status = 0xB then s3.inc pAFM AFM.SWEEP_LOST else s3)
  else s3

/-- A sector that fills a slot runs on without one, and UNRET_CNT counts it (R152). -/
def RdSector.unslotted (x : RdSector) : RdSector := if x.slot.isSome then { x with slot := none, unret := true } else x

/-- AFM goes out of use: every sector that fills a slot loses it, and the slot is FREE (R152). -/
def State.dropFilling (s : State) : State :=
  s.each (List.range 96) (fun s h =>
    let rd := s.rdOf h
    let n := ((rd.dec ++ rd.recv.toList).filter (fun x => x.slot.isSome)).length
    let s1 := (s.setRd h { rd with dec := rd.dec.map RdSector.unslotted, recv := rd.recv.map RdSector.unslotted }).addSat pAFM AFM.UNRET_CNT n
    s1.each [0, 1] (fun s k => if s.slotState h k = 1 then s.setSlot h k 0 else s))

/-- Every job ends with its stored failure status and every slot is released: SOFT_RESET or a clear of ENABLE (R152, R162). -/
def State.afmEndAll (s0 : State) : State :=
  let s := s0.dropFilling
  let s1 := s.each (s.afm.runs.map (fun e => (e.1, e.2.job)))
    (fun s e => ((s.dropRun e.1).ddState e.1 1).postJob e.2 { status := s.storedStatus e.2.head e.2.slot } false |>.jobDone)
  let s2 := s1.each (s1.afm.sweeps ++ s1.afm.jobs) (fun s j => (s.postJob j { status := s.storedStatus j.head j.slot } false).jobDone)
  let s3 := s2.setAfm { s2.afm with sweeps := [], jobs := [] }
  (s3.each (List.range 192) (fun s i => if 2 ≤ s.slotState (i / 2) (i % 2) then s.setSlot (i / 2) (i % 2) 0 else s)).noteRelease

/-- A deep decoder drops its job: slots being released are FREE, the job's others PINNED, and the record gives the stored failure
status (R149, R150, R161). -/
def State.dropJob (s : State) (d st : Nat) (j : Job) : State :=
  let rel := decide (s.slotState j.head j.slot = 5)
  let s1 := ((s.dropRun d).ddState d st).each j.slots (fun s x => s.setSlot x.1 x.2 (if s.slotState x.1 x.2 = 5 then 0 else 2))
  ((s1.postJob j { status := s1.storedStatus j.head j.slot } (!rel)).jobDone).noteRelease

/-- A deep decoder is fenced or loses its power: its job returns to the head of its class once; the second time, or with a slot that
firmware releases, it ends with the stored failure status (R150, R162). -/
def State.ddStopped (s : State) (d st : Nat) : State :=
  match s.runOf d with
  | none => s.ddState d st
  | some run =>
    let s1 := (s.dropRun d).ddState d st
    let j := run.job
    if j.back || j.slots.any (fun x => decide (s.slotState x.1 x.2 = 5)) then s.dropJob d st j
    else
      let s2 := s1.each j.slots (fun s x => s.setSlot x.1 x.2 3)
      if j.hand then s2.setAfm { s2.afm with sweeps := { j with back := true } :: s2.afm.sweeps }
      else s2.setAfm { s2.afm with jobs := { j with back := true } :: s2.afm.jobs }

/-- The job that a slot belongs to, waiting. -/
def State.queuedJob (s : State) (h k : Nat) : Option Job :=
  (s.afm.sweeps ++ s.afm.jobs).find? (fun j => j.slots.contains (h, k))

/-- A slot is released by firmware (R150). -/
def State.releaseSlot (s : State) (h k : Nat) : State :=
  if s.subFenced pAFM (slotIdx h k) then s
  else
    match s.slotState h k with
    | 2 => s.setSlot h k 0
    | 3 =>
      match s.queuedJob h k with
      | none => s.setSlot h k 0
      | some j =>
        let s1 := s.setAfm { s.afm with sweeps := s.afm.sweeps.filter (fun x => x ≠ j), jobs := s.afm.jobs.filter (fun x => x ≠ j) }
        let s2 := s1.each j.slots (fun s x => s.setSlot x.1 x.2 (if x = (h, k) then 0 else 2))
        (s2.postJob j { status := s2.storedStatus j.head j.slot } (decide ((j.head, j.slot) ≠ (h, k)))).jobDone
    | 4 => (s.setSlot h k 5).put pAFM AFM.REL_STAT_BUSY 1
    | _ => s

/-- The job that a master's words describe (R159). PASSES above 8 act as 8 and an OFFSET outside −64 to 63 as the nearest of them (DESIGN
CHOICE, log 142). -/
def jobOf (w0 w1 w2 w3 : Nat) : Job :=
  { typ := bits w0 2 0, head := bits w0 14 8, slot := bits w0 15 15, slot2 := if bits w0 2 0 = 3 then some (bits w0 22 16, bits w0 23 23) else none, hint := bits w0 25 24, iterMax := bits w1 7 0, passes := min (bits w1 11 8) 8, ofs := if bits w0 2 0 = 2 then max (-64) (min (sgn 8 (bits w1 23 16)) 63) else 0, scale := bits w1 31 24, eqSrc := bits w2 3 0, dest := bits w2 31 8 * 256 + bits w3 15 0 * 2 ^ 32 }

/-- The checks of a submission, in order (R160). -/
def State.jobCheck (s : State) (j : Job) : Nat :=
  let named := j.slots
  let bad := fun (x : Nat × Nat) => decide (96 ≤ x.1) || s.subFenced pAFM (slotIdx x.1 x.2) || decide (s.slotState x.1 x.2 ≠ 2)
  if !s.enabled pAFM || s.fenced pAFM then 1
  else if j.typ = 0 ∨ 4 < j.typ ∨ 8 < j.eqSrc then 2
  else if named.any bad then 3
  else if named.any (fun x => let t := s.storedStatus x.1 x.2; t = 0x0E || t = 0x0F) then 4
  else if j.typ = 3 ∧ (j.slot2 = some (j.head, j.slot) ∨ named.any (fun x =>
      bits (s.descWord x.1 x.2 0) 26 24 ≠ bits (s.descWord j.head j.slot 0) 26 24) = true) then 5
  else if 1 ≤ j.eqSrc ∧ s.powered (pHCH j.head) = false then 6
  else if 32 ≤ s.afm.held then 7
  else 0

/-- A write of JOB_W3 by a master: the result in its JOB_STAT, the job queued or SEQ FL0 raised (R159, R160). -/
def State.submitJob (s : State) (m : Master) (w3 : Word) : State :=
  let j := jobOf (s.mreg m pAFM 0x60).toNat (s.mreg m pAFM 0x64).toNat (s.mreg m pAFM 0x68).toNat w3.toNat
  let r := s.jobCheck j
  let s1 := s.setMreg m pAFM 0x70 (BitVec.ofNat 32 (2 ^ 31 + r))
  if r = 0 then
    let s2 := s1.each j.slots (fun s x => s.setSlot x.1 x.2 3)
    s2.setAfm { s2.afm with jobs := s2.afm.jobs ++ [if j.eqSrc = 0 then j else { j with bank := s.bankWords j.head (j.eqSrc - 1) }] }
  else s1.raise pAFM 2

/-- The write of JOB_W3 that submits a job of TYPE `t`. -/
def State.jobRow (s : State) (m : Master) (t : Nat) (w3 : Word) : State :=
  s.regCmd m pAFM 0x6C (fun s => if bits (s.mreg m pAFM 0x60).toNat 2 0 = t then s.submitJob m w3 else s)

/-! ### Meanings -/

/-- R150: a write of RELEASE. -/
def execRelease (m : Master) (h : BitVec 7) (slot : Bool) (s : State) : Out :=
  .next (s.regCmd m pAFM 0x50 (fun s => if h.toNat < 96 then s.releaseSlot h.toNat (b2n slot) else s))

/-- R150: the deep decoder of a RELEASING slot has stopped; the job's other slots return to PINNED. -/
def execReleaseDone (h : Fin 96) (slot : Bool) (s : State) : Out :=
  let k := b2n slot
  if s.slotState h.val k = 5 then
    match s.afm.runs.find? (fun e => e.2.job.slots.contains (h.val, k)) with
    | some (d, run) => .next (s.dropJob d 1 run.job)
    | none => .next ((s.setSlot h.val k 0).noteRelease)
  else .next s

/-- R159, R160: REDECODE. -/
def execRedecode (m : Master) (w3 : Word) (s : State) : Out := .next (s.jobRow m 1 w3)
/-- R159, R160: REFRAME. -/
def execReframe (m : Master) (w3 : Word) (s : State) : Out := .next (s.jobRow m 2 w3)
/-- R159, R160: JOINT. -/
def execJoint (m : Master) (w3 : Word) (s : State) : Out := .next (s.jobRow m 3 w3)
/-- R159, R160: SWEEP. -/
def execSweep (m : Master) (w3 : Word) (s : State) : Out := .next (s.jobRow m 4 w3)

/-- R155: dispatch of the first sweep job, else the first firmware job, to the lowest idle deep decoder. -/
def execJobDispatch (s : State) : Out :=
  match s.afm.sweeps ++ s.afm.jobs, firstBelow 8 s.ddFree with
  | j :: _, some d =>
    if s.afmUsable then
      let q := s.afm
      let s1 := s.setAfm (match q.sweeps with
        | _ :: r => { q with sweeps := r }
        | [] => { q with jobs := q.jobs.drop 1 })
      let s2 := s1.each j.slots (fun s x => s.setSlot x.1 x.2 4)
      let r := s2.nextTry { job := j, left := sweepOrder, wins := s2.hintWindows j, eq := s2.jobBank j } { status := 0xB }
      .next ((r.1.setRun d r.2).noteDd d (if r.2.ended.isSome then 5 else 2) r.2)
    else .next s
  | _, _ => .next s

/-- The end of a try of `run` that holds its LLRs (R156–R158). -/
def State.tryEnd (s : State) (d : Nat) (run : DeepRun) (r : Decoded) : State :=
  let most := s.jobIters run.job
  let sweep := decide (run.job.typ = 4)
  let stop := if sweep && !run.past then min s.sweepIter most else most
  let early := sweep && !run.past && decide (stop < most)
  if run.ended.isSome then s
  else if r.conv && !r.checkOk then s.raiseSub pAFM (16 + d) (192 + d)
  else if !r.conv && early && decide (r.unsat.toNat ≤ s.get pAFM AFM.SWEEP_CFG_THR) then s.setRun d { run with past := true }
  else
    let n := if r.conv then max (if run.past then s.sweepIter + 1 else 1) (min r.iters.toNat most) else stop
    let fmt := bits (s.descWord run.job.head run.job.slot 0) 26 26
    let ok := r.conv && payloadCrcOk fmt r.data
    let e : TryEnd := { status := if ok then (if run.job.typ = 2 ∨ run.job.typ = 4 then 2 else 3) else if run.job.typ = 4 then 0xB else if r.conv then 9 else 8, ofs := run.cur, iters := n, passes := if !r.conv && early then 1 else s.passesAt run.job n, unsat := if r.conv then 0 else r.unsat.toNat, data := if ok then some (fitBytes (payloadBytes fmt) r.data) else none }
    let run1 := { run with tries := run.tries + 1 }
    if ok || run.job.typ ≠ 4 then
      let run2 := { run1 with ended := some e }
      (s.setRun d run2).noteDd d 5 run2
    else
      let t := s.nextTry run1 e
      (t.1.setRun d t.2).noteDd d (if t.2.ended.isSome then 5 else 2) t.2

/-- R156, R158, R161, R162: a try ends, by convergence or after its last iteration. A sweep's first stop is after SWEEP_CFG.ITER
iterations: with more than THR unsatisfied checks the try is abandoned, else it goes on to the limits. `llr` and `llr2` are what the detector
delivered for the codeword symbols of the slots. -/
def execDeepTryEnd (d : Fin 8) (r : Decoded) (llr llr2 : List (BitVec 7)) (s : State) : Out :=
  match s.runOf d.val with
  | none => .next s
  | some run => .next (s.tryEnd d.val { run with llr := s.tryLlrs run llr llr2 } r)

/-- R161: a job whose end is known writes its payload and its record. -/
def execDeepJobEnd (d : Fin 8) (s : State) : Out :=
  match s.runOf d.val with
  | none => .next s
  | some run =>
    match run.ended with
    | none => .next s
    | some r => .next (s.finishRun d.val run r)

end Sys2Proof.Machine
end

