-- ==== Sys2Proof/Machine/ReadPath.lean ====
section
/-! DEFINITION. The read path (R116–R145): read gates, fragments, framing, decoding, retention, sector ends. -/

namespace Sys2Proof.Machine

/-- Options of R121 in ARG[31:16]. -/
def RdSector.sweepAny (x : RdSector) : Bool := bit x.opts 2
def RdSector.noPin (x : RdSector) : Bool := bit x.opts 3
def RdSector.statusOnly (x : RdSector) : Bool := bit x.opts 4
def RdSector.stripe (x : RdSector) : Bool := bit x.opts 5
def RdSector.bg (x : RdSector) : Bool := bit x.opts 6
def RdSector.format (x : RdSector) : Nat := zFormat x.set

/-- Failures that pin a slot (R137). -/
def pinStatus (st : Nat) : Bool := decide (st = 8 ∨ st = 9 ∨ st = 0xA ∨ st = 0xD ∨ st = 0xE ∨ st = 0xF)

/-! ### Slots -/

/-- The slot that a new sector takes (R137, R149, R425). Of two FILLING slots it is one whose sector is not decoding, slot 0 before slot 1
(DESIGN CHOICE, log 119). -/
def State.pickSlot (s : State) (h : Nat) : Option Nat :=
  let rd := s.rdOf h
  let ok := [0, 1].filter (fun k => !s.subFenced pAFM (slotIdx h k))
  let free := ok.filter (fun k => s.slotState h k = 0)
  let fill := ok.filter (fun k => s.slotState h k = 1)
  let decoding := fun k => rd.dec.any (fun x => decide (x.slot = some k) && decide (0 < x.passes))
  match free with
  | [a, _] => some (match rd.lastSlot with | none => a | some l => if l = 0 then 1 else 0)
  | [k] => some k
  | _ => match fill.filter (fun k => !decoding k) with
    | k :: _ => some k
    | [] => fill.head?

/-- A sector loses slot `k` (R135). -/
def loseSlot (k : Nat) (x : RdSector) : RdSector := if x.slot = some k then { x with slot := none } else x

/-- Claim a slot at a first fragment's open: FILLING, hints emptied; none with AFM out of use or both slots pinned, counted
in UNRET_CNT (R137, R152, R153). -/
def State.claimSlot (s : State) (h : Nat) : State × Option Nat :=
  match (if s.afmUsable then s.pickSlot h else none) with
  | none => (s.inc pAFM AFM.UNRET_CNT, none)
  | some k =>
    let rd := s.rdOf h
    let s1 := s.setRd h { rd with lastSlot := some k, dec := rd.dec.map (loseSlot k), recv := rd.recv.map (loseSlot k) }
    ((s1.setSlot h k 1).clearHints h k, some k)

/-- Retained index of the codeword's stream symbol `c`, the mark's shift applied in its fragment (R119). -/
def RdSector.place (x : RdSector) (c : Nat) : Nat × Int :=
  let q := placeSym x.set 0 0 c x.syms
  (q.1, (q.2 : Int) + (if x.mark = 2 ∧ q.1 = x.markFrag then x.markOfs else 0))

def RdSector.total (x : RdSector) : Nat := x.syms.sum

/-- The last codeword symbol lies after the close of the last fragment (R133). -/
def RdSector.short (x : RdSector) : Bool := decide ((x.total : Int) ≤ (x.place (streamSyms x.set - 1)).2)

/-- The taps of a bank, CA0–CA15 then CB0–CB15 (R128). -/
def bankTaps (bank : List Word) : List Rat :=
  ((List.range 32).map (fun i => sgn 16 (((bank[i / 2]?).getD 0).toNat / 2 ^ (16 * (i % 2))))).map (fun (v : Int) => (v : Rat))

/-- A tap as the snapshot holds it, 16-bit signed (R128, R148). -/
def tapCode (x : RdSector) (i : Nat) : Nat := enc 16 (satS 16 (roundOpen 2 ((x.taps[i]?).getD 0)))

/-- The snapshot: the adapted taps, and the other bytes of the copy that the sector used (R125, R148). -/
def State.snapshot (s : State) (h k : Nat) (x : RdSector) : State :=
  let base := slotAddr h k + 0x1E000
  s.each (List.range 32) (fun s i =>
    s.store (base + 4 * i) 4 (if i < 16 then tapCode x (2 * i) + 65536 * tapCode x (2 * i + 1) else ((x.bank[i]?).getD 0).toNat))

/-- The descriptor of R148. -/
def descriptor (x : RdSector) (status : Nat) : List Nat :=
  let frame := if x.mark = 2 then ((x.place 0).2 % 2 ^ 17).toNat else zPre x.set
  let resync := if zResync x.set then ((x.place (zResyncPos x.set)).2 % 2 ^ 17).toNat else 0x1FFFF
  let starts := (List.range 8).map (fun i => if i < x.syms.length then (x.syms.take i).sum else 0)
  let times := (List.range 8).map (fun i => (x.times[i]?).getD 0 % 2 ^ 32)
  [x.sid + status * 2 ^ 16 + zCode x.set * 2 ^ 24 + zFormat x.set * 2 ^ 26 + b2n x.markSrc * 2 ^ 27 + x.frags % 16 * 2 ^ 28,
   (if x.mark = 2 then enc 8 x.markOfs else 0) + x.zone * 2 ^ 8 + bits (zW x.set 13) 5 0 * 2 ^ 16 + bits (zW x.set 12) 25 24 * 2 ^ 24 +
     (if 81920 < x.total then 2 ^ 31 else 0),
   frame + zIterPass x.set * 2 ^ 24, resync + zLlr x.set * 2 ^ 24, min x.total 81920, x.freq, x.land + x.epoch % 256 * 2 ^ 16, 0] ++
  starts ++ times ++ List.replicate 8 0

/-- What AFM keeps with a slot: the offsets that fit and the mark's place (R157). -/
def RdSector.info (x : RdSector) : SlotInfo :=
  let first := x.place 0
  let last := x.place (streamSyms x.set - 1)
  let cnt : Int := min x.total 81920
  let mf := if x.mark = 2 then x.markFrag else 0
  let mi : Int := if x.mark = 2 then (if x.markSrc then (x.place (zResyncPos x.set)).2 else (zPre x.set : Int) + x.markOfs) else zPre x.set
  { lo := if mf = 0 then -first.2 else -64, hi := if last.1 = mf then cnt - 1 - last.2 else if last.2 < cnt then 63 else -1000, markFrag := mf, markIdx := mi, stripe := x.stripe, set := x.set, syms := x.syms, shift := if x.mark = 2 then x.markOfs else 0 }

/-- When the sector in a slot ends: the hint window of a shock that still lasts (R153), snapshot, descriptor, SLOT_STATi, the slot's next
state (R148, R149). -/
def State.closeSlot (s : State) (h k : Nat) (x : RdSector) (status : Nat) (pinned : Bool) : State :=
  let s0 := if s.get pMOT MOT.SHOCK_STAT_ABOVE = 0 then s else s.addHint h k s.shockSince s.time
  let s1 := (s0.snapshot h k x).storeBytes (slotAddr h k + 0x1E080) (wordBytes (descriptor x status))
  let s2 := (s1.put pAFM (AFM.SLOT_STAT_STATUS (slotIdx h k)) status).put pAFM (AFM.SLOT_STAT_SECTOR_ID (slotIdx h k)) x.sid
  (s2.setSlotInfo (slotIdx h k) x.info).setSlot h k (if pinned then 2 else 0)

/-! ### Sector ends (R137–R140) -/

/-- How a sector ends. -/
structure SecEnd where
  status : Nat
  timeout : Bool := false
  iters : Nat := 0
  unsat : Nat := 0
  data : Option (List Byte) := none
deriving DecidableEq, Repr

/-- The end of a sector: payload or hard decisions, slot, record, counters, hand-over (R132, R137–R140). W0.SLOT is 0 for a sector that
holds no slot (DESIGN CHOICE, log 121). -/
def State.endSector (s : State) (h : Nat) (x : RdSector) (e : SecEnd) : State :=
  let p := pHCH h
  let st0 := if pinStatus e.status && x.slot.isNone then 0xC else e.status
  let st := if (st0 = 0 ∨ st0 = 1) ∧ x.land = 0xFFFF ∧ x.statusOnly = false then 0x16 else st0
  let pinned := pinStatus st && !x.noPin
  let hand := pinned && decide (st = 8 ∨ st = 9) && decide (x.mark = 2) && !s.on p HCH.RD_CTRL_SWEEP_DIS &&
    zEarly x.set && (x.sweepAny || decide (x.markOfs < 0))
  let s1 := match e.data with
    | some b => if x.land = 0xFFFF then s
      else (s.bufWrite (some (headM h)) (s.landAddr h x.format x.land) (fitBytes (payloadBytes x.format) b)).1
    | none => s
  let s2 := match x.slot with | some k => s1.closeSlot h k x st pinned | none => s1
  let r : StsRec := { sid := x.sid, status := st, final := !hand, pinned := pinned, slot := x.slot.getD 0, unret := x.unret, timeout := e.timeout, oneReader := x.oneReader, bg := x.bg, time := x.markTime, markOfs := if x.mark = 2 then x.markOfs else 0, iter := e.iters, pass := x.passes, markSrc := x.markSrc, clamp := x.clamp, zone := x.zone, land := x.land, frags := x.frags, code := zCode x.set, tag := if st = 0 ∨ st = 1 ∨ st = 0x16 then (match e.data with | some b => payloadTag x.format b | none => 0) else 0, unsat := e.unsat, epoch := x.epoch }
  let s3 := ((s2.writeSts h r x.stripe).inc p HCH.SECT_CNT).addSat p HCH.ITER_SUM e.iters
  let s4 := if 8 ≤ st then (s3.inc p HCH.FAIL_CNT).irq p 9 else s3
  let s5 := if e.timeout then s4.inc p HCH.TIMEOUT_CNT else s4
  let s6 := if x.clamp then s5.inc p HCH.TR_CLAMP_CNT else s5
  let s7 := if x.times = [] then s6 else s6.put p HCH.TR_FREQ (enc 24 ((x.freq / 256 : Nat) - (zRate x.set : Int)))
  match x.slot, hand with
  | some k, true => s7.handOver h k
  | _, _ => s7

/-- A time in quarters of a sub-tick, to the sub-tick (R139, R148; rounding: log 117). -/
def quarter (t : Nat) : Nat := (roundOpen 3 ((t : Rat) / 4)).toNat

/-- The sector with what an open gate's chain has received of its present fragment. -/
def RdSector.absorb (x : RdSector) (c : Chain) (edge : Nat) : RdSector :=
  { x with syms := x.syms ++ [c.m], times := x.times ++ [quarter (c.ts.getLast?.getD 0)], insts := x.insts ++ [c.ts.reverse], freq := c.f, phi := c.phi, edge := (edge + 16 * c.j).toNat, taps := c.taps, clamp := x.clamp || c.clamp }

/-- The receiving or pending sector of a head with all its symbols so far. -/
def RdHead.current (rd : RdHead) : Option RdSector :=
  match rd.gate, rd.recv with
  | some g, some x => if g.live then some (x.absorb g.chain (sclkAfter g.opened)) else some x
  | _, r => r

/-- The pending or receiving sector ends. -/
def State.endRecv (s : State) (h : Nat) (e : SecEnd) : State :=
  let rd := s.rdOf h
  match rd.current with
  | none => s
  | some x => (s.setRd h { rd with recv := none, gate := rd.gate.map (fun g => { g with live := false }) }).endSector h x e

/-- A sector leaves the decoding list and ends. -/
def State.endDec (s : State) (h : Nat) (x : RdSector) (e : SecEnd) : State :=
  let rd := s.rdOf h
  (s.setRd h { rd with dec := rd.dec.erase x }).endSector h x e

/-- Every sector in progress of a head ends, and its read gate drops: fencing (FENCED), SOFT_RESET or a clear of ENABLE
(ABORTED) (R143). A sector that ends so while it is decoding writes no hard decisions (DESIGN CHOICE, log 120), and the dropped gate learns
nothing (log 122). -/
def State.abortRead (s : State) (h status : Nat) : State :=
  let s1 := s.each (s.rdOf h).dec (fun s x => s.endDec h x { status := status })
  let s2 := s1.endRecv h { status := status }
  (s2.setRd h { s2.rdOf h with gate := none }).afeSleep h

/-- A foreground open at `t` inside an open background gate cuts it (R144). -/
def State.cutBg (s : State) (h : Nat) (t : Int) : State :=
  let rd := s.rdOf h
  match rd.gate with
  | some g =>
    if g.bg = true ∧ t < g.closes then
      let s1 := ((s.setRd h { rd with gate := none }).inc (pHCH h) HCH.BG_ABORT_CNT)
      if g.live then s1.endRecv h { status := 0x14 } else s1
    else s
  | none => s

/-! ### Opens (R121, R137, R141, R142) -/

/-- The sector of a gate that ends at its open, or an orphan: a record without slot or landing (R104, R126, R141). -/
def bareSector (e : Entry) (set : List Word) (zone epoch frags : Nat) : RdSector :=
  { sid := e.arg % 65536, opts := e.arg / 65536, set := set, zone := zone, epoch := epoch, frags := frags }

/-- The chain of a sector's samples at a gate's open (R122, R124): at the first fragment the accumulator is 0 at the first sample, at a
continuation it has advanced by F since the last close, up to the SCLK edge before the first sample. -/
def RdSector.chain (x : RdSector) (t : Int) (seed : Nat) : Chain :=
  let e := sclkAfter t
  if x.frags = 1 then { f := x.freq, taps := x.taps, seed := seed }
  else { j := -1, phi := x.phi + (x.freq : Int) * (((e : Int) - 16 - x.edge) / 16), f := x.freq, taps := x.taps, seed := seed }

/-- Open a gate whose samples reach sector `x`, or are discarded. -/
def State.startGate (s : State) (h : Nat) (e : Entry) (set : List Word) (zone : Nat) (x : Option RdSector) (last : Bool) : State :=
  let s1 : State := { s.openAfe h set e.t.toNat with free := s.free + 8 }
  let rd := s1.rdOf h
  let g : RdGate := { live := x.isSome, bg := e.bg, opened := e.t, closes := e.c, set := set, zone := zone, last := last, chain := (match x with | some y => y.chain e.t s.free | none => {}) }
  s1.setRd h { rd with gate := some g, recv := if x.isSome then x else rd.recv }

/-- The formats of two sets agree (R142). -/
def sameFormat (u v : List Word) : Bool :=
  decide (bits (zW u 0) 30 27 = bits (zW v 0) 30 27) && ([1, 8, 9, 10, 11, 12, 13] : List Nat).all (fun i => decide (zW u i = zW v i))

/-- A whole or first fragment opens. -/
def State.openFirst (s : State) (h : Nat) (e : Entry) (set : List Word) (zone epoch : Nat) (last : Bool) : State :=
  let s0 := s.endRecv h { status := 0xE }
  let x0 := bareSector e set zone epoch 0
  if !setValid set then s0.endSector h x0 { status := 0x10 }
  else if s.rdrOff h false && s.rdrOff h true then s0.endSector h x0 { status := 0x11 }
  else
    let c := s0.claimSlot h
    let l := if x0.statusOnly then (c.1, 0xFFFF) else c.1.claimLanding h
    l.1.startGate h e set zone (some { x0 with frags := 1, slot := c.2, unret := c.2.isNone, land := l.2, oneReader := s.rdrOff h false || s.rdrOff h true, freq := zRate set * 256, bank := s.bankWords h (zBank set), taps := bankTaps (s.bankWords h (zBank set)) }) last

/-- A middle or last fragment opens. The ends are tested in the order of R141, then no zone, the format, the readers; an orphan reports
ORPHAN whatever its set and readers (DEDUCED, log 147). -/
def State.openNext (s : State) (h : Nat) (e : Entry) (set : List Word) (zone epoch : Nat) (last : Bool) : State :=
  let orphan := fun (s : State) =>
    let s1 := s.endSector h (bareSector e set zone epoch 1) { status := 0x15 }
    if setValid set && !(s.rdrOff h false && s.rdrOff h true) then s1.startGate h e set zone none last else s1
  match (s.rdOf h).recv with
  | none => orphan s
  | some x =>
    if x.sid ≠ e.arg % 65536 then orphan (s.endRecv h { status := 0xE })
    else if 8 ≤ x.frags then orphan (s.endRecv h { status := 0xE })
    else if !setValid set then s.endRecv h { status := 0x10 }
    else if !sameFormat x.set set then (s.endRecv h { status := 0xF }).startGate h e set zone none last
    else if s.rdrOff h false && s.rdrOff h true then s.endRecv h { status := 0x11 }
    else s.startGate h e set zone (some { x with frags := x.frags + 1, oneReader := x.oneReader || s.rdrOff h false || s.rdrOff h true }) last

/-- A pending sector whose next fragment has not opened before `t`, at the limit of R141 or later, ends FRAG_BROKEN. -/
def State.expireRead (s : State) (h : Nat) (t : Int) : State :=
  let rd := s.rdOf h
  match rd.recv with
  | some x => if (rd.gate.any (·.live)) = false ∧ (x.lastClose : Int) + 1048576 * 64 ≤ t then s.endRecv h { status := 0xE } else s
  | none => s

/-- A read gate of head `h` opens with entry `e` (R76, R103). A head channel that is off or not enabled opens no gate. BG is read beside
any FRAG (DEDUCED, log 145). -/
def State.openRead (s : State) (h : Nat) (e : Entry) : State :=
  let p := pHCH h
  let s0 := (s.settle p e.t.toNat).expireRead h e.t
  let s1 := if e.bg then s0 else s0.cutBg h e.t
  if s1.running p then
    let set := s1.activeSet h
    let zone := s1.get p HCH.ZPT_SEL_ZONE
    let frag := bits e.arg 17 16
    if frag = 0 ∨ frag = 1 then s1.openFirst h e set zone (s1.epochOf p) (decide (frag = 0))
    else s1.openNext h e set zone (s1.epochOf p) (decide (frag = 3))
  else s1

/-! ### Closes, framing, decoding -/

/-- How a sector whose last fragment has closed ends at once: no mark, or too short (R131, R133). -/
def fragEnd (x : RdSector) : Option SecEnd :=
  if x.mark = 3 then some { status := 0xA }
  else if x.mark = 2 ∧ x.short = true then some { status := 0xD }
  else none

/-- The close of a read gate: its last samples pass, the sector is pending or closed. The close of a background pair that a foreground
gate has cut finds no gate of its own (R144). -/
def State.closeRead (s : State) (h : Nat) (e : Entry) (errs : List SymErr) : State :=
  match (s.rdOf h).gate with
  | none => s
  | some g0 =>
    if g0.opened ≠ e.t ∨ g0.bg ≠ e.bg then s
    else
      let s1 := (s.runChain h [] errs true).closeAfe h g0.zone
      let rd := s1.rdOf h
      match rd.current, g0.live with
      | some x, true =>
        let x1 := { x with lastClose := e.c.toNat }
        let rd1 := { rd with gate := none, recv := none }
        if g0.last then
          match fragEnd x1 with
          | some r => (s1.setRd h rd1).endSector h x1 r
          | none => s1.setRd h { rd1 with dec := rd1.dec ++ [x1] }
        else s1.setRd h { rd1 with recv := some x1 }
      | _, _ => s1.setRd h { rd with gate := none }

/-- Replace the sector that a search concerns; one whose last fragment has closed ends if it cannot go on. -/
def State.framed (s : State) (h : Nat) (x y : RdSector) : State :=
  let rd := s.rdOf h
  if rd.dec.contains x then
    match fragEnd y with
    | some r => (s.setRd h { rd with dec := rd.dec.erase x }).endSector h y r
    | none => s.setRd h { rd with dec := rd.dec.map (fun z => if z = x then y else z) }
  else s.setRd h { rd with recv := some y }

/-- The sector of a head that a mark search concerns: the oldest whose framing stands at `m`. -/
def RdHead.searching (rd : RdHead) (m : Nat) : Option RdSector := (rd.dec ++ rd.recv.toList).find? (fun x => x.mark = m)

/-- The 32 symbols of a mark, most significant bit first (R116). -/
def markBits (w : Nat) : List Bool := (List.range 32).map (fun i => bit w (31 - i))

/-- MARK_TOL (R120). -/
def zMarkTol (set : List Word) : Nat := bits (zW set 11) 26 24

/-- The 32 decisions at candidate `i` differ from the pattern in no more than MARK_TOL symbols (R129). -/
def markFits (set : List Word) (pat : Nat) (hard : List Bool) (i : Nat) : Bool :=
  let d := (hard.drop i).take 32
  decide (d.length = 32) && decide (((d.zip (markBits pat)).filter (fun x => x.1 != x.2)).length ≤ zMarkTol set)

/-- Symbol counts of a sector's fragments while symbol places are looked for: that of a fragment that may still grow is unbounded. -/
def RdSector.grown (x : RdSector) (rd : RdHead) : List Nat := if rd.dec.contains x then x.syms else x.syms ++ [2 ^ 20]

/-- Symbols of fragment `k` so far, and whether it has closed. -/
def RdSector.count (x : RdSector) (rd : RdHead) (k : Nat) : Nat × Bool :=
  match x.syms[k]? with
  | some n => (n, true)
  | none => (match rd.gate with | some g => (if g.live && rd.recv == some x then (g.chain.m, false) else (0, false)) | none => (0, false))

/-- The instant of symbol `p` of fragment `k`, in quarters of a sub-tick. -/
def RdSector.instant (x : RdSector) (rd : RdHead) (k : Nat) (p : Nat) : Nat :=
  match x.insts[k]? with
  | some l => (l[p]?).getD 0
  | none => (match rd.gate with | some g => (g.chain.ts.reverse[p]?).getD 0 | none => 0)

/-- Where a mark is expected: its fragment, and its first symbol's place in that fragment (R119, R129, R130). -/
def RdSector.expected (x : RdSector) (rd : RdHead) (resync : Bool) : Nat × Int :=
  if resync then
    let q := placeSym x.set 0 0 (zResyncPos x.set) (x.grown rd)
    (q.1, (q.2 : Int) - ((x.syms.take q.1).sum : Nat))
  else (0, zPre x.set)

/-- How a mark search stands. -/
inductive Search where
  | wait
  | miss
  | hit (ofs : Int) (frag : Nat) (time : Nat)
deriving DecidableEq, Repr

/-- The search of a mark with the decisions `hard` (R129, R130): candidates in ascending order, the first accepted ends it. A symbol's decision is
known 24 symbols later; once the fragment has closed, all its decisions are known, and none beyond it. -/
def RdSector.search (x : RdSector) (rd : RdHead) (resync : Bool) (hard : List Bool) : Search :=
  let w := zSyncW x.set
  let q := x.expected rd resync
  let n := x.count rd q.1
  let at_ := fun (i : Nat) => q.2 - w + i
  let all := List.range (2 * w + 1)
  let seen := all.takeWhile (fun i => n.2 || decide (at_ i + 55 < n.1))
  match seen.find? (fun i => decide (0 ≤ at_ i) && decide (at_ i + 31 < n.1) && markFits x.set (zW x.set (if resync then 10 else 9)) hard i) with
  | some i => .hit ((i : Int) - w) q.1 (quarter (x.instant rd q.1 (at_ i).toNat) % 2 ^ 32)
  | none => if seen.length = all.length then .miss else .wait

/-- Iterations that have been made before the present pass's, and whether the next stop of the decoder starts a further pass (R134). -/
def RdSector.done (x : RdSector) : Nat := (x.passes - 1) * zIterPass x.set
def RdSector.more (x : RdSector) : Bool :=
  decide (x.passes < zPasses x.set) && decide (0 < zIterPass x.set) && x.slot.isSome && decide (x.passes * zIterPass x.set < zIterMax x.set)

/-- The iteration at which a decoding that reports `n` converged: after those of earlier passes, up to the next pass or ITER_MAX. -/
def RdSector.iteration (x : RdSector) (n : Nat) : Nat :=
  max (x.done + 1) (min n (if x.more then x.passes * zIterPass x.set else zIterMax x.set))

/-! ### Meanings -/

/-- R76, R84, R28: a read gate's open launches, SKIPPED when the head channel is fenced. -/
def execRgOpen (a : Fin 8) (s : State) : Out :=
  match s.dueAction a.val aRG false with
  | none => .next s
  | some e =>
    .next (if s.drillFenced a.val e.action e.target e.arg then s.retireOpen a.val e 3
      else (s.retireOpen a.val e 0).openRead (12 * a.val + e.target) e)

/-- R76, R84, R87: a read gate's close launches. -/
def execRgClose (a : Fin 8) (errs : List SymErr) (s : State) : Out :=
  match s.dueAction a.val aRG true with
  | none => .next s
  | some e =>
    .next ((s.retireClose a.val e (s.closeOutcome a.val e)).closeRead (12 * a.val + e.target) e errs)

/-- R129: the sync search ends. A miss is counted; the resync mark is searched where the sector has one and a slot (R152). -/
def execSyncSearchEnd (h : Fin 96) (hard : List Bool) (s : State) : Out :=
  match (s.rdOf h.val).searching 0 with
  | none => .next s
  | some x =>
    .next (match x.search (s.rdOf h.val) false hard with
      | .wait => s
      | .hit ofs k t => s.framed h.val x { x with mark := 2, markOfs := ofs, markTime := t, markFrag := k }
      | .miss => (s.inc (pHCH h.val) HCH.MARK_MISS_CNT).framed h.val x { x with mark := if zResync x.set && x.slot.isSome then 1 else 3 })

/-- R130, R131: the resync search ends. -/
def execResyncSearchEnd (h : Fin 96) (hard : List Bool) (s : State) : Out :=
  match (s.rdOf h.val).searching 1 with
  | none => .next s
  | some x =>
    .next (if x.slot.isNone then s.framed h.val x { x with mark := 3 }
      else match x.search (s.rdOf h.val) true hard with
      | .wait => s
      | .hit ofs k t => s.framed h.val x { x with mark := 2, markOfs := ofs, markTime := t, markSrc := true, markFrag := k }
      | .miss => s.framed h.val x { x with mark := 3 })

/-- R127, R134, R135: a first pass of the newest framed sector, which stops the decoding of an older one, or a further pass
of a sector that still holds its slot, after ITER_PASS iterations of the pass before. -/
def execDetectorPassEnd (h : Fin 96) (llr : List (BitVec 7)) (older : Decoded) (s : State) : Out :=
  let rd := s.rdOf h.val
  let pass := fun (x : RdSector) => { x with passes := x.passes + 1, llr := llr.map (fun l => scaleLlr (zLlr x.set) l.toInt) }
  match rd.dec.find? (fun x => decide (x.mark = 2) && decide (x.passes = 0)) with
  | some x =>
    let s1 := s.setRd h.val { rd with dec := rd.dec.map (fun y => if y = x then pass y else y) }
    .next (s1.each (rd.dec.filter (fun y => decide (0 < y.passes))) (fun s y => s.endDec h.val y
      { status := 8, timeout := true, iters := y.iteration older.iters.toNat, unsat := older.unsat.toNat, data := some older.data }))
  | none =>
    match rd.dec.find? (fun x => decide (0 < x.passes) && x.more) with
    | some x => .next (s.setRd h.val { rd with dec := rd.dec.map (fun y => if y = x then pass y else y) })
    | none => .next s

/-- R134, R136: decoding stops at convergence, or without it after ITER_MAX iterations. A mismatch of the independent checker raises CH FL1, whose fencing ends the sector. -/
def execDecodeEnd (h : Fin 96) (r : Decoded) (s : State) : Out :=
  match (s.rdOf h.val).dec.find? (fun x => decide (0 < x.passes)) with
  | none => .next s
  | some x =>
    let n := x.iteration r.iters.toNat
    if r.conv && !r.checkOk then .next (s.raise (pHCH h.val) 10)
    else if r.conv then
      .next (s.endDec h.val x { status := if payloadCrcOk x.format r.data then (if x.markSrc then 1 else 0) else 9, iters := n, data := some r.data })
    else if x.more then .next s
    else .next (s.endDec h.val x { status := 8, iters := zIterMax x.set, unsat := r.unsat.toNat, data := some r.data })

/-- R141: a pending sector whose next fragment has not opened within 1,048,576 ft of its last close. -/
def execFragmentTimeout (h : Fin 96) (s : State) : Out :=
  .next (s.expireRead h.val s.time)

end Sys2Proof.Machine
end

