-- ==== Sys2Proof/Machine/WritePath.lean ====
section
/-! DEFINITION. The write path and write guarding (R165–R190): write inhibits, write gates, the write queue and FIFO, the cells
of a fragment, sector ends and records, preamp alerts and shocks. -/

namespace Sys2Proof.Machine

def State.wrOf (s : State) (h : Nat) : WrHead := tabGet s.wrh h {}
def State.setWr (s : State) (h : Nat) (v : WrHead) : State := { s with wrh := tabPut s.wrh h v {} }

/-- Cause codes (R188). -/
abbrev wPES : Nat := 1
abbrev wSHOCK : Nat := 2
abbrev wALERT : Nat := 3
abbrev wPREAMP : Nat := 4
abbrev wLINK : Nat := 5
abbrev wACT : Nat := 6
abbrev wDEVICE : Nat := 7
abbrev wSUPPLY : Nat := 8
abbrev wD2D : Nat := 9
abbrev wFORCED : Nat := 0xA
abbrev wUNLOCKED : Nat := 0xB
abbrev wNOZONE : Nat := 0xC
abbrev wNODATA : Nat := 0xD
abbrev wPREFILL : Nat := 0xE
abbrev wUNDERRUN : Nat := 0xF
abbrev wSHORT : Nat := 0x10
abbrev wFRAG : Nat := 0x11
abbrev wFENCED : Nat := 0x12
abbrev wABORTED : Nat := 0x13

def WrSector.stripe (x : WrSector) : Bool := bit x.opts 2
def WrSector.pattern (x : WrSector) : Bool := bit x.opts 3
def WrSector.format (x : WrSector) : Nat := zFormat x.set

/-! ### Inhibits (R178) -/

/-- The causes active for head `h`, ascending. -/
def State.inhibits (s : State) (h : Nat) : List Nat :=
  let a := actOf h
  let k := h % 12
  ([(wPES, bit (s.get (pACT a) ACT.WI_STAT_PES_INH) k), (wSHOCK, s.on (pACT a) ACT.WI_STAT_SHOCK),
    (wALERT, s.on (pACT a) ACT.WI_STAT_ALERT), (wPREAMP, s.on (pHCH h) HCH.WR_INH_FAULT_LATCH), (wLINK, s.fenced (pLNK a)),
    (wACT, s.fenced (pACT a)), (wDEVICE, s.deviceInh), (wSUPPLY, s.supply.isSome), (wD2D, s.d2dLost),
    (wFORCED, bit (s.get (pACT a) ACT.WI_FORCE_MASK) k || s.on (pHCH h) HCH.WR_INH_FORCE)].filter (·.2)).map (·.1)

/-- WI_LAST and WI_LAST_SRC: an inhibit opens on actuator `a`, for arm `k` or for all heads (R190). -/
def State.noteInhibit (s : State) (a cause k : Nat) : State :=
  if s.present (pACT a) then
    ((s.put (pACT a) ACT.WI_LAST s.timeLo).put (pACT a) ACT.WI_LAST_SRC_CAUSE cause).put (pACT a) ACT.WI_LAST_SRC_HEAD k
  else s

/-! ### The write queue (R167, R168) -/

def State.wqSize (s : State) (h : Nat) : Nat := 2 ^ (max 2 (min (s.get (pHCH h) HCH.WQ_SIZE_LOG2) 10))

/-- Descriptors that firmware has made available and no sector has consumed. -/
def State.wqHeld (s : State) (h : Nat) : Nat :=
  let n := s.wqSize h
  (s.get (pHCH h) HCH.WQ_WR + n - s.get (pHCH h) HCH.WQ_RD % n) % n

/-- The descriptor that a read of its 16 bytes gives. -/
def descOf (r : State × Option (List Byte)) : State × Option WrDesc :=
  (r.1, r.2.map (fun b =>
    let d0 := leNat (b.take 4)
    let d1 := leNat ((b.drop 4).take 4)
    { src := bits d0 1 0, addr := bits d0 31 8 * 256 + bits d1 15 0 * 2 ^ 32, sid := bits d1 31 16, tag := leNat (b.drop 8) }))

/-- Fetch the descriptor `i` places behind WQ_RD. -/
def State.fetchDesc (s : State) (h i : Nat) : State × Option WrDesc :=
  let p := pHCH h
  let a := s.get p HCH.WQ_BASE_LO * 16 + s.get p HCH.WQ_BASE_HI * 2 ^ 32 + 16 * ((s.get p HCH.WQ_RD + i) % s.wqSize h)
  descOf (s.bufRead (some (headM h)) a 16)

/-- The stream length of fetched descriptor `i` (R167): that of the set which the sector being written has latched, before the latching
that of the active set (DESIGN CHOICE, log 129). -/
def State.streamLen (s : State) (h i : Nat) : Nat :=
  match (s.wrOf h).sec with
  | some x => streamBytes (if i = 0 ∧ x.pattern = false then x.format else zFormat (s.activeSet h))
  | none => streamBytes (zFormat (s.activeSet h))

/-- The descriptor at WQ_RD is consumed (R168). -/
def State.consumeDesc (s : State) (h : Nat) : State :=
  let w := s.wrOf h
  if s.wqHeld h = 0 then s
  else (s.setWr h { w with descs := w.descs.drop 1 }).put (pHCH h) HCH.WQ_RD ((s.get (pHCH h) HCH.WQ_RD + 1) % s.wqSize h)

/-- The SECTOR_ID of the descriptor at WQ_RD, fetched or as it stands in memory; none where the ring is empty. -/
def State.headSid (s : State) (h : Nat) : Option Nat :=
  if s.wqHeld h = 0 then none
  else match (s.wrOf h).descs with
    | d :: _ => some d.sid
    | [] => (s.fetchDesc h 0).2.map (·.sid)

/-! ### Cells (R171, R176) -/

/-- The first cell whose leading edge lies at or after `t`, for boundary 0 at `t0`: edges at t0 + i · 2^28 / RATE_STEP. -/
def cellAt (rate : Nat) (t0 t : Int) : Nat := ((((t - t0) * rate + (2 ^ 28 - 1)) / 2 ^ 28)).toNat

/-- Leading edge of cell `i`. -/
def cellTime (rate : Nat) (t0 : Int) (i : Nat) : Rat := (t0 : Rat) + ((i * 2 ^ 28 : Nat) : Rat) / (rate : Rat)

/-- WR_OFS of a set (R174). -/
def zWrOfs (set : List Word) : Int := sgn 8 (bits (zW set 15) 7 0)

/-- The plan of a fragment with `n` cells from cell `c`, `rest` codeword and resync symbols to go (R171). -/
def planOf (set : List Word) (isFirst : Bool) (c n rest : Nat) : WrPlan :=
  let lead := if isFirst then zPre set + 32 else zGuard set
  if lead + rest + zPad set ≤ n then { first := c, lead := lead, body := rest, pad := zPad set, ends := true }
  else { first := c, lead := lead, body := n - lead - zPad set, pad := min (zPad set) (n - lead), ends := false }

/-- The instant at which the sector's last pad cell has left the balls. -/
def WrSector.endTime (x : WrSector) (g : WrGate) : Rat :=
  cellTime (zRate x.set) x.start (g.plan.first + g.plan.lead + g.plan.body + g.plan.pad) + (zWrOfs x.set : Rat)

/-- Payload bytes that the cells emitted by now need (R185). -/
def State.bytesNeeded (s : State) (h : Nat) : Nat :=
  match (s.wrOf h).sec with
  | none => 0
  | some x =>
    if x.pattern then 0
    else
      let inGate := match (s.wrOf h).gate with
        | none => 0
        | some g =>
          let started := cellAt (zRate x.set) x.start ((s.time : Int) + 1) - g.plan.first
          min (started - g.plan.lead) g.plan.body
      let pos := x.done + inGate
      let rp := zResyncPos x.set
      let code := if zResync x.set && decide (rp < pos) then max rp (pos - 32) else pos
      min ((code + 7) / 8) (streamBytes x.format)

/-! ### Symbols and transitions (R116, R170, R171, R174–R176) -/

/-- The 2T pattern 0011, from its first 0 (R116; of the guard and the pad: DESIGN CHOICE, log 130). -/
def twoT (i : Nat) : Bool := decide (2 ≤ i % 4)

/-- The information bytes of a codeword: payload, CRC-64, ADDR_TAG (R118, R170). -/
def infoBytes (format : Nat) (payload : List Byte) (tag : Nat) : List Byte :=
  let pl := fitBytes (streamBytes format) payload
  pl ++ internalBytes (crc64 pl) ++ internalBytes tag

/-- Bit `j` of a codeword: k information bits, byte 0 first, most significant bit first, then the parity bits (R116, R117, R170). -/
def codeBit (set : List Word) (info : List Byte) (j : Nat) : Bool :=
  let k := 8 * payloadBytes (zFormat set)
  if j < k then bit ((info[j / 8]?).getD 0).toNat (7 - j % 8) else Config.parityBit (zFormat set) (zCode set) info (j - k)

/-- Symbol `c` of codeword and resync mark (R116). -/
def streamSym (set : List Word) (info : List Byte) (c : Nat) : Bool :=
  let rp := zResyncPos set
  if zResync set = false ∨ c < rp then codeBit set info c
  else if c < rp + 32 then bit (zW set 10) (31 - (c - rp))
  else codeBit set info (c - 32)

/-- The symbol of the fragment's cell `o`, counted from its first (R171); a PATTERN gate carries the 2T pattern throughout (R166). -/
def WrSector.cellSym (x : WrSector) (pl : WrPlan) (info : List Byte) (o : Nat) : Bool :=
  if x.pattern then twoT o
  else if o < pl.lead then
    if x.frags ≤ 1 ∧ zPre x.set ≤ o then bit (zW x.set 9) (31 - (o - zPre x.set)) else twoT o
  else if o < pl.lead + pl.body then streamSym x.set info (x.done + (o - pl.lead))
  else twoT (o - pl.lead - pl.body)

/-- PC1–PC3 and PCN in 1/64 cell; values above 32 act as 32 (R174). -/
def zPc (set : List Word) (n : Nat) : Int := min (bits (zW set 14) (8 * n + 5) (8 * n)) 32
def zPol (set : List Word) : Bool := bit (zW set 16) 0
def zPcEn (set : List Word) : Bool := bit (zW set 16) 1

/-- The shift of a transition in 1/64 cell, late positive (R175): the distance in cells to the previous one, none for the first of a
fragment, and whether the next lies 1 cell after it. -/
def pcShift (set : List Word) (prev : Option Nat) (next : Bool) : Int :=
  if zPcEn set then
    let early := match prev with
      | some 1 => zPc set 0
      | some 2 => zPc set 1
      | some 3 => zPc set 2
      | _ => 0
    max (-32) (min ((if next then zPc set 3 else 0) - early) 32)
  else 0

/-- The cells at whose boundary a transition lies: those whose symbol differs from the one before. -/
def transitions (i : Nat) (prev : Bool) (syms : List Bool) : List Nat :=
  match syms with
  | [] => []
  | b :: r => if b = prev then transitions (i + 1) b r else i :: transitions (i + 1) b r

/-- Transitions with their shifts. -/
def shifts (set : List Word) (prev : Option Nat) (ts : List Nat) : List (Nat × Int) :=
  match ts with
  | [] => []
  | i :: r => (i, pcShift set (prev.map (i - ·)) (decide (r.head? = some (i + 1)))) :: shifts set (some i) r

/-- The edge of cell `i` at the balls, shifted by `d` 64ths of a cell and by WR_OFS (R176); the cell's own boundary is exact (DEDUCED, log 144). -/
def edgeTime (x : WrSector) (i : Nat) (d : Int) : Rat :=
  cellTime (zRate x.set) x.start i + (d : Rat) / 64 * ((2 ^ 28 : Nat) : Rat) / (zRate x.set : Rat) + (zWrOfs x.set : Rat)

/-- The payload and ADDR_TAG that a head writes: those of its first descriptor. -/
def WrHead.info (w : WrHead) (x : WrSector) : List Byte :=
  match w.descs with
  | d :: _ => if x.pattern then [] else infoBytes x.format d.payload d.tag
  | [] => []

/-- The output of a fragment whose cells are emitted up to `stop` (none: to its last), in NRZ levels (R165, R174). -/
def WrHead.output (w : WrHead) (x : WrSector) (g : WrGate) (stop : Option Int) : WrWave :=
  let n := g.plan.lead + g.plan.body + g.plan.pad
  let m := match stop with | some t => min n (cellAt (zRate x.set) x.start t - g.plan.first) | none => n
  let info := w.info x
  let syms := (List.range m).map (x.cellSym g.plan info)
  let first := syms.head?.getD false
  { begins := edgeTime x g.plan.first 0, level := first != zPol x.set,
    edges := (shifts x.set none (transitions 0 first syms)).map (fun e => edgeTime x (g.plan.first + e.1) e.2),
    ends := match stop with | some t => (t : Rat) + (zWrOfs x.set : Rat) | none => edgeTime x (g.plan.first + n) 0 }

/-- The write-data output of head `h` now: none in electrical idle, else the NRZ level (R165). -/
def State.wrLevel (s : State) (h : Nat) : Option Bool :=
  match (s.wrOf h).gate, (s.wrOf h).sec with
  | some g, some x =>
    let w := (s.wrOf h).output x g none
    if w.begins ≤ (s.time : Rat) ∧ (s.time : Rat) < w.ends then
      some (w.level != decide ((w.edges.filter (fun e => decide (e ≤ (s.time : Rat)))).length % 2 = 1))
    else none
  | _, _ => none

/-! ### Records (R186, R187) -/

def wstRing (h : Nat) : Ring :=
  { page := pHCH h, baseLo := { HCH.WST_BASE_LO with lo := 0, wd := 32 }, baseHi := HCH.WST_BASE_HI, log2 := HCH.WST_SIZE_LOG2, lo := 4, hi := 12, wr := HCH.WST_WR, rd := HCH.WST_RD, lost := HCH.WST_LOST, recBytes := 16, fault := 16, pend := 16 }

def WrRec.words (r : WrRec) (seq : Nat) : List Nat :=
  [r.sid + r.cause * 2 ^ 16 + (if r.cause = 0 then 0 else 2 ^ 24) + b2n r.stripe * 2 ^ 25 + b2n r.pattern * 2 ^ 26 + r.frags % 16 * 2 ^ 28,
   r.first, r.dropped, r.zone + r.epoch % 256 * 2 ^ 8 + seq % 65536 * 2 ^ 16]

/-- A write record is released: written to the ring, counted, handed to STP with STRIPE (R186, R197). -/
def State.releaseRec (s : State) (h : Nat) (r : WrRec) : State :=
  let w := s.wrOf h
  let s1 := ((s.setWr h { w with seq := (w.seq + 1) % 65536 }).ringWrite (wstRing h) (some (headM h)) (r.words w.seq)).1
  let s2 := if r.cause = 0 then s1.inc (pHCH h) HCH.WSECT_CNT else (s1.inc (pHCH h) HCH.WABORT_CNT).irq (pHCH h) 17
  let s3 := s2.put (pHCH h) HCH.WR_STAT_LAST_CAUSE r.cause
  if r.stripe && s3.present pSTP then
    { s3 with stpIn := s3.stpIn ++ [{ head := h, sid := r.sid, write := true, status := if r.cause = 0 then 1 else 0, final := true, land := 0xFFFF, time := r.first, driven := decide (r.frags ≠ 0) }] }
  else s3

/-- Where the next write record goes, none while the ring is full. -/
def State.recPlace (s : State) (h : Nat) : Option Nat :=
  let r := wstRing h
  if s.ringFull r then none else some (s.addr48 r.page r.baseLo r.baseHi + r.recBytes * (s.get r.page r.wr % s.ringSize r))

def State.alertOf (s : State) (a : Nat) : Nat := tabGet s.alertSt a 0
def State.setAlert (s : State) (a v : Nat) : State := { s with alertSt := tabPut s.alertSt a v 0 }

/-- A write sector ends (R168, R182, R186): its gate goes idle, its descriptor is consumed where it names one, its record is
written, or held while an alert of its actuator is unanswered. -/
def State.endWrite (s : State) (h : Nat) (x : WrSector) (cause dropped : Nat) (named : Bool) : State :=
  let w := s.wrOf h
  let r : WrRec := { sid := x.sid, cause := cause, stripe := x.stripe, pattern := x.pattern, frags := x.frags, first := if x.frags = 0 then 0 else (x.start % 2 ^ 32).toNat, dropped := dropped % 2 ^ 32, zone := x.zone, epoch := x.epoch }
  let s0 := s.setWr h { w with gate := none, sec := none, wave := (match w.gate with | some g => w.output x g (if cause = 0 then none else some s.time) | none => w.wave) }
  let s1 := if w.gate.isSome && (s.rdOf h).gate.isNone then s0.afeSleep h else s0
  let s2 := if named && !x.pattern then s1.consumeDesc h else s1
  if x.alert && decide (s2.alertOf (actOf h) = 1) then s2.setWr h { s2.wrOf h with held := (s2.wrOf h).held ++ [r] }
  else s2.releaseRec h r

/-- The driving or pending sector ends WRITE_ABORTED now. -/
def State.abortWrite (s : State) (h cause : Nat) : State :=
  match (s.wrOf h).sec with
  | none => s
  | some x => s.endWrite h x cause s.timeLo true

/-- A gate is dropped by inhibit `c`. -/
def State.cutWrite (s : State) (h c : Nat) : State :=
  let place := match (s.wrOf h).sec with
    | some x => if x.alert && decide (s.alertOf (actOf h) = 1) then none else s.recPlace h
    | none => none
  let s1 := s.abortWrite h c
  s1.setWr h { s1.wrOf h with cut := (s.time / fclkSub + 1, c, place) }

/-- The record of a gate dropped in this FCLK cycle names the lowest cause that has acted in it (R181). -/
def State.amendCut (s : State) (h : Nat) : State :=
  let w := s.wrOf h
  match s.inhibits h with
  | c :: _ =>
    if w.cut.1 = s.time / fclkSub + 1 ∧ c < w.cut.2.1 then
      let amend := fun (r : WrRec) => if r.cause = w.cut.2.1 then { r with cause := c } else r
      let s1 := s.setWr h { w with cut := (w.cut.1, c, w.cut.2.2), held := w.held.take (w.held.length - 1) ++ (w.held.drop (w.held.length - 1)).map amend }
      let s2 := match w.cut.2.2 with | some a => s1.store (a + 2) 1 c | none => s1
      if s2.get (pHCH h) HCH.WR_STAT_LAST_CAUSE = w.cut.2.1 then s2.put (pHCH h) HCH.WR_STAT_LAST_CAUSE c else s2
    else s
  | [] => s

/-- Drop the driven gates on which an inhibit acts; a gate that R183 lets run is not dropped for SUPPLY (R178, R181, R183). -/
def State.dropGates (s : State) : State :=
  s.each (s.wrh.map (·.1)) (fun s h =>
    match (s.wrOf h).gate with
    | none => s.amendCut h
    | some g =>
      match (s.inhibits h).filter (fun c => !(g.kept && decide (c = wSUPPLY))) with
      | c :: _ => s.cutWrite h c
      | [] => s)

/-- The supply-loss decision acts on the write path (R183). -/
def State.supplyGates (s : State) (td : Nat) : State :=
  let s1 := s.each (s.wrh.map (·.1)) (fun s h =>
    let w := s.wrOf h
    match w.gate, w.sec with
    | some g, some x =>
      let t := x.endTime g
      let keep := g.plan.ends && decide ((td : Rat) ≤ t) && decide (t < ((td + 14400 * 64 : Nat) : Rat))
      s.setWr h { w with gate := some { g with kept := keep } }
    | _, _ => s)
  { s1 with supply := some td }.dropGates

/-! ### Opens (R166, R169, R171, R172, R184) -/

/-- The sets agree for a continuation (R172). -/
def sameWriteSet (u v : List Word) : Bool :=
  decide (bits (zW u 0) 30 27 = bits (zW v 0) 30 27) && ([1, 8, 9, 10, 11, 14, 15, 16] : List Nat).all (fun i => decide (zW u i = zW v i))

/-- A new write sector. -/
def newWrite (e : Entry) (set : List Word) (zone epoch : Nat) : WrSector :=
  { sid := e.arg % 65536, opts := bits e.arg 31 16, set := set, zone := zone, epoch := epoch }

/-- The open is not driven: a first or whole fragment ends a pending sector (FRAG) and its own with the cause; a continuation
ends the pending sector it belongs to; an orphan is counted (R172, R184). -/
def State.notDriven (s : State) (h : Nat) (e : Entry) (cause : Nat) : State :=
  let p := pHCH h
  let t := (e.t % 2 ^ 32).toNat
  let frag := bits e.arg 17 16
  if frag = 0 ∨ frag = 1 then
    let s1 := s.abortWrite h wFRAG
    let x := newWrite e (s1.activeSet h) (s1.get p HCH.ZPT_SEL_ZONE) (s1.epochOf p)
    s1.endWrite h x cause t (decide (cause ≠ wNODATA) && decide (s1.headSid h = some x.sid))
  else
    match (s.wrOf h).sec with
    | some x =>
      if x.sid = e.arg % 65536 then s.endWrite h x cause t true
      else (s.abortWrite h wFRAG).inc p HCH.ORPHAN_CNT
    | none => s.inc p HCH.ORPHAN_CNT

/-- The gate is driven with plan `pl`. -/
def State.driveGate (s : State) (h : Nat) (e : Entry) (x : WrSector) (pl : WrPlan) : State :=
  let g : WrGate := { opened := e.t, closes := e.c, plan := pl }
  (s.gateWake h e.t.toNat).setWr h { (s.wrOf h) with gate := some g, sec := some { x with frags := x.frags + 1, alert := x.alert || decide (s.alertOf (actOf h) ≠ 0) } }

/-- The checks of R169 and R171 on a whole or first fragment that the guards let through, no sector pending. A PATTERN that is no whole
fragment is not driven, cause FRAG (DEDUCED, log 145). -/
def State.startWrite (s : State) (h : Nat) (e : Entry) (set : List Word) : State :=
  let p := pHCH h
  let whole := decide (bits e.arg 17 16 = 0)
  let x := { newWrite e set (s.get p HCH.ZPT_SEL_ZONE) (s.epochOf p) with start := e.t }
  let n := cellAt (zRate set) e.t e.c
  if x.pattern then
    if whole then s.driveGate h e x { first := 0, lead := 0, body := n, pad := 0, ends := true }
    else s.notDriven h e wFRAG
  else
    match (s.wrOf h).descs with
    | [] => if s.headSid h = some x.sid then (s.notDriven h e wPREFILL).raise p 22 else s.notDriven h e wNODATA
    | d :: _ =>
      if d.sid ≠ x.sid then s.notDriven h e wNODATA
      else if d.payload.length < min (max 8 (s.get p HCH.WR_CTRL_PREFILL) * 64) (streamBytes x.format) then (s.notDriven h e wPREFILL).raise p 22
      else
        let pl := planOf set true 0 n (streamSyms set)
        if whole && !pl.ends then s.notDriven h e wSHORT
        else s.driveGate h e x pl

/-- A whole or first fragment that the guards let through: a pending sector ends first, and its descriptor is consumed (R172). -/
def State.openWriteFirst (s : State) (h : Nat) (e : Entry) (set : List Word) : State := (s.abortWrite h wFRAG).startWrite h e set

/-- A continuation fragment that the guards let through. -/
def State.openWriteNext (s : State) (h : Nat) (e : Entry) (set : List Word) : State :=
  match (s.wrOf h).sec with
  | none => s.notDriven h e wFRAG
  | some x =>
    if x.sid ≠ e.arg % 65536 then s.notDriven h e wFRAG
    else if 8 ≤ x.frags ∨ sameWriteSet x.set set = false ∨ x.pattern = true then s.notDriven h e wFRAG
    else
      let c := cellAt (zRate set) x.start e.t
      let n := cellAt (zRate set) x.start e.c - c
      let pl := planOf set false c n (streamSyms set - x.done)
      if decide (bits e.arg 17 16 = 3) && !pl.ends then s.notDriven h e wSHORT else s.driveGate h e x pl

/-- A pending sector whose next fragment has not opened before `t`, at the limit of R172 or later, ends FRAG. -/
def State.expireWrite (s : State) (h : Nat) (t : Int) : State :=
  let w := s.wrOf h
  match w.gate, w.sec with
  | none, some x => if (x.lastClose : Int) + 1048576 * 64 ≤ t then s.abortWrite h wFRAG else s
  | _, _ => s

/-- A write gate's open (R184): the state and the Drill outcome. A head channel that is powered and not enabled drives nothing: its
sector ends ABORTED where no earlier check names a cause (DESIGN CHOICE, log 131); one without power keeps no record. -/
def State.openWrite (s : State) (a : Nat) (e : Entry) : State × Nat :=
  let h := 12 * a + e.target
  let p := pHCH h
  let s1 := ((s.settle p e.t.toNat).cutBg h e.t).expireWrite h e.t
  let end_ := fun (c : Nat) => if s1.powered p then s1.notDriven h e c else s1
  if s1.fenced p then (end_ wFENCED, 3)
  else if s1.fenced (pACT a) then (end_ wACT, 3)
  else if s1.trkState ≠ 3 then (end_ wUNLOCKED, 6)
  else
    match s1.inhibits h with
    | c :: _ => (end_ c, 8)
    | [] =>
      if !s1.running p then (end_ wABORTED, 0)
      else
      let set := s1.activeSet h
      if !setValid set then (s1.notDriven h e wNOZONE, 0)
      else if bits e.arg 17 16 = 0 ∨ bits e.arg 17 16 = 1 then (s1.openWriteFirst h e set, 0)
      else (s1.openWriteNext h e set, 0)

/-- A write gate's close: a fragment that does not end the sector leaves it pending (R171); no gate is open any more (R94). -/
def State.closeWrite (s : State) (h : Nat) (e : Entry) : State :=
  let w := s.wrOf h
  match w.gate, w.sec with
  | some g, some x =>
    if g.opened = e.t ∧ g.plan.ends = false then
      (s.setWr h { w with gate := none, sec := some { x with done := x.done + g.plan.body, lastClose := e.c.toNat }, wave := w.output x g none }).afeSleep h
    else s
  | none, _ => if (s.rdOf h).gate.isNone then s.afeSleep h else s
  | _, _ => s

/-! ### Streaming (R168, R198) -/

/-- Stripe `i` is OPEN and a write stripe. -/
def State.openWriteStripe (s : State) (i : Nat) : Bool :=
  decide (s.get pSTP (STP.STRIPE_STAT_STATE i) = 1) && bit (s.stpDesc i 0) 2

/-- The OPEN write stripe to which head `h` and a SECTOR_ID belong, with the member's position. -/
def State.writeStripeOf (s : State) (h sid : Nat) : Option (Nat × Nat) :=
  ((List.range 64).find? (fun i => s.openWriteStripe i && s.stpHolds i h sid)).map (fun i => (i, h % 12))

def State.stripe (s : State) (i : Nat) : Stripe := tabGet s.stripes i {}
def State.setStripe (s : State) (i : Nat) (v : Stripe) : State := { s with stripes := tabPut s.stripes i v {} }

/-- Parity positions of stripe `i` (R191). -/
def State.stpParity (s : State) (i : Nat) : List Nat :=
  if bits (s.stpDesc i 0) 1 0 = 1 then [bits (s.stpDesc i 0) 19 16, bits (s.stpDesc i 0) 23 20]
  else if bits (s.stpDesc i 0) 1 0 = 2 then [bits (s.stpDesc i 0) 19 16] else []

/-- Data positions of stripe `i`, ascending; the place in the list is the data index (R191). -/
def State.stpData (s : State) (i : Nat) : List Nat := (List.range 12).filter (fun k => !(s.stpParity i).contains k)

/-- The fetched descriptors of member `k` of stripe `i` at its head. -/
def State.memberDescs (s : State) (i k : Nat) : List WrDesc :=
  (s.wrOf (12 * bits (s.stpDesc i 0) 10 8 + k)).descs.filter (fun d => decide (d.sid = (bits (s.stpDesc i 1) 15 0 + k) % 65536))

/-- What BFM has served of data member `k`: its payload address and bytes; none where its descriptor has not reached its head. -/
def Stripe.served (x : Stripe) (k : Nat) : Option (Nat × List Byte) := (x.feed.find? (fun e => decide (e.1 = k))).map (·.2)

/-- BFM has served further bytes of data member `k`. -/
def State.serve (s : State) (i k : Nat) (b : List Byte) : State :=
  let x := s.stripe i
  s.setStripe i { x with feed := x.feed.map (fun e => if e.1 = k then (k, e.2.1, e.2.2 ++ b) else e) }

/-- Parity member `k` has taken `n` bytes from STP. -/
def State.take (s : State) (i k n : Nat) : State :=
  let x := s.stripe i
  s.setStripe i { x with took := tabPut x.took k (tabGet x.took k 0 + n) 0 }

/-- Multiplication by g = 0x02 in GF(2^8) under 0x11D (R192). -/
def gfTwice (x : Nat) : Nat := if 128 ≤ x then Nat.xor (x * 2) 0x11D else x * 2

/-- Multiplication in GF(2^8) (R192). -/
def gfMul (x y : Nat) : Nat :=
  ((List.range 8).foldl (fun (acc : Nat × Nat) i => (if bit y i then Nat.xor acc.1 acc.2 else acc.1, gfTwice acc.2)) (0, x)).1

/-- g to the power `i`. -/
def gfPow (i : Nat) : Nat := (List.range i).foldl (fun x _ => gfTwice x) 1

/-- The inverse of a non-zero element: its 254th power. -/
def gfInv (x : Nat) : Nat := (List.range 253).foldl (fun acc _ => gfMul acc x) x

/-- XOR of byte lists. -/
def xorBytes (u v : List Byte) : List Byte := List.zipWith (· ^^^ ·) u v

/-- A byte list times a field element. -/
def gfScale (c : Nat) (u : List Byte) : List Byte := u.map (fun b => BitVec.ofNat 8 (gfMul b.toNat c))

/-- P over data members given by data index (R192), `n` bytes each. -/
def parityP (n : Nat) (ds : List (Nat × List Byte)) : List Byte := ds.foldl (fun acc d => xorBytes acc (fitBytes n d.2)) (List.replicate n 0)

/-- Q over data members given by data index (R192). -/
def parityQ (n : Nat) (ds : List (Nat × List Byte)) : List Byte :=
  ds.foldl (fun acc d => xorBytes acc (gfScale (gfPow d.1) (fitBytes n d.2))) (List.replicate n 0)

/-- Included data members of stripe `i` with their data indexes. -/
def State.stpDataIdx (s : State) (i : Nat) : List (Nat × Nat) :=
  ((List.range 12).zip (s.stpData i)).filter (fun e => !bit (s.stpDesc i 1) (16 + e.2))

/-- The descriptors of head `h` that reach it as data members of an OPEN write stripe. -/
def State.noteFeed (s : State) (h : Nat) : State :=
  s.each ((s.wrOf h).descs.filter (fun d => decide (d.src = 0))) (fun s d =>
    match s.writeStripeOf h d.sid with
    | some (i, k) =>
      let x := s.stripe i
      if (s.stpData i).contains k && (x.served k).isNone then s.setStripe i { x with feed := x.feed ++ [(k, d.addr, [])] } else s
    | none => s)

/-- BFM goes on serving, up to byte `n`, the data members whose sector has ended, so that the others and parity continue (R26). -/
def State.serveEnded (s : State) (i n : Nat) : State :=
  s.each (s.stpDataIdx i) (fun s e =>
    match (s.stripe i).served e.2 with
    | some (a, b) =>
      if (s.memberDescs i e.2).isEmpty && decide (b.length < n) then
        (match s.bufRead (some (headM (12 * bits (s.stpDesc i 0) 10 8 + e.2))) (a + b.length) (n - b.length) with
        | (s1, some c) => s1.serve i e.2 c
        | (s1, none) => s1)
      else s
    | none => s)

/-- The parity bytes [o, o + n) for parity position `k` of stripe `i`, once BFM has served them of every included data member (R25, R26,
R198). -/
def State.parityBeat (s : State) (i k o n : Nat) : Option (List Byte) :=
  let ms := (s.stpDataIdx i).map (fun e => (e.1, (((s.stripe i).served e.2).map (·.2)).getD []))
  if !(s.stpParity i).contains k then none
  else if ms.all (fun e => decide (o + n ≤ e.2.length)) then
    let cut := ms.map (fun e => (e.1, (e.2.drop o).take n))
    some (if (s.stpParity i).head? = some k then parityP n cut else parityQ n cut)
  else none

/-- A data member of an OPEN write stripe takes its next beat in lockstep: every included data member's descriptor has
reached its head and none is behind (R198). -/
def State.lockstep (s : State) (i o : Nat) : Bool :=
  (s.stpDataIdx i).all (fun e => match (s.stripe i).served e.2 with | some b => decide (o ≤ b.2.length) | none => false)

/-- Bytes in the write FIFO (R168, R189). -/
def State.wfifo (s : State) (h : Nat) : Nat :=
  (((s.wrOf h).descs.map (fun d => d.payload.length)).sum) - s.bytesNeeded h

/-- Replace the payload of descriptor `i`. -/
def State.putPayload (s : State) (h i : Nat) (b : List Byte) : State :=
  let w := s.wrOf h
  s.setWr h { w with descs := w.descs.mapIdx (fun j d => if j = i then { d with payload := d.payload ++ b } else d) }

/-- One beat for descriptor `i` of the head: from buffer memory, in lockstep for a data member of an OPEN write stripe, or from STP (R168,
R198). A reserved SRC gives no beats (DESIGN CHOICE, log 146). -/
def State.fillBeat (s : State) (h i : Nat) (d : WrDesc) (n : Nat) : State :=
  let o := d.payload.length
  if 16384 < s.wfifo h + n then s
  else if d.src = 0 then
    match (s.writeStripeOf h d.sid).filter (fun y => (s.stpData y.1).contains y.2) with
    | some (j, k) =>
      let s0 := s.serveEnded j (o + n)
      if s0.lockstep j o then
        match s0.bufRead (some (headM h)) (d.addr + o) n with
        | (s1, some b) => (s1.putPayload h i b).serve j k b
        | (s1, none) => s1
      else s0
    | none =>
      match s.bufRead (some (headM h)) (d.addr + o) n with
      | (s1, some b) => s1.putPayload h i b
      | (s1, none) => s1
  else if d.src = 1 then
    match s.writeStripeOf h d.sid with
    | some (j, k) =>
      let s0 := s.serveEnded j (o + n)
      match s0.parityBeat j k o n with
      | some b => (s0.putPayload h i b).take j k b.length
      | none => s0
    | none => s
  else s

/-- Fetch the next descriptor that is waiting and not yet fetched. -/
def State.fetchNext (s : State) (h : Nat) : State :=
  let w := s.wrOf h
  if w.descs.length < min 2 (s.wqHeld h) then
    match s.fetchDesc h w.descs.length with
    | (s1, some d) => (s1.setWr h { (s1.wrOf h) with descs := (s1.wrOf h).descs ++ [d] }).noteFeed h
    | (s1, none) => s1
  else s

/-! ### Alerts (R113, R182) and links -/

/-- Records held for an alert are released, those of head `bad` as WRITE_ABORTED with `cause` (R182). -/
def State.releaseHeld (s : State) (a : Nat) (bad : Nat → Bool) (cause : Nat) : State :=
  s.each ((List.range 12).map (fun k => 12 * a + k)) (fun s h =>
    let w := s.wrOf h
    (s.setWr h { w with held := [] }).each w.held (fun s r =>
      s.releaseRec h (if bad h then { r with cause := cause, dropped := s.timeLo } else r)))

/-- The alert of actuator `a` is over: its inhibit ends, and the sectors of its heads are no more held for it. -/
def State.alertOver (s : State) (a : Nat) : State :=
  ((s.setAlert a 0).put (pACT a) ACT.WI_STAT_ALERT 0).each ((List.range 12).map (fun k => 12 * a + k)) (fun s h =>
    let w := s.wrOf h
    s.setWr h { w with sec := w.sec.map (fun x => { x with alert := false }) })

/-- LNKa stores the reply to its STATUS_REQ (R113, R182). -/
def State.alertReply (s : State) (a head status : Nat) : State :=
  let p := pLNK a
  let s1 := ((s.put p LNK.ALERT_STAT_LAST_STATUS status).put p LNK.ALERT_STAT_LAST_HEAD head).irq p 1
  let s2 := s1.each ([1, 2, 3, 4].filter (bit status)) (fun s _ => s.raise p 3)
  let h := 12 * a + head
  let wf := bit status 0 && decide (head < 12)
  let s3 := if wf then ((s2.put (pHCH h) HCH.WR_INH_FAULT_LATCH 1).raise (pHCH h) 18).noteInhibit a wPREAMP head else s2
  let s4 := s3.alertOver a
  (s4.dropGates).releaseHeld a (fun x => wf && decide (x = h)) wPREAMP

/-- LNKa is fenced: its work drops, held records become aborted with LINK, the 12 heads are inhibited (R111, R182, R536). -/
def State.linkFenced (s : State) (a : Nat) : State :=
  let s1 := ((s.linkDrop a 3).alertOver a).noteInhibit a wLINK 0xF
  let s2 := (s1.dropGates).releaseHeld a (fun _ => true) wLINK
  s2.removeEntries a (fun e => decide (e.action = aHEAT) || decide (e.action = aPRE)) 3

/-! ### Meanings -/

/-- R184: a write gate's open launches. -/
def execWgOpen (a : Fin 8) (s : State) : Out :=
  match s.dueAction a.val aWG false with
  | none => .next s
  | some e =>
    let r := s.openWrite a.val e
    .next (r.1.retireOpen a.val e r.2)

/-- R171, R84, R87: a write gate's close launches. -/
def execWgClose (a : Fin 8) (s : State) : Out :=
  match s.dueAction a.val aWG true with
  | none => .next s
  | some e => .next ((s.retireClose a.val e (s.closeOutcome a.val e)).closeWrite (12 * a.val + e.target) e)

/-- R167, R168: a write of WQ_WR; the head channel fetches the descriptor at WQ_RD. An index beyond the ring acts modulo its size (DESIGN
CHOICE, log 146). -/
def execWqWr (m : Master) (h : Fin 96) (v : Word) (s : State) : Out :=
  .next (s.regCmd m (pHCH h.val) 0x210 (fun s =>
    let s1 := s.put (pHCH h.val) HCH.WQ_WR (v.toNat % s.wqSize h.val)
    if s1.running (pHCH h.val) then s1.fetchNext h.val else s1))

/-- R168: a payload beat arrives for the descriptor at WQ_RD, or for the next once that payload is complete. -/
def execWriteFifoFill (h : Fin 96) (s : State) : Out :=
  if s.running (pHCH h.val) then
    let s1 := s.fetchNext h.val
    let len := s1.streamLen h.val 0
    let len2 := s1.streamLen h.val 1
    match (s1.wrOf h.val).descs with
    | [] => .next s1
    | d :: r =>
      if d.payload.length < len then .next (s1.fillBeat h.val 0 d (min 64 (len - d.payload.length)))
      else match r with
        | [] => .next s1
        | d2 :: _ => if d2.payload.length < len2 then .next (s1.fillBeat h.val 1 d2 (min 64 (len2 - d2.payload.length))) else .next s1
  else .next s

/-- R185: the synthesizer reaches a cell whose payload is not in the FIFO. -/
def execUnderrun (h : Fin 96) (s : State) : Out :=
  let w := s.wrOf h.val
  let have_ := match w.descs with | d :: _ => d.payload.length | [] => 0
  match w.gate with
  | some _ =>
    if have_ < s.bytesNeeded h.val then .next (((s.abortWrite h.val wUNDERRUN).inc (pHCH h.val) HCH.UNDERRUN_CNT).raise (pHCH h.val) 17)
    else .next s
  | none => .next s

/-- R171, R186: the sector's last pad cell has left the balls; the sector ends WRITTEN. -/
def execWriteSectorEnd (h : Fin 96) (s : State) : Out :=
  let w := s.wrOf h.val
  match w.gate, w.sec with
  | some g, some x =>
    if g.plan.ends = true ∧ x.endTime g ≤ (s.time : Rat) then
      let s1 := s.endWrite h.val x 0 0 true
      .next (s1.setWr h.val { s1.wrOf h.val with out := w.info x })
    else .next s
  | _, _ => .next s

/-- R172: a pending write sector whose next fragment has not opened within 1,048,576 ft of its last close. -/
def execWriteFragmentTimeout (h : Fin 96) (s : State) : Out := .next (s.expireWrite h.val s.time)

/-- R178, R182: a write of 1 to WR_INH.FAULT_LATCH. -/
def execFaultLatchClear (m : Master) (h : Fin 96) (s : State) : Out :=
  .next (s.regCmd m (pHCH h.val) 0x230 (fun s => s.put (pHCH h.val) HCH.WR_INH_FAULT_LATCH 0))

/-- Now is an instant at which shock input `n` is sampled: a tick that is a multiple of 2,400 (R284). -/
def State.shockSample (s : State) (n : Nat) : Bool := decide (s.time % usSub = 0) && decide (n < 4)

/-- No shock sensor is above its threshold any more: the interval's hint windows, and each actuator's inhibit runs on for its SHOCK_HOLD
(R153, R180). -/
def State.shockOver (s : State) : State :=
  (s.shockHints s.shockSince s.time).each ((List.range 8).filter s.part.hasAct) (fun s a =>
    { s with shockEnd := tabPut s.shockEnd a (s.time + s.get (pACT a) ACT.WI_CFG_SHOCK_HOLD * 256 * 64 + 1) 0 })

/-- R180, R284, R153: a comparator sample of an enabled input at or below the threshold. SHOCK_PEAK follows every sample (R286). -/
def execShockRelease (n : Fin 4) (mag : BitVec 10) (s : State) : Out :=
  let s0 := if s.shockSample n.val = true then s.putMax pMOT (MOT.SHOCK_PEAK n.val) mag.toNat else s
  if s.shockSample n.val = true ∧ bit (s.get pMOT MOT.SHOCK_CFG_EN) n.val ∧ bit (s.get pMOT MOT.SHOCK_STAT_ABOVE) n.val ∧
      mag.toNat ≤ s.get pMOT (MOT.SHOCK_THR n.val) then
    let s1 := s0.put pMOT MOT.SHOCK_STAT_ABOVE (withBit (s.get pMOT MOT.SHOCK_STAT_ABOVE) n.val false)
    .next (if s1.get pMOT MOT.SHOCK_STAT_ABOVE = 0 then s1.shockOver else s1)
  else .next s0

/-- R180: SHOCK_HOLD × 256 ft after the last sensor fell, the shock inhibit of an actuator closes. -/
def execShockHoldEnd (a : Fin 8) (s : State) : Out :=
  let t := tabGet s.shockEnd a.val 0
  if t ≠ 0 ∧ t ≤ s.time + 1 then
    .next ({ s with shockEnd := tabPut s.shockEnd a.val 0 0 }.put (pACT a.val) ACT.WI_STAT_SHOCK 0)
  else .next s

/-- R113, R182: a rise of AALERT. -/
def execAalertRise (a : Fin 8) (s : State) : Out :=
  let p := pLNK a.val
  let l := s.lnkOf a.val
  let s1 := (s.put p LNK.ALERT_STAT_LEVEL 1).setLnk a.val { l with alertAt := s.time, alert := l.alert || (s.linkState a.val = 2 && !s.on p LNK.ALERT_STAT_MASKED) }
  if s.on p LNK.ALERT_STAT_MASKED || decide (s.linkState a.val = 3) then .next s1
  else
    let inh := s.on (pACT a.val) ACT.WI_CFG_ALERT_INH
    let s2 := s1.setAlert a.val (if inh then 2 else 1)
    if inh then .next (((s2.put (pACT a.val) ACT.WI_STAT_ALERT 1).noteInhibit a.val wALERT 0xF).dropGates)
    else .next (s2.each ((List.range 12).map (fun k => 12 * a.val + k)) (fun s h =>
      let w := s.wrOf h
      match w.gate, w.sec with
      | some _, some x => s.setWr h { w with sec := some { x with alert := true } }
      | _, _ => s))

/-- R113: AALERT high for 1 ms sets MASKED and raises LNK FL0; a masked AALERT causes no inhibit (R182). A STATUS_REQ that waits for the link
is still sent (DESIGN CHOICE, log 125). -/
def execAlertStuck (a : Fin 8) (s : State) : Out :=
  let p := pLNK a.val
  if s.on p LNK.ALERT_STAT_LEVEL && !s.on p LNK.ALERT_STAT_MASKED && decide ((s.lnkOf a.val).alertAt + 2400000 * 64 ≤ s.time) then
    .next ((((s.put p LNK.ALERT_STAT_MASKED 1).raise p 2).put (pACT a.val) ACT.WI_STAT_ALERT 0).setAlert a.val (if s.alertOf a.val = 1 then 1 else 0))
  else .next s

/-- R109, R110, R113: a response frame arrives while the link is UP. -/
def execResponseFrame (a : Fin 8) (typ : BitVec 2) (head : BitVec 4) (seq : BitVec 2) (reg data : BitVec 8) (crcOk high : Bool) (s : State) : Out :=
  let p := pLNK a.val
  let _ := reg
  if s.linkState a.val ≠ 2 then .next s
  else
    let s0 := s.putB p LNK.ALERT_STAT_LEVEL high
    if crcOk = false then .next (s0.inc p LNK.CRC_ERR_CNT)
    else
      let l := s0.lnkOf a.val
      match l.unans with
      | t :: r =>
        if typ.toNat ≠ 3 ∧ seq.toNat = t.seq then
          let s1 := s0.setLnk a.val { l with unans := r }
          if typ.toNat = 2 then .next ((s1.inc p LNK.NAK_CNT).retransmit a.val t)
          else match t.source with
            | .page =>
              .next ((if typ.toNat = 1 then s1.put p LNK.CMD_STAT_DATA data.toNat else s1).pageFrameEnd a.val 0)
            | .drill => .next s1
            | .alert => .next (s1.alertReply a.val head.toNat data.toNat)
        else .next ((s0.inc p LNK.UNSOL_CNT).irq p 3)
      | [] => .next ((s0.inc p LNK.UNSOL_CNT).irq p 3)

end Sys2Proof.Machine
end

