-- ==== Sys2Proof/Machine/StripeParity.lean ====
section
/-! DEFINITION. Surface stripe parity (R191–R209): stripe descriptors, members and their records, rebuild, stripe records. -/

namespace Sys2Proof.Machine

/-- STRIPE_STATi.STATE (R196): 0 IDLE, 1 OPEN, 2 READY, 3 REBUILD, 4 DONE. -/
def State.stripeState (s : State) (i : Nat) : Nat := s.get pSTP (STP.STRIPE_STAT_STATE i)

/-- Q_STAT (R209). -/
def State.noteStp (s : State) : State :=
  let n := fun k => ((List.range 64).filter (fun i => s.stripeState i = k)).length
  ((s.put pSTP STP.Q_STAT_OPEN (n 1)).put pSTP STP.Q_STAT_READY (n 2)).put pSTP STP.Q_STAT_BUSY (min 1 (n 3))

def State.setStripeState (s : State) (i st : Nat) : State := (s.put pSTP (STP.STRIPE_STAT_STATE i) st).noteStp

/-- Descriptor fields (R194). -/
def State.stpGeom (s : State) (i : Nat) : Nat := bits (s.stpDesc i 0) 1 0
def State.stpWrite (s : State) (i : Nat) : Bool := bit (s.stpDesc i 0) 2
def State.stpVerify (s : State) (i : Nat) : Bool := bit (s.stpDesc i 0) 3
def State.stpFormat (s : State) (i : Nat) : Nat := bits (s.stpDesc i 0) 4 4
def State.stpAct (s : State) (i : Nat) : Nat := bits (s.stpDesc i 0) 10 8
def State.stpSid (s : State) (i : Nat) : Nat := bits (s.stpDesc i 1) 15 0
def State.stpExcl (s : State) (i : Nat) : Nat := bits (s.stpDesc i 1) 27 16
def State.stpDest (s : State) (i : Nat) : Nat := bits (s.stpDesc i 2) 31 8 * 256 + bits (s.stpDesc i 3) 15 0 * 2 ^ 32

/-- Positions of a mask. -/
def maskList (m : Nat) : List Nat := (List.range 12).filter (bit m)

/-- Every included member is decided. -/
def State.allDecided (s : State) (i : Nat) : Bool := (s.stpIncluded i).all (bit (s.stripe i).decided)

def State.stpRing (_ : State) : Ring :=
  { page := pSTP, baseLo := { STP.RING_BASE_LO with lo := 0, wd := 32 }, baseHi := STP.RING_BASE_HI, log2 := STP.RING_SIZE_LOG2, lo := 4, hi := 12, wr := STP.RING_WR, rd := STP.RING_RD, lost := STP.RING_LOST, recBytes := 32, fault := 1, pend := 0 }

/-- The spread of wrapped 32-bit times (R199). -/
def spread (ts : List Nat) : Nat :=
  match ts with
  | [] => 0
  | t :: _ =>
    let ds := ts.map (fun x => (BitVec.ofNat 32 x - BitVec.ofNat 32 t).toInt)
    (ds.foldl max 0 - ds.foldl min 0).toNat

/-- What a rebuild adds to a stripe's record. -/
structure StripeEnd where
  status : Nat
  rebuilt : Nat := 0
  offset : Nat := 0
  pBad : Bool := false
  qBad : Bool := false
deriving DecidableEq, Repr

/-- A stripe ends: its record, counters and interrupts (R203, R207–R209). -/
def State.endStripe (s : State) (i : Nat) (r : StripeEnd) : State :=
  let x := s.stripe i
  let ws : List Nat := [i + b2n (s.stpWrite i) * 64 + r.status * 2 ^ 8 + s.stpAct i * 2 ^ 16, x.lost + r.rebuilt * 2 ^ 16, x.tmo + s.stpExcl i * 2 ^ 16,
    s.stpSid i + s.stpSeq % 65536 * 2 ^ 16, s.timeLo, if s.stpWrite i then min (spread x.times) (2 ^ 24 - 1) else 0,
    r.offset + b2n r.pBad * 2 ^ 14 + b2n r.qBad * 2 ^ 15, 0]
  let s1 := { s with stpSeq := (s.stpSeq + 1) % 65536, stpReady := s.stpReady.filter (fun j => j ≠ i) }
  let s2 := match s1.ringWrite s1.stpRing (some .stp) ws with
    | (t, true) => t
    | (t, false) => t.irq pSTP 4
  let s3 := (s2.put pSTP (STP.STRIPE_STAT_DECIDED i) x.decided).setStripeState i 4
  let s4 := if s.stpWrite i && decide (r.status ≠ 0) then s3.inc pSTP STP.WINC_CNT else s3
  match r.status with
  | 0x11 => s4.inc pSTP STP.REBUILT_CNT
  | 0x13 => (s4.inc pSTP STP.INCONS_CNT).irq pSTP 3
  | 0x14 => (s4.inc pSTP STP.UNREC_CNT).irq pSTP 2
  | _ => s4

/-- Losses that a geometry rebuilds (R191). -/
def geomLosses (g : Nat) : Nat := if g = 1 then 2 else 1

/-- A write stripe's status (R199). -/
def State.writeStatus (s : State) (i : Nat) : Nat :=
  let x := s.stripe i
  if x.lost ≠ 0 then 1 else if s.get pSTP STP.STP_CFG_SKEW_MAX < spread x.times then 3 else 0

/-- A stripe whose included members are all decided ends or becomes READY (R199, R201). -/
def State.checkStripe (s : State) (i : Nat) : State :=
  let s1 := s.put pSTP (STP.STRIPE_STAT_DECIDED i) (s.stripe i).decided
  if s.stripeState i = 1 ∧ s.allDecided i = true then
    let n := (maskList (s.stripe i).lost).length
    if s.stpWrite i then s1.endStripe i { status := s.writeStatus i }
    else if geomLosses (s.stpGeom i) < n then s1.endStripe i { status := 0x14 }
    else if n = 0 ∧ s.stpVerify i = false then s1.endStripe i { status := 0x10 }
    else { s1.setStripeState i 2 with stpReady := s1.stpReady ++ [i] }
  else s1

/-- Member `k` is lost. -/
def Stripe.lose (x : Stripe) (k : Nat) : Stripe := { x with decided := withBit x.decided k true, lost := withBit x.lost k true }

/-- Members of an OPEN stripe are lost where `f` selects them. -/
def State.loseMembers (s : State) (i : Nat) (f : Nat → Bool) : State :=
  let ks := (s.stpIncluded i).filter f
  if ks.isEmpty then s else (s.setStripe i (ks.foldl Stripe.lose (s.stripe i))).checkStripe i

/-- A head channel is fenced: its undecided members without a FINAL = 0 record are lost (R201). -/
def State.stpHeadFenced (s : State) (h : Nat) : State :=
  s.each (List.range 64) (fun s i =>
    if s.stripeState i = 1 ∧ s.stpWrite i = false ∧ s.stpAct i = actOf h then
      s.loseMembers i (fun k => decide (k = h % 12) && !bit (s.stripe i).decided k && !bit (s.stripe i).waiting k)
    else s)

/-- An actuator is fenced: every member of its OPEN stripes is lost, those of a write stripe that are WRITTEN too (R30, R201). -/
def State.stpActFenced (s : State) (a : Nat) : State :=
  s.each (List.range 64) (fun s i => if s.stripeState i = 1 ∧ s.stpAct i = a then s.loseMembers i (fun _ => true) else s)

/-- `n` bytes that the spec leaves open (log 3). -/
def State.freeBytes (s : State) (n : Nat) : State × List Byte :=
  ({ s with free := s.free + n }, (List.range n).map (fun i => BitVec.ofNat 8 (Config.freeWord (s.free + i)).toNat))

/-- The rebuild area of a stripe holds no defined content: one part for each lost member (R202, R206). -/
def State.openDest (s : State) (i : Nat) : State :=
  s.each (List.range (maskList (s.stripe i).lost).length) (fun s r =>
    let a := s.stpDest i + 0x2100 * r
    let n := payloadBytes (s.stpFormat i)
    if (s.spanRefusal (some .stp) true a n).isNone then
      let f := s.freeBytes n
      (f.1.bufWrite (some .stp) a f.2).1
    else s)

/-- A stripe that is not IDLE or DONE ends ABORTED (R206). -/
def State.abortStripe (s : State) (i : Nat) : State :=
  let st := s.stripeState i
  if st = 1 ∨ st = 2 ∨ st = 3 then (if st = 3 then s.openDest i else s).endStripe i { status := 0x20 } else s

def State.abortStripes (s : State) : State := s.each (List.range 64) (fun s i => s.abortStripe i)

/-! ### Starting a stripe (R195) -/

/-- The reason that refuses a start, 0 for none. -/
def State.startReason (s : State) (i a : Nat) : Nat :=
  let st := s.stripeState i
  let g := s.stpGeom i
  let par := s.stpParity i
  let excl := s.stpExcl i
  let clash := fun j => decide (j ≠ i) && decide (s.stripeState j = 1 ∨ s.stripeState j = 2 ∨ s.stripeState j = 3) &&
    decide (s.stpAct j = s.stpAct i) && decide (s.stpSid j = s.stpSid i) && (s.stpIncluded i).any (fun k => (s.stpIncluded j).contains k)
  if st = 1 ∨ st = 2 ∨ st = 3 then 1
  else if g = 0 ∨ g = 3 then 2
  else if s.stpAct i ≠ a then 3
  else if par.any (fun k => decide (11 < k)) || decide (par.eraseDups.length ≠ par.length) || par.any (bit excl) ||
      (s.stpData i).all (bit excl) then 4
  else if s.stpWrite i = false ∧ s.stpDest i = 0 then 5
  else if (List.range 64).any clash then 6
  else 0

/-- The head of data member `k` has already taken a beat of that member's payload (R198). -/
def State.memberBegun (s : State) (i k : Nat) : Bool := (s.memberDescs i k).any (fun d => !d.payload.isEmpty)

/-- A stripe starts, or is refused (R195, R198). -/
def State.startStripe (s : State) (i a t : Nat) : State :=
  let r := s.startReason i a
  if r ≠ 0 then
    (((s.setReg pSTP 0x60 (BitVec.ofNat 32 (2 ^ 31 + r * 2 ^ 8 + i))).irq pSTP 1)).raise pSTP 0
  else
    let s1 := ((s.setStripe i { launch := t }).put pSTP (STP.STRIPE_STAT_DECIDED i) 0).setStripeState i 1
    if s1.stpWrite i then
      if (s1.stpDataIdx i).any (fun e => s1.memberBegun i e.2) then s1.endStripe i { status := 2 }
      else s1.each ((List.range 12).map (fun k => 12 * a + k)) (fun s h => s.noteFeed h)
    else s1.loseMembers i (fun k => s1.fenced (pHCH (12 * a + k)) || s1.fenced (pACT a))

/-! ### Records (R197) -/

/-- The time-out window of a stripe has not closed. -/
def State.inStripeWindow (s : State) (i : Nat) : Bool :=
  decide (s.time < (s.stripe i).launch + max 1 (s.get pSTP STP.STP_CFG_TMO) * usSub)

/-- The OPEN stripe that a record belongs to, by head and SECTOR_ID (R197). -/
def State.matchStripe (s : State) (r : StpRec) : Option Nat :=
  (List.range 64).find? (fun i => decide (s.stripeState i = 1) && s.stpHolds i r.head r.sid && s.inStripeWindow i)

/-- A record is taken by its member (R199, R201). A read record of a write stripe's member, or a write record of a read stripe's, decides
nothing (DEDUCED, log 132). -/
def State.acceptRecord (s : State) (i : Nat) (r : StpRec) : State :=
  let x := s.stripe i
  let k := r.head % 12
  if bit x.decided k then s.inc pSTP STP.LATE_REC
  else if r.write ≠ s.stpWrite i then s
  else if r.write then
    let x1 := { x with decided := withBit x.decided k true, times := if r.driven then x.times ++ [r.time] else x.times }
    let bad := decide (r.status ≠ 1) || ((s.stpParity i).contains k && decide (tabGet x.took k 0 < streamBytes (s.stpFormat i)))
    (s.setStripe i (if bad then x1.lose k else x1)).checkStripe i
  else if r.final then
    if r.status ≤ 3 ∧ r.land ≠ 0xFFFF then
      (s.setStripe i { x with decided := withBit x.decided k true, addrs := x.addrs ++ [(k, s.landAddr r.head (s.stpFormat i) r.land)] }).checkStripe i
    else (s.setStripe i (x.lose k)).checkStripe i
  else s.setStripe i { x with waiting := withBit x.waiting k true }

/-! ### Rebuild (R202, R203) -/

/-- Read the payload of a surviving member; where BFM answers with an error its bytes are open. -/
def State.readMember (s : State) (i k n : Nat) : State × List Byte :=
  match (s.stripe i).addrs.find? (fun e => e.1 = k) with
  | none => s.freeBytes n
  | some e => match s.bufRead (some .stp) e.2 n with
    | (s1, some b) => (s1, b)
    | (s1, none) => s1.freeBytes n

/-- The payloads of the surviving members, by position. -/
def State.readSurvivors (s : State) (i n : Nat) (ks : List Nat) : State × List (Nat × List Byte) :=
  match ks with
  | [] => (s, [])
  | k :: r =>
    let a := s.readMember i k n
    let b := a.1.readSurvivors i n r
    (b.1, (k, a.2) :: b.2)

/-- The payload of a member by position: read, or zero where it is excluded. -/
def memberOf (n : Nat) (ps : List (Nat × List Byte)) (k : Nat) : List Byte :=
  match ps.find? (fun e => e.1 = k) with | some e => e.2 | none => List.replicate n 0

/-- The lost data members (by data index) from parity and the surviving data (R202). -/
def solveData (n : Nat) (surv : List (Nat × List Byte)) (lost : List Nat) (p q : Option (List Byte)) : List (Nat × List Byte) :=
  match lost, p, q with
  | [x], some p, _ => [(x, xorBytes p (parityP n surv))]
  | [x], none, some q => [(x, gfScale (gfInv (gfPow x)) (xorBytes q (parityQ n surv)))]
  | [x, y], some p, some q =>
    let pxy := xorBytes p (parityP n surv)
    let qxy := xorBytes q (parityQ n surv)
    let dx := gfScale (gfInv (Nat.xor (gfPow x) (gfPow y))) (xorBytes (gfScale (gfPow y) pxy) qxy)
    [(x, dx), (y, xorBytes pxy dx)]
  | _, _, _ => []

/-- The first offset at which two byte lists differ. -/
def firstDiff (u v : List Byte) : Option Nat := ((List.zipWith (fun a b => decide (a ≠ b)) u v).findIdx? id)

/-- A rebuilt member as it is written: payload, CRC-64, 8 zero bytes (R202). -/
def rebuiltBytes (b : List Byte) : List Byte := b ++ internalBytes (crc64 b) ++ List.replicate 8 0

/-- The rebuild of stripe `i`: lost members written, relations checked, the stripe's end (R202, R203). -/
def State.rebuild (s : State) (i : Nat) : State :=
  let x := s.stripe i
  let n := streamBytes (s.stpFormat i)
  let par := s.stpParity i
  let lost := maskList x.lost
  let r := s.readSurvivors i n ((s.stpIncluded i).filter (fun k => !lost.contains k))
  let idx := (List.range 12).zip (s.stpData i)
  let lostIdx := (idx.filter (fun e => lost.contains e.2)).map (·.1)
  let surv := (idx.filter (fun e => !lost.contains e.2)).map (fun e => (e.1, memberOf n r.2 e.2))
  let pGot := match par with | k :: _ => if lost.contains k then none else some (memberOf n r.2 k) | [] => none
  let qGot := match par with | [_, k] => if lost.contains k then none else some (memberOf n r.2 k) | _ => none
  let solved := solveData n surv lostIdx pGot qGot
  let all := surv ++ solved
  let pAll := parityP n all
  let qAll := parityQ n all
  let usesP := !lostIdx.isEmpty && pGot.isSome
  let pBad := match pGot with | some b => if usesP then none else firstDiff b pAll | none => none
  let qBad := match qGot with | some b => if lostIdx.length = 2 || (!lostIdx.isEmpty && !usesP) then none else firstDiff b qAll | none => none
  let bytesOf := fun k =>
    if par.head? = some k then pAll
    else if par.contains k then qAll
    else match idx.find? (fun e => e.2 = k) with
      | some e => memberOf n solved e.1
      | none => List.replicate n 0
  let s1 := r.1.each ((List.range lost.length).zip lost) (fun s e =>
    (s.bufWrite (some .stp) (s.stpDest i + 0x2100 * e.1) (rebuiltBytes (bytesOf e.2))).1)
  let bad := pBad.isSome || qBad.isSome
  let off := match pBad, qBad with
    | some a, some b => min a b
    | some a, none => a
    | none, some b => b
    | none, none => 0
  s1.endStripe i { status := if bad then 0x13 else if lost.isEmpty then 0x12 else 0x11, rebuilt := x.lost, offset := off, pBad := pBad.isSome, qBad := qBad.isSome }

/-! ### Meanings -/

/-- R76, R195, R28: an STP_START entry launches, and the stripe starts at the first FCLK edge at or after the launch. STP that is not
enabled ignores the start. -/
def execStpStart (a : Fin 8) (s : State) : Out :=
  match s.dueAction a.val aSTP false with
  | none => .next s
  | some e =>
    .next (if s.time < edgeAfter e.t.toNat then s
      else if s.fenced pSTP then s.retireOne a.val e 3 0
      else
        let s1 := s.retireOne a.val e 0 0
        if s1.running pSTP then s1.startStripe (e.arg % 64) a.val e.t.toNat else s1)

/-- R197: STP receives the next record. -/
def execStpRecord (s : State) : Out :=
  match s.stpIn with
  | [] => .next s
  | r :: rest =>
    let s1 := { s with stpIn := rest }
    match (if s1.running pSTP then s1.matchStripe r else none) with
    | some i => .next (s1.acceptRecord i r)
    | none => .next (if s1.powered pSTP then s1.inc pSTP STP.UNMATCHED else s1)

/-- R199, R201: the time-out window of an OPEN stripe closes. -/
def execStripeTimeout (i : Fin 64) (s : State) : Out :=
  if s.stripeState i.val = 1 ∧ s.inStripeWindow i.val = false then
    let x := s.stripe i.val
    let ks := (s.stpIncluded i.val).filter (fun k => !bit x.decided k)
    let y := ks.foldl Stripe.lose { x with tmo := ks.foldl (fun m k => withBit m k true) x.tmo }
    .next ((s.setStripe i.val y).checkStripe i.val)
  else .next s

/-- R202: the rebuild datapath takes the oldest READY stripe. -/
def execRebuildStart (s : State) : Out :=
  match s.stpReady with
  | i :: r => if s.get pSTP STP.Q_STAT_BUSY = 0 then .next ({ s with stpReady := r }.setStripeState i 3) else .next s
  | [] => .next s

/-- R202, R203: the rebuild ends. -/
def execRebuildEnd (i : Fin 64) (s : State) : Out :=
  if s.stripeState i.val = 3 then .next (s.rebuild i.val) else .next s

/-- R206: a write of CANCEL. -/
def execCancel (m : Master) (i : BitVec 6) (s : State) : Out :=
  .next (s.regCmd m pSTP 0x5C (fun s => s.abortStripe i.toNat))

end Sys2Proof.Machine
end

