-- ==== Sys2Proof/Machine/Dill.lean ====
section
/-! DEFINITION. The Dill sequencers (R210–R236): micro-words and nano-words, the ALU, next-address formation, events,
routines, the load port. The classes that reach pages stand in DillBus. -/

namespace Sys2Proof.Machine

def State.dilOf (s : State) (a : Nat) : Dil := tabGet s.dil a {}
def State.setDil (s : State) (a : Nat) (v : Dil) : State := { s with dil := tabPut s.dil a v {} }

/-! ### The micro-word (R212) and the nano-word (R213) -/

def mHold (w : Nat) : Bool := bit w 63
def mCond (w : Nat) : Nat := bits w 59 56
def mNxt (w : Nat) : Nat := bits w 55 53
def mTarget (w : Nat) : Nat := bits w 52 40
def mNano (w : Nat) : Nat := bits w 39 29
def mRd (w : Nat) : Nat := bits w 28 24
def mRa (w : Nat) : Nat := bits w 23 19
def mRb (w : Nat) : Nat := bits w 18 14

def nOpc (n : Nat) : Nat := bits n 3 0
def nFn (n : Nat) : Nat := bits n 7 4
def nBsel (n : Nat) : Bool := bit n 8
def nSetf (n : Nat) : Bool := bit n 14
def nWb (n : Nat) : Bool := bit n 15
def nFpos (n : Nat) : Nat := bits n 20 16
def nFwm1 (n : Nat) : Nat := bits n 25 21
def nXb (n : Nat) : Nat := bits n 27 26
def nTmpl (n : Nat) : Nat := bits n 63 32
def nK (n : Nat) : Nat := bits n 95 64
def nN3 (n : Nat) : Nat := bits n 127 96

/-- The immediate: sign-extended unless IZX, shifted left by ISHIFT. -/
def dilImm (w n : Nat) : Word :=
  let i : Word := if bit n 13 then BitVec.ofNat 32 (bits w 13 0) else BitVec.ofInt 32 (sgn 14 (bits w 13 0))
  i <<< bits n 12 9

/-- The word in execution: actuator, address, micro-word, nano-word. -/
structure DilCtx where
  a : Nat
  p : Nat
  w : Nat
  n : Nat
deriving DecidableEq, Repr

/-! ### Registers, flags, stack -/

/-- G[i]; G0 reads 0 (R212). -/
def State.g (s : State) (a i : Nat) : Word := if i = 0 then 0 else s.reg (pDIL a) (0x180 + 4 * i)

/-- Write G[i]; writes to G0 are ignored. -/
def State.setG (s : State) (a i : Nat) (v : Word) : State := if i = 0 then s else s.setReg (pDIL a) (0x180 + 4 * i) v

abbrev fZ : Nat := 0
abbrev fN : Nat := 1
abbrev fC : Nat := 2
abbrev fV : Nat := 3
abbrev fE : Nat := 4

def State.flag (s : State) (a f : Nat) : Bool := bit (s.dilOf a).flags f
def State.setFlag (s : State) (a f : Nat) (b : Bool) : State :=
  s.setDil a { s.dilOf a with flags := withBit (s.dilOf a).flags f b }

def State.dilState (s : State) (a : Nat) : Nat := s.get (pDIL a) DIL.RUN_STAT_STATE
def State.dilPc (s : State) (a : Nat) : Nat := s.get (pDIL a) DIL.RUN_STAT_PC
def State.dilStack (s : State) (a : Nat) : Nat := s.get (pDIL a) DIL.RUN_STAT_STACK

/-- The word at PC. -/
def State.dilCtx (s : State) (a : Nat) : DilCtx :=
  let p := s.dilPc a
  let w := tabGet (s.dilOf a).micro p 0
  { a := a, p := p, w := w, n := tabGet (s.dilOf a).nano (mNano w) 0 }

/-! ### Events (R223) -/

/-- Raise events of a mask: pending until taken or cleared. -/
def State.dilRaise (s : State) (a mask : Nat) : State :=
  if s.powered (pDIL a) then s.setReg (pDIL a) 0x70 (s.reg (pDIL a) 0x70 ||| BitVec.ofNat 32 (mask % 65536)) else s

/-- The lowest pending enabled event. -/
def State.dilEvent (s : State) (a : Nat) : Option Nat :=
  firstBelow 16 (fun e => bit (s.get (pDIL a) DIL.EVT_PEND) e && bit (s.get (pDIL a) DIL.EVT_MASK) e)

/-! ### Ends and faults (R222, R235) -/

/-- The staging is discarded. -/
def State.dropStaging (s : State) (a : Nat) : State :=
  (s.setDil a { s.dilOf a with entries := [], writes := [] }).setReg (pDIL a) 0xC4 0

/-- A routine ends with a status (R222). At END or FAIL a staging that still holds something raises SEQ FL0. A fault keeps the
stack for inspection (R235). -/
def State.endRoutine (s : State) (a status code pcAt st : Nat) : State :=
  let p := pDIL a
  let d := s.dilOf a
  let left := !d.entries.isEmpty || !d.writes.isEmpty
  let s1 := (s.dropStaging a).setDil a { d with entries := [], writes := [], opDone := false, xrd := false, noEvent := false, holdRun := 0, stopReq := none }
  let s2 := ((s1.put p DIL.RUN_STAT_STATUS status).put p DIL.RUN_STAT_STATE st).put p DIL.RUN_STAT_WAITING 0
  let s3 := (s2.put p DIL.END_INFO_CODE code).put p DIL.END_INFO_PC_AT pcAt
  let s4 := (if status = 5 then s3 else s3.put p DIL.RUN_STAT_STACK 0).irq p 0
  if left && decide (status = 1 ∨ status = 2) then s4.raise p 12 else s4

/-- A fault of the sequencer: the routine ends FAULT, FLT receives the report (R235). -/
def State.dilFault (s : State) (c : DilCtx) (b : Nat) : State := (s.endRoutine c.a 5 0 c.p 4).raise (pDIL c.a) b

/-- Go on at address `q`, or stop there on a request (R222); a request of KILL or of fencing carries its status. -/
def State.dilGo (s : State) (a q : Nat) : State :=
  let s1 := (s.put (pDIL a) DIL.RUN_STAT_PC q).setDil a { s.dilOf a with opDone := false }
  match (s.dilOf a).stopReq with
  | some st => s1.endRoutine a st 0 q (if st = 5 then 4 else 1)
  | none => s1

/-- A WAIT word waits at its own address, or the routine stops there on a request: the word in progress has done its operation (R222). -/
def State.dilHold (s : State) (c : DilCtx) : State :=
  match (s.dilOf c.a).stopReq with
  | some _ => s.dilGo c.a c.p
  | none => s.put (pDIL c.a) DIL.RUN_STAT_WAITING 1

/-- A transfer of control: past the store BAD_WORD, from an Allotment word into the vendor region only where `entry` allows
its entries (R217, R234). -/
def State.dilTransfer (s : State) (c : DilCtx) (q : Nat) (entry : Bool) : State :=
  if 0x1FFF < q then s.dilFault c 2
  else if 0x800 ≤ c.p ∧ q < 0x800 ∧ ¬ (entry = true ∧ q < 0x40) then s.dilFault c 3
  else s.dilGo c.a q

/-! ### Conditions (R216) -/

def State.dilCond (s : State) (a c : Nat) : Bool :=
  let f := s.flag a
  match c with
  | 0 => true
  | 1 => f fZ
  | 2 => !f fZ
  | 3 => f fN
  | 4 => !f fN
  | 5 => f fC
  | 6 => !f fC
  | 7 => f fV
  | 8 => f fN != f fV
  | 9 => f fN == f fV
  | 0xA => f fE
  | 0xB => !f fE
  | 0xC => (s.dilEvent a).isSome
  | 0xD => decide (s.trkState = 3)
  | 0xE => (List.range 12).any (fun k => !(s.inhibits (12 * a + k)).isEmpty)
  | _ => false

/-! ### Executing a word -/

/-- The sequencer is about to execute the operation of the word at PC: in RUN or HANDLER, operation not done, no event to be
taken first, no 65th HOLD word (R223, R224). An operation that waits for its data goes on with it. -/
def State.dilReady (s : State) (a : Nat) : Bool :=
  let d := s.dilOf a
  let c := s.dilCtx a
  let hold := mHold c.w && decide (mNxt c.w ≠ 5)
  (s.running (pDIL a) || d.stopReq.isSome) && decide (s.dilState a = 2 ∨ s.dilState a = 3) && !d.opDone &&
    (d.xrd || !(decide (s.dilState a = 2) && !hold && !d.noEvent && (s.dilEvent a).isSome) && !(hold && decide (64 ≤ d.holdRun)))

/-- Reserved class or function (R214, R215). -/
def dilReserved (n : Nat) : Bool :=
  let f := nFn n
  match nOpc n with
  | 1 => decide (0xD ≤ f)
  | 2 => decide (3 ≤ f)
  | 0xB => decide (2 ≤ f)
  | 0xC => decide (4 ≤ f)
  | 0xD => decide (5 ≤ f)
  | 0xE => true
  | 0xF => true
  | _ => false

/-- The operation of a word is done: the HOLD run counts, CONT goes on at once (R217, R224). -/
def State.dilOpEnd (s : State) (c : DilCtx) : State :=
  let d := s.dilOf c.a
  let hold := mHold c.w && decide (mNxt c.w ≠ 5)
  let run := if hold then d.holdRun + 1 else 0
  let s1 := (s.setDil c.a { d with opDone := true, noEvent := false, holdRun := run }).putMax (pDIL c.a) DIL.HOLD_RUN_MAX run
  if mNxt c.w = 0 then s1.dilTransfer c (c.p + 1) false else s1

/-- One operation row: the word's operation is of class `opc` and function `fn`, and `f` is its effect, which may be a fault. -/
def State.dilOp (s : State) (a opc : Nat) (fn : Option Nat) (f : State → DilCtx → State × Option Nat) : State :=
  if s.dilReady a then
    let c := s.dilCtx a
    if dilReserved c.n then s.dilFault c 2
    else if nOpc c.n = opc ∧ (fn = none ∨ fn = some (nFn c.n)) then
      match f s c with
      | (s1, some b) => s1.dilFault c b
      | (s1, none) => if s1.dilState a = 2 ∨ s1.dilState a = 3 then s1.dilOpEnd c else s1
    else s
  else s

/-- The effect of an operation on the registers alone. -/
def State.dilPlain (s : State) (a opc : Nat) (fn : Option Nat) (f : State → DilCtx → State) : State :=
  s.dilOp a opc fn (fun s c => (f s c, none))

/-- Operands A and B. -/
def State.opA (s : State) (c : DilCtx) : Word := s.g c.a (mRa c.w)
def State.opB (s : State) (c : DilCtx) : Word := if nBsel c.n then dilImm c.w c.n else s.g c.a (mRb c.w)

/-- Write a result with WB, and Z, N, C, V with SETF (R213, R215). -/
def State.dilResult (s : State) (c : DilCtx) (r : Word) (carry ovf : Bool) : State :=
  let s1 := if nWb c.n then s.setG c.a (mRd c.w) r else s
  if nSetf c.n then
    ((((s1.setFlag c.a fZ (decide (r = 0))).setFlag c.a fN r.msb).setFlag c.a fC carry).setFlag c.a fV ovf)
  else s1

/-- An ALU function of A and B giving result, C and V. -/
def State.alu (s : State) (a fn : Nat) (f : Word → Word → Word × Bool × Bool) : State :=
  s.dilPlain a 1 (some fn) (fun s c => let r := f (s.opA c) (s.opB c); s.dilResult c r.1 r.2.1 r.2.2)

/-- A shift: `f` gives the result, `last` the number of the last bit shifted out; with a count of 0 no bit is shifted out and
C is a free value (log 3). -/
def State.aluShift (s : State) (a fn : Nat) (f : Word → Nat → Word) (last : Nat → Nat) : State :=
  s.dilPlain a 1 (some fn) (fun s c =>
    let n := (s.opB c).toNat % 32
    let x := s.opA c
    if n = 0 then s.drew.dilResult c x (bit s.freeVal 0) false else s.dilResult c (f x n) (bit x.toNat (last n)) false)

/-- A field that ends within the word. -/
def fieldOk (c : DilCtx) : Bool := decide (nFpos c.n + nFwm1 c.n ≤ 31)

/-- The mask of the field. -/
def fieldMask (c : DilCtx) : Nat := (2 ^ (nFwm1 c.n + 1) - 1) * 2 ^ nFpos c.n

/-- INS and EXT: a field past bit 31 is reserved, and the spec gives no result for it: a free value (log 3). -/
def State.aluField (s : State) (a fn : Nat) (f : DilCtx → Word → Word → Word) : State :=
  s.dilPlain a 1 (some fn) (fun s c =>
    if fieldOk c then s.dilResult c (f c (s.opA c) (s.opB c)) false false
    else s.drew.dilResult c (BitVec.ofNat 32 s.freeVal) false false)

/-- MUL functions. -/
def State.mulOp (s : State) (a fn : Nat) (f : Word → Word → Word) : State :=
  s.dilPlain a 2 (some fn) (fun s c => s.dilResult c (f (s.opA c) (s.opB c)) false false)

/-- A TIME function (R230): FN 1–3 answer 0 with Z set while the angle is invalid, and clear Z while it is valid (DEDUCED, log 143). -/
def State.timeOp (s : State) (a fn : Nat) (f : State → DilCtx → State × Nat) : State :=
  s.dilPlain a 0xC (some fn) (fun s c =>
    let put := fun (s : State) (v : Nat) => if nWb c.n then s.setG c.a (mRd c.w) (BitVec.ofNat 32 v) else s
    if fn = 0 then let r := f s c; put r.1 r.2
    else if s.angleOk then let r := f s c; (put r.1 r.2).setFlag c.a fZ false
    else (put s 0).setFlag c.a fZ true)

/-- DMEM address of a DRD or DWR. -/
def State.dmemAddr (s : State) (c : DilCtx) : Nat := (s.opA c + dilImm c.w c.n).toNat

/-- The words W0–W3 of an ENQ or STG (R229); none where a register index passes 31. -/
def State.assemble (s : State) (c : DilCtx) : Option (Word × Word × Word × Word) :=
  let n3 := nN3 c.n
  let w2r := bit n3 2
  let w3r := bit n3 3
  let ra := mRa c.w
  if (w2r && decide (31 < ra + 1)) || (w3r && decide (31 < ra + 2)) then none
  else
    let t0 := nTmpl c.n
    let gb := (s.g c.a (mRb c.w)).toNat
    let t1 := if bit n3 0 then t0 - bits t0 15 11 * 2 ^ 11 + gb % 32 * 2 ^ 11 else t0
    let t2 := if bit n3 1 then t1 % 65536 + gb / 65536 * 65536 else t1
    let k := BitVec.ofNat 32 (nK c.n)
    let w2 := (if w2r then s.g c.a (ra + 1) else 0) ||| (if bit n3 4 then 0 else k)
    let w3 := (if w3r then s.g c.a (ra + 2) else 0) ||| (if bit n3 4 then k else 0)
    some (s.opA c, BitVec.ofNat 32 t2, w2, w3)

/-- ESTAT, E and event 13 from an enqueue result (R226, R229). -/
def State.dilVerdict (s : State) (a : Nat) (batch : Bool) (v : Verdict) (index : Nat) : State :=
  let s1 := s.setReg (pDIL a) 0xC0 (BitVec.ofNat 32 ((if batch then 2 ^ 31 else 0) + index * 2 ^ 16 + v.detail * 2 ^ 8 + v.result))
  let s2 := s1.setFlag a fE (decide (v.result ≠ 0))
  if v.result = 0 then s2 else s2.dilRaise a (2 ^ 13)

/-- STG_STAT (R236). -/
def State.noteStg (s : State) (a : Nat) : State :=
  let d := s.dilOf a
  (s.put (pDIL a) DIL.STG_STAT_ENTRIES d.entries.length).put (pDIL a) DIL.STG_STAT_WRITES d.writes.length

/-! ### Next-address rows (R217) -/

/-- A next-address row: the word's operation is done (a NOP's is done with it) and its NXT is `nxt`, with SYS subcode `sub`.
A reserved subcode is BAD_WORD. A word
in progress ends also where the unit has been told to stop. -/
def State.dilNext (s : State) (a nxt : Nat) (sub : Option Nat) (f : State → DilCtx → State) : State :=
  let s0 := if (s.dilOf a).opDone then s else s.dilPlain a 0 none (fun s _ => s)
  let c := s0.dilCtx a
  if (s0.dilOf a).opDone && (s0.running (pDIL a) || (s0.dilOf a).stopReq.isSome) && decide (mNxt c.w = nxt) && !s0.on (pDIL a) DIL.RUN_STAT_WAITING then
    match sub with
    | none => f s0 c
    | some k =>
      if !s0.dilCond a (mCond c.w) then (if k = 0 ∨ mTarget c.w % 8 = k then s0.dilTransfer c (c.p + 1) false else s)
      else if 4 ≤ mTarget c.w % 8 then s0.dilFault c 2
      else if mTarget c.w % 8 = k then f s0 c
      else s
  else s

/-- Branch to `q` if `b`, else p + 1. -/
def State.dilBranch (s : State) (c : DilCtx) (b : Bool) (q : Nat) (entry : Bool) : State :=
  if b then s.dilTransfer c q entry else s.dilTransfer c (c.p + 1) false

/-- Push a stack entry (R218, R236). -/
def State.dilPush (s : State) (a v : Nat) : State :=
  let n := s.dilStack a
  (s.setReg (pDIL a) (0x120 + 4 * n) (BitVec.ofNat 32 v)).put (pDIL a) DIL.RUN_STAT_STACK (n + 1)

/-- The top of the stack, if any, and the stack without it. -/
def State.dilTop (s : State) (a : Nat) : Option Nat :=
  if s.dilStack a = 0 then none else some (s.reg (pDIL a) (0x120 + 4 * (s.dilStack a - 1))).toNat
def State.dilPop (s : State) (a : Nat) : State := s.put (pDIL a) DIL.RUN_STAT_STACK (s.dilStack a - 1)

/-! ### The load port (R231, R232) -/

/-- One bit of CRC-32, reflected. -/
def crc32Bit (c : Nat) (b : Bool) : Nat := if bit c 0 != b then Nat.xor (c / 2) 0xEDB88320 else c / 2

/-- CRC-32 over a 32-bit part, least significant byte and bit first, continuing from a final value. -/
def crc32Part (crc v : Nat) : Nat := Nat.xor ((List.range 32).foldl (fun c i => crc32Bit c (bit v i)) (Nat.xor crc 0xFFFFFFFF)) 0xFFFFFFFF

/-- Words and first Allotment address of a space (R210), and the parts of a word. -/
def spaceWords (sp : Nat) : Nat := if sp = 1 then 2048 else 8192
def spaceVendor (sp : Nat) : Nat := if sp = 0 then 0x800 else if sp = 1 then 0x200 else 0x400
def spaceParts (sp : Nat) : Nat := if sp = 0 then 2 else if sp = 1 then 4 else 1

/-- A part is refused: 1 BUSY, 2 DENIED (R232); a space or address that does not exist is DENIED. -/
def State.loadRefusal (s : State) (m : Master) (a sp ad : Nat) : Nat :=
  let st := s.dilState a
  if sp = 3 ∨ spaceWords sp ≤ ad then 2
  else if ad < spaceVendor sp ∧ (m ≠ .bsc ∨ s.locked (pDIL a) = true) then 2
  else if sp ≠ 2 ∧ st ≠ 1 ∧ st ≠ 4 then 1
  else 0

/-- Write one store word. -/
def Dil.store (d : Dil) (sp ad v : Nat) : Dil :=
  if sp = 0 then { d with micro := tabPut d.micro ad v 0 }
  else if sp = 1 then { d with nano := tabPut d.nano ad v 0 }
  else { d with dmem := tabPut d.dmem ad v 0 }

/-- A write of LD_DATA (R231, R232). -/
def State.loadPart (s : State) (m : Master) (a v : Nat) : State :=
  let p := pDIL a
  let sp := s.get p DIL.LD_ADDR_SPACE
  let ad := s.get p DIL.LD_ADDR_ADDR
  match s.loadRefusal m a sp ad with
  | 0 =>
    let d := s.dilOf a
    let k := s.get p DIL.LD_STAT_PART
    let w := d.part + v * 2 ^ (32 * k)
    let s1 := s.setReg p 0xF8 (BitVec.ofNat 32 (crc32Part (s.reg p 0xF8).toNat v))
    if k + 1 = spaceParts sp then
      ((s1.setDil a { d.store sp ad w with part := 0 }).put p DIL.LD_STAT_PART 0).put p DIL.LD_ADDR_ADDR (ad + 1)
    else (s1.setDil a { d with part := w }).put p DIL.LD_STAT_PART (k + 1)
  | 1 => ((s.put p DIL.LD_STAT_BUSY 1).irq p 3).raise p 10
  | _ => ((s.put p DIL.LD_STAT_DENIED 1).irq p 3).raise p 10

/-- A write of START (R221). -/
def State.dilStart (s : State) (a entry : Nat) : State :=
  let p := pDIL a
  let st := s.dilState a
  let r := if st = 2 ∨ st = 3 then 1 else if s.enabled p = false ∨ st ≠ 1 then 2 else if entry < 0x800 ∧ 0x40 ≤ entry then 3 else 0
  if r ≠ 0 then ((s.put p DIL.RUN_STAT_REFUSE r).irq p 2).raise p 9
  else
    let s1 := s.each (List.range 8) (fun s i => s.setG a (i + 1) (s.reg p (0x50 + 4 * i)))
    let s2 := ((s1.setG a 31 0).dropStaging a)
    let s3 := s2.setDil a { s2.dilOf a with flags := 0, opDone := false, xrd := false, noEvent := false, holdRun := 0, stopReq := none }
    ((s3.put p DIL.RUN_STAT_STACK 0).put p DIL.RUN_STAT_STATE 2).put p DIL.RUN_STAT_PC entry

/-- The routine stops with `status` at the end of the word in progress (R222). -/
def State.dilStopWith (s : State) (a status : Nat) : State :=
  let st := s.dilState a
  if st = 2 ∨ st = 3 then
    if ((s.dilOf a).opDone || (s.dilOf a).xrd) && !s.on (pDIL a) DIL.RUN_STAT_WAITING then s.setDil a { s.dilOf a with stopReq := some (max status ((s.dilOf a).stopReq.getD 0)) }
    else s.endRoutine a status 0 (s.dilPc a) (if status = 5 then 4 else 1)
  else s

/-- DILa is fenced: a routine ends FAULT at the end of its word in progress, STATE becomes FENCED (R220, R222). -/
def State.dilFenced (s : State) (a : Nat) : State :=
  if s.dilState a = 2 ∨ s.dilState a = 3 then s.dilStopWith a 5
  else if s.dilState a = 0 then s else s.put (pDIL a) DIL.RUN_STAT_STATE 4

/-- The STATE a routine's own end leads to: IDLE, or FENCED where a fence came during its last word. -/
def State.dilIdle (s : State) (a : Nat) : Nat := if (s.dilOf a).stopReq = some 5 then 4 else 1

/-! ### Meanings: operations -/

/-- R214: NOP. -/
def execNop (a : Fin 8) (s : State) : Out := .next (s.dilPlain a.val 0 none (fun s _ => s))
/-- R215: ADD. -/
def execAdd (a : Fin 8) (s : State) : Out :=
  .next (s.alu a.val 0 (fun x y => (x + y, decide (2 ^ 32 ≤ x.toNat + y.toNat), BitVec.saddOverflow x y)))
/-- R215: SUB. -/
def execSub (a : Fin 8) (s : State) : Out :=
  .next (s.alu a.val 1 (fun x y => (x - y, decide (x.toNat < y.toNat), BitVec.ssubOverflow x y)))
/-- R215: AND. -/
def execAnd (a : Fin 8) (s : State) : Out := .next (s.alu a.val 2 (fun x y => (x &&& y, false, false)))
/-- R215: OR. -/
def execOr (a : Fin 8) (s : State) : Out := .next (s.alu a.val 3 (fun x y => (x ||| y, false, false)))
/-- R215: XOR. -/
def execXor (a : Fin 8) (s : State) : Out := .next (s.alu a.val 4 (fun x y => (x ^^^ y, false, false)))
/-- R215: SHL. -/
def execShl (a : Fin 8) (s : State) : Out := .next (s.aluShift a.val 5 (fun x n => x <<< n) (fun n => 32 - n))
/-- R215: SHR. -/
def execShr (a : Fin 8) (s : State) : Out := .next (s.aluShift a.val 6 (fun x n => x >>> n) (fun n => n - 1))
/-- R215: SAR. -/
def execSar (a : Fin 8) (s : State) : Out := .next (s.aluShift a.val 7 (fun x n => x.sshiftRight n) (fun n => n - 1))
/-- R215: MIN. -/
def execMin (a : Fin 8) (s : State) : Out := .next (s.alu a.val 8 (fun x y => (if x.slt y then x else y, false, false)))
/-- R215: MAX. -/
def execMax (a : Fin 8) (s : State) : Out := .next (s.alu a.val 9 (fun x y => (if x.slt y then y else x, false, false)))
/-- R215: INS. -/
def execIns (a : Fin 8) (s : State) : Out :=
  .next (s.aluField a.val 0xA (fun c x y =>
    let m : Word := BitVec.ofNat 32 (fieldMask c)
    (x &&& ~~~ m) ||| ((y <<< nFpos c.n) &&& m)))
/-- R215: EXT. -/
def execExt (a : Fin 8) (s : State) : Out :=
  .next (s.aluField a.val 0xB (fun c x _ => (x &&& BitVec.ofNat 32 (fieldMask c)) >>> nFpos c.n))
/-- R215: WADD. -/
def execWadd (a : Fin 8) (s : State) : Out :=
  .next (s.dilPlain a.val 1 (some 0xC) (fun s c =>
    let n : Int := s.wedgesN
    let x : Int := (s.opA c).toNat + (s.opB c).toInt
    s.dilResult c (BitVec.ofInt 32 (x % n)) (decide (x < 0 ∨ n ≤ x)) false))
/-- R214: MUL FN 0. -/
def execMul (a : Fin 8) (s : State) : Out := .next (s.mulOp a.val 0 (fun x y => x * y))
/-- R214: MUL FN 1. -/
def execMulhs (a : Fin 8) (s : State) : Out := .next (s.mulOp a.val 1 (fun x y => BitVec.ofInt 32 (x.toInt * y.toInt / 2 ^ 32)))
/-- R214: MUL FN 2. -/
def execMulhu (a : Fin 8) (s : State) : Out := .next (s.mulOp a.val 2 (fun x y => BitVec.ofNat 32 (x.toNat * y.toNat / 2 ^ 32)))

/-- R214: DRD. -/
def execDrd (a : Fin 8) (s : State) : Out :=
  .next (s.dilOp a.val 3 none (fun s c =>
    let ad := s.dmemAddr c
    if 0x1FFF < ad then (s, some 2)
    else (if nWb c.n then s.setG c.a (mRd c.w) (BitVec.ofNat 32 (tabGet (s.dilOf c.a).dmem ad 0)) else s, none)))

/-- R214, R234: DWR. -/
def execDwr (a : Fin 8) (s : State) : Out :=
  .next (s.dilOp a.val 4 none (fun s c =>
    let ad := s.dmemAddr c
    if 0x1FFF < ad then (s, some 2)
    else if ad < 0x400 ∧ 0x800 ≤ c.p then (s, some 4)
    else (s.setDil c.a ((s.dilOf c.a).store 2 ad (s.g c.a (mRb c.w)).toNat), none)))

/-- R229: ENQ, through the sequencer's own copy of the enqueue words, ENQ_STAT among them (R80). -/
def execEnq (a : Fin 8) (s : State) : Out :=
  .next (s.dilOp a.val 8 none (fun s c =>
    match s.assemble c with
    | none => (s, some 2)
    | some (w0, w1, w2, w3) =>
      let m := Master.dil (Fin.ofNat 8 c.a)
      let p := drlPage c.a
      let y := s.makeWay c.a 0
      let u := (((y.1.setMreg m p 0x40 w0).setMreg m p 0x44 w1).setMreg m p 0x48 w2).setMreg m p 0x4C w3
      let r := u.enqueueOne c.a w0 w1 w2 w3 u.time (48 * 64)
      let s0 := (r.1.setMreg m p 0x50 (BitVec.ofNat 32 (2 ^ 31 + r.2.2 * 2 ^ 16 + r.2.1.detail * 2 ^ 8 + r.2.1.result))).each y.2 (fun s q => s.putBack c.a q)
      let s1 := s0.dilVerdict c.a false r.2.1 0
      (if nWb c.n then s1.setG c.a (mRd c.w) (BitVec.ofNat 32 r.2.1.result) else s1, none)))

/-- R226: STG. -/
def execStg (a : Fin 8) (s : State) : Out :=
  .next (s.dilOp a.val 9 none (fun s c =>
    match s.assemble c with
    | none => (s, some 2)
    | some e =>
      let d := s.dilOf c.a
      if 16 ≤ d.entries.length then (s, some 5)
      else ((s.setDil c.a { d with entries := d.entries ++ [e] }).noteStg c.a, none)))

/-- R226: COMMIT FN 1. -/
def execDiscard (a : Fin 8) (s : State) : Out :=
  .next (s.dilPlain a.val 0xB (some 1) (fun s c => (s.dropStaging c.a).setFlag c.a fE false))

/-- R230: NOW. -/
def execTimeNow (a : Fin 8) (s : State) : Out := .next (s.timeOp a.val 0 (fun s _ => (s, s.timeLo)))
/-- R230: ANGLE. -/
def execTimeAngle (a : Fin 8) (s : State) : Out :=
  .next (s.timeOp a.val 1 (fun s c =>
    (s, 2 ^ 31 + fromP0 s.wedgesN (c.a / 2) (s.angIndex s.time) * 2 ^ 16 + s.angFrac s.time)))
/-- R230: REV. -/
def execTimeRev (a : Fin 8) (s : State) : Out := .next (s.timeOp a.val 2 (fun s _ => (s, s.angRev s.time)))
/-- R230: PRED. A wedge number that does not exist has no stated result: a free value (log 3). -/
def execTimePred (a : Fin 8) (s : State) : Out :=
  .next (s.timeOp a.val 3 (fun s c =>
    let w := (s.opA c).toNat
    if w < s.wedgesN then
      let b := s.wedgeTime (toP0 s.wedgesN (c.a / 2) w) + (s.pivotTrim c.a : Rat)
      (s, ((s.firstAt b s.time) % 2 ^ 32).toNat)
    else (s.drew, s.freeVal)))

/-- R214: OUT FN 0. -/
def execOut (a : Fin 8) (s : State) : Out :=
  .next (s.dilPlain a.val 0xD (some 0) (fun s c => s.setReg (pDIL c.a) (0x100 + 4 * (bits c.w 2 0)) (s.opA c)))
/-- R214: OUT FN 1. -/
def execIrq (a : Fin 8) (s : State) : Out := .next (s.dilPlain a.val 0xD (some 1) (fun s c => s.irq (pDIL c.a) 1))
/-- R214: OUT FN 2. -/
def execEmask (a : Fin 8) (s : State) : Out :=
  .next (s.dilPlain a.val 0xD (some 2) (fun s c => s.put (pDIL c.a) DIL.EVT_MASK ((s.opA c).toNat % 65536)))
/-- R214: OUT FN 3. -/
def execEclr (a : Fin 8) (s : State) : Out :=
  .next (s.dilPlain a.val 0xD (some 3) (fun s c => s.setReg (pDIL c.a) 0x70 (s.reg (pDIL c.a) 0x70 &&& ~~~ (s.opA c))))
/-- R214: OUT FN 4. -/
def execEset (a : Fin 8) (s : State) : Out :=
  .next (s.dilPlain a.val 0xD (some 4) (fun s c => s.dilRaise c.a (s.opA c).toNat))

/-! ### Meanings: next address -/

/-- R217: JMP. -/
def execJmp (a : Fin 8) (s : State) : Out :=
  .next (s.dilNext a.val 1 none (fun s c => s.dilBranch c (s.dilCond c.a (mCond c.w)) (mTarget c.w) true))

/-- R217, R218: CALL. At the last word of the store it pushes 0 (DESIGN CHOICE, log 143). -/
def execCall (a : Fin 8) (s : State) : Out :=
  .next (s.dilNext a.val 2 none (fun s c =>
    if s.dilCond c.a (mCond c.w) then
      if (if s.dilState c.a = 3 then 8 else 7) ≤ s.dilStack c.a then s.dilFault c 0
      else (s.dilPush c.a ((c.p + 1) % 8192)).dilTransfer c (mTarget c.w) true
    else s.dilTransfer c (c.p + 1) false))

/-- R217, R218: RET. -/
def execRet (a : Fin 8) (s : State) : Out :=
  .next (s.dilNext a.val 3 none (fun s c =>
    if s.dilCond c.a (mCond c.w) then
      match s.dilTop c.a with
      | none => s.dilFault c 0
      | some v => if bit v 16 then s.dilFault c 0 else (s.dilPop c.a).dilTransfer c (bits v 12 0) false
    else s.dilTransfer c (c.p + 1) false))

/-- R217: LOOP. -/
def execLoop (a : Fin 8) (s : State) : Out :=
  .next (s.dilNext a.val 4 none (fun s c =>
    let s1 := s.setG c.a 31 (s.g c.a 31 - 1)
    s1.dilBranch c (decide (s1.g c.a 31 ≠ 0) && s1.dilCond c.a (mCond c.w)) (mTarget c.w) false))

/-- R217, R224: WAIT. -/
def execWait (a : Fin 8) (s : State) : Out :=
  .next (s.dilNext a.val 5 none (fun s c =>
    if s.dilCond c.a (mCond c.w) then s.dilTransfer c (c.p + 1) false else s.dilHold c))

/-- R217: the condition of a WAIT word becomes true. -/
def execWaitRelease (a : Fin 8) (s : State) : Out :=
  let c := s.dilCtx a.val
  if s.running (pDIL a.val) && s.on (pDIL a.val) DIL.RUN_STAT_WAITING && s.dilCond a.val (mCond c.w) then
    .next ((s.put (pDIL a.val) DIL.RUN_STAT_WAITING 0).dilTransfer c (c.p + 1) false)
  else .next s

/-- R217: DISP. -/
def execDisp (a : Fin 8) (s : State) : Out :=
  .next (s.dilNext a.val 6 none (fun s c =>
    s.dilBranch c (s.dilCond c.a (mCond c.w)) (mTarget c.w + (s.opA c).toNat % 16) true))

/-- R222: SYS END. A SYS word whose condition does not hold continues at p + 1. -/
def execEndOp (a : Fin 8) (s : State) : Out :=
  .next (s.dilNext a.val 7 (some 0) (fun s c => s.endRoutine c.a 1 0 0 (s.dilIdle c.a)))

/-- R225: SYS RESUME. -/
def execResume (a : Fin 8) (s : State) : Out :=
  .next (s.dilNext a.val 7 (some 1) (fun s c =>
    match s.dilTop c.a with
    | none => s.dilFault c 0
    | some v =>
      if bit v 16 then
        let s1 := (s.dilPop c.a).put (pDIL c.a) DIL.RUN_STAT_STATE 2
        let s2 := s1.setDil c.a { s1.dilOf c.a with flags := bits v 28 24 }
        let s3 := s2.dilTransfer c (bits v 12 0) false
        if s3.dilState c.a = 2 then s3.setDil c.a { s3.dilOf c.a with noEvent := true } else s3
      else s.dilFault c 0))

/-- R225: SYS ABANDON. -/
def execAbandon (a : Fin 8) (s : State) : Out :=
  .next (s.dilNext a.val 7 (some 2) (fun s c =>
    if s.dilState c.a = 3 then
      match (List.range (s.dilStack c.a)).reverse.find? (fun i => bit (s.reg (pDIL c.a) (0x120 + 4 * i)).toNat 16) with
      | some i =>
        let v := (s.reg (pDIL c.a) (0x120 + 4 * i)).toNat
        s.endRoutine c.a 3 (bits v 23 20) (bits v 12 0) (s.dilIdle c.a)
      | none => s.dilFault c 0
    else s.dilFault c 2))

/-- R222: SYS FAIL. -/
def execFail (a : Fin 8) (s : State) : Out :=
  .next (s.dilNext a.val 7 (some 3) (fun s c => s.endRoutine c.a 2 ((s.opA c).toNat % 65536) c.p (s.dilIdle c.a)))

/-- R223: the lowest pending enabled event is taken before a word without HOLD, or during a WAIT. -/
def execEventTaken (a : Fin 8) (s : State) : Out :=
  let p := pDIL a.val
  let d := s.dilOf a.val
  let c := s.dilCtx a.val
  let wait := s.on p DIL.RUN_STAT_WAITING
  let open_ := wait || (!d.opDone && !d.xrd && !d.noEvent && (!mHold c.w || decide (mNxt c.w = 5)))
  match s.dilEvent a.val with
  | some e =>
    if s.running p && decide (s.dilState a.val = 2) && open_ then
      let s1 := s.setReg p 0x70 (s.reg p 0x70 &&& ~~~ BitVec.ofNat 32 (2 ^ e))
      let s2 := s1.dilPush a.val (c.p + 2 ^ 16 + e * 2 ^ 20 + d.flags % 32 * 2 ^ 24)
      let s3 := ((s2.put p DIL.RUN_STAT_STATE 3).put p DIL.RUN_STAT_WAITING 0).setDil a.val { d with holdRun := 0 }
      .next (s3.dilTransfer c (s.get p (DIL.EVT_VEC_ADDR e)) true)
    else .next s
  | none => .next s

/-- R224: a 65th consecutive HOLD word. -/
def execHoldRun (a : Fin 8) (s : State) : Out :=
  let d := s.dilOf a.val
  let c := s.dilCtx a.val
  if s.running (pDIL a.val) && decide (s.dilState a.val = 2 ∨ s.dilState a.val = 3) && !d.opDone && mHold c.w && decide (mNxt c.w ≠ 5) &&
      decide (64 ≤ d.holdRun) then .next (s.dilFault c 1)
  else .next s

/-! ### Meanings: the DILa page -/

/-- R221: a write of START. -/
def execDilStart (m : Master) (a : Fin 8) (entry : BitVec 13) (s : State) : Out :=
  .next (s.regCmd m (pDIL a.val) 0x40 (fun s => s.dilStart a.val entry.toNat))

/-- R222: a write of RUN_CTL.KILL. -/
def execKill (m : Master) (a : Fin 8) (s : State) : Out :=
  .next (s.regCmd m (pDIL a.val) 0x44 (fun s => s.dilStopWith a.val 4))

/-- R236: a write of RUN_CTL.STOP. -/
def execDilStop (m : Master) (a : Fin 8) (s : State) : Out :=
  .next (s.regCmd m (pDIL a.val) 0x44 (fun s => s.dilRaise a.val (2 ^ 15)))

/-- R223: a write of EVT_SET. -/
def execEvtSet (m : Master) (a : Fin 8) (mask : BitVec 16) (s : State) : Out :=
  .next (s.regCmd m (pDIL a.val) 0x74 (fun s => s.dilRaise a.val mask.toNat))

/-- R223: a write of EVT_CLR. -/
def execEvtClr (m : Master) (a : Fin 8) (mask : BitVec 16) (s : State) : Out :=
  .next (s.regCmd m (pDIL a.val) 0x78 (fun s => s.setReg (pDIL a.val) 0x70 (s.reg (pDIL a.val) 0x70 &&& ~~~ (mask.setWidth 32))))

/-- R231: a write of LD_ADDR. -/
def execLdAddr (m : Master) (a : Fin 8) (space : BitVec 2) (addr : BitVec 13) (s : State) : Out :=
  .next (s.regCmd m (pDIL a.val) 0xEC (fun s =>
    let p := pDIL a.val
    (((s.setReg p 0xEC (BitVec.ofNat 32 (addr.toNat + space.toNat * 2 ^ 16))).setReg p 0xF4 0).setReg p 0xF8 0).setDil a.val
      { s.dilOf a.val with part := 0 }))

/-- R231, R232: a write of LD_DATA. -/
def execLdData (m : Master) (a : Fin 8) (v : Word) (s : State) : Out :=
  .next (s.regCmd m (pDIL a.val) 0xF0 (fun s => s.loadPart m a.val v.toNat))

/-- R76: an EVENT entry launches: a Dill event on DRLa, a pulse of IRQ_RAW.EVENT on DRLD; SKIPPED while DILa is fenced. -/
def execEvent (d : Fin 9) (s : State) : Out :=
  match s.dueAction d.val aEVENT false with
  | none => .next s
  | some e =>
    .next (if d.val < 8 ∧ s.fenced (pDIL d.val) = true then s.retireOne d.val e 3 0
      else if d.val < 8 then (s.retireOne d.val e 0 0).dilRaise d.val (2 ^ (e.arg % 16))
      else (s.retireOne d.val e 0 0).irq pDRLD 8)

end Sys2Proof.Machine
end

