-- ==== Sys2Proof/Machine/Servo.lean ====
section
/-! DEFINITION. The servo demodulators (R237–R247, R262): the sample of a wedge, the PES guard (R179), the actuator timing
reference, the PES capture. -/

namespace Sys2Proof.Machine

def State.srvHead (s : State) (h : Nat) : SrvHead := tabGet s.srvh h {}
def State.setSrvHead (s : State) (h : Nat) (v : SrvHead) : State := { s with srvh := tabPut s.srvh h v {} }
def State.srvOf (s : State) (a : Nat) : Srv := tabGet s.srv a {}
def State.setSrv (s : State) (a : Nat) (v : Srv) : State := { s with srv := tabPut s.srv a v {} }

/-- Quality codes (R244). -/
abbrev qGOOD : Nat := 0
abbrev qNOSAM : Nat := 1
abbrev qWEDGE : Nat := 2
abbrev qJUMP : Nat := 3
abbrev qBURST : Nat := 4
abbrev qOFF : Nat := 5

def timeOk (q : Nat) : Bool := q = qGOOD || q = qBURST || q = qJUMP

/-- Head `k` of actuator `a`: its sample is PES_OK (R244). -/
def State.pesOk (s : State) (a k : Nat) : Bool := decide (s.get (pSRV a) (SRV.PES_QUAL k) = qGOOD)

/-- PES of head `k` (R243). -/
def State.pesOf (s : State) (a k : Nat) : Int := sgn 16 (s.get (pSRV a) (SRV.PES_PES k))

/-- The track number that a Gray code stands for (R237). -/
def grayTrack (g : BitVec 24) : Nat := ((List.range 24).foldl (fun acc i => acc ^^^ (g >>> i)) (0 : BitVec 24)).toNat

/-- Symbols in which two SAM words differ (R245). -/
def samDiff (x y : Nat) : Nat := ((List.range 16).filter (fun i => bit x i != bit y i)).length

/-- The wedge whose sample is due: the last whose predicted time has come, as P0 index, and that time for actuator `a`
(R239). -/
def State.dueWedge (s : State) (a : Nat) : Nat × Int :=
  let now : Int := s.time - s.pivotTrim a
  (s.angIndex now, s.wedgeAt a (s.wedgeCount a s.time))

/-- SAM_W in sub-ticks, its range held (R262). -/
def State.samW (s : State) (a : Nat) : Int := max 8 (s.get (pSRV a) SRV.SAM_CFG_SAM_W) * 64

/-- The reader whose samples head `k` demodulates delivers them from time `t` on (R94, R95, R240). -/
def State.servoReader (s : State) (a k : Nat) (t : Int) : Bool :=
  let h := 12 * a + k
  !s.rdrOff h (bit (s.get (pSRV a) SRV.HEAD_EN_RDR_B) k) && s.afeReady h t.toNat

/-- A window position whose SAM ends at `e` may be accepted (R239): within SAM_W of the predicted time, its 16 symbols inside the
servo window (DEDUCED, log 135) and delivered. -/
def State.samAt (s : State) (a k : Nat) (e : Int) : Bool :=
  let tk := (s.dueWedge a).2 + sgn 16 (s.get (pSRV a) (SRV.SKEW k))
  s.servoReader a k (e - 32 * 64) && (!s.gated ||
    (decide (tk - s.samW a ≤ e) && decide (e < tk + s.samW a) && decide (tk - s.sgLead a ≤ e - 32 * 64) && decide (e ≤ tk + s.sgTail a)))

/-- The SAM end that head `k` accepts (R239, R245). -/
def State.samEnd (s : State) (a k : Nat) (x : ServoHead) : Option Int :=
  let p := pSRV a
  let ok := fun (c : BitVec 32 × BitVec 16) =>
    decide (samDiff c.2.toNat (s.get p SRV.SAM_CFG_SAM_PAT) ≤ s.get p SRV.SAM_CFG_SAM_TOL) && s.samAt a k (nearest32 s.time c.1)
  (x.sams.find? ok).map (fun c => nearest32 s.time c.1)

/-- The fractional position f in 1/4,096 track (R242): free where both amplitudes are 0, and free between the neighbours where
12 fraction bits do not hold it. -/
def State.fracPos (s : State) (aN aQ : Int) : State × Int :=
  let n : Int := aN.natAbs
  let q : Int := aQ.natAbs
  if n + q = 0 then (s.drew, ((s.freeVal % 4097 : Nat) : Int) - 2048)
  else if n ≤ q then s.roundFree ((4096 * aN : Int) / (2 * (n + q) : Int))
  else s.roundFree ((if aN < 0 then -1 else 1) * (2048 - (4096 * q : Int) / ((2 * (n + q) : Int) : Rat)))

/-- The integer track (R242): of ID − 1, ID and ID + 1 the nearest to the prediction; a free value decides a tie. -/
def State.pickTrack (s : State) (id f pred : Int) : State × Int :=
  let dist := fun (t : Int) => (t * 4096 + f - pred).natAbs
  let low := if dist id < dist (id - 1) then id else id - 1
  let tie1 := decide (dist id = dist (id - 1))
  let best := if dist (id + 1) < dist low then id + 1 else low
  let tie2 := decide (dist (id + 1) = dist low)
  if (tie1 && decide (best = low)) || tie2 then (s.drew, if s.freeVal % 2 = 0 then best else best + 1) else (s, best)

/-- What the reader that RDR_B selects read at head `k` (R240). -/
def State.servoInput (s : State) (a k : Nat) (rdA rdB : List ServoHead) : ServoHead :=
  ((if bit (s.get (pSRV a) SRV.HEAD_EN_RDR_B) k then rdB else rdA)[k]?).getD {}

/-- One head's sample. -/
structure HeadOut where
  qual : Nat
  sam : Option Int
  wedge : Nat := 0
  pos : Int := 0
  pes : Int := 0
  sat : Bool := false
deriving DecidableEq, Repr

/-- The prediction of R242: it exists in a gated window after a good sample (DEDUCED, log 57). -/
def State.predicted (s : State) (h : Nat) : Option Int :=
  let v := s.srvHead h
  if s.gated && v.good then some (v.pos + v.vel) else none

/-- Demodulate head `k` (R242–R244). -/
def State.demodulate (s : State) (a k : Nat) (x : ServoHead) : State × HeadOut :=
  let p := pSRV a
  let h := 12 * a + k
  if !bit (s.get p SRV.HEAD_EN_EN) k || !s.powered (pHCH h) then (s, { qual := qOFF, sam := none })
  else match s.samEnd a k x with
    | none => (s, { qual := qNOSAM, sam := none })
    | some t =>
      let aN := x.aN.toInt
      let aQ := x.aQ.toInt
      let r1 := s.fracPos aN aQ
      let id : Int := grayTrack x.gray
      let r2 := match s.predicted h with
        | some pr => r1.1.pickTrack id r1.2 pr
        | none => (r1.1, id)
      let pos := r2.2 * 4096 + r1.2
      let raw := pos - s.get p (SRV.TGT_TRACK k) * 4096 - (if s.on p SRV.SRV_CFG_RRO_EN then 4 * x.rro.toInt else 0)
      let pes := max (-32767) (min raw 32767)
      let q := if s.gated && decide (x.wedge.toNat ≠ fromP0 s.wedgesN (a / 2) (s.dueWedge a).1) then qWEDGE
        else if aN.natAbs + aQ.natAbs < s.get p SRV.QUAL_CFG_BURST_MIN then qBURST
        else match s.predicted h with
          | some pr => if (s.get p SRV.QUAL_CFG_ID_TOL * 4096 : Int) < (pos - pr).natAbs then qJUMP else qGOOD
          | none => qGOOD
      (r2.1, { qual := q, sam := some t, wedge := x.wedge.toNat, pos := pos, pes := pes, sat := decide (raw ≠ pes) })

/-! ### The PES guard (R179) -/

def State.setGuard (s : State) (h : Nat) (g : PesGuard) : State := { s with pesGuard := tabPut s.pesGuard h g {} }

/-- A sample that exceeds the limit opens the head's window, or lets an open one run on. -/
def State.pesExceeds (s : State) (a k : Nat) : State :=
  let h := 12 * a + k
  let p := pACT a
  let s1 := s.setGuard h { tabGet s.pesGuard h ({} : PesGuard) with good := 0 }
  if bit (s.get p ACT.WI_STAT_PES_INH) k then s1
  else
    ((((s1.put p ACT.WI_STAT_PES_INH (withBit (s1.get p ACT.WI_STAT_PES_INH) k true)).inc p ACT.WI_PES_CNT).irq p 8).noteInhibit
      a wPES k).dilRaise a (2 ^ 14)

/-- R179: a PES sample of head `k` against WI_LIMIT. -/
def State.guardPes (s : State) (a k : Nat) (good : Bool) (pes : Int) : State :=
  let h := 12 * a + k
  let p := pACT a
  let g := tabGet s.pesGuard h ({} : PesGuard)
  if good then
    let s1 := s.setGuard h { g with bad := 0 }
    if s.get p ACT.WI_LIMIT_PES < pes.natAbs then s1.pesExceeds a k
    else if bit (s.get p ACT.WI_STAT_PES_INH) k then
      if 1 ≤ g.good then (s1.setGuard h {}).put p ACT.WI_STAT_PES_INH (withBit (s.get p ACT.WI_STAT_PES_INH) k false)
      else s1.setGuard h { good := 1, bad := 0 }
    else s1
  else
    let s1 := s.setGuard h { g with bad := g.bad + 1 }
    if s.on p ACT.WI_LIMIT_MISS_OK && decide (g.bad = 0) then s1 else s1.pesExceeds a k

/-! ### Delivery -/

/-- The registers and the position of head `k` after its sample (R242–R244, R262). PES and WEDGE of a sample without a SAM are
free values (log 3). -/
def State.headSample (s : State) (a k : Nat) (o : HeadOut) : State :=
  let p := pSRV a
  let h := 12 * a + k
  let v := s.srvHead h
  let s1 := s.put p (SRV.PES_QUAL k) o.qual
  let s2 := match o.sam with
    | some t => ((((s1.put p (SRV.PES_PES k) (enc 16 o.pes)).putB p (SRV.PES_SAT k) o.sat).put p (SRV.PES_WEDGE k) o.wedge).put p
        (SRV.SAM_TIME k) (enc 32 t)).put p (SRV.POS k) (enc 32 (o.pos / 16))
    | none => (((s1.put p (SRV.PES_PES k) (s.freeVal % 65536)).put p (SRV.PES_WEDGE k) (s.freeVal / 65536)).put p (SRV.PES_SAT k)
        0).drew
  let s3 := if o.qual = qGOOD then
      s2.setSrvHead h { pos := o.pos, vel := if v.good then o.pos - v.pos else v.vel, good := true }
    else (s2.setSrvHead h { v with good := false }).inc p (SRV.BAD_CNT k)
  s3.guardPes a k (decide (o.qual = qGOOD)) o.pes

/-- The PES capture record of a wedge becomes ready; one still waiting is dropped and counted (R247). -/
def State.pesCapture (s : State) (a wedge tref : Nat) : State :=
  let p := pSRV a
  if s.on p SRV.SRV_CFG_PCAP_EN then
    let ok := ((List.range 12).filter (s.pesOk a)).foldl (fun r k => withBit r k true) 0
    let ws := [wedge + 65536 * ok, tref] ++
      (List.range 6).map (fun i => s.get p (SRV.PES_PES (2 * i)) + 65536 * s.get p (SRV.PES_PES (2 * i + 1)))
    (if (s.srvOf a).pcap.isEmpty then s else s.inc p SRV.PCAP_LOST).setSrv a { s.srvOf a with pcap := ws }
  else s

/-- The number of records of the capture ring of SRVa (R247). -/
def State.pcapSize (s : State) (a : Nat) : Nat := 2 ^ (max 4 (min (s.get (pSRV a) SRV.PCAP_SIZE_LOG2) 12))

/-- The address of the capture ring of SRVa (R247). -/
def State.pcapBase (s : State) (a : Nat) : Nat := s.get (pSRV a) SRV.PCAP_BASE_LO * 32 + s.get (pSRV a) SRV.PCAP_BASE_HI * 2 ^ 32

/-- The record that waited is taken. -/
def State.pcapTaken (s : State) (a : Nat) : State := s.setSrv a { s.srvOf a with pcap := [] }

/-- What follows the write of a record: WR moves, or the record is lost (R247). -/
def pcapEnd (p wr : Nat) (r : State × Bool) : State := if r.2 then (r.1.put p SRV.PCAP_WR wr).irq p 2 else r.1.inc p SRV.PCAP_LOST

/-- Write a record to place `i` of the ring. -/
def State.pcapStore (s : State) (a i : Nat) (ws : List Nat) : State × Bool := s.bufWrite none (s.pcapBase a + 32 * i) (wordBytes ws)

/-- BFM serves the capture stream of actuator `a` (R247): its record is written, or dropped at a full ring or a refused write. -/
def State.serveCapture (s : State) (a : Nat) : State :=
  let p := pSRV a
  let ws := (s.srvOf a).pcap
  if ws.isEmpty then s
  else
    let s0 := s.pcapTaken a
    let size := s.pcapSize a
    let i := s.get p SRV.PCAP_WR % size
    if (i + 1) % size = s.get p SRV.PCAP_RD % size then s0.inc p SRV.PCAP_LOST
    else pcapEnd p ((i + 1) % size) (s0.pcapStore a i ws)

/-- One Furrow tick with no command waiting: BFM has idle cycles and serves the capture streams (log 36), and time passes. -/
def State.idle (s : State) : State := (s.each (List.range 8) State.serveCapture).idleTick

/-- The actuator timing reference of a wedge (R246), delivered to FUR (R63), and the wedge's status. -/
def State.deliverReference (s : State) (a : Nat) (os : List HeadOut) : State :=
  let p := pSRV a
  let idx := (List.range 12).zip os
  let us := idx.filter (fun x => bit (s.get p SRV.TREF_MASK) x.1 && timeOk x.2.qual)
  let good := !us.isEmpty
  let times := us.map (fun x => x.2.sam.getD 0 - sgn 16 (s.get p (SRV.SKEW x.1)))
  let r := s.roundNear (meanInt times)
  let s0 := if good then r.1 else s.drew
  let t : Int := if good then r.2 else (s.freeVal : Int)
  let w := match us with
    | x :: _ => x.2.wedge
    | [] => s.freeVal / 2 ^ 16 % 1024
  let s1 := (((s0.put p SRV.WEDGE_STAT_WEDGE w).put p SRV.WEDGE_STAT_GOOD (os.filter (fun o => timeOk o.qual)).length).putB p
    SRV.WEDGE_STAT_TIME_OK good).putB p SRV.WEDGE_STAT_FREE (!s.gated)
  let s2 := if good then s1.put p SRV.ACT_TIME (enc 32 t) else (s1.inc p SRV.NO_TIME_CNT).irq p 1
  let m : WedgeMeas := { act := a, time := t, wedge := w, good := good }
  let s3 : State := { s2.irq p 0 with meas := s2.meas.filter (fun x => decide (x.act ≠ a)) ++ [m] }
  let v := s3.srvOf a
  let tref := if s.gated then (s.dueWedge a).2 else t
  let skewed := fun (o : HeadOut) => match o.sam with
    | some e => e - tref + 456 * 64
    | none => s.samW a + 456 * 64
  let k := s.get pMOT (MOTA.VCM_CFG_REF_K a)
  let run := match os[k]? with
    | some o => if timeOk o.qual then (if v.run ≠ 0 ∧ v.runK = k ∧ (v.runW + 1) % s.wedgesN = o.wedge then v.run + 1 else 1, o.wedge) else (0, 0)
    | none => (0, 0)
  let s4 := s3.setSrv a { v with n := v.n + 1, t := tref, rdy := os.map (fun o => (skewed o).toNat), run := run.1, runW := run.2, runK := k }
  s4.pesCapture a w (enc 32 t)

/-- The gated window of a dozing head opened, late when the front end was not ready; after it the front end powers down unless a
gate of the head is open (R94, R240). -/
def State.windowWake (s : State) (h : Nat) : State :=
  if s.afeDoze h && s.servoOn h && s.gated then
    let n := s.wedgeCount (actOf h) s.time
    let s1 := s.lateWake h (s.servoOpen h n).toNat
    if (s.rdOf h).gate.isNone && (s.wrOf h).gate.isNone then s1.setAfe h { s1.afeOf h with sleepAt := some (s.servoClose h n).toNat }
    else s1
  else s

/-- R237–R247: a servo wedge is demodulated for each head of the actuator, from the samples of the reader that RDR_B selects. With the window running free, a wedge is what some head
accepts a SAM of. Each raises Dill event 12 WEDGE (R222, R223). -/
def execServoSample (a : Fin 8) (rdA rdB : List ServoHead) (s : State) : Out :=
  if s.running (pSRV a.val) then
    let r := (List.range 12).foldl (fun (acc : State × List HeadOut) k =>
      let d := acc.1.demodulate a.val k (s.servoInput a.val k rdA rdB)
      (d.1, acc.2 ++ [d.2])) (s, [])
    if s.gated || r.2.any (fun o => o.sam.isSome) then
      let s1 := (((List.range 12).zip r.2).foldl (fun s x => s.headSample a.val x.1 x.2) r.1)
      .next (((((List.range 12).foldl (fun s k => s.windowWake (12 * a.val + k)) s1).dropGates).deliverReference a.val r.2).dilRaise
        a.val (2 ^ 12))
    else .next s
  else .next s

end Sys2Proof.Machine
end

