-- ==== Sys2Proof/Machine/Tiller.lean ====
section
/-! DEFINITION. The Tiller loops (R248–R265): errors, the loop law in exact fixed point, bumpless closes, mode hand-overs, misses,
output frames and overruns; and the ends of a seek (R276) that the loops bring about. -/

namespace Sys2Proof.Machine

def State.loopOf (s : State) (a j : Nat) : TilLoop := tabGet s.loops (16 * a + j) {}
def State.setLoop (s : State) (a j : Nat) (v : TilLoop) : State := { s with loops := tabPut s.loops (16 * a + j) v {} }
def State.tilOf (s : State) (a : Nat) : Til := tabGet s.til a {}
def State.setTil (s : State) (a : Nat) (v : Til) : State := { s with til := tabPut s.til a v {} }
def State.prfOf (s : State) (a : Nat) : Prf := tabGet s.prf a {}
def State.setPrf (s : State) (a : Nat) (v : Prf) : State := { s with prf := tabPut s.prf a v {} }

/-- PRF_STAT.STATE (R276): 0 IDLE, 1 MOVE, 2 SETTLE_WAIT, 3 SETTLING, 4 STOPPING. -/
def State.seekState (s : State) (a : Nat) : Nat := s.get (pPRF a) PRF.PRF_STAT_STATE

/-- X_HOLD follows x_hold, in 1/256 track (R285); without a seek it is the reference too (R276). A finer position is shown rounded down
(DESIGN CHOICE, log 60). -/
def State.noteHold (s : State) (a : Nat) : State :=
  (s.put (pPRF a) PRF.X_HOLD (enc 32 ((s.prfOf a).hold / 16))).put (pPRF a) PRF.REF_POS (enc 32 ((s.prfOf a).hold / 16))

/-- The hand-overs that a seek has requested and no loop has taken are dropped: no loop changes mode after the seek's end
(R275, R277). -/
def State.dropSeekRequests (s : State) (a : Nat) : State :=
  s.each ((List.range 13).filter (fun j => !(s.loopOf a j).fw))
    (fun s j => s.put (pTIL a) (LOOP.LSTAT_PEND j) (withBit (s.get (pTIL a) (LOOP.LSTAT_PEND j)) 2 false))

/-- A seek ends with a status (R276); ABORTED or TIMEOUT, the reference in force becomes x_hold (R277). No feed-forward and no reference
velocity remain (R285). -/
def State.seekEnd (s : State) (a last : Nat) : State :=
  let f := s.prfOf a
  let hold := if last = 2 ∨ last = 3 then f.ref else f.hold
  ((((((((s.dropSeekRequests a).setPrf a { f with hold := hold, ff := 0, abort := false, stop := none, want := 0, cnt := 0 }).put (pPRF a)
    PRF.PRF_STAT_STATE 0).put (pPRF a) PRF.PRF_STAT_LAST last).put (pPRF a) PRF.FF 0).put (pPRF a) PRF.REF_VEL 0).irq (pPRF a) 1).noteHold a)

/-- Fencing of the actuator or an emergency retract ends its seek FENCED, and drops starts not yet decided (R277). -/
def State.seekFenced (s : State) (a : Nat) : State :=
  let s1 := s.setPrf a { s.prfOf a with starts := [], waited := 0 }
  if s1.seekState a = 0 then s1 else s1.seekEnd a 0xB

/-! ### Fixed point (R250–R252) -/

/-- Division by 2^k, rounded half away from zero. -/
def divAway (x : Int) (k : Nat) : Int :=
  if k = 0 then x
  else if 0 ≤ x then (x + 2 ^ (k - 1)) / 2 ^ k else -((-x + 2 ^ (k - 1)) / 2 ^ k)

/-- Two's complement of 64 and of 48 bits. -/
def wrap64 (x : Int) : Int := sgn 64 (enc 64 x)
def wrap48 (x : Int) : Int := sgn 48 (enc 48 x)

/-- A Q2.30 coefficient. -/
def State.coef (s : State) (p : Nat) (f : Fld) : Int := sgn 32 (s.get p f)

/-- The PID coefficients of a bank's mode. -/
structure PidCoef where
  kp : Int
  ki : Int
  kd : Int
  ad : Int
  osh : Nat
deriving DecidableEq, Repr

/-- A notch section's coefficients. -/
structure NotchCoef where
  b0 : Int
  b1 : Int
  b2 : Int
  a1 : Int
  a2 : Int
deriving DecidableEq, Repr

def State.pidCoef (s : State) (a j m : Nat) : PidCoef :=
  let p := pTIL a
  { kp := s.coef p (BANK.KP j m), ki := s.coef p (BANK.KI j m), kd := s.coef p (BANK.KD j m), ad := s.coef p (BANK.AD j m), osh := s.get p (BANK.OSHIFT j m) }

def State.notchCoefs (s : State) (a j : Nat) : List NotchCoef :=
  let p := pTIL a
  (List.range 4).map (fun i => { b0 := s.coef p (BANK.B0 j i), b1 := s.coef p (BANK.B1 j i), b2 := s.coef p (BANK.B2 j i), a1 := s.coef p (BANK.A1 j i), a2 := s.coef p (BANK.A2 j i) })

/-- The notch chain on an input: its output, the sections' states after it, whether a signal wrapped. -/
def notchRun (cs : List NotchCoef) (ss : List (Int × Int)) (x : Int) : Int × List (Int × Int) × Bool :=
  match cs, ss with
  | c :: cs', (s1, s2) :: ss' =>
    let y0 := divAway (c.b0 * x) 30 + s1
    let y := wrap64 y0
    let n1 := divAway (c.b1 * x) 30 - divAway (c.a1 * y) 30 + s2
    let n2 := divAway (c.b2 * x) 30 - divAway (c.a2 * y) 30
    let r := notchRun cs' ss' y
    (r.1, (wrap64 n1, wrap64 n2) :: r.2.1, decide (y0 ≠ y) || decide (n1 ≠ wrap64 n1) || decide (n2 ≠ wrap64 n2) || r.2.2)
  | _, _ => (x, ss, false)

/-- The states for which the chain passes `x` unchanged (R255). -/
def passThrough (c : NotchCoef) (x : Int) : Int × Int := (divAway (x * (2 ^ 30 - c.b0)) 30, divAway (x * (c.b2 - c.a2)) 30)

/-- What a computation leaves: e, i, d, section states, chain output, wraps of the integrator and of a signal. -/
structure LoopOut where
  e : Int
  i : Int
  d : Int
  ns : List (Int × Int)
  y : Int
  wrapI : Bool := false
  wrapS : Bool := false
deriving DecidableEq, Repr

/-- i and e[n − 1] of a loop, from its registers (R264). -/
def State.loopI (s : State) (a j : Nat) : Int := sgn 48 (s.get (pTIL a) (LOOP.INT_LO j) + 2 ^ 32 * s.get (pTIL a) (LOOP.INT_HI j))
def State.loopE (s : State) (a j : Nat) : Int := sgn 32 (s.get (pTIL a) (LOOP.ERR j))

/-- p, the new i, the new d and the notch-chain input (R250), with wraps of i and of a signal. -/
def pidLaw (c : PidCoef) (i d e e1 : Int) : Int × Int × Int × Bool × Bool :=
  let i0 := i + divAway (c.ki * e) 14
  let d0 := divAway (c.ad * d) 30 + divAway (c.kd * (e - e1)) 14
  let x0 := (divAway (c.kp * e) 14 + wrap48 i0 + wrap64 d0) * 2 ^ c.osh
  (wrap48 i0, wrap64 d0, wrap64 x0, decide (i0 ≠ wrap48 i0), decide (d0 ≠ wrap64 d0) || decide (x0 ≠ wrap64 x0))

/-- The loop law (R250). -/
def State.normalLaw (s : State) (a j m : Nat) (e : Int) : LoopOut :=
  let l := s.loopOf a j
  let r := pidLaw (s.pidCoef a j m) (s.loopI a j) l.d e (s.loopE a j)
  let n := notchRun (s.notchCoefs a j) l.ns r.2.2.1
  { e := e, i := r.1, d := r.2.1, ns := n.2.1, y := n.1, wrapI := r.2.2.2.1, wrapS := r.2.2.2.2 || n.2.2 }

/-- The preload limit of R255 and R258. -/
def tooLarge (i : Int) : Bool := decide (2 ^ 46 < i.natAbs)

/-- A bumpless close onto output code `u` in mode `m` (R255); none when refused. -/
def State.closeLaw (s : State) (a j m : Nat) (u e : Int) : Option LoopOut :=
  let c := s.pidCoef a j m
  let cs := s.notchCoefs a j
  let p := divAway (c.kp * e) 14
  let i := divAway (u * 2 ^ 16) c.osh - p
  if tooLarge i then none
  else
    let x := wrap64 ((p + i) * 2 ^ c.osh)
    let n := notchRun cs (cs.map (fun c => passThrough c x)) x
    some { e := e, i := i, d := 0, ns := n.2.1, y := n.1, wrapS := decide ((p + i) * 2 ^ c.osh ≠ x) || n.2.2 }

/-- A hand-over from mode `m` to mode `m'`, whose errors are `e` and `e'` (R257); none when refused (R258). -/
def State.handLaw (s : State) (a j m m' : Nat) (e e' : Int) : Option LoopOut :=
  let l := s.loopOf a j
  let old := pidLaw (s.pidCoef a j m) (s.loopI a j) l.d e (s.loopE a j)
  let c := s.pidCoef a j m'
  let p := divAway (c.kp * e') 14
  let d0 := divAway (c.ad * l.d) 30 + divAway (c.kd * (e' - s.loopE a j)) 14
  let d := wrap64 d0
  let i := divAway old.2.2.1 c.osh - p - d
  if tooLarge i then none
  else
    let x := (p + i + d) * 2 ^ c.osh
    let n := notchRun (s.notchCoefs a j) l.ns (wrap64 x)
    some { e := e', i := i, d := d, ns := n.2.1, y := n.1, wrapI := old.2.2.2.1, wrapS := old.2.2.2.2 || decide (d0 ≠ d) || decide (x ≠ wrap64 x) || n.2.2 }

/-! ### Errors (R249) -/

def State.loopMode (s : State) (a j : Nat) : Nat := s.get (pTIL a) (LOOP.LSTAT_MODE j)
def State.loopClosed (s : State) (a j : Nat) : Bool := s.on (pTIL a) (LOOP.LSTAT_CLOSED j)
def State.loopFenced (s : State) (a j : Nat) : Bool := s.on (pTIL a) (LOOP.LSTAT_FENCED j) || s.fenced (pTIL a)
def State.outCode (s : State) (a j : Nat) : Int := sgn 16 (s.get (pTIL a) (LOOP.OUTPUT j))
def State.maRef (s : State) (a k : Nat) : Int := sgn 16 (s.get (pTIL a) (LOOP.MA_REF k))

/-- MAEk (R249). -/
def State.mae (s : State) (a k : Nat) : Int := divAway (s.outCode a k * s.get (pTIL a) (BANK.LIM_MA_SCALE k)) 12

/-- The heads of H (R249). -/
def State.coupled (s : State) (a : Nat) : List Nat :=
  (List.range 12).filter (fun k => bit (s.get (pTIL a) TIL.COUPLE_MASK) k && s.pesOk a k)

/-- The absolute position of a head (R243) when its sample is PES_OK. -/
def State.headPos (s : State) (a k : Nat) : Option Int :=
  if k < 12 ∧ s.pesOk a k = true then some (s.srvHead (12 * a + k)).pos else none

/-- e of loop `j` in mode `m`, none where the loop computes nothing or its inputs are bad (R249, R260).
Without a seek the VCM in SEEK holds x_hold (R276). -/
def State.loopErr (s : State) (a j m : Nat) : Option Int :=
  if j < 12 then (if m ≠ 0 ∧ s.pesOk a j = true then some (s.maRef a j - s.pesOf a j) else none)
  else if m = 0 then
    (s.headPos a (s.prfOf a).refK).map (fun x => (if s.seekState a = 0 then (s.prfOf a).hold else (s.prfOf a).ref) - x)
  else
    let h := s.coupled a
    if h.isEmpty then none
    else some ((h.map (fun k => s.maRef a k - s.pesOf a k + s.mae a k)).sum.tdiv h.length)

/-- e is a 32-bit number; the spec states none for an error outside it: a free value (log 3). -/
def State.fitErr (s : State) (e : Int) : State × Int :=
  if e = sgn 32 (enc 32 e) then (s, e) else (s.drew, sgn 32 s.freeVal)

/-- ff of R250: the VCM's in SEEK. -/
def State.loopFf (s : State) (a j m : Nat) : Int := if j = 12 ∧ m = 0 then (s.prfOf a).ff else 0

/-! ### Computations -/

/-- The DAC's clamp to ±OUT_LIM (R253). -/
def State.clampOut (s : State) (a j : Nat) (u : Int) : Int :=
  let lim : Int := min 32767 (s.get (pTIL a) (BANK.LIM_OUT_LIM j))
  max (-lim) (min u lim)

/-- A code reaches the DAC: clamped, with LSTAT.SAT, FLAGS.SAT, SAT_CNT and IRQ_RAW.SAT (R253). -/
def State.toDac (s : State) (a j : Nat) (u : Int) : State × Int :=
  let p := pTIL a
  let v := s.clampOut a j u
  let s1 := s.putB p (LOOP.LSTAT_SAT j) (decide (v ≠ u))
  (if v = u then s1 else ((s1.put p (LOOP.FLAGS_SAT j) 1).inc p TIL.SAT_CNT).irq p 0, v)

/-- When the inputs of a loop were ready after T (R248). -/
def State.inputsReady (s : State) (a j m : Nat) : Nat :=
  let rdy := (s.srvOf a).rdy
  if j < 12 then rdy[j]?.getD 0
  else if m = 0 then rdy[(s.prfOf a).refK]?.getD 0
  else ((List.range 12).filter (bit (s.get (pTIL a) TIL.COUPLE_MASK))).foldl (fun r k => max r (rdy[k]?.getD 0)) 0

/-- READY_LAST and READY_MAX (R263): a loop was ready `t` sub-ticks after T. -/
def State.noteReady (s : State) (a t : Nat) : State :=
  let p := pTIL a
  let ft := min 4095 ((t + 63) / 64)
  let til := s.tilOf a
  let n := (s.srvOf a).n
  let s1 := if til.readyN = n then s.putMax p TIL.READY_LAST ft else (s.setTil a { til with readyN := n }).put p TIL.READY_LAST ft
  s1.putMax p TIL.READY_MAX (s1.get p TIL.READY_LAST)

/-- Wraps: FLAGS, WRAP_CNT, CTL FL0 (R251, R252). -/
def State.noteWraps (s : State) (a j : Nat) (o : LoopOut) : State :=
  let p := pTIL a
  let s1 := if o.wrapI then ((s.put p (LOOP.FLAGS_INT_WRAP j) 1).inc p TIL.WRAP_CNT).raise p 0 else s
  if o.wrapS then (s1.put p (LOOP.FLAGS_SIG_WRAP j) 1).raise p 1 else s1

/-- A completed computation: states, registers, output on its way to the frame, readiness with `corr` corrected coefficient
errors (R248, R250). A computation after the sample's frame left is late: its output is discarded (R261). -/
def State.finishLoop (s : State) (a j m corr : Nat) (o : LoopOut) : State :=
  let p := pTIL a
  let n := (s.srvOf a).n
  let s1 := (((s.put p (LOOP.INT_LO j) (enc 48 o.i)).put p (LOOP.INT_HI j) (enc 48 o.i / 2 ^ 32)).put p (LOOP.ERR j)
    (enc 32 o.e)).put p (LOOP.LSTAT_MISS j) 0
  let x := o.y + s.loopFf a j m * 2 ^ 16
  let r := (s1.noteWraps a j { o with wrapS := o.wrapS || decide (x ≠ wrap64 x) }).toDac a j (divAway (wrap64 x) 16)
  let ready := s.inputsReady a j m + 120 * 64 + 8 * 64 * corr
  let res := if (s.tilOf a).frameN = n then none else some r.2
  (r.1.setLoop a j { r.1.loopOf a j with d := o.d, ns := o.ns, res := res, ready := ready, stamp := n, missTold := false }).noteReady
    a ready

/-- The loop handled this sample without an output of its own. -/
def State.stampLoop (s : State) (a j : Nat) : State := s.setLoop a j { s.loopOf a j with stamp := (s.srvOf a).n }

/-- The loop is open at this sample: its output is OPEN_OUT (R254). -/
def State.openOut (s : State) (a j : Nat) : State :=
  let r := s.toDac a j (sgn 16 (s.get (pTIL a) (LOOP.OPEN_OUT j)))
  let res := if (s.tilOf a).frameN = (s.srvOf a).n then none else some r.2
  (r.1.setLoop a j { r.1.loopOf a j with res := res, ready := 0 }).stampLoop a j

/-- A missed sample (R260). -/
def State.missLoop (s : State) (a j : Nat) : State :=
  ((s.addSat (pTIL a) (LOOP.LSTAT_MISS j) 1).inc (pTIL a) TIL.MISS_CNT).stampLoop a j

def State.setPend (s : State) (a j i : Nat) (b : Bool) : State :=
  s.put (pTIL a) (LOOP.LSTAT_PEND j) (withBit (s.get (pTIL a) (LOOP.LSTAT_PEND j)) i b)

def State.pend (s : State) (a j i : Nat) : Bool := bit (s.get (pTIL a) (LOOP.LSTAT_PEND j)) i

/-- HO_STAT reports the last hand-over sample (R258, R263): `f` is DONE or REFUSED. -/
def State.noteHo (s : State) (a j irq : Nat) (f : Fld) : State :=
  let p := pTIL a
  let til := s.tilOf a
  let n := (s.srvOf a).n
  let s1 := if til.hoN = n then s else (s.setTil a { til with hoN := n }).put p TIL.HO_STAT 0
  (s1.put p f (withBit (s1.get p f) j true)).irq p irq

def State.hoDone (s : State) (a j m : Nat) : State :=
  (((s.setPend a j 2 false).put (pTIL a) (LOOP.LSTAT_MODE j) m).noteHo a j 1 TIL.HO_STAT_DONE)

def State.hoRefused (s : State) (a j : Nat) : State :=
  (((s.setPend a j 2 false).put (pTIL a) (LOOP.FLAGS_HO_REFUSED j) 1).noteHo a j 2 TIL.HO_STAT_REFUSED).raise (pTIL a) 2

/-- A request of firmware that names loop 12 takes effect during a seek: it ends ABORTED (R277). -/
def State.fwTook (s : State) (a j : Nat) : State := if j = 12 ∧ s.seekState a ≠ 0 then s.seekEnd a 2 else s

/-- An open loop at a sample (R254, R255). -/
def State.sampleOpen (s : State) (a j corr : Nat) : State :=
  let m := s.loopMode a j
  let n := (s.srvOf a).n
  if s.pend a j 0 then (((s.setPend a j 0 false).setPend a j 1 false).fwTook a j).openOut a j
  else if s.pend a j 1 && decide ((s.loopOf a j).clFrom ≤ n) then
    if j < 12 ∧ m = 0 then (((s.setPend a j 1 false).put (pTIL a) (LOOP.LSTAT_CLOSED j) 1).openOut a j)
    else match s.loopErr a j m with
      | none => s.openOut a j
      | some e0 =>
        let r := s.fitErr e0
        let s1 := (r.1.setPend a j 1 false).fwTook a j
        match s1.closeLaw a j m (sgn 16 (s1.get (pTIL a) (LOOP.OPEN_OUT j))) r.2 with
        | none => ((s1.put (pTIL a) (LOOP.FLAGS_CLOSE_REFUSED j) 1).raise (pTIL a) 10).openOut a j
        | some o => (s1.put (pTIL a) (LOOP.LSTAT_CLOSED j) 1).finishLoop a j m corr o
  else s.openOut a j

/-- A closed loop computes in its mode, or misses the sample (R250, R260); a microactuator loop in SEEK computes nothing. -/
def State.sampleClosed (s : State) (a j corr : Nat) : State :=
  let m := s.loopMode a j
  if j < 12 ∧ m = 0 then s.stampLoop a j
  else match s.loopErr a j m with
    | none => s.missLoop a j
    | some e0 => let r := s.fitErr e0; r.1.finishLoop a j m corr (r.1.normalLaw a j m r.2)

/-- The hand-over sample of a closed loop (R257–R259). -/
def State.sampleHand (s : State) (a j m' corr : Nat) : State :=
  let m := s.loopMode a j
  let took := fun (s : State) => if (s.loopOf a j).fw then s.fwTook a j else s
  if j < 12 ∧ m = 0 then
    match s.loopErr a j m' with
    | none => s.stampLoop a j
    | some e => match s.closeLaw a j m' (s.outCode a j) e with
      | none => (s.hoRefused a j).stampLoop a j
      | some o => (s.hoDone a j m').finishLoop a j m' corr o
  else if j < 12 ∧ m' = 0 then
    match s.loopErr a j m with
    | none => s.missLoop a j
    | some _ => (s.hoDone a j 0).stampLoop a j
  else match s.loopErr a j m, s.loopErr a j m' with
    | none, _ => s.missLoop a j
    | some _, none => s.sampleClosed a j corr
    | some e0, some e1 =>
      let r := s.fitErr e0
      let r' := r.1.fitErr e1
      match r'.1.handLaw a j m m' r.2 r'.2 with
      | none => ((took (r'.1.hoRefused a j))).sampleClosed a j corr
      | some o => (took (r'.1.hoDone a j m')).finishLoop a j m' corr o

/-- The loops a seek has asked to change: the VCM's and those of HEADS that are not fenced (R275). -/
def State.seekLoops (s : State) (a : Nat) : List Nat :=
  let heads := bits (((s.prfOf a).words[1]?.getD 0).toNat) 11 0
  ((List.range 12).filter (fun k => bit heads k && !s.loopFenced a k)) ++ [12]

/-- The seek ends FOLLOWING when every loop asked has reached FOLLOW (R275). -/
def State.seekCheck (s : State) (a : Nat) : State :=
  let f := s.prfOf a
  if s.seekState a = 3 ∧ f.want = 2 ∧ (s.seekLoops a).all (fun j => decide (s.loopMode a j = 2)) = true then
    let evt := bits ((f.words[7]?.getD 0).toNat) 31 28
    let s1 := ((s.seekEnd a 1).irq (pPRF a) 0).inc (pPRF a) PRF.SEEK_CNT
    if evt = 15 then s1 else s1.dilRaise a (2 ^ evt)
  else s

/-- Request a change of mode of loop `j` from sample `from_` on: an open loop changes at once (R257). -/
def State.requestMode (s : State) (a j m from_ : Nat) (fw : Bool) : State :=
  if s.loopClosed a j then
    (s.setLoop a j { s.loopOf a j with hoMode := m, hoFrom := from_, fw := fw }).setPend a j 2 true
  else s.put (pTIL a) (LOOP.LSTAT_MODE j) m

/-! ### Meanings -/

/-- R250–R260: loop `j` at the sample last taken. -/
def execTillerCompute (a : Fin 8) (j : Fin 13) (corrected : BitVec 6) (s : State) : Out :=
  let a := a.val
  let j := j.val
  let p := pTIL a
  let n := (s.srvOf a).n
  let l := s.loopOf a j
  if s.running p ∧ s.fenced p = false ∧ l.stamp < n then
    let s0 := if corrected = 0 then s else s.raise p 9
    if s.on p (LOOP.LSTAT_FENCED j) then .next (s0.stampLoop a j)
    else if s0.loopClosed a j then
      if s0.pend a j 0 then
        let s1 := if s0.pend a j 2 then s0.put p (LOOP.LSTAT_MODE j) l.hoMode else s0
        .next (((((s1.put p (LOOP.LSTAT_PEND j) 0).put p (LOOP.LSTAT_CLOSED j) 0).fwTook a j).openOut a j).seekCheck a)
      else
        let s1 := if s0.pend a j 1 then (s0.setPend a j 1 false).fwTook a j else s0
        if s1.pend a j 2 && decide (l.hoFrom ≤ n) then
          if l.hoMode = s1.loopMode a j then
            let s2 := s1.setPend a j 2 false
            .next (((if l.fw then s2.fwTook a j else s2).sampleClosed a j corrected.toNat).seekCheck a)
          else .next ((s1.sampleHand a j l.hoMode corrected.toNat).seekCheck a)
        else .next (s1.sampleClosed a j corrected.toNat)
    else .next ((s0.sampleOpen a j corrected.toNat).seekCheck a)
  else .next s

/-- R260: a loop's consecutive misses reach MISS_LIMIT. -/
def execMissLimit (a : Fin 8) (j : Fin 13) (s : State) : Out :=
  let p := pTIL a.val
  let l := s.loopOf a.val j.val
  if l.missTold = false ∧ max 1 (s.get p TIL.TIL_CFG_MISS_LIMIT) ≤ s.get p (LOOP.LSTAT_MISS j.val) then
    let s1 := s.setLoop a.val j.val { l with missTold := true }
    if j.val < 12 then .next (s1.raiseSub p 6 j.val) else .next (s1.raise p 7)
  else .next s

/-- A closed loop's output is not ready when the frame leaves (R261). -/
def State.overruns (s : State) (a j : Nat) : Bool :=
  let l := s.loopOf a j
  let dead := max 600 (min (s.get (pTIL a) TIL.TIL_CFG_OUT_DEADLINE) 2400) * 64
  !s.loopFenced a j && s.loopClosed a j && (decide (l.stamp ≠ (s.srvOf a).n) || (l.res.isSome && decide (dead < l.ready)))

/-- The output of loop `j` in the frame of this sample: in force, or OPEN_OUT of a fenced loop, or the previous one (R254,
R259, R261). -/
def State.frameLoop (s : State) (a j : Nat) : State :=
  let p := pTIL a
  let l := s.loopOf a j
  if s.loopFenced a j then
    let r := s.toDac a j (sgn 16 (s.get p (LOOP.OPEN_OUT j)))
    (r.1.put p (LOOP.OUTPUT j) (enc 16 r.2)).setLoop a j { l with res := none }
  else if s.overruns a j then
    ((((s.setLoop a j { l with res := none }).put p (LOOP.FLAGS_OVERRUN j) 1).inc p TIL.OVR_CNT).addSat p (LOOP.LSTAT_OVR j) 1)
  else
    let s1 := (s.setLoop a j { l with res := none }).put p (LOOP.LSTAT_OVR j) 0
    match l.res with
    | some u => s1.put p (LOOP.OUTPUT j) (enc 16 u)
    | none => s1

/-- R248, R261: the frame of the 13 outputs in force leaves for MOT. -/
def execOutputFrame (a : Fin 8) (s : State) : Out :=
  let a := a.val
  let p := pTIL a
  let n := (s.srvOf a).n
  if s.present p ∧ s.powered p ∧ ((s.enabled p = true ∧ (s.tilOf a).frameN < n) ∨ s.fenced p = true) then
    let ovr := (List.range 13).any (s.overruns a)
    let s1 := s.each (List.range 13) (fun s j => s.frameLoop a j)
    let s2 := if ovr then (s1.irq p 3).raise p 4 else s1
    let til := s2.tilOf a
    let lim := max 1 (s.get p TIL.TIL_CFG_OVERRUN_LIMIT)
    let below := (List.range 13).all (fun j => decide (s2.get p (LOOP.LSTAT_OVR j) < lim))
    .next (s2.setTil a { til with frameN := n, frame := some ((List.range 13).map (s2.outCode a)), limTold := til.limTold && !below })
  else .next s

/-- R261: a loop's consecutive overruns reach OVERRUN_LIMIT. -/
def execOverrunLimit (a : Fin 8) (s : State) : Out :=
  let p := pTIL a.val
  let til := s.tilOf a.val
  let lim := max 1 (s.get p TIL.TIL_CFG_OVERRUN_LIMIT)
  if til.limTold = false ∧ (List.range 13).any (fun j => decide (lim ≤ s.get p (LOOP.LSTAT_OVR j))) = true then
    .next ((s.setTil a.val { til with limTold := true }).raise p 5)
  else .next s

/-- The loops that a write names, each with an effect. -/
def eachLoop (mask : Nat) (s : State) (f : State → Nat → State) : State := s.each ((List.range 13).filter (bit mask)) f

/-- R254: a write of OPEN_SET. -/
def execOpenSet (m : Master) (a : Fin 8) (mask : BitVec 13) (s : State) : Out :=
  .next (s.regCmd m (pTIL a.val) 0x48 (fun s => eachLoop mask.toNat s (fun s j => s.setPend a.val j 0 true)))

/-- R254, R255: a write of CLOSE_SET. -/
def execCloseSet (m : Master) (a : Fin 8) (mask : BitVec 13) (s : State) : Out :=
  .next (s.regCmd m (pTIL a.val) 0x4C (fun s => eachLoop mask.toNat s (fun s j =>
    (s.setLoop a.val j { s.loopOf a.val j with clFrom := 0 }).setPend a.val j 1 true)))

/-- R257: a write of HANDOVER; a reserved MODE requests nothing. -/
def execHandover (m : Master) (a : Fin 8) (mode : BitVec 2) (mask : BitVec 13) (s : State) : Out :=
  .next (s.regCmd m (pTIL a.val) 0x50 (fun s =>
    if mode = 3 then s else eachLoop mask.toNat s (fun s j => s.requestMode a.val j mode.toNat 0 true)))

/-- MA_REF with register writes `w` before and Drill additions `d` after what this FCLK cycle has brought so far: the writes land
first, each sum saturates (R249). -/
def State.addRef (s : State) (a k : Nat) (w d : List Int) : State :=
  let l := s.loopOf a k
  let same := decide (l.maCycle = s.time / fclkSub + 1)
  let base := w.foldl (fun r x => satS 16 (r + x)) (if same then l.maBase else s.maRef a k)
  let adds := (if same then l.maAdds else []) ++ d
  (s.setLoop a k { l with maCycle := s.time / fclkSub + 1, maBase := base, maAdds := adds }).put (pTIL a) (LOOP.MA_REF k)
    (enc 16 (adds.foldl (fun r x => satS 16 (r + x)) base))

/-- R249: a write of a loop's MA_REF adds to the sum; reserved for the VCM's. -/
def execMaRef (m : Master) (a : Fin 8) (j : Fin 13) (v : BitVec 16) (s : State) : Out :=
  .next (s.regCmd m (pTIL a.val) (0x11C + 0x20 * j.val) (fun s => if j.val < 12 then s.addRef a.val j.val [v.toInt] [] else s))

/-- R76, R249, R537: an MA_OFFSET entry launches. -/
def execMaOffset (a : Fin 8) (s : State) : Out :=
  match s.dueAction a.val aMAOFS false with
  | none => .next s
  | some e =>
    if s.drillFenced a.val aMAOFS e.target e.arg then .next (s.retireOne a.val e 3 0)
    else .next ((s.retireOne a.val e 0 0).addRef a.val e.target [] [sgn 16 (bits e.arg 15 0)])

end Sys2Proof.Machine
end

