-- ==== Sys2Proof/Machine/Spindle.lean ====
section
/-! DEFINITION. The spindle controller (R288–R321): states and commands, starts, back-EMF sensing and commutation, speed
regulation, Drill overrides, stopping, emergencies; and the die-to-die link's loss (R15). -/

namespace Sys2Proof.Machine

abbrev stSTOPPED : Nat := 0
abbrev stSENSE : Nat := 1
abbrev stPREBRAKE : Nat := 2
abbrev stALIGN : Nat := 3
abbrev stRAMP : Nat := 4
abbrev stACCEL : Nat := 5
abbrev stRUN : Nat := 6
abbrev stDECEL : Nat := 7
abbrev stBRAKE : Nat := 8
abbrev stCOAST : Nat := 9
abbrev stHOLDUP : Nat := 10

def State.spnState (s : State) : Nat := s.get pSPN SPN.SPN_STAT_STATE
def State.rampState (s : State) (a : Nat) : Nat := s.get pMOT (MOTA.RAMP_STAT_STATE a)
def State.mactOf (s : State) (a : Nat) : Mact := tabGet s.macts a {}
def State.setMact (s : State) (a : Nat) (v : Mact) : State := { s with macts := tabPut s.macts a v {} }

/-- The actuators of the part. -/
def State.acts (s : State) : List Nat := (List.range 8).filter s.part.hasAct

/-- A write to a page of the motion die crosses the die-to-die link: lost when the link is (R14, R15). -/
def State.motCmd (s : State) (m : Master) (p off : Nat) (k : State → State) : State :=
  if s.d2dLost then s else s.regCmd m p off k

/-! ### Timing (R288–R290) -/

/-- Motion-die clock cycle: 24 ft. -/
abbrev mclkSub : Nat := 24 * 64

/-- The target electrical period in sub-ticks (R288). -/
def State.targetPer (s : State) : Rat := if s.on pSPN SPN.SPN_CFG_SPEED then (80000000 / 12 : Rat) * 64 else 5000000 * 64

/-- PWM period in sub-ticks (R290). -/
abbrev pwmSub : Nat := 50000 * 64

/-- A configured value held within a stated range (R321). -/
def clampTo (lo hi v : Nat) : Nat := max lo (min v hi)

def State.advDeg (s : State) : Rat := (clampTo 0 60 (s.get pSPN SPN.SPN_CFG_ADV) : Rat) / 4
def State.zcWin (s : State) : Nat := clampTo 5 25 (s.get pSPN SPN.PWM_CFG_ZC_WIN)

/-- The bridge's drive limit (R290). -/
def State.driveI (s : State) : Nat := min (s.get pSPN SPN.TQ_LIM_DRIVE_I) (if s.on pSPN SPN.SPN_CFG_WAVE then 3500 else 2000)

/-- The predicted electrical period: the last six step intervals, or the open-loop steps (R296, R309). -/
def State.elecPer (s : State) : Rat :=
  match s.spn.comm with
  | t :: r => match r[5]? with
    | some t6 => ((t - t6 : Int) : Rat)
    | none => 6 * s.spn.stepLen
  | [] => 6 * s.spn.stepLen

/-- The expected zero crossing of the step: 60° after the last. -/
def State.nextZc (s : State) : Rat := s.spn.zc + s.elecPer / 6

/-- The first motion-die edge at or after an exact time (R289). -/
def mclkAfter (t : Rat) : Int := -((-t / (mclkSub : Rat)).floor) * mclkSub

/-- Rotation speed in rpm for an electrical period in sub-ticks. -/
def rpmOf (per : Rat) : Rat := if per ≤ 0 then 0 else (2400000000 * 64 * 60 : Rat) / (4 * per)

/-! ### States (R306) -/

/-- AT_SPEED clears: FINE clears and the tracker is IDLE (R302, R304). -/
def State.speedLost (s : State) : State :=
  if s.on pSPN SPN.SPN_STAT_AT_SPEED then (s.put pSPN SPN.SPN_STAT_AT_SPEED 0).trackerIdle else s

/-- A change of STATE. Leaving RUN clears AT_SPEED; leaving DECEL turns the chopper off (R304, R316). -/
def State.spnGo (s : State) (st : Nat) : State :=
  let was := s.spnState
  let s1 := { (s.put pSPN SPN.SPN_STAT_STATE st).irq pSPN 1 with spn := { s.spn with since := s.time } }
  let s2 := if was = stRUN ∧ st ≠ stRUN then s1.speedLost else s1
  let s3 := if was = stDECEL ∧ st ≠ stDECEL then (s2.put pSPN SPN.SPN_STAT_CHOP_ON 0).put pSPN SPN.SPN_STAT_REGEN_RED 0 else s2
  if st = stACCEL ∨ st = stRUN ∨ st = stDECEL then s3
  else s3.put pSPN SPN.TQ (if st = stALIGN ∨ st = stRAMP then s.get pSPN SPN.START_CFG_ALIGN_I * 20 else 0)

/-- START_STAT.OUTCOME is written (R311). -/
def State.spnOutcome (s : State) (o : Nat) : State := (s.put pSPN SPN.START_STAT_OUTCOME o).irq pSPN 2

/-- A start in progress, before ACCEL (R311). -/
def State.starting (s : State) : Bool := decide (1 ≤ s.spnState) && decide (s.spnState ≤ 4)

/-- The speed now in rpm: from the step intervals while the controller steps, 0 in STOPPED and ALIGN; the spec gives no value
where nothing measures it: a free value (log 3). -/
def State.rpmNow (s : State) : State × Nat :=
  let st := s.spnState
  if st = stRAMP ∨ st = stACCEL ∨ st = stRUN ∨ st = stDECEL then
    let r := s.roundFree (rpmOf s.elecPer)
    (r.1, r.2.toNat)
  else if st = stSTOPPED ∨ st = stALIGN then (s, 0)
  else (s.drew, s.freeVal % 65536)

/-- An entry into a braked state is logged (R319). -/
def State.logBrake (s : State) (cause : Nat) : State :=
  let r := s.rpmNow
  (r.1.put pSPN SPN.BRAKE_LOG_CAUSE cause).put pSPN SPN.BRAKE_LOG_SPEED_AT r.2

def State.shortBrake (s : State) (cause : Nat) : State := (s.logBrake cause).spnGo stBRAKE

/-- ALIGN begins on step 0 (R309). TQ_I starts from 0 (DESIGN CHOICE, log 138). -/
def State.startAlign (s : State) : State :=
  let s1 := (s.spnGo stALIGN).put pSPN SPN.SPN_STAT_STEP 0
  { s1 with spn := { s1.spn with alignAt := some s1.time, comm := [], stepLen := 0, catching := none, good := 0, eper := 0, tqI := 0 } }

/-- Short-brake before ALIGN (R310). -/
def State.preBrake (s : State) (outcome : Nat) : State := ((s.logBrake 3).spnGo stPREBRAKE).spnOutcome outcome

/-! ### The reset of the motion die (R455, R468) -/

/-- What a warm reset leaves of the motion die's page-specific registers: RET_LOG, LOSS_LOG and LOSS_TIME, BRAKE_LOG (R470). -/
def motionKept (p off : Nat) : Bool :=
  (p == pMOT && (off == 0x78 || off == 0x218 || off == 0x21C)) || (p == pSPN && off == 0xAC)

/-- The motion die takes its reset values, but for what `keep` names; the spindle is no longer at speed (R66). -/
def State.motionReset (s0 : State) (keep : Nat → Nat → Bool) : State :=
  let s := s0.speedLost
  let out := fun (k : Nat) => (decide (k / 1024 = pSPN) || decide (k / 1024 = pMOT)) && decide (16 ≤ k % 1024) && !keep (k / 1024) (4 * (k % 1024))
  let s1 : State := { s with regs := s.regs.filter (fun e => !out e.1), macts := [], mot := {}, spn := {}, spnWedge := none, supply := none, windowClosed := false, motionDue := false, shockSince := 0 }
  s1.put pMOT MOT.SUP_STAT_LOSS 0

/-- Every actuator is PARKED or PARK_FAILED, the spindle STOPPED, and nothing is asked for. -/
def State.motionStill (s : State) : Bool :=
  decide (s.spnState = stSTOPPED) && s.acts.all (fun a => decide (s.rampState a = 0 ∨ s.rampState a = 7)) && s.mot.retractReq.isNone

/-- The stop of a reset has ended: MOT and SPN take their reset values (R468). -/
def State.motionSettle (s : State) : State := if s.motionDue && s.motionStill then s.motionReset motionKept else s

/-! ### Commands (R307) -/

/-- A refused command: its reason, IRQ_RAW.REFUSED, SPN FL0. -/
def State.spnRefuse (s : State) (reason : Nat) : State :=
  ((s.put pSPN SPN.SPN_STAT_REFUSE reason).irq pSPN 3).raise pSPN 7

/-- Every present actuator is PARKED. -/
def State.allParked (s : State) : Bool := s.acts.all (fun a => decide (s.rampState a = 0))

/-- NOM_REV differs by more than 0.1 % from the value for SPEED (R305). -/
def State.nomMismatch (s : State) : Bool :=
  let v : Nat := if s.on pSPN SPN.SPN_CFG_SPEED then 0x65B9AAAB else 0x4C4B4000
  let d : Int := (s.get pFUR FUR.NOM_REV : Int) - v
  decide (v < 1000 * d.natAbs)

/-- The guard of the commands that the table accepts in the states `ok`. -/
def State.spnGuard (s : State) (ok : Bool) : Option Nat :=
  if !s.enabled pSPN || s.fenced pSPN then some 3
  else if !s.allParked then some 1
  else if !ok || s.mot.emergReq then some 2
  else none

/-- COAST, as a command and as ENABLE's clear (R307, R308); none when refused. -/
def State.coastCmd (s : State) : Option Nat := s.spnGuard (decide (1 ≤ s.spnState) && decide (s.spnState ≤ 8))

def State.goCoast (s : State) : State :=
  let s1 := if s.starting then s.spnOutcome 7 else s
  s1.spnGo stCOAST

/-- R307, R310: START. -/
def execSpnStart (m : Master) (s : State) : Out :=
  .next (s.motCmd m pSPN 0x40 (fun s =>
    let st := s.spnState
    let ok := st = stSTOPPED || st = stCOAST || st = stDECEL || (st = stBRAKE && !s.spn.emerg)
    match s.spnGuard ok with
    | some r => s.spnRefuse r
    | none =>
      if s.nomMismatch then s.spnRefuse 5
      else
        let s1 := s.spnGo stSENSE
        { s1 with spn := { s1.spn with alignAt := none, bridgeOff := false } }))

/-- R307, R314: STOP. -/
def execSpnStop (m : Master) (s : State) : Out :=
  .next (s.motCmd m pSPN 0x40 (fun s =>
    let st := s.spnState
    let run := st = stACCEL || st = stRUN
    match s.spnGuard (run || s.starting) with
    | some r => s.spnRefuse r
    | none =>
      if run then
        let s1 := s.spnGo stDECEL
        { s1 with spn := { s1.spn with brakeLim := s1.get pSPN SPN.TQ_LIM_BRAKE_I } }.put pSPN SPN.TQ
          (enc 16 (-(s1.get pSPN SPN.TQ_LIM_BRAKE_I : Int)))
      else (s.spnOutcome 7).shortBrake 1))

/-- R307: BRAKE. -/
def execBrake (m : Master) (s : State) : Out :=
  .next (s.motCmd m pSPN 0x40 (fun s =>
    let st := s.spnState
    match s.spnGuard ((decide (1 ≤ st) && decide (st ≤ 7)) || st = stCOAST) with
    | some r => s.spnRefuse r
    | none => (if s.starting then s.spnOutcome 7 else s).shortBrake 2))

/-- R307: COAST. -/
def execCoast (m : Master) (s : State) : Out :=
  .next (s.motCmd m pSPN 0x40 (fun s =>
    match s.coastCmd with
    | some r => s.spnRefuse r
    | none => s.goCoast))

/-! ### Starting (R309–R311) -/

/-- R310: the end of SENSE: amplitude seen (mV), crossings in sequence, forward, mean electrical period (ft), next predicted
crossing (Furrow time [31:0]) and its step. -/
def execSenseEnd (amp : BitVec 16) (crossings : BitVec 8) (fwd : Bool) (per next : Word) (step : Fin 6) (s : State) : Out :=
  if s.spnState = stSENSE ∧ s.spn.since + 48000000 * 64 ≤ s.time then
    let seen := decide (3 ≤ crossings.toNat)
    let p : Rat := (per.toNat * 64 : Nat)
    let r := if seen then s.roundFree (rpmOf p) else (s, 0)
    let still := decide (amp.toNat < s.get pSPN SPN.CATCH_CFG_STOP_BEMF)
    let dir := if still then 0 else if !seen then 3 else if fwd then 1 else 2
    let s1 := (r.1.put pSPN SPN.START_STAT_SPEED_SEEN r.2.toNat).put pSPN SPN.START_STAT_DIR_SEEN dir
    if still then .next ((s1.spnOutcome 1).startAlign)
    else if !seen then .next (s1.preBrake 5)
    else if !fwd then .next (s1.preBrake 4)
    else if (clampTo 5 90 (s.get pSPN SPN.CATCH_CFG_CATCH_PCT) : Rat) * p ≤ 100 * s.targetPer then
      let z : Int := nearest32 s.time next
      let s2 := ((s1.spnOutcome 2).spnGo stACCEL).put pSPN SPN.SPN_STAT_STEP step.val
      let base : Rat := (z : Rat) - p / 6
      .next { s2 with spn := { s2.spn with zc := base, zcNew := false, stepLen := p / 6, comm := [], catching := some 0, miss := 0, tqI := 0, eper := 0, good := 0, alignAt := none } }
    else .next (s1.preBrake 3)
  else .next s

/-- R306: in PREBRAKE the back-EMF amplitude falls below STOP_BEMF. -/
def execPrebrakeEnd (amp : BitVec 16) (s : State) : Out :=
  if s.spnState = stPREBRAKE ∧ amp.toNat < s.get pSPN SPN.CATCH_CFG_STOP_BEMF then .next s.startAlign else .next s

/-- R309: ALIGN_T elapses. -/
def execAlignEnd (s : State) : Out :=
  if s.spnState = stALIGN ∧ s.spn.since + s.get pSPN SPN.START_CFG_ALIGN_T * 10 * msSub ≤ s.time then
    let s1 := s.spnGo stRAMP
    .next { s1 with spn := { s1.spn with stepLen := (40 * msSub : Nat), comm := [(s1.time : Int)] } }
  else .next s

/-- R309: an open-loop step elapses; at the HANDOFF speed ACCEL begins, its first crossing expected as in a step of even speed (DESIGN
CHOICE, log 138). -/
def execRampStep (s : State) : Out :=
  match s.spn.comm with
  | t :: r =>
    let due := mclkAfter ((t : Rat) + s.spn.stepLen)
    if s.spnState = stRAMP ∧ due ≤ s.time then
      let len := s.spn.stepLen * 97 / 100
      let s1 := s.put pSPN SPN.SPN_STAT_STEP ((s.get pSPN SPN.SPN_STAT_STEP + 1) % 6)
      let s2 : State := { s1 with spn := { s1.spn with stepLen := len, comm := (due :: t :: r).take 25 } }
      if len * s.get pSPN SPN.START_CFG_HANDOFF ≤ 1000 * (s.targetPer / 6) then
        let s3 := s2.spnGo stACCEL
        .next { s3 with spn := { s3.spn with zc := (due : Rat) - (30 - s3.advDeg) * s3.elecPer / 360, zcNew := false, miss := 0, eper := 0, good := 0 } }
      else .next s2
    else .next s
  | [] => .next s

/-- R309: AT_SPEED has not set within RAMP_TMO of the entry into ALIGN. -/
def execStartTimeout (s : State) : Out :=
  let st := s.spnState
  match s.spn.alignAt with
  | some t =>
    if (st = stALIGN ∨ st = stRAMP ∨ st = stACCEL) ∧ t + s.get pSPN SPN.START_CFG_RAMP_TMO * 1000 * msSub ≤ s.time then
      .next (((s.spnOutcome 6).raise pSPN 1).spnGo stCOAST)
    else .next s
  | none => .next s

/-! ### Sensing and commutation (R294–R300) -/

/-- The shift s of a sample point in motion-die cycles, and whether the point is NARROW (R298, R299). -/
def State.sampleShift (s : State) (x : BemfSample) : Nat × Bool :=
  let nat : Rat := (1 - (x.duty.toNat : Rat) / 65536) * 50000
  let want : Rat := (s.get pSPN SPN.PWM_CFG_T_WIN_MIN * 24 : Nat)
  if want ≤ nat then (0, false)
  else
    let up := -((-((want - nat) / 2) / 24).floor)
    let most := (nat / 2 / 24).floor
    ((min up most).toNat, decide (nat + nat < want))

/-- The sample points of a sense window: shift and NARROW statistics (R298–R300). -/
def State.noteSamples (s : State) (xs : List BemfSample) : State :=
  s.each xs (fun s x =>
    let r := s.sampleShift x
    let s1 : State := { s with spn := { s.spn with maxShift := max s.spn.maxShift r.1, shifted := s.spn.shifted + (if r.1 = 0 then 0 else 1), narrow := s.spn.narrow + b2n r.2 } }
    if r.2 then s1.inc pSPN SPN.NARROW_CNT else s1)

/-- The first change of sign between consecutive usable samples, interpolated (R295), as an exact time. -/
def crossingOf (now : Int) (xs : List BemfSample) : Option Rat :=
  match xs with
  | x :: y :: r =>
    let t1 := nearest32 now x.time
    let t2 := nearest32 now y.time
    if x.v.toInt < 0 ∧ 0 ≤ y.v.toInt then
      some ((t1 : Rat) + ((t2 - t1 : Int) : Rat) * ((-x.v.toInt : Int) : Rat) / ((y.v.toInt - x.v.toInt : Int) : Rat))
    else crossingOf now (y :: r)
  | _ => none

/-- HARD (1) or SOFT (0) six-step (R321). -/
def State.hard (s : State) : Bool := s.on pSPN SPN.SPN_CFG_WAVE

/-- FLOAT_W and EDGE_W in electrical degrees; FLOAT_W below 2·ZC_WIN acts as 2·ZC_WIN (R292, R321). -/
def State.floatW (s : State) : Nat := max (2 * s.zcWin) (clampTo 10 40 (s.get pSPN SPN.SPN_CFG_FLOAT_W))
def State.edgeW (s : State) : Nat := clampTo 5 30 (s.get pSPN SPN.SPN_CFG_EDGE_W)

/-- A window of `deg` electrical degrees to either side of the expected zero crossing, as exact times. -/
def State.aboutZc (s : State) (deg : Rat) : Rat × Rat := (s.nextZc - deg * s.elecPer / 360, s.nextZc + deg * s.elecPer / 360)

/-- The sense window (R294), in SOFT confined to the float window. -/
def State.senseWindow (s : State) : Rat × Rat := s.aboutZc (if s.hard then (s.zcWin : Rat) else min (s.zcWin : Rat) ((s.floatW : Rat) / 2))

/-- A sample point lies in the sense window, which contains its open and not its close (R61, R62). -/
def State.inSense (s : State) (x : BemfSample) : Bool :=
  let t : Rat := nearest32 s.time x.time
  decide (s.senseWindow.1 ≤ t) && decide (t < s.senseWindow.2)

/-- Closed-loop commutation: ACCEL, RUN, DECEL (R306). -/
def State.commutating (s : State) : Bool := s.spnState = stACCEL || s.spnState = stRUN || s.spnState = stDECEL

/-- Outside every QUIET window: an edge inside one moves to its close (R313). -/
def quietDelay (ws : List (Nat × Nat)) (t : Int) : Int :=
  (List.range ws.length).foldl (fun t _ => ws.foldl (fun (t : Int) w => if (w.1 : Int) ≤ t ∧ t < w.2 then (w.2 : Int) else t) t) t

/-! ### The bridge's outputs (R290–R292, R298, R306) -/

/-- What the bridge does to a phase: floats it, holds its low-side switch on, or drives it. A level 1 is driven high under PWM, −1
driven low, and between them the duty is that fraction of the way. -/
inductive PhaseOut where
  | float
  | brake
  | driven (level : Rat)
deriving DecidableEq, Repr

/-- The phases that step `k` drives high and drives low, and the one that floats and is sensed (R291). The spec numbers neither the phases
nor the pairs of a step: step 0 drives phase 0 high and phase 1 low (DESIGN CHOICE, log 136). -/
def stepPhases (k : Nat) : Nat × Nat × Nat :=
  match k % 6 with
  | 0 => (0, 1, 2)
  | 1 => (0, 2, 1)
  | 2 => (1, 2, 0)
  | 3 => (1, 0, 2)
  | 4 => (2, 0, 1)
  | _ => (2, 1, 0)

/-- The level at which step `k` drives phase `i`: 1 high, −1 low, 0 not. -/
def stepLevel (k i : Nat) : Rat := if (stepPhases k).1 = i then 1 else if (stepPhases k).2.1 = i then -1 else 0

/-- The commutation that began the present step. -/
def State.stepBegan (s : State) : Rat :=
  match s.spn.comm with
  | t :: _ => (t : Rat)
  | [] => (s.spn.since : Rat)

/-- A soft edge has run for this fraction of EDGE_W at time `t` of the step (R292). -/
def State.edgeDone (s : State) (t : Rat) : Rat :=
  if s.elecPer ≤ 0 then 1 else max 0 (min 1 ((t - s.stepBegan) * 360 / s.elecPer / (s.edgeW : Rat)))

/-- The output of phase `i` at time `t` (R291, R292, R306). In SOFT a phase that a step begins or ends to drive ramps from its old level
to its new one from the commutation on (DESIGN CHOICE, log 136), and floats in its float window alone. -/
def State.phaseOut (s : State) (i : Nat) (t : Rat) : PhaseOut :=
  let st := s.spnState
  let k := s.get pSPN SPN.SPN_STAT_STEP
  let lev := stepLevel k i
  if s.spn.bridgeOff || st = stSTOPPED || st = stSENSE || st = stCOAST || st = stHOLDUP then .float
  else if st = stPREBRAKE ∨ st = stBRAKE then .brake
  else if s.hard || st = stALIGN then (if lev = 0 then .float else .driven lev)
  else if lev = 0 ∧ (s.aboutZc ((s.floatW : Rat) / 2)).1 ≤ t ∧ t < (s.aboutZc ((s.floatW : Rat) / 2)).2 then .float
  else .driven (stepLevel (k + 5) i + (lev - stepLevel (k + 5) i) * s.edgeDone t)

/-- The edges of the driven phases' pulse in the PWM period that begins at `t0`, for duty `d`, its pulse moved by `mv` (early below 0:
R298): centre-aligned, on motion-die edges, an edge inside a QUIET window at its close (R289, R290, R313). -/
def State.pulse (s : State) (t0 : Int) (d : Rat) (mv : Int) : Int × Int :=
  let c : Rat := (t0 : Rat) + pwmSub / 2 + (mv : Rat)
  (quietDelay s.spn.quiet (mclkAfter (c - d * pwmSub / 2)), quietDelay s.spn.quiet (mclkAfter (c + d * pwmSub / 2)))

/-- A register of mA takes an exact current; the spec states no rounding (log 3). -/
def State.putTq (s : State) (x : Rat) : State :=
  let r := s.roundFree x
  r.1.put pSPN SPN.TQ (enc 16 r.2)

/-- One regulation with gains in Q8.8 on an error: TQ = TQ_I + KP·e within [0, DRIVE_I], then TQ_I += KI·e unless clamped
(R301, R302); frozen under TQ_HOLD (R313). -/
def State.regulate (s : State) (kp ki : Nat) (e : Rat) : State :=
  if s.time < s.spn.holdUntil then s
  else
    let raw := s.spn.tqI + (kp : Rat) / 256 * e
    let lim : Rat := s.driveI
    let tq := max 0 (min raw lim)
    let s1 := s.putTq tq
    if tq = raw then { s1 with spn := { s1.spn with tqI := s1.spn.tqI + (ki : Rat) / 256 * e } } else s1

/-- The end of a revolution (R303, R304): REV_PERIOD, SPD_ERR, the counts of good revolutions. -/
def State.endRev (s : State) (rev : Rat) : State :=
  let target := 4 * s.targetPer
  let rel := (rev - target) / target
  let r := s.roundFree (rel * 100000000)
  let e := satS 16 r.2
  let s1 := ((r.1.put pSPN SPN.REV_PERIOD (rev.floor.toNat)).put pSPN SPN.SPD_ERR (enc 16 e)).putMax pSPN SPN.SPD_ERR_MAX e.natAbs
  let good := decide (ratAbs rel ≤ 1 / 1000)
  { s1 with spn := { s1.spn with good := if good then s1.spn.good + 1 else 0, revBad := decide (5 / 1000 < ratAbs rel) } }

/-- The end of an electrical period: SHIFT_STAT (R300), and every fourth a revolution. -/
def State.endElec (s : State) : State :=
  let k := s.spn
  let s1 := ((s.put pSPN SPN.SHIFT_STAT_MAX_SHIFT (min k.maxShift 4095)).put pSPN SPN.SHIFT_STAT_SHIFTED (min k.shifted 255)).put
    pSPN SPN.SHIFT_STAT_NARROW (min k.narrow 255)
  let s2 := if k.shifted = 0 then s1 else s1.inc pSPN SPN.SHIFT_CNT
  let n := k.eper + 1
  let s3 : State := { s2 with spn := { s2.spn with maxShift := 0, shifted := 0, narrow := 0, eper := n % 4 } }
  if n % 4 = 0 then
    match k.comm with
    | t :: r => match r[23]? with
      | some t0 => s3.endRev ((t - t0 : Int) : Rat)
      | none => s3
    | [] => s3
  else s3

/-- Commutation to the next step at time `t` (R296), with coarse regulation once per step (R301). -/
def State.commutate (s : State) (t : Int) : State :=
  let step := (s.get pSPN SPN.SPN_STAT_STEP + 1) % 6
  let s1 := s.put pSPN SPN.SPN_STAT_STEP step
  let s2 : State := { s1 with spn := { s1.spn with zcNew := false, comm := (t :: s1.spn.comm).take 25 } }
  let s3 := if (s2.spnState = stACCEL ∨ s2.spnState = stRUN) ∧ s2.on pSPN SPN.SPN_STAT_FINE = false then
      s2.regulate (s2.get pSPN SPN.GAIN_C_KP) (s2.get pSPN SPN.GAIN_C_KI) ((s2.elecPer - s2.targetPer) / s2.targetPer * 1000000)
    else s2
  if step = 0 then s3.endElec else s3

/-- Commutation time after a crossing: (30° − ADV) of the predicted electrical period later, on an edge, outside QUIET. -/
def State.commTime (s : State) (zc : Rat) : Int :=
  quietDelay s.spn.quiet (mclkAfter (zc + (30 - s.advDeg) * s.elecPer / 360))

/-- R295, R298, R299: the sample points of the sense window up to the accepted crossing. -/
def execZeroCrossing (xs : List BemfSample) (s : State) : Out :=
  let usable := xs.filter (fun x => s.inSense x && !(s.sampleShift x).2)
  match crossingOf s.time usable with
  | some z =>
    if s.commutating && !s.spn.zcNew then
      let s1 := s.noteSamples (xs.filter s.inSense)
      let r := s1.roundFree (z / (mclkSub : Rat))
      let t : Int := r.2 * mclkSub
      .next ({ r.1 with spn := { r.1.spn with zc := (t : Rat), zcNew := true, miss := 0, catching := none } }.put pSPN SPN.ZC_TIME (enc 32 t))
    else .next s
  | none => .next s

/-- R296, R300, R301: the bridge commutates after an accepted crossing; `rest` are the window's later sample points. -/
def execCommutation (rest : List BemfSample) (s : State) : Out :=
  if s.commutating && s.spn.zcNew && decide (s.commTime s.spn.zc ≤ s.time) then
    .next ((s.noteSamples rest).commutate (s.commTime s.spn.zc))
  else .next s

/-- R297, R310: a sense window closes without a crossing: the predicted crossing commutates, the miss counts. -/
def execZcMiss (xs : List BemfSample) (s : State) : Out :=
  if s.commutating && !s.spn.zcNew && decide (s.senseWindow.2 ≤ (s.time : Rat)) then
    let z := s.nextZc
    let t := s.commTime z
    let s0 := (s.noteSamples (xs.filter s.inSense)).inc pSPN SPN.ZC_MISS_CNT
    let n := s0.spn.miss + 1
    let c := s0.spn.catching.map (· + 1)
    let s1 : State := { s0 with spn := { s0.spn with zc := z, miss := n, catching := c } }
    if c = some 3 then .next (s1.preBrake 3)
    else
      let s2 := s1.commutate t
      if (s2.spnState = stACCEL ∨ s2.spnState = stRUN) ∧ n = clampTo 2 15 (s.get pSPN SPN.PWM_CFG_SYNC_MISS) then .next (s2.raise pSPN 2)
      else .next s2
  else .next s

/-! ### Speed (R301–R304) -/

/-- R302: a wedge's measured time reaches SPN. -/
def execWedgeTimeToSpn (s : State) : Out :=
  match s.spnWedge with
  | none => .next s
  | some (t, w) =>
    let s0 := { s with spnWedge := none }
    if s.on pSPN SPN.SPN_STAT_AT_SPEED && decide (s.trkState = 3) && !s.d2dLost then
      if s.on pSPN SPN.SPN_STAT_FINE then
        let k := s.spn
        let steps := w - k.gridW
        let acc := k.gridRem + steps * s.get pFUR FUR.NOM_REV
        let grid := k.gridT + ((acc / s.wedgesN : Nat) : Rat)
        let s1 : State := { s0 with spn := { s0.spn with gridT := grid, gridRem := acc % s.wedgesN, gridW := w } }
        .next (s1.regulate (s.get pSPN SPN.GAIN_F_KP) (s.get pSPN SPN.GAIN_F_KI) (t - grid))
      else
        let s1 : State := { s0.put pSPN SPN.SPN_STAT_FINE 1 with spn := { s0.spn with gridT := t, gridRem := 0, gridW := w } }
        .next (s1.regulate (s.get pSPN SPN.GAIN_F_KP) (s.get pSPN SPN.GAIN_F_KI) 0)
    else .next s0

/-- R304, R306: four consecutive revolutions within ±0.1 %. -/
def execAtSpeedSet (s : State) : Out :=
  if (s.spnState = stACCEL ∨ s.spnState = stRUN) ∧ s.on pSPN SPN.SPN_STAT_AT_SPEED = false ∧ 4 ≤ s.spn.good then
    let s1 := (s.put pSPN SPN.SPN_STAT_AT_SPEED 1).irq pSPN 0
    let s2 := if s1.spnState = stACCEL then s1.spnGo stRUN else s1
    .next s2.trackerStart
  else .next s

/-- R304: a revolution outside ±0.5 %. -/
def execSpeedLoss (s : State) : Out :=
  if s.on pSPN SPN.SPN_STAT_AT_SPEED ∧ s.spn.revBad = true then
    let s1 := { s.speedLost with spn := { s.spn with revBad := false, good := 0 } }
    .next ((s1.irq pSPN 4).raise pSPN 3)
  else .next s

/-! ### Overrides (R312, R313) -/

/-- R76, R312: an SPN_OVR entry launches; its apply instant is 960 ft later, on the next edge. -/
def execSpnOvr (s : State) : Out :=
  match s.dueSerial 8 aSPN with
  | none => .next s
  | some e =>
    if s.drillFenced 8 aSPN e.target e.arg then .next (s.retireOne 8 e 3 0)
    else
      let s1 := s.launchSerial 8 e 24
      let a := (mclkAfter ((s.time + 960 * 64 : Nat) : Rat)).toNat
      if s.d2dLost then .next s1
      else .next { s1 with spn := { s1.spn with ovr := s1.spn.ovr ++ [(a, bits e.arg 3 0, max 1 (min 250 (bits e.arg 15 8)))] } }

/-- R313: the earliest override on its way takes effect, or is ignored. -/
def execOvrApply (s : State) : Out :=
  match s.spn.ovr with
  | (a, op, len) :: r =>
    if a ≤ s.time then
      let s1 : State := { s with spn := { s.spn with ovr := r } }
      if op ≠ 1 ∧ op ≠ 2 then .next ((s1.inc pSPN SPN.OVR_IGN).raise pSPN 6)
      else if s.spnState = stACCEL ∨ s.spnState = stRUN then
        let s2 := (s1.put pSPN SPN.OVR_STAT_LAST_OP op).inc pSPN SPN.OVR_STAT_APPLIED
        if op = 1 then
          .next { s2 with spn := { s2.spn with quiet := (a, a + len * mclkSub) :: s2.spn.quiet.filter (fun w => decide (a ≤ w.2)) } }
        else .next { s2 with spn := { s2.spn with holdUntil := max s2.spn.holdUntil (a + len * pwmSub) } }
      else .next (s1.inc pSPN SPN.OVR_IGN)
    else .next s
  | [] => .next s

/-! ### Stopping (R314–R317) -/

/-- R315: VM is measured, in steps of 10 mV; in DECEL the braking limit moves. -/
def execVmSample (vm : BitVec 13) (s : State) : Out :=
  let mv := min (vm.toNat * 10) 65535
  let s1 := (s.put pSPN SPN.VM_MEAS mv).putMax pSPN SPN.VM_PEAK mv
  if s.spnState = stDECEL then
    let b : Rat := s.get pSPN SPN.TQ_LIM_BRAKE_I
    let floor := b * (s.get pSPN SPN.CHOP_CFG_REGEN_MIN : Rat) / 100
    let lim := if s.get pSPN SPN.VM_LIM1_VM_REGEN_LIMIT < mv then max floor (s.spn.brakeLim - b / 64)
      else min b (s.spn.brakeLim + b / 64)
    let s2 : State := { s1 with spn := { s1.spn with brakeLim := lim } }
    .next ((s2.putB pSPN SPN.SPN_STAT_REGEN_RED (decide (lim < b))).putTq (-lim))
  else .next s1

/-- R316: VM rises above VM_CHOP_ON. -/
def execChopperOn (s : State) : Out :=
  if s.spnState = stDECEL ∧ s.on pSPN SPN.SPN_STAT_CHOP_ON = false ∧ s.get pSPN SPN.VM_LIM1_VM_CHOP_ON < s.get pSPN SPN.VM_MEAS then
    let s1 := (s.put pSPN SPN.SPN_STAT_CHOP_ON 1).irq pSPN 5
    .next { s1 with spn := { s1.spn with chopSince := s1.time } }
  else .next s

/-- R316: VM falls below VM_CHOP_OFF. -/
def execChopperOff (s : State) : Out :=
  if s.spnState = stDECEL ∧ s.on pSPN SPN.SPN_STAT_CHOP_ON ∧ s.get pSPN SPN.VM_MEAS < s.get pSPN SPN.VM_LIM2_VM_CHOP_OFF then
    .next (s.put pSPN SPN.SPN_STAT_CHOP_ON 0)
  else .next s

/-- R317: the chopper's current sense, `sense` at most during the last 50 µs; or VM above VM_ABS. -/
def execChopFail (sense : BitVec 16) (s : State) : Out :=
  let abs := decide (s.get pSPN SPN.VM_LIM2_VM_ABS < s.get pSPN SPN.VM_MEAS)
  let dead := s.on pSPN SPN.SPN_STAT_CHOP_ON && decide (sense.toNat < s.get pSPN SPN.CHOP_CFG_CHOP_I_MIN) &&
    decide (s.spn.chopSince + 120000 * 64 ≤ s.time)
  let s0 := s.put pSPN SPN.CHOP_MEAS sense.toNat
  if s.spnState = stDECEL && (abs || dead) then .next ((s0.shortBrake (if abs then 6 else 5)).raise pSPN 4) else .next s0

/-- R314: the speed falls below REGEN_END percent of the target. -/
def execRegenEnd (s : State) : Out :=
  if s.spnState = stDECEL ∧ 100 * s.targetPer < (s.get pSPN SPN.CHOP_CFG_REGEN_END : Rat) * s.elecPer then .next (s.shortBrake 1)
  else .next s

/-- R306: back-EMF at most `amp` mV for the last 100 ms of SHORT_BRAKE. -/
def execSpinStopped (amp : BitVec 16) (s : State) : Out :=
  if s.spnState = stBRAKE ∧ s.spn.since + 100 * msSub ≤ s.time ∧ amp.toNat < s.get pSPN SPN.CATCH_CFG_STOP_BEMF then
    let s1 := s.spnGo stSTOPPED
    .next (({ s1 with spn := { s1.spn with emerg := false, bridgeOff := false } } : State).motionSettle)
  else .next s

/-! ### Emergencies (R318, R320) -/

/-- The emergency stop: every override ends, a start is ABORTED, HOLDUP unless STOPPED. -/
def State.emergencyStop (s : State) : State :=
  let s0 : State := { s with mot := { s.mot with emergReq := false }, spn := { s.spn with ovr := [], quiet := [], holdUntil := 0 } }
  let st := s.spnState
  if st = stSTOPPED ∨ st = stHOLDUP then s0
  else
    let s1 := if s.starting then s0.spnOutcome 7 else s0
    let s2 := s1.spnGo stHOLDUP
    { s2 with spn := { s2.spn with emerg := true } }

/-- The retract has ended: the motion die moves SPN to SHORT_BRAKE (R282, R318); with the bridge off by over-current it
stays in HOLDUP's off state until the brake is tried. -/
def State.retractEnded (s : State) : State :=
  let s1 := if s.mot.emergReq then s.emergencyStop else s
  if s1.spnState = stHOLDUP then s1.shortBrake 4 else s1

/-- R318: a cause of an emergency stop has reached SPN. -/
def execEmergencyStop (s : State) : Out := .next (if s.mot.emergReq then s.emergencyStop else s)

/-- A bridge over-current turns the bridge off. In the short brake of an emergency it stays off and the spindle coasts (R320). -/
def State.bridgeTrip (s : State) : State :=
  let s1 : State := { s with spn := { s.spn with bridgeOff := true } }
  if s.spnState = stBRAKE ∧ s.spn.emerg = true then (s1.logBrake 4).spnGo stCOAST else s1.put pSPN SPN.TQ 0

/-- R320: bridge over-current. -/
def execBridgeOc (s : State) : Out := .next ((s.raise pSPN 5).bridgeTrip)

/-! ### The die-to-die link (R15) -/

/-- A retract asked for with RET_LOG cause `c`: nothing new while one runs (R282, R451). -/
def State.askRetract (s : State) (c : Nat) : State :=
  if s.mot.retractReq.isSome || s.acts.any (fun a => decide (s.rampState a = 6)) then s
  else { s with mot := { s.mot with retractReq := some c } }

def State.askEmergency (s : State) : State := { s with mot := { s.mot with emergReq := true } }

/-- R15, R178: the logic die finds the link silent for 2 µs. -/
def execD2dLoss (s : State) : Out :=
  if s.d2dLost then .next s
  else
    let s1 := s.each s.acts (fun s a => s.noteInhibit a wD2D 0xF)
    .next (({ s1 with d2dLost := true }.dropGates).raise pPWR 6)

/-- R15: the motion die has received no valid frame for 20 µs. -/
def execMotionEmergency (s : State) : Out := .next ((s.askRetract 4).askEmergency)

end Sys2Proof.Machine
end

