-- ==== Sys2Proof/Machine/Seek.lean ====
section
/-! DEFINITION. Seeks, actuators and parking (R266–R287): profiles, settle and follow, ramp load and unload, the emergency retract,
the boost, shock trips. -/

namespace Sys2Proof.Machine

/-! ### Exact numbers -/

/-- The integer square root. -/
def natSqrt (n : Nat) : Nat :=
  (List.range (Nat.log2 n / 2 + 1)).reverse.foldl (fun r i => if (r + 2 ^ i) * (r + 2 ^ i) ≤ n then r + 2 ^ i else r) 0

/-- A square root to 40 fraction bits of the radicand's denominator; exact for a rational square. -/
def ratSqrt (x : Rat) : Rat :=
  if x ≤ 0 then 0 else ((natSqrt (x.num.toNat * x.den * 2 ^ 80) : Nat) : Rat) / ((x.den * 2 ^ 40 : Nat) : Rat)

/-- Sign of a number as a factor. -/
def sgnOf (x : Rat) : Rat := if x < 0 then -1 else 1

/-! ### Profiles (R269, R272, R273) -/

/-- The words of a slot as a seek reads them. -/
def slotW (ws : List Word) (i : Nat) : Nat := (ws[i]?.getD 0).toNat
def slotTarget (ws : List Word) : Nat := bits (slotW ws 0) 23 0
def slotRefK (ws : List Word) : Nat := bits (slotW ws 0) 27 24
def slotHeads (ws : List Word) : Nat := bits (slotW ws 1) 11 0
def slotLoadTgt (ws : List Word) : Bool := bit (slotW ws 1) 16
def slotJ (ws : List Word) : Rat := (bits (slotW ws 2) 23 0 : Nat) / 16777216
def slotA (ws : List Word) : Rat := (slotW ws 3 : Nat) / 65536
def slotV (ws : List Word) : Nat := slotW ws 4
def slotKff (ws : List Word) : Rat := (sgn 32 (slotW ws 5) : Int) / 65536
def slotSetWin (ws : List Word) : Nat := bits (slotW ws 6) 15 0
def slotSetCnt (ws : List Word) : Nat := max 1 (bits (slotW ws 6) 23 16)
def slotFolCnt (ws : List Word) : Nat := max 1 (bits (slotW ws 6) 31 24)
def slotFolWin (ws : List Word) : Nat := bits (slotW ws 7) 15 0
def slotTmo (ws : List Word) : Nat := if bits (slotW ws 7) 27 16 = 0 then 4095 else bits (slotW ws 7) 27 16

/-- Vp·Ta(Vp) ≤ d for the peak velocity q / 2^16 (R272). -/
def reaches (j a d : Rat) (q : Nat) : Bool :=
  let v : Rat := (q : Rat) / 65536
  if a * a ≤ v * j then decide (v * (v / a + a / j) ≤ d) else decide (4 * v * v * v ≤ j * d * d)

/-- The peak velocity in 1/65,536: the largest within VMAX that the distance reaches (R272). -/
def peakV (j a d : Rat) (vmax : Nat) : Nat :=
  (List.range 32).reverse.foldl (fun r i => if r + 2 ^ i ≤ vmax ∧ reaches j a d (r + 2 ^ i) = true then r + 2 ^ i else r) 0

/-- The plan over distance `d` (R272). -/
def mkPlan (ws : List Word) (d : Rat) : Plan :=
  if d = 0 then {}
  else
    let j := slotJ ws
    let a := slotA ws
    let v : Rat := ((max 1 (peakV j a d (slotV ws)) : Nat) : Rat) / 65536
    let tj := if a * a ≤ v * j then a / j else ratSqrt (v / j)
    let ta := if a * a ≤ v * j then v / a - a / j else 0
    { dist := d, jerk := j, vp := v, tj := tj, ta := ta, tc := max 0 ((d - v * (2 * tj + ta)) / v) }

/-- Ta and Ttot. -/
def Plan.tacc (p : Plan) : Rat := 2 * p.tj + p.ta
def Plan.total (p : Plan) : Rat := 2 * p.tacc + p.tc

/-- N = ⌈Ttot⌉. -/
def Plan.samples (p : Plan) : Nat := (-((-p.total).floor)).toNat

/-- Displacement, velocity and acceleration of the acceleration phase at time `t`. -/
def Plan.accel (p : Plan) (t : Rat) : Rat × Rat × Rat :=
  let j := p.jerk
  if t ≤ p.tj then (j * t * t * t / 6, j * t * t / 2, j * t)
  else if t ≤ p.tj + p.ta then
    let u := t - p.tj
    (j * p.tj * p.tj * p.tj / 6 + j * p.tj * p.tj / 2 * u + j * p.tj * u * u / 2, j * p.tj * p.tj / 2 + j * p.tj * u, j * p.tj)
  else
    let u := p.tacc - t
    (p.vp * p.tacc / 2 - p.vp * u + j * u * u * u / 6, p.vp - j * u * u / 2, j * u)

/-- Displacement, velocity and acceleration of the profile at time `t` (R272). -/
def Plan.at_ (p : Plan) (t : Rat) : Rat × Rat × Rat :=
  if p.total ≤ t then (p.dist, 0, 0)
  else if t ≤ p.tacc then p.accel t
  else if t ≤ p.tacc + p.tc then (p.vp * p.tacc / 2 + p.vp * (t - p.tacc), p.vp, 0)
  else
    let r := p.accel (p.total - t)
    (p.dist - r.1, r.2.1, -r.2.2)

/-- The shortest stop from a point of the profile within the jerk and acceleration limits (R277). -/
def mkStop (ws : List Word) (n : Nat) (x : Rat × Rat × Rat) : StopPlan :=
  let j := slotJ ws
  let a := slotA ws
  let sg := sgnOf (x.2.1 + x.2.2 * ratAbs x.2.2 / (2 * j))
  let v := sg * x.2.1
  let a0 := sg * x.2.2
  let peak := ratSqrt (j * v + a0 * a0 / 2)
  let ap := min peak a
  let th := if a < peak then (v + a0 * a0 / (2 * j) - a * a / j) / a else 0
  { n0 := n, s0 := x.1, v0 := x.2.1, a0 := x.2.2, ap := sg * ap, t1 := (a0 + ap) / j, th := th, t3 := ap / j }

def StopPlan.total (p : StopPlan) : Rat := p.t1 + p.th + p.t3

/-- Displacement, velocity and acceleration after `t` of motion with jerk `j`. -/
def moveBy (x : Rat × Rat × Rat) (j t : Rat) : Rat × Rat × Rat :=
  (x.1 + x.2.1 * t + x.2.2 * t * t / 2 + j * t * t * t / 6, x.2.1 + x.2.2 * t + j * t * t / 2, x.2.2 + j * t)

/-- The stop at time `t` after its beginning. -/
def StopPlan.at_ (p : StopPlan) (j t : Rat) : Rat × Rat × Rat :=
  let sj := sgnOf p.ap * j
  let x0 := (p.s0, p.v0, p.a0)
  let x1 := moveBy x0 (-sj) (min t p.t1)
  let x2 := if p.t1 < t then moveBy x1 0 (min (t - p.t1) p.th) else x1
  let x3 := if p.t1 + p.th < t then moveBy x2 sj (min (t - p.t1 - p.th) p.t3) else x2
  if p.total ≤ t then (x3.1, 0, 0) else x3

/-- sign(D). -/
def Prf.dir (f : Prf) : Rat := if f.tgt < f.x0 then -1 else 1

/-- The reference and the feed-forward of a sample from the exact displacement (R273): the reference, in 1/4,096 track, is a free
value within 1 PES LSB of the exact one (log 3); at the end of the profile it is TARGET. -/
def State.setReference (s : State) (a : Nat) (f : Prf) (x : Rat × Rat × Rat) (exact : Bool) : State :=
  let p := pPRF a
  let ex : Rat := (f.x0 : Rat) + f.dir * x.1 * 4096
  let lo := -((-(ex - 1)).floor)
  let hi := (ex + 1).floor
  let r : State × Int := if exact then (s, f.tgt) else (s.drew, lo + (s.freeVal % (hi - lo + 1).toNat : Nat))
  let ff := roundAway (f.dir * x.2.2 * slotKff f.words)
  let v := r.1.roundFree (f.dir * x.2.1 * 65536)
  (((v.1.setPrf a { f with ref := r.2, ff := ff }).put p PRF.REF_POS (enc 32 (r.2 / 16))).put p PRF.REF_VEL (enc 32 v.2)).put p
    PRF.FF (enc 16 ff)

/-! ### Starting a seek (R270, R271) -/

/-- R76, R269: a PROFILE_START entry launches: the slot is read. -/
def execProfileStart (a : Fin 8) (s : State) : Out :=
  match s.dueAction a.val aPROF false with
  | none => .next s
  | some e =>
    if s.drillFenced a.val aPROF e.target e.arg then .next (s.retireOne a.val e 3 0)
    else
      let k := bits e.arg 3 0
      let ws := (List.range 8).map (fun i => s.reg (pPRF a.val) (0x200 + 0x20 * k + 4 * i))
      let s1 := s.retireOne a.val e 0 0
      let f := s1.prfOf a.val
      .next (s1.setPrf a.val { f with starts := f.starts ++ [(k, ws, (s1.srvOf a.val).n)] })

/-- A refused seek (R270). -/
def State.seekRefuse (s : State) (a last : Nat) : State :=
  let f := s.prfOf a
  (((s.setPrf a { f with starts := f.starts.drop 1, waited := 0 }).put (pPRF a) PRF.PRF_STAT_LAST last).irq (pPRF a) 2).raise (pPRF a) 0

/-- A track lies in [TRK_MIN, TRK_MAX]. -/
def State.trackOk (s : State) (a : Nat) (t : Int) : Bool :=
  decide ((s.get (pPRF a) PRF.TRK_MIN : Int) ≤ t) && decide (t ≤ (s.get (pPRF a) PRF.TRK_MAX : Int))

/-- TARGET + DELTAk. -/
def State.deltaTgt (s : State) (a : Nat) (ws : List Word) (k : Nat) : Int := slotTarget ws + sgn 16 (s.get (pPRF a) (PRF.DELTA k))

/-- The checks made at the first sample, in order (R270). -/
def State.seekCheck1 (s : State) (a : Nat) (ws : List Word) : Option Nat :=
  if s.seekState a ≠ 0 then some 4
  else if s.rampState a ≠ 3 then some 5
  else if slotJ ws = 0 ∨ slotA ws = 0 ∨ slotV ws = 0 ∨ 11 < slotRefK ws then some 6
  else if !s.trackOk a (slotTarget ws) ||
      (slotLoadTgt ws && !((List.range 12).filter (bit (slotHeads ws))).all (fun k => s.trackOk a (s.deltaTgt a ws k))) then some 7
  else if !s.loopClosed a 12 || s.loopFenced a 12 then some 8
  else none

/-- The VCM's hand-over to SEEK, with error 0, would be refused at this sample (R258, R270). -/
def State.vcmRefuses (s : State) (a : Nat) : Bool :=
  let m := s.loopMode a 12
  if m = 0 then false
  else match s.loopErr a 12 m with
    | some e => (s.handLaw a 12 m 0 e 0).isNone
    | none => false

/-- The start sample (R271): x0, the requests, the targets, the plan. -/
def State.seekBegin (s : State) (a k : Nat) (ws : List Word) (x0 : Int) : State :=
  let p := pPRF a
  let n := (s.srvOf a).n
  let tgt : Int := slotTarget ws * 4096
  let plan := mkPlan ws (((tgt - x0).natAbs : Nat) / 4096)
  let f : Prf := { s.prfOf a with starts := (s.prfOf a).starts.drop 1, waited := 0, words := ws, refK := slotRefK ws, x0 := x0, tgt := tgt, plan := plan, stop := none, n := 0, last := n, ref := x0, ff := 0, abort := false, want := 0, cnt := if plan.samples = 0 then 1 else 0 }
  let s1 := s.setPrf a f
  let s2 := s1.each (s1.seekLoops a) (fun s j => s.requestMode a j 0 n false)
  let s3 := if slotLoadTgt ws then
      s2.each ((List.range 12).filter (bit (slotHeads ws))) (fun s k => s.put (pSRV a) (SRV.TGT_TRACK k) (s.deltaTgt a ws k).toNat)
    else s2
  let free := s3.freeVal
  let s4 := if plan.samples < 65536 then s3.put p PRF.PLAN_T plan.samples else (s3.put p PRF.PLAN_T (free % 65536)).drew
  ((((((s4.put p PRF.PRF_STAT_STATE (if plan.samples = 0 then 2 else 1)).put p PRF.PRF_STAT_SLOT k).put p PRF.PRF_STAT_N 0).put p
    PRF.PLAN_VP ((plan.vp * 65536).floor.toNat)).put p PRF.REF_POS (enc 32 (x0 / 16))).put p PRF.REF_VEL 0).put p PRF.FF 0

/-- R270, R271: a servo sample after a PROFILE_START launch. -/
def execSeekStart (a : Fin 8) (s : State) : Out :=
  let a := a.val
  let f := s.prfOf a
  match f.starts with
  | [] => .next s
  | (k, ws, n0) :: r =>
    let n := (s.srvOf a).n
    if s.running (pPRF a) ∧ n0 + f.waited < n then
      match (if f.waited = 0 then s.seekCheck1 a ws else none) with
      | some c => .next (s.seekRefuse a c)
      | none => match s.headPos a (slotRefK ws) with
        | none =>
          if 3 ≤ f.waited then .next (s.seekRefuse a 9)
          else .next (s.setPrf a { f with starts := (k, ws, n - f.waited - 1) :: r, waited := f.waited + 1 })
        | some x0 =>
          let s1 := s.setPrf a { f with refK := slotRefK ws, ref := x0 }
          if s1.vcmRefuses a then .next (((s.hoRefused a 12).setPrf a f).seekRefuse a 0xA)
          else .next (s.seekBegin a k ws x0)
    else .next s

/-! ### Running a seek (R273–R277) -/

/-- The settle window at this sample (R274). -/
def State.inSettle (s : State) (a : Nat) : Bool :=
  let f := s.prfOf a
  match s.headPos a f.refK with
  | some x => decide ((f.ref - x).natAbs ≤ slotSetWin f.words)
  | none => false

/-- The follow window at this sample (R275). -/
def State.inFollow (s : State) (a : Nat) : Bool :=
  let f := s.prfOf a
  ((List.range 12).filter (fun k => bit (slotHeads f.words) k && !s.loopFenced a k)).all (fun k =>
    s.pesOk a k && decide ((s.maRef a k - s.pesOf a k).natAbs ≤ slotFolWin f.words))

/-- Loops of the seek that have not taken mode `m` and are not asked are asked again (R275). -/
def State.askAgain (s : State) (a m : Nat) : State :=
  s.each ((s.seekLoops a).filter (fun j => s.loopClosed a j && decide (s.loopMode a j ≠ m) && !s.pend a j 2))
    (fun s j => s.requestMode a j m (s.srvOf a).n false)

/-- R273–R277: the profile at the sample last taken. -/
def execProfileSample (a : Fin 8) (s : State) : Out :=
  let a := a.val
  let p := pPRF a
  let f0 := s.prfOf a
  let st := s.seekState a
  if s.running p ∧ st ≠ 0 ∧ f0.last < (s.srvOf a).n then
    let n := f0.n + 1
    let s1 := s.put p PRF.PRF_STAT_N (min n 65535)
    let f := { f0 with n := n, last := (s.srvOf a).n }
    if f.abort = true ∧ (st = 2 ∨ st = 3) then .next ((s1.setPrf a f).seekEnd a 2)
    else
      let stop := if f.abort = true ∧ st = 1 then some (mkStop f.words n (f.plan.at_ n)) else f.stop
      match stop with
      | some sp =>
        let s2 := (s1.put p PRF.PRF_STAT_STATE 4).setReference a { f with stop := some sp, abort := false }
          (sp.at_ (slotJ f.words) ((n - sp.n0 : Nat) : Rat)) false
        .next s2
      | none =>
        let s2 := s1.setReference a f (f.plan.at_ n) (decide (f.plan.total ≤ n))
        let s3 := if st = 1 ∧ f.plan.samples ≤ n then s2.put p PRF.PRF_STAT_STATE 2 else s2
        let st3 := s3.seekState a
        let g := s3.prfOf a
        if st3 = 2 then .next (s3.setPrf a { g with cnt := if s3.inSettle a then g.cnt + 1 else 0 })
        else if st3 = 3 then
          let s4 := s3.askAgain a g.want
          if g.want = 1 ∧ g.wantN < n then .next (s4.setPrf a { g with cnt := if s4.inFollow a then g.cnt + 1 else 0 }) else .next s4
        else .next s3
  else .next s

/-- R274: SET_CNT in-window samples. -/
def execSettleRequest (a : Fin 8) (s : State) : Out :=
  let a := a.val
  let f := s.prfOf a
  if s.seekState a = 2 ∧ slotSetCnt f.words ≤ f.cnt then
    let s1 := (s.setPrf a { f with cnt := 0, want := 1, wantN := f.n }).put (pPRF a) PRF.PRF_STAT_STATE 3
    .next ((s1.each (s1.seekLoops a) (fun s j => s.requestMode a j 1 ((s.srvOf a).n + 1) false)).irq (pPRF a) 3)
  else .next s

/-- R275, R276: FOL_CNT in-window samples; the seek ends FOLLOWING once every loop asked has reached FOLLOW. -/
def execFollowRequest (a : Fin 8) (s : State) : Out :=
  let a := a.val
  let f := s.prfOf a
  if s.seekState a = 3 ∧ f.want = 1 ∧ slotFolCnt f.words ≤ f.cnt then
    let s1 := s.setPrf a { f with want := 2, wantN := f.n }
    .next ((s1.each (s1.seekLoops a) (fun s j => s.requestMode a j 2 ((s.srvOf a).n + 1) false)).seekCheck a)
  else .next (s.seekCheck a)

/-- R275: FOLLOWING not reached by sample N + TMO, whose loops have been computed. -/
def execSeekTimeout (a : Fin 8) (s : State) : Out :=
  let a := a.val
  let f := s.prfOf a
  if (s.seekState a = 2 ∨ s.seekState a = 3) ∧ f.plan.samples + slotTmo f.words ≤ f.n ∧ (s.srvOf a).n ≤ (s.loopOf a 12).stamp then
    .next ((s.seekEnd a 3).inc (pPRF a) PRF.TMO_CNT)
  else .next s

/-- R277: a write of PRF_CTRL.ABORT. -/
def execAbort (m : Master) (a : Fin 8) (s : State) : Out :=
  .next (s.regCmd m (pPRF a.val) 0x40 (fun s =>
    if s.seekState a.val = 0 ∨ s.seekState a.val = 4 then s else s.setPrf a.val { s.prfOf a.val with abort := true }))

/-- R277: the abort stop completes. -/
def execStopComplete (a : Fin 8) (s : State) : Out :=
  let f := s.prfOf a.val
  match f.stop with
  | some sp => if s.seekState a.val = 4 ∧ sp.total ≤ ((f.n - sp.n0 : Nat) : Rat) then .next (s.seekEnd a.val 2) else .next s
  | none => .next s

/-! ### Drive stages (R266–R268) -/

def State.boostOk (s : State) : Bool := s.on pMOT MOT.MA_CTRL_BOOST_EN && s.on pMOT MOT.MA_STAT_BOOST_OK

/-- The code that drives microactuator `k`: 0 V outside LOADED and without the boost (R267, R268). -/
def State.maDrive (s : State) (a k : Nat) : Int := if s.rampState a = 3 ∧ s.boostOk = true then (s.mactOf a).ma[k]?.getD 0 else 0

/-- The voltage on microactuator `k` in mV: u × 12 V / 32,767 (R267). -/
def State.maVolts (s : State) (a k : Nat) : Rat := (s.maDrive a k : Rat) * 12000 / 32767

/-- What drives an actuator's VCM: nothing (outputs float), a current in mA, the velocity loop to a target in mV of back-EMF with
the coil voltage limited where a limit holds, a voltage in mV; positive inwards. -/
inductive VcmOut where
  | off
  | current (mA : Rat)
  | velocity (mV : Int) (limit : Option Nat)
  | voltage (mV : Int)
deriving DecidableEq, Repr

/-- IFS in mA (R266). -/
def State.ifs (s : State) (a : Nat) : Nat := 500 * (s.get pMOT (MOTA.VCM_CFG_ISCALE a) + 1)

/-- The current that a code commands (R266). -/
def State.codeCurrent (s : State) (a : Nat) (u : Int) : VcmOut := .current ((u : Rat) * (s.ifs a : Rat) / 32767)

/-- The VCM's drive in each ramp state (R266, R278, R282). -/
def State.vcmDrive (s : State) (a : Nat) : VcmOut :=
  if !s.on pMOT (MOTA.VCM_CFG_BRIDGE_EN a) then .off
  else match s.rampState a with
    | 0 => s.codeCurrent a (sgn 16 (s.get pMOT (MOTA.PARK_CODE_HOLD a)))
    | 1 => .velocity (10 * s.get pMOT (MOTA.VEL_CFG_LOAD_VEL a)) none
    | 2 => .velocity 0 none
    | 3 => s.codeCurrent a (s.mactOf a).vcm
    | 4 => .velocity (-(10 * s.get pMOT (MOTA.VEL_CFG_UNLOAD_VEL a) : Int)) none
    | 5 => s.codeCurrent a (sgn 16 (s.get pMOT (MOTA.PARK_CODE_PUSH a)))
    | 6 => match (s.mactOf a).ph2 with
      | none => .velocity (-(10 * s.get pMOT MOT.RET_CFG_RET_VEL : Int)) (some (s.get pMOT MOT.VHOLD_MEAS))
      | some _ => .voltage (-(10 * s.get pMOT MOT.RET_CFG_PUSH_V : Int))
    | _ => s.codeCurrent a 0

/-- R248, R268, R279: MOT receives the frame; it applies it in LOADED, from the frame of the sample after a load on. -/
def execOutputApply (a : Fin 8) (s : State) : Out :=
  let t := s.tilOf a.val
  match t.frame with
  | none => .next s
  | some f =>
    let s1 := s.setTil a.val { t with frame := none }
    if s.d2dLost = false ∧ s.rampState a.val = 3 ∧ (s.mactOf a.val).from_ ≤ t.frameN then
      .next (s1.setMact a.val { s1.mactOf a.val with vcm := f[12]?.getD 0, ma := f.take 12 })
    else .next s1

/-! ### Ramp load and unload (R278–R281) -/

/-- A change of ramp state; entering LOADED or PARKED pulses RAMP_DONE (R286). -/
def State.rampGo (s : State) (a st : Nat) : State :=
  let s1 := (s.put pMOT (MOTA.RAMP_STAT_STATE a) st).setMact a { s.mactOf a with since := s.time, ma := [] }
  if st = 0 ∨ st = 3 then s1.irq pMOT 0 else s1

/-- Entering PARK_FAILED raises CTL FL3 (R278). -/
def State.parkFailed (s : State) (a : Nat) : State := (s.rampGo a 7).raise pMOT 1

/-- VM good: at the supply's lower operating limit or above (R528's table). -/
def State.vmGood (s : State) : Bool := decide (10800 ≤ s.get pSPN SPN.VM_MEAS)

def State.rampRefuse (s : State) (a : Nat) : State := (s.put pMOT (MOTA.RAMP_STAT_REFUSED a) 1).irq pMOT 1

/-- R278: RAMP_CMD LOAD. -/
def execLoad (m : Master) (a : Fin 8) (s : State) : Out :=
  .next (s.motCmd m pMOT (0x100 + 0x20 * a.val) (fun s =>
    if !s.part.hasAct a.val then s
    else if s.rampState a.val = 0 ∧ s.on pMOT (MOTA.VCM_CFG_BRIDGE_EN a.val) ∧ s.vmGood = true then
      (s.put pMOT (MOTA.RAMP_STAT_REFUSED a.val) 0).rampGo a.val 1
    else s.rampRefuse a.val))

/-- R277, R278: RAMP_CMD UNLOAD. -/
def execUnload (m : Master) (a : Fin 8) (s : State) : Out :=
  .next (s.motCmd m pMOT (0x100 + 0x20 * a.val) (fun s =>
    let st := s.rampState a.val
    if !s.part.hasAct a.val then s
    else if st = 1 ∨ st = 2 ∨ st = 3 ∨ st = 7 then
      let s1 := (s.put pMOT (MOTA.RAMP_STAT_REFUSED a.val) 0).rampGo a.val 4
      if s1.seekState a.val = 0 then s1 else s1.seekEnd a.val 2
    else if st = 4 ∨ st = 5 ∨ st = 0 then s
    else s.rampRefuse a.val))

/-- R279: four TIME_OK samples with consecutive wedges of the head REF_K names. -/
def execServoFound (a : Fin 8) (s : State) : Out :=
  if s.rampState a.val = 1 ∧ 4 ≤ (s.srvOf a.val).run then .next (s.rampGo a.val 2) else .next s

/-- abs(velocity) below STOP_VEL: back-EMF is coil voltage minus I × RCOIL (R278). -/
def State.slow (s : State) (a : Nat) (x : CoilSample) : Bool :=
  decide ((x.mV.toInt * 1000 - x.mA.toInt * s.get pMOT (MOTA.RCOIL a)).natAbs < s.get pMOT (MOTA.VEL_CFG_STOP_VEL a) * 10000)

/-- VCM_MEAS shows the last sample (R287); the balls of an absent actuator have no effect (R514). -/
def State.noteCoil (s : State) (a : Nat) (xs : List CoilSample) : State :=
  match (if s.part.hasAct a then xs.getLast? else none) with
  | some x => s.setReg pMOT (0x11C + 0x20 * a) (BitVec.ofNat 32 (x.mV.toNat + 65536 * x.mA.toNat))
  | none => s

/-- R278, R279: the last velocity samples in STOPPING, taken at 1 MHz, with the velocity loop's last code. Eight slow ones enter LOADED and close the
VCM's loop on HOLD_CODE at the next sample. -/
def execStopAchieved (a : Fin 8) (code : BitVec 16) (xs : List CoilSample) (s : State) : Out :=
  let a := a.val
  let s0 := s.noteCoil a xs
  if s.rampState a = 2 ∧ 8 ≤ xs.length ∧ xs.all (s.slow a) = true ∧ (s.mactOf a).since + 7 * usSub ≤ s.time then
    let k := s.get pMOT (MOTA.VCM_CFG_REF_K a)
    let x := (s.srvHead (12 * a + k)).pos
    let s1 := (s0.rampGo a 3).put pMOT (MOTA.RAMP_STAT_HOLD_CODE a) code.toNat
    let s2 := (s1.setMact a { s1.mactOf a with vcm := code.toInt, from_ := (s.srvOf a).n + 1 }).setPrf a { s1.prfOf a with hold := x, refK := k }
    let s3 := ((s2.noteHold a).put (pTIL a) (LOOP.OPEN_OUT 12) code.toNat).put (pTIL a) (LOOP.LSTAT_MODE 12) 0
    .next ((s3.setLoop a 12 { s3.loopOf a 12 with clFrom := (s3.srvOf a).n + 1 }).setPend a 12 1 true)
  else .next s0

/-- The samples of the last 200 µs are slow, and the ramp state is at least as old (R278, R282). -/
def State.slowFor (s : State) (a : Nat) (xs : List CoilSample) : Bool :=
  decide (200 ≤ xs.length) && xs.all (s.slow a) && decide ((s.mactOf a).since + 200 * usSub ≤ s.time)

/-- R278: the velocity samples of the last 200 µs while driving outwards. -/
def execRampStop (a : Fin 8) (xs : List CoilSample) (s : State) : Out :=
  let s0 := s.noteCoil a.val xs
  if s.rampState a.val = 4 ∧ s.slowFor a.val xs = true then .next (s0.rampGo a.val 5) else .next s0

/-- R278: PUSH_T after pushing began. -/
def execPushDone (a : Fin 8) (s : State) : Out :=
  if s.rampState a.val = 5 ∧ (s.mactOf a.val).since + s.get pMOT (MOTA.RAMP_TIME_PUSH_T a.val) * msSub ≤ s.time then
    .next (s.rampGo a.val 0)
  else .next s

/-- R278: RAMP_TMO after the entry into LOADING or UNLOADING. -/
def execRampTimeout (a : Fin 8) (s : State) : Out :=
  if (s.mactOf a.val).since + s.get pMOT (MOTA.RAMP_TIME_RAMP_TMO a.val) * msSub ≤ s.time then
    if s.rampState a.val = 1 then .next ((s.raise pMOT 0).rampGo a.val 4)
    else if s.rampState a.val = 4 then .next (s.parkFailed a.val)
    else .next s
  else .next s

/-- R281: the UNLOAD that a fencing commands reaches MOT. -/
def execFenceUnload (a : Fin 8) (s : State) : Out :=
  if s.mot.unloadReq.contains a.val ∧ s.d2dLost = false then
    let s1 : State := { s with mot := { s.mot with unloadReq := s.mot.unloadReq.filter (fun x => decide (x ≠ a.val)) } }
    let st := s.rampState a.val
    .next (if st = 1 ∨ st = 2 ∨ st = 3 then s1.rampGo a.val 4 else s1)
  else .next s

/-! ### The emergency retract (R282, R283) -/

/-- VHOLD as measured now; RET_LOG keeps its least (R286). -/
def State.noteVhold (s : State) (v : Nat) : State :=
  let s1 := s.put pMOT MOT.VHOLD_MEAS v
  if v < s1.get pMOT MOT.RET_LOG_VHOLD_MIN then s1.put pMOT MOT.RET_LOG_VHOLD_MIN v else s1

/-- With no actuator left in RETRACT the spindle controller is told to short-brake (R282). -/
def State.retractCheck (s : State) : State := if s.acts.all (fun a => decide (s.rampState a ≠ 6)) then s.retractEnded else s

/-- R282: the retract asked for begins; VHOLD in mV as measured. -/
def execRetractStart (vhold : BitVec 16) (s : State) : Out :=
  match s.mot.retractReq with
  | none => .next s
  | some c =>
    let s1 := ((s.put pMOT MOT.RET_LOG_CAUSE c).put pMOT MOT.RET_LOG_STOP_SEEN 0).put pMOT MOT.RET_LOG_VHOLD_MIN 0xFFFF
    let s2 : State := { s1.noteVhold vhold.toNat with mot := { s1.mot with retractReq := none, boostOff := true, unloadReq := [] } }
    let s3 := s2.each s2.acts (fun s a => s.seekFenced a)
    let s4 := s3.each (s3.acts.filter (fun a => decide (s3.rampState a ≠ 0))) (fun s a =>
      let s' := s.rampGo a 6
      s'.setMact a { s'.mactOf a with ph2 := none })
    .next ((s4.put pMOT MOT.MA_STAT_BOOST_OK 0).retractCheck)

/-- R282: phase 1 ends on velocity (the samples of the last 200 µs) or after T1. -/
def execRetractPhase1End (a : Fin 8) (xs : List CoilSample) (vhold : BitVec 16) (s : State) : Out :=
  let a := a.val
  let s0 := (s.noteCoil a xs).noteVhold vhold.toNat
  let m := s.mactOf a
  let stop := s.slowFor a xs
  if s.rampState a = 6 ∧ m.ph2 = none ∧ (stop = true ∨ m.since + s.get pMOT MOT.RET_TIME_T1 * 10 * usSub ≤ s.time) then
    let s1 := s0.setMact a { m with ph2 := some s.time }
    .next (if stop then s1.put pMOT MOT.RET_LOG_STOP_SEEN (withBit (s1.get pMOT MOT.RET_LOG_STOP_SEEN) a true) else s1)
  else .next s0

/-- R282: phase 2 ends after T2; with the last actuator the spindle short-brakes. -/
def execRetractEnd (a : Fin 8) (vhold : BitVec 16) (s : State) : Out :=
  let s0 := s.noteVhold vhold.toNat
  match (s.mactOf a.val).ph2 with
  | some t =>
    if s.rampState a.val = 6 ∧ t + s.get pMOT MOT.RET_TIME_T2 * 10 * usSub ≤ s.time then .next ((s0.rampGo a.val 0).retractCheck.motionSettle)
    else .next s0
  | none => .next s0

/-! ### Boost and bridge faults (R267, R286) -/

/-- R267: a write of MA_CTRL.BOOST_EN. -/
def execBoostEn (m : Master) (en : Bool) (s : State) : Out :=
  .next (s.motCmd m pMOT 0x40 (fun s =>
    let s1 := s.putB pMOT MOT.MA_CTRL_BOOST_EN en
    if en then { s1 with mot := { s1.mot with boostOff := false } } else s1.put pMOT MOT.MA_STAT_BOOST_OK 0))

/-- R267: the boost reaches regulation. -/
def execBoostReady (s : State) : Out :=
  if s.on pMOT MOT.MA_CTRL_BOOST_EN ∧ s.mot.boostOff = false then .next (s.put pMOT MOT.MA_STAT_BOOST_OK 1) else .next s

/-- R286: BOOST_OK is lost while BOOST_EN is 1. -/
def execBoostFail (s : State) : Out :=
  if s.boostOk then .next ((s.put pMOT MOT.MA_STAT_BOOST_OK 0).raise pMOT 2) else .next s

/-- R286: a VCM bridge over-current. -/
def execVcmFault (a : Fin 8) (s : State) : Out :=
  if s.part.hasAct a.val then
    .next ((((s.raise pMOT 3).put pMOT (MOTA.VCM_CFG_BRIDGE_EN a.val) 0).parkFailed a.val))
  else .next s

/-! ### Shock sensors -/

/-- R180, R223, R284: a comparator sample above the threshold of an enabled sensor, at a sample instant. -/
def execShockTrip (n : Fin 4) (mag : BitVec 10) (s : State) : Out :=
  let s0 := if s.shockSample n.val then s.putMax pMOT (MOT.SHOCK_PEAK n.val) mag.toNat else s
  if s.shockSample n.val = true ∧ bit (s.get pMOT MOT.SHOCK_CFG_EN) n.val ∧ s.get pMOT (MOT.SHOCK_THR n.val) < mag.toNat ∧ ¬ bit (s.get pMOT MOT.SHOCK_STAT_ABOVE) n.val then
    let first := decide (s.get pMOT MOT.SHOCK_STAT_ABOVE = 0)
    let s1 := (s0.put pMOT MOT.SHOCK_STAT_ABOVE (withBit (s.get pMOT MOT.SHOCK_STAT_ABOVE) n.val true)).irq pMOT 2
    let s2 := if first then { s1 with shockSince := s1.time } else s1
    let s3 := s2.each ((List.range 8).filter s2.part.hasAct) (fun s a =>
      let s' := { s with shockEnd := tabPut s.shockEnd a 0 0 }
      if s'.on (pACT a) ACT.WI_STAT_SHOCK then s'
      else ((((s'.put (pACT a) ACT.WI_STAT_SHOCK 1).inc (pACT a) ACT.WI_SHOCK_CNT).irq (pACT a) 9).noteInhibit a wSHOCK 0xF).dilRaise a (2 ^ 14))
    .next s3.dropGates
  else .next s0

end Sys2Proof.Machine
end

