-- ==== Sys2Proof/Machine/BufferManager.lean ====
section
/-! DEFINITION. The buffer manager (R322–R343): DRAM bring-up and self-refresh, the arbiters, the Slip and Remap Table. -/

namespace Sys2Proof.Machine

def State.setDramState (s : State) (v : Nat) : State := s.put pBFM BFM.DRAM_STAT_STATE v

/-- The response of an access that completes later than it was made. -/
def State.respond (s : State) (m : Master) (v : Nat) (err : Bool) : State :=
  let r : Resp := { value := v, err := err }
  { s with resp := r, mresp := tabPut s.mresp m.code r {} }

/-! ### Bring-up (R324, R327, R348) -/

/-- MiB per channel (R324). -/
def State.densityMiB (s : State) : Nat := ([1024, 1536, 2048, 3072, 4096][s.get pBFM BFM.DRAM_CFG_DENSITY]?).getD 0

/-- CH_MASK and DENSITY keep R324. -/
def State.dramCfgOk (s : State) : Bool :=
  let m := s.channels.length
  let d := s.get pBFM BFM.DRAM_CFG_DENSITY
  decide (8 ≤ m) && (decide (d ≤ 2) || (decide (d = 3) && decide (m ≤ 10)) || (decide (d = 4) && decide (m = 8)))

/-- Addresses [lo, hi) are filled with zeros (R347). -/
def State.zeroRange (s : State) (lo hi : Nat) : State :=
  let inside := fun (a : Nat) => decide (lo ≤ a) && decide (a < hi)
  { s with mem := s.mem.filter (fun c => !inside c.1), badLines := s.badLines.filter (fun l => !inside l) }

/-- The contents of every channel are discarded (R328). -/
def State.discardDram (s : State) : State := s.zeroRange dramBase dramEnd

/-- DRAM is switched off: no channel is in self-refresh, no DRAM lap runs, the contents are gone (R327, R328, R352). -/
def State.dramOff (s : State) : State :=
  let s1 := s.each (List.range 12) (fun s c => s.put (pDMC c) DMC.DMC_STAT_SR 0)
  (({ s1 with gln := { s1.gln with dramOn := false } }.put pBFM BFM.DRAM_CTRL_DRAM_EN 0).setDramState 0).discardDram

/-- R327, R328: a write of DRAM_EN. M and USABLE are those of the last configuration that was accepted (DEDUCED, log 149). -/
def execDramEn (m : Master) (en : Bool) (s : State) : Out :=
  .next (s.regCmd m pBFM 0x48 (fun s =>
    if en then
      if s.on pBFM BFM.DRAM_CTRL_DRAM_EN then s
      else if s.dramCfgOk && s.channels.all (fun c => s.powered (pDMC c) && s.enabled (pDMC c)) then
        ((((s.put pBFM BFM.DRAM_CTRL_DRAM_EN 1).put pBFM BFM.DRAM_STAT_M s.channels.length).put pBFM BFM.DRAM_STAT_USABLE
          (s.channels.length * s.densityMiB * 7 / 8)).setDramState 1)
      else s.raise pBFM 0
    else s.dramOff))

/-- R327: training of every channel in CH_MASK has ended: the channels that failed, and each channel's eyes. -/
def execTrainingDone (fails : BitVec 12) (eyes : List (BitVec 24)) (s : State) : Out :=
  if s.dramState = 1 then
    let s1 := s.each s.channels (fun s c =>
      let bad := bit fails.toNat c
      let s' := (s.put (pDMC c) DMC.DMC_STAT_TRAIN (if bad then 2 else 1)).setReg (pDMC c) 0x44 ((eyes[c]?.getD 0).setWidth 32)
      if bad then s'.raise (pDMC c) 0 else s')
    if s.channels.any (bit fails.toNat) then .next ((s1.setDramState 5).irq pBFM 1) else .next (s1.setDramState 2)
  else .next s

/-- R348: the initialisation fill ends: every line is zero and valid. -/
def execDramFillDone (s : State) : Out :=
  if s.dramState = 2 then .next ((s.discardDram.setDramState 3).irq pBFM 0) else .next s

/-- R332: a write of SR_REQ. -/
def execSrReq (m : Master) (on_ : Bool) (s : State) : Out :=
  .next (s.regCmd m pBFM 0x48 (fun s => s.putB pBFM BFM.DRAM_CTRL_SR_REQ on_))

/-- R332: every channel is in self-refresh. -/
def execSelfRefreshEntered (s : State) : Out :=
  if s.dramState = 3 ∧ s.on pBFM BFM.DRAM_CTRL_SR_REQ then
    .next (((s.each s.channels (fun s c => s.put (pDMC c) DMC.DMC_STAT_SR 1)).setDramState 4).irq pBFM 2)
  else .next s

/-- R332: every channel has left self-refresh and retrained. -/
def execSelfRefreshExited (s : State) : Out :=
  if s.dramState = 4 ∧ s.on pBFM BFM.DRAM_CTRL_SR_REQ = false then
    .next (((s.each s.channels (fun s c => s.put (pDMC c) DMC.DMC_STAT_SR 0)).setDramState 3).irq pBFM 2)
  else .next s

/-- A channel that is in use. -/
def State.chanInUse (s : State) (c : Nat) : Bool :=
  bit (s.get pBFM BFM.DRAM_CFG_CH_MASK) c && s.powered (pDMC c) && decide (s.dramState ≠ 0)

/-- R326, R331: MR4 is polled: its code, and whether it lies above the device's high-temperature limit. -/
def execMr4Poll (c : Fin 12) (code : BitVec 3) (hot : Bool) (s : State) : Out :=
  if s.chanInUse c.val then
    let s1 := s.put (pDMC c.val) DMC.DMC_STAT_MR4 code.toNat
    .next (if hot then (s1.irq (pDMC c.val) 0).raise (pDMC c.val) 5 else s1)
  else .next s

/-- R326: a device requests refresh management. -/
def execRfmRequest (c : Fin 12) (s : State) : Out :=
  if s.chanInUse c.val then .next (s.inc (pDMC c.val) DMC.RFM_CNT) else .next s

/-- R331: a PHY fault or a lost lock on WCK. -/
def execDramPhyFault (c : Fin 12) (s : State) : Out :=
  if s.powered (pDMC c.val) then .next (s.raise (pDMC c.val) 1) else .next s

/-! ### Arbitration (R333–R335) -/

/-- The class of a master's requests (R333). -/
def bufClass (m : Master) (write : Bool) : Nat :=
  match m with
  | .head _ => if write then 1 else 0
  | .stp => 2
  | .dd _ => 2
  | .dma _ => 3
  | .host _ => 3
  | .gln => 5
  | _ => 4

/-- The resource of an address: DRAM channel 0–11, SRAM bank group 12–27. -/
def State.resourceOf (s : State) (a : Nat) : Nat :=
  if dramBase ≤ a then s.chanOf a else 12 + Config.bankGroup (a / 64) % 16

def State.bufqOf (s : State) (r : Nat) : List BufReq := tabGet s.bufq r []
def State.setBufq (s : State) (r : Nat) (q : List BufReq) : State := { s with bufq := tabPut s.bufq r q [] }
def State.slotOf (s : State) (r : Nat) : Nat := tabGet s.slots r 0

/-- An address of a region of R32 that is not buffer memory, which the region's own unit answers: the boot ROM for a master other than an
application core, the NOR read window, the registers. -/
def elsewhere (m : Master) (a : Nat) : Bool :=
  (decide (a < 0x40000) && (match m with | .core _ => false | _ => true)) || (decide (norWindow ≤ a) && decide (a < norWindow + 2 ^ 30)) ||
    (decide (regBase ≤ a) && decide (a < regEnd))

/-- R32, R33, R329: a master's request, within one 64 B line. -/
def execBufferRequest (m : Master) (write : Bool) (addr : BitVec 48) (len : BitVec 7) (data : List Byte) (s : State) : Out :=
  let a := addr.toNat
  let n := max 1 (min len.toNat (64 - a % 64))
  if elsewhere m a then .next s
  else match s.spanRefusal (some m) write a n with
  | some (r, x) => .next ((s.raiseRefusal (some m) write r x).respond m 0 true)
  | none =>
    let r := s.resourceOf a
    let q : BufReq := { master := m, cls := bufClass m write, write := write, addr := a, len := n, data := fitBytes n data, slot := s.slotOf r }
    .next (s.setBufq r (s.bufqOf r ++ [q]))

/-- The fallow denominator of a resource (R334, R342); 0 for none. -/
def State.fallowD (s : State) (r : Nat) : Nat :=
  match (if r < 12 then s.get pBFM BFM.FALLOW_CFG_DRAM_D else s.get pBFM BFM.FALLOW_CFG_SRAM_D) with
  | 0 => 0
  | 1 => 16
  | 2 => 32
  | 3 => 64
  | 4 => 128
  | 5 => 256
  | _ => 64

/-- Slot `n` is fallow. -/
def fallow (d n : Nat) : Bool := decide (d ≠ 0) && decide (n % d = d - 1)

/-- The order of the classes in a slot (R333, R334). -/
def classOrder (f : Bool) : List Nat := if f then [0, 1, 5, 2, 3, 4] else [0, 1, 2, 3, 4, 5]

/-- The requester next in rotation after `last` (R333): the least code above it, else the least. -/
def rotate (last : Nat) (codes : List Nat) : Option Nat :=
  let least := fun (l : List Nat) => l.foldl (fun (acc : Option Nat) c => match acc with | none => some c | some x => some (min x c)) none
  match least (codes.filter (fun c => decide (last < c))) with
  | some c => some c
  | none => least codes

/-- The request that a slot goes to. -/
def State.winner (s : State) (r n : Nat) : Option BufReq :=
  let q := s.bufqOf r
  match (classOrder (fallow (s.fallowD r) n)).find? (fun c => q.any (fun x => decide (x.cls = c))) with
  | none => none
  | some c =>
    let mine := q.filter (fun x => decide (x.cls = c))
    match rotate (tabGet s.lastGrant (16 * r + c) 0) (mine.map (fun x => x.master.code)) with
    | none => none
    | some code => mine.find? (fun x => decide (x.master.code = code))

/-- R329–R335: a slot of a resource: the access it goes to is performed, meeting the error the slot's read finds. -/
def execArbiterGrant (r : Fin 28) (e : WordErr) (s : State) : Out :=
  let r := r.val
  let n := s.slotOf r
  if s.grantsHeld r then .next s
  else
    let s0 : State := { s with slots := tabPut s.slots r (n + 1) 0 }
    match s.winner r n with
    | none => .next s0
    | some x =>
      let fd := fallow (s.fallowD r) n
      let s1 := s0.setBufq r ((s.bufqOf r).erase x)
      let s2 : State := { s1 with lastGrant := tabPut s1.lastGrant (16 * r + x.cls) x.master.code 0 }
      let s3 := if fd then s2.inc pBFM (if x.cls = 5 then BFM.FALLOW_BG else BFM.FALLOW_FG) else s2
      let s4 := s3.putMax pBFM (BFM.WAIT_MAX x.cls) (min (n - x.slot) (2 ^ 32 - 1))
      let reads := !x.write || decide (x.len ≠ 64)
      let s5 := if reads then s4.applyErr (x.addr / 64 * 64) e else s4
      if x.write then
        let w := s5.bufWrite (some x.master) x.addr x.data
        .next (w.1.respond x.master 0 (!w.2))
      else match s5.bufRead (some x.master) x.addr x.len with
        | (s6, some bs) => .next (s6.respond x.master (leNat bs) false)
        | (s6, none) => .next (s6.respond x.master 0 true)

/-! ### The Slip and Remap Table (R336–R341) -/

/-- Entry `i` of the table, as a number: W0 in [31:0] to W3 in [127:96]. -/
def State.srtEntry (s : State) (i : Nat) : Nat := s.load (srtBase + 16 * i) 16

def srtStart (e : Nat) : Nat := bits e 47 0
def srtLen (e : Nat) : Nat := bits e 63 48
def srtType (e : Nat) : Nat := bits e 67 64
def srtSector (e : Nat) : Nat := bits e 95 80

/-- The line of an entry holds an uncorrectable error. -/
def State.srtBad (s : State) (i : Nat) : Bool := s.badLines.contains ((srtBase + 16 * i) / 64 * 64)

/-- TYPE 1–4 and LEN not 0. -/
def srtValid (e : Nat) : Bool := decide (1 ≤ srtType e) && decide (srtType e ≤ 4) && decide (srtLen e ≠ 0)

/-- The number of entries. -/
def State.srtCount (s : State) : Nat := min 65536 (s.get pBFM BFM.SRT_COUNT)

/-- How a binary search ended: the entry before the key plus 1, or an error found. -/
inductive SrtFound where
  | place (n : Nat)
  | corrupt
  | error
deriving DecidableEq, Repr

/-- The search: the number of entries of [lo, hi) and below whose LSTART is not above K. -/
def State.srtSearch (s : State) (fuel lo hi k : Nat) : SrtFound :=
  match fuel with
  | 0 => .place lo
  | fuel + 1 =>
    if hi ≤ lo then .place lo
    else
      let mid := (lo + hi) / 2
      let e := s.srtEntry mid
      if s.srtBad mid then .error
      else if !srtValid e then .corrupt
      else if srtStart e ≤ k then s.srtSearch fuel (mid + 1) hi k
      else s.srtSearch fuel lo mid k

/-- Masters with their own copy of the lookup registers (R338). -/
def ownsSrt (m : Master) : Bool :=
  match m with
  | .core _ => true
  | .bsc => true
  | .dil _ => true
  | _ => false

/-- SRT_STAT.BUSY and HELD follow the engine (R339, R342). -/
def State.noteSrt (s : State) : State :=
  (s.putB pBFM BFM.SRT_STAT_BUSY (s.srt.run.isSome || s.srt.shift.isSome)).put pBFM BFM.SRT_STAT_HELD
    (if s.on pBFM BFM.SRT_CTRL_FREEZE then min 31 s.srt.queue.length else 0)

/-- The next lookup starts unless one is in progress or FREEZE holds it (R338, R339). -/
def State.srtNext (s : State) : State :=
  if s.srt.run.isSome || s.on pBFM BFM.SRT_CTRL_FREEZE then s.noteSrt
  else match s.srt.queue with
    | [] => s.noteSrt
    | x :: r => { s with srt := { s.srt with run := some x, queue := r } }.noteSrt

/-- A lookup of a master begins; a second key written before DONE replaces the first (R338). -/
def State.srtBegin (s : State) (m : Master) (hi : Nat) : State :=
  let s1 := (s.setMreg m pBFM 0x118 (BitVec.ofNat 32 (hi % 65536))).setMreg m pBFM 0x11C 0
  let k := (s1.mreg m pBFM 0x114).toNat + 2 ^ 32 * (hi % 65536)
  let t := s1.srt
  let t1 := match t.run with
    | some (m', _) => if m' = m then { t with run := some (m, k) }
      else if t.queue.any (fun x => decide (x.1 = m)) then { t with queue := t.queue.map (fun x => if x.1 = m then (m, k) else x) }
      else { t with queue := t.queue ++ [(m, k)] }
    | none =>
      if t.queue.any (fun x => decide (x.1 = m)) then { t with queue := t.queue.map (fun x => if x.1 = m then (m, k) else x) }
      else { t with queue := t.queue ++ [(m, k)] }
  { s1 with srt := t1 }.srtNext

/-- R338: a write of SRT_KEY_HI. -/
def execSrtLookup (m : Master) (hi : BitVec 16) (s : State) : Out :=
  .next (s.regCmd m pBFM 0x118 (fun s => if ownsSrt m then s.srtBegin m hi.toNat else s))

/-- A lookup's result and INDEX. -/
def State.srtResult (s : State) (m : Master) (res idx : Nat) : State :=
  (s.setMreg m pBFM 0x11C (BitVec.ofNat 32 (2 ^ 31 + res * 2 ^ 24 + idx))).inc pBFM BFM.LOOKUP_CNT

/-- A result for which R338 gives no INDEX: it is free (log 139). -/
def State.srtNoIndex (s : State) (m : Master) (res : Nat) : State := s.drew.srtResult m res (s.freeVal % 65536)

/-- A hit on entry `i` at key `k`: OFS, PSECT and the entry's words. -/
def State.srtHit (s : State) (m : Master) (i k : Nat) : State :=
  let e := s.srtEntry i
  let o := k - srtStart e
  let ps := if srtType e = 1 ∨ srtType e = 2 then (srtSector e + o) % 65536 else 0
  let s1 := s.setMreg m pBFM 0x120 (BitVec.ofNat 32 (o + 65536 * ps))
  (s1.each (List.range 4) (fun s w => s.setMreg m pBFM (0x124 + 4 * w) (BitVec.ofNat 32 (e / 2 ^ (32 * w))))).srtResult m 0 i

/-- R338: the lookup in progress ends. -/
def execSrtLookupEnd (s : State) : Out :=
  match s.srt.run with
  | none => .next s
  | some (m, k) =>
    let s0 : State := { s with srt := { s.srt with run := none } }
    let s1 :=
      if s.on pBFM BFM.SRT_STAT_FENCED then s0.srtNoIndex m 4
      else match s.srtSearch 17 0 s.srtCount k with
        | .corrupt => (s0.srtNoIndex m 2).raise pBFM 3
        | .error => (s0.srtNoIndex m 3).raise pBFM 1
        | .place 0 => s0.srtResult m 1 0xFFFF
        | .place (i + 1) => if k < srtStart (s.srtEntry i) + srtLen (s.srtEntry i) then s0.srtHit m i k else s0.srtResult m 1 i
    .next s1.srtNext

/-- R339: a write of SRT_CTRL.FREEZE. -/
def execFreeze (m : Master) (on_ : Bool) (s : State) : Out :=
  .next (s.regCmd m pBFM 0x100 (fun s => (s.putB pBFM BFM.SRT_CTRL_FREEZE on_).srtNext))

/-- R340, R341: a write of SRT_SHIFT. -/
def execSrtShift (m : Master) (index : BitVec 16) (dir : Bool) (s : State) : Out :=
  .next (s.regCmd m pBFM 0x10C (fun s =>
    let i := index.toNat
    let n := s.srtCount
    if s.on pBFM BFM.SRT_CTRL_FREEZE = false ∨ s.on pBFM BFM.SRT_STAT_BUSY = true ∨ n < i ∨ (dir = false ∧ n = 65536) ∨ (dir = true ∧ n ≤ i) then
      (s.put pBFM BFM.SRT_STAT_SHIFT_REFUSED 1).raise pBFM 4
    else { s.put pBFM BFM.SRT_STAT_SHIFT_REFUSED 0 with srt := { s.srt with shift := some (i, dir) } }.noteSrt))

/-- R340: the move completes. -/
def execShiftDone (s : State) : Out :=
  match s.srt.shift with
  | none => .next s
  | some (i, dir) =>
    let n := s.srtCount
    let s1 : State := { s with srt := { s.srt with shift := none } }
    let s2 := if dir then (s1.storeBytes (srtBase + 16 * i) (s.bytesAt (srtBase + 16 * (i + 1)) (16 * (n - 1 - i)))).put pBFM BFM.SRT_COUNT (n - 1)
      else (s1.storeBytes (srtBase + 16 * (i + 1)) (s.bytesAt (srtBase + 16 * i) (16 * (n - i)))).put pBFM BFM.SRT_COUNT (n + 1)
    .next s2.noteSrt

/-- R341: a write of SRT_CTRL.CHECK. -/
def execCheck (m : Master) (s : State) : Out :=
  .next (s.regCmd m pBFM 0x100 (fun s => { s.setReg pBFM 0x110 0 with srt := { s.srt with check := true } }))

/-- Why entry `i` breaks R337: 1 TYPE, 2 LEN, 3 ORDER, 4 OVERLAP, 5 UE. -/
def State.srtFault (s : State) (i : Nat) : Option Nat :=
  let e := s.srtEntry i
  let p := s.srtEntry (i - 1)
  if s.srtBad i then some 5
  else if srtType e = 0 ∨ 4 < srtType e then some 1
  else if srtLen e = 0 then some 2
  else if i ≠ 0 ∧ srtStart e ≤ srtStart p then some 3
  else if i ≠ 0 ∧ srtStart e < srtStart p + srtLen p then some 4
  else none

/-- R341: the scan ends. -/
def execCheckDone (s : State) : Out :=
  if s.srt.check then
    let s0 : State := { s with srt := { s.srt with check := false } }
    let r := (List.range s.srtCount).findSome? (fun i => (s.srtFault i).map (fun c => (i, c)))
    let w : Nat := match r with
      | none => 2 ^ 31 + 2 ^ 30
      | some (i, c) => 2 ^ 31 + c * 65536 + i
    .next ((s0.setReg pBFM 0x110 (BitVec.ofNat 32 w)).irq pBFM 3)
  else .next s

end Sys2Proof.Machine
end

