-- ==== Sys2Proof/Machine/MetadataCache.lean ====
section
/-! DEFINITION. The metadata cache (R356–R364): attributes, hits, misses, fills, the victim buffer, maintenance, entries that
disable themselves, bypass. -/

namespace Sys2Proof.Machine

/-! ### Entries and counts -/

def State.mdcEnt (s : State) (e : Nat) : MdcEntry := tabGet s.mdc.ents e {}
def State.setMdcEnt (s : State) (e : Nat) (v : MdcEntry) : State :=
  { s with mdc := { s.mdc with ents := tabPut s.mdc.ents e v {} } }

/-- The line of an address: 256 B, aligned (R356). -/
def mdcLine (a : Nat) : Nat := a / 256 * 256

/-- The entry's bit of DIS_LO and DIS_HI. -/
def State.mdcDis (s : State) (e : Nat) : Bool := if e < 32 then bit (s.get pMDC MDC.DIS_LO) e else bit (s.get pMDC MDC.DIS_HI) (e - 32)
def State.setMdcDis (s : State) (e : Nat) (b : Bool) : State :=
  if e < 32 then s.put pMDC MDC.DIS_LO (withBit (s.get pMDC MDC.DIS_LO) e b)
  else s.put pMDC MDC.DIS_HI (withBit (s.get pMDC MDC.DIS_HI) (e - 32) b)

/-- Enabled entries, ascending. -/
def State.mdcEnabled (s : State) : List Nat := (List.range 48).filter (fun e => !s.mdcDis e)

/-- The entry that holds a line. -/
def State.mdcFind (s : State) (l : Nat) : Option Nat := firstBelow 48 (fun e => decide ((s.mdcEnt e).line = some l))

/-- Every request goes to BFM: in bypass, fenced, or not enabled (R362, R363). -/
def State.mdcThrough (s : State) : Bool := s.on pMDC MDC.MDC_STAT_BYPASS || !s.running pMDC || s.fenced pMDC

/-- Write a line to DRAM, 64 B at a time. -/
def State.mdcWriteLine (s : State) (l : Nat) (d : List Byte) : State :=
  s.each (List.range 4) (fun s i => (s.bufWrite none (l + 64 * i) ((d.drop (64 * i)).take 64)).1)

/-- Write back entry `e` if it is dirty; it stays, clean. -/
def State.mdcClean (s : State) (e : Nat) : State :=
  let v := s.mdcEnt e
  match v.line with
  | some l => if v.dirty then (s.mdcWriteLine l v.data).setMdcEnt e { v with dirty := false } else s
  | none => s

/-- Entry `e` holds no line; its count of corrected errors stays. -/
def State.mdcDrop (s : State) (e : Nat) : State := s.setMdcEnt e { ces := (s.mdcEnt e).ces }

/-- Fills in flight deliver without allocating (R359, R360). -/
def State.mdcNoAlloc (s : State) (f : MdcFill → Bool) : State :=
  { s with mdc := { s.mdc with fills := s.mdc.fills.map (fun x => if f x then { x with alloc := false } else x) } }

/-- CLEAN_INV_ALL on every entry. -/
def State.mdcCleanInvAll (s : State) : State :=
  (s.each (List.range 48) (fun s e => (s.mdcClean e).mdcDrop e)).mdcNoAlloc (fun _ => true)

/-- The victim lines are written at once. -/
def State.mdcDrainVictims (s : State) : State :=
  let s1 := s.each s.mdc.victims (fun s v => s.mdcWriteLine v.1 v.2)
  { s1 with mdc := { s1.mdc with victims := [] } }

/-- MDC_STAT follows the cache; it starts cleaning for bypass and leaves bypass by itself (R362). -/
def State.noteMdc (s : State) : State :=
  let en := s.mdcEnabled.length
  let want := decide (en < 8) || s.on pMDC MDC.MDC_CTRL_BYPASS_REQ
  let live := s.running pMDC && !s.fenced pMDC
  let s1 :=
    if live && want && !s.on pMDC MDC.MDC_STAT_BYPASS && !s.on pMDC MDC.MDC_STAT_CLEANING then
      s.mdcCleanInvAll.put pMDC MDC.MDC_STAT_CLEANING 1
    else if live && !want && s.on pMDC MDC.MDC_STAT_BYPASS then s.put pMDC MDC.MDC_STAT_BYPASS 0
    else s
  (((s1.put pMDC MDC.MDC_STAT_ENABLED en).put pMDC MDC.MDC_STAT_DIRTY
    ((List.range 48).filter (fun e => (s1.mdcEnt e).dirty)).length).put pMDC MDC.MDC_STAT_FILLS s1.mdc.fills.length).put pMDC
    MDC.MDC_STAT_VICTIMS s1.mdc.victims.length

/-- CTRL.ENABLE at 0, SOFT_RESET, power-down and a fence act as CLEAN_INV_ALL followed by bypass (R363). -/
def State.mdcOff (s : State) : State :=
  (((s.mdcCleanInvAll.mdcDrainVictims).put pMDC MDC.MDC_STAT_CLEANING 0).put pMDC MDC.MDC_STAT_BYPASS 1).noteMdc

/-! ### Disabling entries (R361, R363) -/

/-- Entry `e` disables itself for FLT_STAT source `b`; `ue`: an uncorrectable error in its data. -/
def State.mdcTake (s : State) (e : Nat) (ue : Bool) : State :=
  let v := s.mdcEnt e
  let s1 := match v.line with
    | some l =>
      if !v.dirty then s
      else if ue then
        (s.each (List.range 4) (fun s i => (s.bufWrite none (l + 64 * i) ((v.data.drop (64 * i)).take 64)).1.markBad (l + 64 * i))).inc pMDC MDC.LOST_DIRTY
      else if s.mdc.victims.length < 4 then { s with mdc := { s.mdc with victims := s.mdc.victims ++ [(l, v.data)] } }
      else s.mdcWriteLine l v.data
    | none => s
  ((s1.mdcDrop e).setMdcDis e true).irq pMDC 1

/-- The same with its fault, source `b`. -/
def State.mdcDisable (s : State) (e b : Nat) (ue : Bool) : State := (s.mdcTake e ue).raiseSub pMDC b e

/-- A corrected error in entry `e`, source `b` (1 data, 4 tag): the third of its count period disables the entry. -/
def State.mdcCe (s : State) (e b : Nat) : State :=
  let v := s.mdcEnt e
  let s1 := (((s.setMdcEnt e { v with ces := v.ces + 1 }).inc pMDC MDC.CE_CNT).raise pMDC b)
  if 3 ≤ v.ces + 1 ∧ s.mdcDis e = false then s1.mdcDisable e 2 false else s1

/-- An uncorrectable error in the data of entry `e`. -/
def State.mdcUe (s : State) (e : Nat) : State := if s.mdcDis e then s else s.mdcDisable e 0 true

/-- An uncorrectable error in the tag of entry `e` (R363): whether the entry was dirty is not established. The fencing that the
fault brings does the rest (`mdcOff`). -/
def State.mdcTagUe (s : State) (e : Nat) : State := ((s.raise pMDC 3).mdcDrop e).inc pMDC MDC.LOST_DIRTY

/-- The counts return to 0 at an SRAM lap start (R361). -/
def State.mdcNewPeriod (s : State) : State :=
  { s with mdc := { s.mdc with ents := s.mdc.ents.foldl (fun t x => tabPut t x.1 { x.2 with ces := 0 } {}) [] } }

/-! ### Requests (R356–R359) -/

/-- The lowest-numbered enabled region that contains an address. -/
def State.mdcRegion (s : State) (a : Nat) : Option Nat :=
  firstBelow 8 (fun n => s.on pMDC (MDC.ATTR_EN n) &&
    (let b := s.get pMDC (MDC.BASE_LO n) * 4096 + s.get pMDC (MDC.BASE_HI n) * 2 ^ 32
     decide (b ≤ a) && decide (a < b + 4096 * s.get pMDC (MDC.SIZE n))))

/-- MODE of an address; 0 UNCACHED in no region, and 3 acts as 0. -/
def State.mdcMode (s : State) (a : Nat) : Nat :=
  match s.mdcRegion a with
  | none => 0
  | some n => s.get pMDC (MDC.ATTR_MODE n) % 3

def State.mdcRo (s : State) (a : Nat) : Bool :=
  match s.mdcRegion a with
  | none => false
  | some n => s.on pMDC (MDC.ATTR_RO n)

/-- The request goes to BFM, where it waits while DRAM is in self-refresh (R328, R332, R356). -/
def State.mdcDirect (s : State) (r : MdcReq) : State :=
  if s.dramHeld r.addr && (s.spanRefusal (some r.master) r.write r.addr r.len).isNone then
    let k := s.chanOf r.addr
    s.setBufq k (s.bufqOf k ++ [{ master := r.master, cls := 4, write := r.write, addr := r.addr, len := r.len, data := r.data, slot := s.slotOf k }])
  else if r.write then
    let w := s.bufWrite (some r.master) r.addr r.data
    w.1.respond r.master 0 (!w.2)
  else match s.bufRead (some r.master) r.addr r.len with
    | (s1, some bs) => s1.respond r.master (leNat bs) false
    | (s1, none) => s1.respond r.master 0 true

/-- The bytes of a request in its line. -/
def lineRead (d : List Byte) (r : MdcReq) : Nat := leNat ((d.drop (r.addr % 256)).take r.len)
def lineWrite (d : List Byte) (r : MdcReq) : List Byte := d.take (r.addr % 256) ++ r.data ++ d.drop (r.addr % 256 + r.data.length)

/-- Serve a request from entry `e`, which holds its line. -/
def State.mdcServe (s : State) (e : Nat) (r : MdcReq) : State :=
  let v := s.mdcEnt e
  let c := s.mdc.clock + 1
  let s1 : State := { s with mdc := { s.mdc with clock := c } }
  if r.write then
    if s.mdcMode r.addr = 1 then (s1.setMdcEnt e { v with data := lineWrite v.data r, used := c, pf := false }).mdcDirect r
    else (s1.setMdcEnt e { v with data := lineWrite v.data r, dirty := true, used := c, pf := false }).respond r.master 0 false
  else (s1.setMdcEnt e { v with used := c, pf := false }).respond r.master (lineRead v.data r) false

/-- The entry a fill takes: the least recently used enabled entry with no fill pending. -/
def State.mdcLru (s : State) : Option Nat :=
  (s.mdcEnabled.filter (fun e => !s.mdc.fills.any (fun f => decide (f.entry = e)))).foldl
    (fun (acc : Option Nat) e => match acc with
      | none => some e
      | some x => if (s.mdcEnt e).used < (s.mdcEnt x).used then some e else some x) none

/-- Start a fill of line `l`, with the requests that wait for it: none where no place is free (R357). -/
def State.mdcFill (s : State) (l : Nat) (rs : List MdcReq) (pf : Bool) : Option State :=
  match s.mdcLru with
  | none => none
  | some e =>
    let v := s.mdcEnt e
    if 8 ≤ s.mdc.fills.length ∨ (v.dirty = true ∧ 4 ≤ s.mdc.victims.length) then none
    else
      let vs := match v.line with
        | some vl => if v.dirty then s.mdc.victims ++ [(vl, v.data)] else s.mdc.victims
        | none => s.mdc.victims
      let s1 : State := { s with mdc := { s.mdc with victims := vs, fills := s.mdc.fills ++ [{ line := l, entry := e, reqs := rs, pf := pf }] } }
      some (s1.mdcDrop e)

/-- An operation of OP 4–6 is in progress: no entry is allocated (R360). -/
def State.mdcMaintAll (s : State) : Bool := match s.mdc.maint with | (_, op, _, _) :: _ => decide (4 ≤ op) | [] => false

/-- The prefetch of the next line (R358). -/
def State.mdcPrefetch (s : State) (a : Nat) : State :=
  match s.mdcRegion a with
  | none => s
  | some n =>
    let l := mdcLine a + 256
    if s.on pMDC (MDC.ATTR_PF n) && decide (s.mdcRegion l = some n) && (s.mdcFind l).isNone &&
        !s.mdc.fills.any (fun f => decide (f.line = l)) && !s.mdc.victims.any (fun v => decide (v.1 = l)) &&
        decide (s.mdc.fills.length < 6) && decide (s.mdc.victims.length < 4) then
      match s.mdcFill l [] true with
      | some s1 => s1.inc pMDC MDC.PF_CNT
      | none => s
    else s

def State.mdcWait (s : State) (r : MdcReq) : State := { s with mdc := { s.mdc with waits := s.mdc.waits ++ [r] } }

/-- A request enters the tag pipeline. -/
def State.mdcAccept (s : State) (r : MdcReq) : State :=
  let l := mdcLine r.addr
  if s.on pMDC MDC.MDC_STAT_CLEANING || s.mdc.waits.any (fun x => decide (mdcLine x.addr = l)) then s.mdcWait r
  else if r.write && s.mdcRo r.addr then (s.raiseBy pMDC 5 r.master 2 r.addr).respond r.master 0 true
  else if s.mdc.fills.any (fun f => decide (f.line = l)) then
    { s with mdc := { s.mdc with fills := s.mdc.fills.map (fun f => if f.line = l then { f with reqs := f.reqs ++ [r] } else f) } }
  else match s.mdcFind l with
    | some e =>
      let s1 := s.inc pMDC MDC.HIT_CNT
      (if (s.mdcEnt e).pf then s1.inc pMDC MDC.PF_USED else s1).mdcServe e r
    | none =>
      match s.mdc.victims.find? (fun v => decide (v.1 = l)) with
      | some v =>
        let s1 := s.inc pMDC MDC.VB_HIT_CNT
        if r.write then
          { s1 with mdc := { s1.mdc with victims := s1.mdc.victims.map (fun (x : Nat × List Byte) => if x.1 = l then (l, lineWrite x.2 r) else x) } }.respond r.master 0 false
        else s1.respond r.master (lineRead v.2 r) false
      | none =>
        if s.mdcThrough then s.mdcDirect r
        else if s.mdcMode r.addr = 0 then s.mdcDirect r
        else if (s.mdcMode r.addr = 1 ∧ r.write = true) ∨ s.mdcMaintAll = true then (s.inc pMDC MDC.MISS_CNT).mdcDirect r
        else match s.mdcFill l [r] false with
          | some s1 => (s1.inc pMDC MDC.MISS_CNT).mdcPrefetch r.addr
          | none => s.mdcWait r

/-- Waiting requests try again, in order. -/
def State.mdcRetry (s : State) : State :=
  if s.on pMDC MDC.MDC_STAT_CLEANING then s.noteMdc
  else
    let ws := s.mdc.waits
    let s1 : State := { s with mdc := { s.mdc with waits := [] } }
    (s1.each ws (fun s r => s.mdcAccept r)).noteMdc

/-- A request with what the checkers find. A tag error concerns the entry it names, a data error the entry hit. -/
def State.mdcRequest (s : State) (r : MdcReq) (f : MdcFind) : State :=
  match f with
  | .clean => (s.mdcAccept r).noteMdc
  | .tagCe e => ((if s.mdcThrough then s else s.mdcCe e.val 4).mdcAccept r).noteMdc
  | .tagUe e => ((if s.mdcThrough then s else s.mdcTagUe e.val).mdcAccept r).noteMdc
  | .dataCe =>
    match s.mdcFind (mdcLine r.addr) with
    | some e => ((s.mdcAccept r).mdcCe e 1).noteMdc
    | none => (s.mdcAccept r).noteMdc
  | .dataUe =>
    match s.mdcFind (mdcLine r.addr) with
    | some e => ((s.mdcUe e).respond r.master 0 true).noteMdc
    | none => (s.mdcAccept r).noteMdc

/-- The masters whose DRAM requests the MDC serves. -/
def viaMdc (m : Master) (a : Nat) : Bool :=
  decide (dramBase ≤ a) && decide (a < dramEnd) && (match m with | .core _ => true | .dil _ => true | _ => false)

/-- 4 B, 8 B or 64 B, naturally aligned. -/
def mdcReqOf (m : Master) (write : Bool) (a len : Nat) (data : List Byte) : MdcReq :=
  let n := if len ≤ 4 then 4 else if len ≤ 8 then 8 else 64
  { master := m, write := write, addr := a / n * n, len := n, data := fitBytes n data }

/-- R356–R359: a request; one that the MDC does not serve goes to BFM (the section's opening text). -/
def execMdcRequest (m : Master) (write : Bool) (addr : BitVec 48) (len : BitVec 7) (data : List Byte) (find : MdcFind) (s : State) : Out :=
  let r := mdcReqOf m write addr.toNat len.toNat data
  .next (if viaMdc m r.addr then s.mdcRequest r find else s.mdcDirect r)

/-- Serve the requests that waited for a fill that is not kept: reads from its data, writes to DRAM. -/
def State.mdcDeliver (s : State) (d : List Byte) (rs : List MdcReq) : State :=
  (rs.foldl (fun (x : State × List Byte) (r : MdcReq) =>
    if r.write then (x.1.mdcDirect r, lineWrite x.2 r) else (x.1.respond r.master (lineRead x.2 r) false, x.2)) (s, d)).1

/-- Fill `f` has returned, and `bad` says whether with an uncorrectable error (R359). -/
def State.mdcFilled (s : State) (f : MdcFill) : State :=
  let s0 : State := { s with mdc := { s.mdc with fills := s.mdc.fills.erase f } }
  let m := (f.reqs.head?).map (fun r => r.master)
  let got := (List.range 4).foldl (fun (x : State × Option (List Byte)) (i : Nat) =>
    match x.2 with
    | none => x
    | some d => match x.1.bufRead m (f.line + 64 * i) 64 with
      | (s1, some bs) => (s1, some (d ++ bs))
      | (s1, none) => (s1, none)) (s0, some [])
  match got with
  | (s1, none) =>
    let s2 := s1.each f.reqs (fun s r => s.respond r.master 0 true)
    if f.reqs.isEmpty then s2.raise pMDC 6 else s2
  | (s1, some d) =>
    if f.alloc && !s1.mdcDis f.entry && !s1.mdcThrough then
      let c := s1.mdc.clock + 1
      let s2 := { s1 with mdc := { s1.mdc with clock := c } }.setMdcEnt f.entry { line := some f.line, data := d, used := c, ces := (s1.mdcEnt f.entry).ces, pf := f.pf && f.reqs.isEmpty }
      s2.each f.reqs (fun s r => s.mdcServe f.entry r)
    else s1.mdcDeliver d f.reqs

/-- R357, R359: the data of a fill in flight returns, meeting an error in its beat `beat`. -/
def execMdcFillReturn (i : Fin 8) (beat : Fin 4) (e : WordErr) (s : State) : Out :=
  match s.mdc.fills[i.val]? with
  | none => .next s
  | some f => if s.dramHeld f.line then .next s else .next ((s.applyErr (f.line + 64 * beat.val) e).mdcFilled f).mdcRetry

/-- R359: BFM has accepted a victim's write-back. -/
def execVictimWritebackDone (i : Fin 4) (s : State) : Out :=
  match s.mdc.victims[i.val]? with
  | none => .next s
  | some v => if s.dramHeld v.1 then .next s else .next ({ s.mdcWriteLine v.1 v.2 with mdc := { s.mdc with victims := s.mdc.victims.erase v } }.mdcRetry)

/-- A sequencer's request with its fill made at once (log 7). -/
def State.mdcNow (s : State) (r : MdcReq) : State :=
  let s1 := s.mdcRequest r .clean
  match s1.mdc.fills.find? (fun f => decide (f.line = mdcLine r.addr)) with
  | some f => (s1.mdcFilled f).mdcRetry
  | none => s1

/-! ### Maintenance (R360) -/

/-- The operation at the front begins: its effect on the entries, and its RESULT. -/
def State.maintBegin (s : State) : State :=
  match s.mdc.maint with
  | [] => s
  | (m, op, a, _) :: rest =>
    let l := mdcLine a
    let one := (s.mdcFind l).toList
    let es := if op ≤ 3 then one else List.range 48
    let dirty := es.filter (fun e => (s.mdcEnt e).dirty)
    let s1 := s.mdcNoAlloc (fun f => decide (4 ≤ op) || decide (f.line = l))
    let s2 := if op = 1 ∨ op = 4 then s1 else s1.each dirty (fun s e => s.mdcClean e)
    let s3 := if op = 2 ∨ op = 5 then s2 else s2.each es (fun s e => s.mdcDrop e)
    let s4 := if op = 4 then s3.addSat pMDC MDC.LOST_DIRTY dirty.length else s3
    { s4 with mdc := { s4.mdc with maint := (m, op, a, if op = 1 ∧ dirty ≠ [] then 2 else 0) :: rest } }.noteMdc

/-- MAINT_STAT of a master. -/
def State.setMaintStat (s : State) (m : Master) (v : Nat) : State := s.setMreg m pMDC 0x54 (BitVec.ofNat 32 v)

/-- A report that no FLT_STAT bit of its page names (log 8); an absent page has no source (R7). -/
def State.reportUnnamed (s : State) (p cls base : Nat) (d : Detail) : State :=
  let r : Report := { time := s.time, page := p, bit := s.freeVal % 32, cls := cls, base := base, sub := d.sub, master := d.master, access := d.access, addr := d.addr, forced := false }
  if s.present p then { s.drew with fltq := insertReport r s.fltq } else s

/-- A write of MAINT with a reserved OP, or with an address outside the DRAM region: SEQ FL0. -/
def State.maintRefused (s : State) (m : Master) : State :=
  (((s.setMaintStat m (2 ^ 31 + 1)).irq pMDC 2).reportUnnamed pMDC cSEQ 0 { master := m.code, access := 2, addr := regAddr pMDC 0x50 })

/-- A write of MAINT with OP 1–6. -/
def State.maintWrite (s : State) (m : Master) (op : Nat) : State :=
  s.regCmd m pMDC 0x50 (fun s =>
    let a := (s.mreg m pMDC 0x48).toNat + 2 ^ 32 * ((s.mreg m pMDC 0x4C).toNat % 65536)
    if op ≤ 3 ∧ (a < dramBase ∨ dramEnd ≤ a) then s.maintRefused m
    else
      let s1 : State := { s with mdc := { s.mdc with maint := s.mdc.maint ++ [(m, op, a, 0)] } }
      let s2 := s1.setMaintStat m 0
      if s.mdc.maint.isEmpty then s2.maintBegin else s2)

def execInvAddr (m : Master) (s : State) : Out := .next (s.maintWrite m 1)
def execCleanAddr (m : Master) (s : State) : Out := .next (s.maintWrite m 2)
def execCleanInvAddr (m : Master) (s : State) : Out := .next (s.maintWrite m 3)
def execInvAll (m : Master) (s : State) : Out := .next (s.maintWrite m 4)
def execCleanAll (m : Master) (s : State) : Out := .next (s.maintWrite m 5)
def execCleanInvAll (m : Master) (s : State) : Out := .next (s.maintWrite m 6)

/-- What the operation at the front still waits for (R359, R360). -/
def State.maintWaits (s : State) (op a : Nat) : Bool :=
  let l := mdcLine a
  if op ≤ 3 then s.mdc.fills.any (fun f => decide (f.line = l)) || s.mdc.victims.any (fun v => decide (v.1 = l))
  else if op = 4 then false
  else !s.mdc.victims.isEmpty

/-- R360: the operation at the front completes, and the next begins. -/
def execMaintDone (s : State) : Out :=
  match s.mdc.maint with
  | [] => .next s
  | (m, op, a, res) :: rest =>
    if s.maintWaits op a then .next s
    else
      let s1 : State := { s with mdc := { s.mdc with maint := rest } }
      .next (((s1.setMaintStat m (2 ^ 31 + res)).irq pMDC 2).maintBegin).mdcRetry

/-! ### Bypass (R362) -/

/-- R362: a write of BYPASS_REQ. -/
def execBypassReq (m : Master) (on_ : Bool) (s : State) : Out :=
  .next (s.regCmd m pMDC 0x40 (fun s => (s.putB pMDC MDC.MDC_CTRL_BYPASS_REQ on_).noteMdc))

/-- R362: the clean of all entries has ended. -/
def execBypassEntered (s : State) : Out :=
  if s.on pMDC MDC.MDC_STAT_CLEANING ∧ s.mdc.fills = [] ∧ s.mdc.victims = [] then
    .next ((((s.put pMDC MDC.MDC_STAT_CLEANING 0).put pMDC MDC.MDC_STAT_BYPASS 1).irq pMDC 0).raise pMDC 7).mdcRetry
  else .next s

end Sys2Proof.Machine
end

