-- ==== Sys2Proof/Machine/Gleaner.lean ====
section
/-! DEFINITION. The Gleaner and the checker self-test (R349–R355). -/

namespace Sys2Proof.Machine

/-! ### Self-test (R349, R350) -/

/-- The page whose checkers belong to the buffer SRAM, the SRT, BFM's arbiters, FLT or the boot-and-safety core's memory. -/
def coreChecker (p : Nat) : Bool := p == pSYS || p == pFLT || p == pBFM

/-- The fault of a failed self-test of a checker of page `p`: MEM FL1 on the unit, or MEM FL4 (R350), which no FLT_STAT bit of the
owner names (log 8). -/
def State.selfTestFault (s : State) (p : Nat) : State := s.reportUnnamed p cMEM (if coreChecker p then 4 else 1) {}

/-- The first of the failing checkers, by page position and checker index. -/
def firstFail (fs : List (Nat × Nat)) : Nat × Nat :=
  fs.foldl (fun acc f => if f.1 < acc.1 ∨ (f.1 = acc.1 ∧ f.2 < acc.2) then f else acc) (fs.head?.getD (0, 0))

/-- A self-test ends with these failing checkers (page position, checker index): ST_STAT, ST_FIRST and the faults (R350). An absent unit
has no checker (R7). -/
def State.selfTest (s : State) (found : List (Nat × Nat)) : State :=
  let fs := found.filter (fun f => s.present f.1)
  let f := firstFail fs
  let s1 := (s.setReg pGLN 0x90 (BitVec.ofNat 32 (2 ^ 31 + (if fs.isEmpty then 2 ^ 30 else 0) + min 65535 fs.length))).setReg pGLN 0x94
    (BitVec.ofNat 32 (f.1 + 65536 * f.2))
  let s2 := s1.irq pGLN 3
  if fs.isEmpty then s2 else (s2.raise pGLN 2).each fs (fun s f => s.selfTestFault f.1)

/-- R350: a write of ST_RERUN; `fails` are the checkers of that page that give a wrong result. -/
def execStRerun (m : Master) (page : BitVec 9) (fails : List (BitVec 8)) (s : State) : Out :=
  .next (s.regCmd m pGLN 0x98 (fun s =>
    let p := page.toNat
    if s.present p && s.powered p && !s.enabled p then s.selfTest (fails.map (fun c => (p, c.toNat)))
    else s.put pGLN GLN.ST_STAT_REFUSED 1))

/-! ### Laps (R352, R353) -/

/-- The parts of the SRAM region: GLN_REGIONS bit, start, end, the page in whose domain they lie. -/
def glnParts : List (Nat × Nat × Nat × Nat) :=
  [(0, afmBase, scrBase, pAFM), (1, scrBase, stgBase, pSYS), (2, stgBase, ldpcBase, pSYS), (3, ldpcBase, srtBase, pSYS), (4, srtBase, dilBase, pSYS)] ++
    (List.range 8).map (fun a => (5, dilBase + 0x20000 * a, dilBase + 0x20000 * (a + 1), pDIL a)) ++ [(6, zptBase, sramEnd, pSYS)]

/-- The next line of the SRAM lap at or after an address, and its region; none when only internal arrays are left. -/
def State.glnNext (s : State) (a : Nat) : Option (Nat × Nat) :=
  (glnParts.find? (fun x => bit (s.get pGLN GLN.GLN_REGIONS) x.1 && s.present x.2.2.2 && s.powered x.2.2.2 && decide (a < x.2.2.1))).map
    (fun x => (max a x.2.1, x.1))

/-- A lap of each kind begins: its start time and its position; at an SRAM lap start the MDC's counts return to 0 (R361). -/
def State.sramLapStart (s : State) : State :=
  let s1 : State := { s with gln := { s.gln with sramOn := true, sramStart := s.time, sramLate := false } }
  let s2 := ((s1.setReg pGLN 0x64 (BitVec.ofNat 32 s.time)).setReg pGLN 0x68 (BitVec.ofNat 32 (s.time / 2 ^ 32))).setReg pGLN 0x6C 0
  if s.on pGLN GLN.GLN_REGIONS_MDC then s2.mdcNewPeriod else s2
def State.dramLapStart (s : State) : State :=
  let s1 : State := { s with gln := { s.gln with dramOn := true, dramStart := s.time, dramLate := false } }
  (s1.setReg pGLN 0x70 0).setReg pGLN 0x74 0

/-- The Gleaner stops: no lap runs (CTRL.ENABLE at 0, soft reset, power-down). -/
def State.glnStop (s : State) : State := { s with gln := { s.gln with sramOn := false, dramOn := false, beats := [] } }

/-- The Gleaner runs, and the DRAM lap may. -/
def State.glnRuns (s : State) : Bool := s.running pGLN && !s.fenced pGLN
def State.glnDram (s : State) : Bool := s.glnRuns && bit (s.get pGLN GLN.GLN_REGIONS) 8 && decide (s.dramState = 3)

def State.dramPos (s : State) : Nat := 64 * (s.get pGLN GLN.DRAM_POS_LO + 2 ^ 26 * s.get pGLN GLN.DRAM_POS_HI)
def State.setDramPos (s : State) (o : Nat) : State := (s.setReg pGLN 0x70 (BitVec.ofNat 32 o)).setReg pGLN 0x74 (BitVec.ofNat 32 (o / 2 ^ 32))
def State.sramInternal (s : State) : Bool := s.on pGLN GLN.SRAM_POS_INTERNAL
def State.sramPos (s : State) : Nat := (s.reg pGLN 0x6C).toNat % 2 ^ 26

/-! ### Beats (R351, R354) -/

/-- The FLT_STAT source and sub-unit of an error in an internal array: uncorrectable or corrected (R346). -/
def glnSource (p unit : Nat) (ue : Bool) : Option (Nat × Option Nat) :=
  let two := fun (u c : Nat) => some (if ue then u else c, (none : Option Nat))
  match pageKind p with
  | some .flt => two 0 1
  | some .drl => two 5 6
  | some .spn => two 8 9
  | some .xts => two 1 2
  | some .stp => two 3 4
  | some .afm => if ue then some (8 + unit % 8, some (192 + unit % 8)) else none
  | some .hif => two 2 3
  | some .dba => two 0 1
  | some .srv => two 0 1
  | some .til => two 8 9
  | some .prf => two 1 2
  | some .dil => two 7 8
  | some .hch => if unit = 0 then two 19 20 else two 8 9
  | _ => none

/-- The Gleaner reports through a source (R351). -/
def State.glnRaise (s : State) (p b : Nat) (sub : Option Nat) (a : Nat) : State :=
  s.raiseWith p b { sub := sub, master := Master.gln.code, access := 5, addr := a }

/-- The owner's report of an error in a line of the SRAM region. -/
def State.glnSramOwner (s : State) (a : Nat) (ue : Bool) (spot : Option GlnSpot) : State :=
  let b := fun (u c : Nat) => if ue then u else c
  if a < scrBase then (if (a - afmBase) / 0x20000 < 192 then s.glnRaise pAFM (b 0 1) (some ((a - afmBase) / 0x20000)) a else s)
  else if a < ldpcBase then s
  else if a < srtBase then
    match spot with
    | some sp => match glnSource sp.page.val (if pageKind sp.page.val = some .hch then 1 else sp.unit.toNat) ue with
      | some (x, sub) => s.glnRaise sp.page.val x sub a
      | none => s
    | none => s
  else if a < dilBase then s.glnRaise pBFM (b 1 2) none a
  else if a < zptBase then s.glnRaise (pDIL ((a - dilBase) / 0x20000)) (b 7 8) none a
  else if (a - zptBase) / 5120 < 96 then s.glnRaise (pHCH ((a - zptBase) / 5120)) (b 0 1) none a
  else s

/-- ERR_ADDR, ERR_INFO, the counts and IRQ_RAW.ERR. -/
def State.glnErr (s : State) (lo hi syn region : Nat) (ue : Bool) : State :=
  let s1 := ((s.setReg pGLN 0x84 (BitVec.ofNat 32 lo)).setReg pGLN 0x88 (BitVec.ofNat 32 hi)).setReg pGLN 0x8C
    (BitVec.ofNat 32 ((if ue then 1 else 0) + 256 * syn + 65536 * region))
  (s1.inc pGLN (if ue then GLN.UE_CNT else GLN.CE_CNT)).irq pGLN 2

/-- The write-back of a corrected line: cancelled when another write was granted since the read (R351). -/
def State.glnBack (s : State) (raced : Bool) : State := if raced then s.inc pGLN GLN.WB_CANCEL else s

/-- A read of the buffer-memory line `a` of region `region`. -/
def State.glnLine (s : State) (a region : Nat) (e : WordErr) (raced : Bool) (spot : Option GlnSpot) : State :=
  let known := s.badLines.contains a
  let syn := if known then s.freeVal % 256 else errSyndrome e
  let s0 := if known then s.drew else s
  let v := if known then Ecc.ue else errVerdict e
  let owner := fun (s : State) (ue : Bool) =>
    if dramBase ≤ a then (if ue then s.dramUe (some .gln) false a else s.dramCe a) else s.glnSramOwner a ue spot
  match v with
  | .good => s0
  | .ce => ((owner s0 false).glnErr a (a / 2 ^ 32) syn region false).glnBack raced
  | .ue => (owner (s0.markBad a) true).glnErr a (a / 2 ^ 32) syn region true

/-- A read of an internal array's line. -/
def State.glnInternal (s : State) (sp : GlnSpot) (e : WordErr) (raced : Bool) : State :=
  let p := sp.page.val
  let hi := 2 ^ 31 + 65536 * p
  let owner := fun (s : State) (ue : Bool) =>
    if p = pMDC then
      let en := sp.unit.toNat % 64
      if 48 ≤ en then s
      else if sp.unit.msb then (if ue then s.mdcTagUe en else s.mdcCe en 4).noteMdc
      else (if ue then s.mdcUe en else s.mdcCe en 1).noteMdc
    else match glnSource p sp.unit.toNat ue with
      | some (b, sub) => s.glnRaise p b sub 0
      | none => s
  match errVerdict e with
  | .good => s
  | .ce => ((owner s false).glnErr sp.word.toNat hi (errSyndrome e) 7 false).glnBack raced
  | .ue => (owner s true).glnErr sp.word.toNat hi (errSyndrome e) 7 true

/-- Class 5 gets the next slot of resource `r`, PACE.GAP slots having passed since its last (R333–R335, R354). -/
def State.glnSlot (s : State) (r a : Nat) : Option State :=
  let n := s.slotOf r
  let q : BufReq := { master := .gln, cls := 5, write := false, addr := a, len := 64, data := [], slot := n }
  let last := tabGet s.gln.beats r 0
  if s.grantsHeld r || decide (n < last + (if last = 0 then 0 else s.get pGLN GLN.PACE_GAP)) then none
  else match (s.setBufq r (s.bufqOf r ++ [q])).winner r n with
    | some x =>
      if x.cls = 5 then
        let s1 : State := { s with slots := tabPut s.slots r (n + 1) 0, gln := { s.gln with beats := tabPut s.gln.beats r (n + 1) 0 } }
        some (if fallow (s.fallowD r) n then s1.inc pBFM BFM.FALLOW_BG else s1)
      else none
    | none => none

/-- R351, R352: a beat of the DRAM lap or of the SRAM lap, meeting error `e`; `raced`: another write to the line was granted before
the write-back; `spot`: the internal word read, or the owner of a working-memory line. -/
def execGleanerBeat (dram : Bool) (e : WordErr) (raced : Bool) (spot : Option GlnSpot) (s : State) : Out :=
  if dram then
    if !s.glnDram then .next s
    else
      let s0 := if s.gln.dramOn then s else s.dramLapStart
      let o := s0.dramPos
      if s0.usable ≤ o then .next s0
      else match s0.glnSlot (s0.chanOf (dramBase + o)) (dramBase + o) with
        | none => .next s0
        | some s1 => .next ((s1.setDramPos (o + 64)).glnLine (dramBase + o) 8 e raced none)
  else
    if !s.glnRuns then .next s
    else
      let s0 := if s.gln.sramOn then s else s.sramLapStart
      match (if s0.sramInternal then none else s0.glnNext (afmBase + s0.sramPos)) with
      | some (a, region) =>
        match s0.glnSlot (s0.resourceOf a) a with
        | none => .next s0
        | some s1 =>
          let p := match s1.glnNext (a + 64) with
            | some (b, _) => b - afmBase
            | none => 2 ^ 31
          .next ((s1.setReg pGLN 0x6C (BitVec.ofNat 32 p)).glnLine a region e raced spot)
      | none =>
        match spot with
        | none => .next s0
        | some sp =>
          if s0.on pGLN GLN.GLN_REGIONS_MDC && s0.present sp.page.val && s0.powered sp.page.val then
            .next ((s0.setReg pGLN 0x6C (BitVec.ofNat 32 (2 ^ 31 + 65536 * sp.page.val + (sp.word.toNat + 1) % 65536))).glnInternal sp e raced)
          else .next s0

/-- R353: a lap ends, and the next of its kind begins. -/
def execLapEnd (dram : Bool) (s : State) : Out :=
  if dram then
    if s.glnDram && s.gln.dramOn && decide (s.usable ≤ s.dramPos) then
      let d := (s.time - s.gln.dramStart) / msSub
      .next (((((s.put pGLN GLN.DRAM_LAP_LAST (min d (2 ^ 32 - 1))).putMax pGLN GLN.DRAM_LAP_MAX (min d (2 ^ 32 - 1))).addWrap pGLN
        GLN.DRAM_LAPS 1).irq pGLN 1).dramLapStart)
    else .next s
  else if s.glnRuns && s.gln.sramOn && (s.sramInternal || (s.glnNext (afmBase + s.sramPos)).isNone) then
    let d := (s.time - s.gln.sramStart) / usSub
    .next (((((s.put pGLN GLN.SRAM_LAP_LAST (min d (2 ^ 32 - 1))).putMax pGLN GLN.SRAM_LAP_MAX (min d (2 ^ 32 - 1))).addWrap pGLN
      GLN.SRAM_LAPS 1).irq pGLN 0).sramLapStart)
  else .next s

/-- R353: a lap passes its target. -/
def execLapLate (dram : Bool) (s : State) : Out :=
  if dram then
    if s.glnRuns && s.gln.dramOn && !s.gln.dramLate && decide (s.gln.dramStart + s.get pGLN GLN.LAP_TGT_DRAM_TGT * 1000 * msSub ≤ s.time) then
      .next ({ s with gln := { s.gln with dramLate := true } }.raise pGLN 1)
    else .next s
  else if s.glnRuns && s.gln.sramOn && !s.gln.sramLate && decide (s.gln.sramStart + s.get pGLN GLN.LAP_TGT_SRAM_TGT * msSub ≤ s.time) then
    .next ({ s with gln := { s.gln with sramLate := true } }.raise pGLN 0)
  else .next s

end Sys2Proof.Machine
end

