-- ==== Sys2Proof/Machine/Dma.lean ====
section
/-! DEFINITION. The DMA engine (R365–R385): descriptors, transfers through XTS, posted writes and their trail, errors, abort and
reset; what it needs of the host ports. -/

namespace Sys2Proof.Machine

/-! ### Ports -/

def State.portOf (s : State) (p : Nat) : Port := tabGet s.ports p {}
def State.setPort (s : State) (p : Nat) (v : Port) : State := { s with ports := tabPut s.ports p v {} }

/-- The link carries TLPs: L0 to RECOVERY (R388). -/
def State.linkUpOn (s : State) (p : Nat) : Bool :=
  decide (3 ≤ s.get (pHIF p) HIF.LINK_STAT_STATE) && decide (s.get (pHIF p) HIF.LINK_STAT_STATE ≤ 8)

/-- Bus Master Enable; D3hot counts as 0 (R377, R403). -/
def State.bmeOn (s : State) (p : Nat) : Bool := s.on (pHIF p) HIF.LINK_STAT_BME && !s.on (pHIF p) HIF.LINK_STAT_D3HOT

/-- Device Control of the PCI Express capability (R390: at 0x060), as Base 6.0 lays it out and resets it (log 10). -/
def State.devCtl (s : State) (p : Nat) : Nat := (tabGet (s.portOf p).cfg 0x1A (0x2810 : Word)).toNat

/-- Max_Payload_Size, of the 512 B supported (R386), and Max_Read_Request_Size. -/
def State.maxPayload (s : State) (p : Nat) : Nat := 128 * 2 ^ min 2 (bits (s.devCtl p) 7 5)
def State.maxRead (s : State) (p : Nat) : Nat := 128 * 2 ^ min 5 (bits (s.devCtl p) 14 12)

/-- Bytes of a TLP in the transmit queue: its data and four header words (log 10). -/
def tlpBytes (t : Tlp) : Nat := t.data.length + 16
def State.txqBytes (s : State) (p : Nat) : Nat := ((s.portOf p).txq.map tlpBytes).foldl (· + ·) 0

/-- TXQ_STAT follows the queue; while it holds less than 8 KiB its idle time runs, and with 8 KiB the link widens again (R404). -/
def State.noteTxq (s : State) (p : Nat) : State :=
  let n := s.txqBytes p
  let q := s.portOf p
  let s1 := s.setPort p (if 8192 ≤ n then { q with idleAt := 0 } else if q.idleAt = 0 then { q with idleAt := s.time + 1 } else q)
  let s2 := s1.put (pHIF p) HIF.TXQ_STAT n
  if 8192 ≤ n ∧ s.get (pHIF p) HIF.LINK_STAT_STATE = 4 then (s2.put (pHIF p) HIF.LINK_STAT_STATE 3).put (pHIF p) HIF.LINK_STAT_WIDTH q.width else s2

/-- The port takes a TLP. -/
def State.takeTlp (s : State) (p : Nat) (t : Tlp) : State :=
  let q := s.portOf p
  (s.setPort p { q with txq := q.txq ++ [t] }).noteTxq p

/-! ### Channels -/

/-- Field of channel block `c` (R385). -/
def chF (c off lo wd : Nat) : Fld := ⟨0x800 + 0x40 * c + off, lo, wd⟩

def State.dmaOf (s : State) (c : Nat) : DmaChan := tabGet s.dma c {}
def State.setDma (s : State) (c : Nat) (v : DmaChan) : State := { s with dma := tabPut s.dma c v {} }
def State.chState (s : State) (c : Nat) : Nat := s.get pDMA (chF c 4 0 3)
def State.setChState (s : State) (c v : Nat) : State := s.put pDMA (chF c 4 0 3) v
def State.chPort (s : State) (c : Nat) : Nat := s.get pDMA (chF c 0 4 1)
def State.chStop (s : State) (c : Nat) : Bool := s.on pDMA (chF c 0 1 1)
def State.setCur (s : State) (c a : Nat) : State := (s.put pDMA (chF c 0x10 0 32) a).put pDMA (chF c 0x14 0 16) (a / 2 ^ 32)

/-! ### Descriptor words (R365) -/

def DmaDesc.word (d : DmaDesc) (i : Nat) : Nat := bits d.raw (32 * i + 31) (32 * i)
def dDir (d : DmaDesc) : Nat := bits d.raw 1 0
def dXts (d : DmaDesc) : Nat := bits d.raw 3 2
def dSwap (d : DmaDesc) : Nat := bits d.raw 6 4
def dBarrier (d : DmaDesc) : Bool := bit d.raw 8
def dIrq (d : DmaDesc) : Bool := bit d.raw 9
def dEnd (d : DmaDesc) : Bool := bit d.raw 10
def dKey (d : DmaDesc) : Nat := bits d.raw 21 16
def dDu (d : DmaDesc) : Nat := bits d.raw 26 24
def dLen (d : DmaDesc) : Nat := bits d.raw 55 32
def dSrc (d : DmaDesc) : Nat := bits d.raw 127 64
def dDst (d : DmaDesc) : Nat := bits d.raw 191 128
def dNext (d : DmaDesc) : Nat := bits d.raw 239 198 * 64
def dDun (d : DmaDesc) : Nat := bits d.raw 319 256

/-- Internal addresses are the low 48 bits. -/
def dSrcIn (d : DmaDesc) : Nat := dSrc d % 2 ^ 48
def dDstIn (d : DmaDesc) : Nat := dDst d % 2 ^ 48

def dHost (d : DmaDesc) : Bool := decide (dDir d ≠ 0)
def duBytes (d : DmaDesc) : Nat := ([512, 4096, 8192, 64, 32][dDu d]?).getD 512
def swapUnit (d : DmaDesc) : Nat := 2 ^ dSwap d

/-- The unit in which bytes are transformed: a data unit of XTS, a swap unit, one byte. -/
def unitOf (d : DmaDesc) : Nat := if dXts d ≠ 0 then duBytes d else swapUnit d

/-- Reverse each `u` bytes (R367). -/
def swapBytes (u : Nat) (fuel : Nat) (bs : List Byte) : List Byte :=
  match fuel with
  | 0 => []
  | fuel + 1 => if bs.isEmpty then [] else (bs.take u).reverse ++ swapBytes u fuel (bs.drop u)
def swapAll (u : Nat) (bs : List Byte) : List Byte := if u = 1 then bs else swapBytes u bs.length bs

/-- The first failing check of R366: DETAIL. -/
def State.descCheck (s : State) (d : DmaDesc) : Option Nat :=
  let len := dLen d
  let out := fun (a : Nat) => !s.dmaRange a len
  if dDir d = 3 ∨ dXts d = 3 ∨ 4 < dSwap d ∨ 4 < dDu d ∨ len = 0 then some 0xA
  else if dXts d ≠ 0 ∧ (dDir d = 0 ∨ (dXts d = 1 ∧ dDir d = 1) ∨ (dXts d = 2 ∧ dDir d = 2)) then some 0xA
  else if dXts d ≠ 0 ∧ len % duBytes d ≠ 0 then some 0xA
  else if len % swapUnit d ≠ 0 then some 0xA
  else if (dDir d ≠ 2 ∧ out (dSrcIn d)) ∨ (dDir d ≠ 1 ∧ out (dDstIn d)) then some 1
  else if dEnd d = false ∧ ¬ ((afmBase ≤ dNext d ∧ dNext d < sramEnd) ∨ (dramBase ≤ dNext d ∧ dNext d < dramEnd)) then some 1
  else none

/-! ### XTS (R504, R506) -/

def State.keyOf (s : State) (k : Nat) : List Byte := tabGet s.keys k []

/-- XTS serves slot `k`. -/
def State.xtsReady (s : State) (k : Nat) : Bool :=
  s.present pXTS && s.powered pXTS && !s.fenced pXTS && s.domOn domKS && decide (s.keyOf k ≠ [])

/-- IN_USE: slots of descriptors in flight with XTS (R505). -/
def State.noteInUse (s : State) : State :=
  let used := (s.dma.map (fun c => (c.2.descs.filter (fun d => decide (dXts d ≠ 0))).map dKey)).flatten
  let m := (List.range 64).foldl (fun acc k => if used.contains k then acc + 2 ^ k else acc) 0
  if s.present pXTS then (s.put pXTS XTS.IN_USE_LO m).put pXTS XTS.IN_USE_HI (m / 2 ^ 32) else s

/-- Blocks `j` on of data unit `u` of a descriptor. -/
def State.xtsPart (s : State) (d : DmaDesc) (enc : Bool) (u j : Nat) (bs : List Byte) : List Byte × State :=
  (xtsBlocks enc (s.keyOf (dKey d)) ((dDun d + u) % 2 ^ 128) j bs, s.addSat pXTS XTS.BLOCK_CNT (bs.length / 16))

/-! ### Channel errors (R373) -/

def State.dmaMaster (c : Nat) : Master := .dma (Fin.ofNat 32 c)

/-- ERR_INFO, ERR_ADDR and ERR_PEND of channel `c`. -/
def State.chErr (s : State) (c st det seq a : Nat) : State :=
  let s1 := (((s.put pDMA (chF c 0x28 0 8) st).put pDMA (chF c 0x28 8 4) det).put pDMA (chF c 0x28 16 16) seq)
  let s2 := (s1.put pDMA (chF c 0x2C 0 32) a).put pDMA (chF c 0x30 0 32) (a / 2 ^ 32)
  let s3 := s2.put pDMA DMA.ERR_PEND (withBit (s2.get pDMA DMA.ERR_PEND) c true)
  if bit (s3.get pDMA DMA.ERR_EN) c then s3.irq pDMA 1 else s3

/-- A channel error from source `b` (0 DESC_ERR, 1 POSTED_ERR). -/
def State.chFault (s : State) (c b st det seq a access : Nat) : State :=
  let stop := s.chStop c
  let s1 := (s.chErr c st det seq a).raiseWith pDMA b { sub := some c, master := (State.dmaMaster c).code, access := access, addr := a, forced := (s.dmaOf c).forced, level := some (if stop then 1 else 0) }
  let s2 := s1.setDma c { s1.dmaOf c with forced := false }
  if stop then s2.setDma c { s2.dmaOf c with halt := true, last := true } else s2

/-- INFLIGHT and OUTST_RD follow the channel. -/
def State.noteCh (s : State) (c : Nat) : State :=
  let ch := s.dmaOf c
  ((s.put pDMA (chF c 4 16 2) ch.descs.length).put pDMA (chF c 4 24 8) (ch.descs.map (fun d => d.reads.length)).sum).noteInUse

/-- TRAIL01, TRAIL23 and VALID follow the trail until a loss freezes them (R372). -/
def State.noteTrail (s : State) (c : Nat) : State :=
  if s.on pDMA (chF c 0x24 8 1) then s
  else
    let t := (s.dmaOf c).trail
    let g := fun i => t.getD i 0
    (((s.put pDMA (chF c 0x1C 0 32) (g 0 + 65536 * g 1)).put pDMA (chF c 0x20 0 32) (g 2 + 65536 * g 3)).put pDMA (chF c 0x24 0 4)
      (2 ^ min 4 t.length - 1))

/-- Replace descriptor `i` of a channel. -/
def State.setDesc (s : State) (c i : Nat) (d : DmaDesc) : State :=
  let ch := s.dmaOf c
  s.setDma c { ch with descs := ch.descs.set i d }

/-! ### Transfers -/

/-- Why BFM refuses or fails an access: DETAIL ADDR or UE (R371). -/
def State.bufDetail (s : State) (c : Nat) (w : Bool) (a n : Nat) : Nat :=
  if (s.spanRefusal (some (State.dmaMaster c)) w a n).isSome then 1 else 2

/-- Source bytes [lo, lo + n) of a transfer from the buffer: decrypted toward the host, then swapped; or the error they meet. -/
def State.dmaSource (s : State) (c : Nat) (d : DmaDesc) (lo n : Nat) : State × Except (Nat × Nat × Nat) (List Byte) :=
  let a := lo / 16 * 16
  let b := min (dLen d) ((lo + n + 15) / 16 * 16)
  match s.bufRead (some (State.dmaMaster c)) (dSrcIn d + a) (b - a) with
  | (s1, none) => (s1, .error (1, s.bufDetail c false (dSrcIn d + a) (b - a), dSrcIn d + a))
  | (s1, some raw) =>
    if dXts d = 0 then (s1, .ok ((swapAll (swapUnit d) raw).drop (lo - a) |>.take n))
    else if !s1.xtsReady (dKey d) then (s1, .error (8, 9, dSrcIn d + a))
    else
      let r := s1.xtsPart d false (a / duBytes d) (a % duBytes d / 16) raw
      (r.2, .ok ((swapAll (swapUnit d) r.1).drop (lo - a) |>.take n))

/-- Deliver whole units to the buffer at `off`: the bytes as they left the host; the error they meet. -/
def State.dmaSink (s : State) (c : Nat) (d : DmaDesc) (off : Nat) (bs : List Byte) : State × Option (Nat × Nat × Nat) :=
  let a := dDstIn d + off
  let put := fun (s : State) (out : List Byte) =>
    match s.bufWrite (some (State.dmaMaster c)) a out with
    | (s1, true) => (s1, (none : Option (Nat × Nat × Nat)))
    | (s1, false) => (s1, some (2, s.bufDetail c true a out.length, a))
  let sw := swapAll (swapUnit d) bs
  if dXts d = 0 then put s sw
  else if !s.xtsReady (dKey d) then (s, some (8, 9, a))
  else
    let r := s.xtsPart d true (off / duBytes d) 0 sw
    put r.2 r.1

/-- The part of received segments that lies in [lo, hi), in order. -/
def clipParts (parts : List (Nat × List Byte)) (lo hi : Nat) : List Byte :=
  (parts.map (fun p => (p.2.drop (lo - p.1)).take (hi - max lo p.1))).flatten

/-- What lies outside [lo, hi). -/
def cutParts (parts : List (Nat × List Byte)) (lo hi : Nat) : List (Nat × List Byte) :=
  ((parts.map (fun p => [(p.1, p.2.take (lo - p.1)), (max hi p.1, p.2.drop (hi - p.1))])).flatten).filter (fun p => decide (p.2 ≠ []))

def insertPart (p : Nat × List Byte) (l : List (Nat × List Byte)) : List (Nat × List Byte) :=
  match l with
  | [] => [p]
  | x :: r => if p.1 ≤ x.1 then p :: x :: r else x :: insertPart p r

/-- Bytes that arrive for offset `off` of descriptor `i`: units now complete go to the buffer (R369). -/
def State.dmaArrive (s : State) (c i : Nat) (d : DmaDesc) (off : Nat) (bs : List Byte) : State :=
  let u := unitOf d
  if u = 1 then
    match s.dmaSink c d off bs with
    | (s1, none) => s1.setDesc c i { d with given := d.given + bs.length }
    | (s1, some e) => s1.setDesc c i { d with err := some e }
  else
    let first := off / u
    let count := (off + bs.length + u - 1) / u - first
    let d0 := { d with parts := insertPart (off, bs) d.parts }
    let r := (List.range count).foldl (fun (x : State × DmaDesc) k =>
      if x.2.err.isSome then x
      else
        let lo := (first + k) * u
        let hi := min (dLen d) (lo + u)
        let whole := clipParts x.2.parts lo hi
        if whole.length ≠ hi - lo then x
        else match x.1.dmaSink c d lo whole with
          | (s1, none) => (s1, { x.2 with parts := cutParts x.2.parts lo hi, given := x.2.given + (hi - lo) })
          | (s1, some e) => (s1, { x.2 with err := some e })) (s, d0)
    r.1.setDesc c i r.2

/-- The host side of a descriptor is barred: STATUS and DETAIL (R371, R377, R409). -/
def State.hostBar (s : State) (c : Nat) (d : DmaDesc) : Option (Nat × Nat × Nat) :=
  let p := s.chPort c
  let a := if dDir d = 1 then dDst d else dSrc d
  if !dHost d then none
  else if !s.linkUpOn p || s.fenced (pHIF p) then some (if dDir d = 1 then 2 else 1, 7, a)
  else if !s.bmeOn p then some (3, 0, a)
  else none

/-- Posted writes of other descriptors that a BARRIER descriptor waits for (R370). -/
def barrierWaits (ch : DmaChan) (d : DmaDesc) : Bool := dBarrier d && ch.trail.any (fun q => decide (q ≠ d.seq))

/-- One step of descriptor `i`: none where it issues nothing now. -/
def State.dmaIssue (s : State) (c i : Nat) (d : DmaDesc) : Option State :=
  let ch := s.dmaOf c
  let p := s.chPort c
  let left := dLen d - d.pos
  let held := (decide (dDir d ≠ 2) && s.dramHeld (dSrcIn d + d.pos)) || (decide (dDir d = 0) && s.dramHeld (dDstIn d + d.pos))
  if d.err.isSome || decide (left = 0) || held then none
  else if dBarrier d && decide (d.pos = 0) && ch.lost.isSome then some (s.setDesc c i { d with err := some (2, 8, if dDir d = 1 then dDst d else dDstIn d) })
  else match s.hostBar c d with
  | some e => some (s.setDesc c i { d with err := some e })
  | none =>
    if dDir d = 2 then
      let size := min (128 * 2 ^ min 5 (s.get pDMA DMA.RD_CFG_RD_SIZE)) (s.maxRead p)
      let cap := max 1 (s.get pDMA DMA.RD_CFG_MAX_RD)
      let mine := (ch.descs.map (fun x => x.reads.length)).sum
      let tags := ((List.range 32).map (fun k => if s.chPort k = p then ((s.dmaOf k).descs.map (fun x => x.reads.length)).sum else 0)).sum
      if barrierWaits ch d || decide (cap ≤ mine) || decide (512 ≤ tags) then none
      else
        let h := dSrc d + d.pos
        let n := min left (size - h % size)
        some ((s.setDesc c i { d with pos := d.pos + n, reads := d.reads ++ [{ off := d.pos, host := h, len := n }] }).noteCh c)
    else if barrierWaits ch d then none
    else if dDir d = 1 then
      let size := s.maxPayload p
      let h := dDst d + d.pos
      let n := min left (size - h % size)
      if (!ch.trail.contains d.seq && decide (4 ≤ ch.trail.length)) || decide (65536 < s.txqBytes p + n + 16) then none
      else match s.dmaSource c d d.pos n with
        | (s1, .error e) => some (s1.setDesc c i { d with err := some e })
        | (s1, .ok bs) =>
          let t : Tlp := { kind := 0, chan := c, seq := d.seq, addr := h, data := bs, relax := bit d.raw 11, nosnoop := bit d.raw 12 }
          let s2 := (s1.takeTlp p t).setDesc c i { d with pos := d.pos + n, given := d.given + n }
          let ch2 := s2.dmaOf c
          some ((s2.setDma c { ch2 with trail := if ch2.trail.contains d.seq then ch2.trail else ch2.trail ++ [d.seq] }).noteTrail c)
    else
      let a := dSrcIn d + d.pos
      let n := min left (if swapUnit d = 1 then 64 - a % 64 else 64)
      match s.dmaSource c d d.pos n with
      | (s1, .error e) => some (s1.setDesc c i { d with err := some e })
      | (s1, .ok bs) =>
        match s1.dmaSink c { d with raw := d.raw - 2 ^ 4 * dSwap d } d.pos bs with
        | (s2, none) => some (s2.setDesc c i { d with pos := d.pos + n, given := d.given + n })
        | (s2, some e) => some (s2.setDesc c i { d with err := some e })

/-- The descriptor that issues next: the second once the first has issued all and met no error (R369). -/
def State.dmaTurn (s : State) (c : Nat) : Option (Nat × DmaDesc) :=
  match (s.dmaOf c).descs with
  | [] => none
  | [d] => some (0, d)
  | d :: e :: _ => if d.err.isSome then none else if d.pos < dLen d then some (0, d) else some (1, e)

/-- Issue until nothing more can be issued. -/
def State.dmaPump (s : State) (fuel c : Nat) : State :=
  match fuel with
  | 0 => s
  | fuel + 1 =>
    if s.chState c = 3 ∨ s.chState c = 4 then s
    else match s.dmaTurn c with
      | none => s
      | some (i, d) => match s.dmaIssue c i d with
        | none => s
        | some s1 => s1.dmaPump fuel c

/-- Issue for channel `c`: a step moves at least one byte or ends the descriptor. -/
def State.dmaRun (s : State) (c : Nat) : State :=
  s.dmaPump (((s.dmaOf c).descs.map (fun d => dLen d + 2)).sum) c

/-- Issue for every channel bound to a port. -/
def State.dmaRunPort (s : State) (p : Nat) : State :=
  s.each ((s.dma.map (fun x => x.1)).filter (fun c => decide (s.chPort c = p))) (fun s c => s.dmaRun c)

/-! ### The end of a descriptor -/

/-- W12–W15 and, with OWN at 0, W0 of a descriptor that ends (R369, R371). -/
def State.descWrite (s : State) (c : Nat) (d : DmaDesc) (st det : Nat) : State :=
  let ws := [st + 256 * det + 2 ^ 31, dLen d - d.given, s.time % 2 ^ 32, d.seq]
  let s1 := (s.bufWrite (some (State.dmaMaster c)) (d.addr + 48) (wordBytes ws)).1
  (s1.bufWrite (some (State.dmaMaster c)) d.addr (wordBytes [d.word 0 % 2 ^ 31])).1

/-- LAST_STATUS, DONE_SEQ, DONE_CNT and the IRQ option. -/
def State.descCount (s : State) (c : Nat) (d : DmaDesc) (st : Nat) : State :=
  let s1 := ((s.put pDMA (chF c 4 8 8) st).put pDMA (chF c 0x18 16 16) d.seq).inc pDMA (chF c 0x3C 0 32)
  if dIrq d then
    let s2 := s1.put pDMA DMA.DONE_PEND (withBit (s1.get pDMA DMA.DONE_PEND) c true)
    if bit (s2.get pDMA DMA.DONE_EN) c then s2.irq pDMA 0 else s2
  else s1

/-- The channel goes IDLE with RUN at 0 once its chain has ended and nothing is in flight. -/
def State.chRest (s : State) (c : Nat) : State :=
  let ch := s.dmaOf c
  if ch.descs.isEmpty && !ch.halt && (ch.last || !s.on pDMA (chF c 0 0 1)) && (s.chState c == 1 || s.chState c == 2) then
    ((s.setDma c { ch with last := false }).setChState c 0).put pDMA (chF c 0 0 1) 0
  else s

/-- Every descriptor in flight ends with one status; its outstanding responses will be discarded. -/
def State.endAll (s : State) (c st det : Nat) : State :=
  let ch := s.dmaOf c
  let s1 := s.each ch.descs (fun s d => (s.descWrite c d st det).descCount c d st)
  (s1.setDma c { s1.dmaOf c with descs := [], last := false }).noteCh c

/-- A channel returns to its reset state: its descriptors in flight end ABORTED_RESET (R378). -/
def State.resetChan (s : State) (c : Nat) : State :=
  let s1 := s.endAll c 5 0
  let s2 := s1.each (List.range 16) (fun s i => s.setReg pDMA (0x800 + 0x40 * c + 4 * i) (resetOf pDMA (0x800 + 0x40 * c + 4 * i)))
  (s2.setDma c {}).noteInUse

/-- SOFT_RESET of the page and a clear of its CTRL.ENABLE (R378). -/
def State.dmaReset (s : State) : State := s.each (List.range 32) (fun s c => s.resetChan c)

/-- The channel is fenced: descriptors in flight end FENCED, responses still outstanding are discarded (R371, R373). -/
def State.dmaFenced (s : State) (c : Nat) : State :=
  let s1 := (s.endAll c 9 0).setChState c 4
  s1.setDma c { s1.dmaOf c with halt := true }

/-- The channel is unfenced: IDLE, its trail and ERR registers clear (R373, R430). -/
def State.dmaUnfenced (s : State) (c : Nat) : State :=
  let s1 := s.each [0x1C, 0x20, 0x24, 0x28, 0x2C, 0x30] (fun s o => s.setReg pDMA (0x800 + 0x40 * c + o) 0)
  ((s1.setDma c {}).setChState c 0).put pDMA (chF c 0 0 1) 0

/-! ### Commands -/

/-- R368: a write of CH_CTRL.RUN. -/
def execRun (m : Master) (c : Fin 32) (on_ : Bool) (s : State) : Out :=
  .next (s.regCmd m pDMA (0x800 + 0x40 * c.val) (fun s =>
    let c := c.val
    let s1 := s.putB pDMA (chF c 0 0 1) on_
    if on_ then
      if s.chState c = 0 ∧ s.running pDMA = true then
        let h := s.get pDMA (chF c 8 6 26) * 64 + s.get pDMA (chF c 0xC 0 16) * 2 ^ 32
        ((s1.setDma c { s1.dmaOf c with next := h, last := false, halt := false }).setCur c h).setChState c 1
      else s1
    else s1.chRest c))

/-- R368: a write to KICK. -/
def execKick (m : Master) (c : Fin 32) (s : State) : Out :=
  .next (s.regCmd m pDMA (0x838 + 0x40 * c.val) (fun s => if s.chState c.val = 2 then s.setChState c.val 1 else s))

/-- R366, R368, R377: the channel fetches the next descriptor. -/
def execDescriptorFetch (c : Fin 32) (s : State) : Out :=
  let c := c.val
  let ch := s.dmaOf c
  if s.chState c ≠ 1 ∨ ch.last = true ∨ ch.halt = true ∨ 2 ≤ ch.descs.length ∨ s.on pDMA (chF c 0 0 1) = false ∨ s.running pDMA = false ∨ s.dramHeld ch.next = true then .next s
  else
    match s.bufRead (some (State.dmaMaster c)) ch.next 64 with
    | (s1, none) =>
      let det := s.bufDetail c false ch.next 64
      let seq := s.get pDMA (chF c 0x18 0 16)
      let s2 := ((s1.chErr c 9 det seq ch.next).setCur c ch.next).raiseWith pDMA 2 { sub := some c, master := (State.dmaMaster c).code, access := 3, addr := ch.next }
      .next (s2.setDma c { s2.dmaOf c with halt := true, last := true })
    | (s1, some bs) =>
      let raw := leNat bs
      if !bit raw 31 then .next ((s1.setChState c 2).setCur c ch.next)
      else
        let seq := s.get pDMA (chF c 0x18 0 16)
        let d : DmaDesc := { addr := ch.next, raw := raw, seq := seq, since := s.time }
        let e : Option (Nat × Nat × Nat) := match s1.descCheck d with
          | some det => some (6, det, ch.next)
          | none => match s1.hostBar c d with
            | some x => some x
            | none => if dXts d ≠ 0 ∧ s1.xtsReady (dKey d) = false then some (8, 9, if dDir d = 1 then dSrcIn d else dDstIn d) else none
        let s2 := s1.put pDMA (chF c 0x18 0 16) (seq + 1)
        let last := dEnd d || (match e with | some (3, _, _) => true | some _ => s.chStop c | none => false)
        let s3 := s2.setDma c { ch with descs := ch.descs ++ [{ d with err := e }], next := dNext d, last := last }
        .next (((s3.setCur c (dNext d)).dmaRun c).noteCh c)

/-- R369: one completion of read request `i` of the channel: `status` 0 data, 1 Unsupported Request, 2 Completer Abort, 3 a poisoned
completion, 4 a time-out of the port. -/
def State.hostData (s : State) (c i status : Nat) (data : List Byte) : State :=
  let ch := s.dmaOf c
  let n0 := (ch.descs.head?.map (fun d => d.reads.length)).getD 0
  let k := if i < n0 then 0 else 1
  let j := if i < n0 then i else i - n0
  match ch.descs[k]? with
  | none => s
  | some d => match d.reads[j]? with
    | none => s
    | some r =>
      if status = 0 then
        let bs := data.take (r.len - r.got)
        let r2 := { r with got := r.got + bs.length }
        let d1 := { d with reads := if r.len ≤ r2.got then d.reads.eraseIdx j else d.reads.set j r2 }
        let s1 := s.setDesc c k d1
        if d.err.isSome ∨ s.chState c = 3 then s1 else s1.dmaArrive c k d1 (r.off + r.got) bs
      else
        let det := ([0, 3, 4, 5, 6][status]?).getD 6
        let d1 := { d with reads := d.reads.eraseIdx j }
        s.setDesc c k (if d.err.isSome then d1 else { d1 with err := some (1, det, r.host) })

/-- Buffer writes of the channel wait while DRAM is in self-refresh (R332). -/
def State.sinkHeld (s : State) (c : Nat) : Bool := (s.dmaOf c).descs.any (fun d => decide (dDir d = 2) && s.dramHeld (dDstIn d))

def execHostCompletion (c : Fin 32) (i : BitVec 8) (status : Fin 3) (data : List Byte) (s : State) : Out :=
  .next (if s.sinkHeld c.val then s else ((s.hostData c.val i.toNat status.val data).dmaRun c.val).noteCh c.val)

/-- The oldest descriptor may complete (R369, R370). -/
def descReady (ch : DmaChan) (d : DmaDesc) : Bool :=
  d.reads.isEmpty && (d.err.isSome || (decide (d.pos = dLen d) && decide (d.given = dLen d) && !(dBarrier d && !ch.trail.isEmpty)))

/-- R369, R371, R373: the oldest descriptor completes. -/
def execDescriptorComplete (c : Fin 32) (s : State) : Out :=
  let c := c.val
  let ch := s.dmaOf c
  match ch.descs with
  | [] => .next s
  | d :: rest =>
    if !descReady ch d || s.chState c == 3 || s.chState c == 4 || s.dramHeld d.addr then .next s
    else
      let (st, det, a) := d.err.getD (0, 0, 0)
      let s1 := ((s.descWrite c d st det).setDma c { ch with descs := rest }).descCount c d st
      let s2 :=
        if st = 0 then s1
        else if st = 3 then
          let s' := s1.put pDMA DMA.ERR_PEND (withBit (s1.get pDMA DMA.ERR_PEND) c true)
          let s'' := s'.setDma c { s'.dmaOf c with last := true }
          if bit (s''.get pDMA DMA.ERR_EN) c then s''.irq pDMA 1 else s''
        else
          let s' := s1.chFault c 0 st det d.seq a (if st = 1 then 1 else if st = 2 then 2 else 0)
          if s.chStop c then s'.setCur c d.addr else s'
      .next ((((s2.chRest c).dmaRun c).noteCh c))

/-- R370: the link partner acknowledges the oldest posted write of a port. -/
def execPostedAck (p : Fin 2) (s : State) : Out :=
  let p := p.val
  let q := s.portOf p
  match q.txq with
  | [] => .next s
  | t :: rest =>
    let s1 := (s.setPort p { q with txq := rest }).noteTxq p
    if t.kind ≠ 0 then .next (s1.dmaRunPort p)
    else
      let ch := s1.dmaOf t.chan
      let more := rest.any (fun x => decide (x.kind = 0 ∧ x.chan = t.chan ∧ x.seq = t.seq)) ||
        ch.descs.any (fun d => decide (d.seq = t.seq ∧ d.pos < dLen d) && d.err.isNone)
      let s2 := if more then s1 else (s1.setDma t.chan { ch with trail := ch.trail.erase t.seq }).noteTrail t.chan
      .next (s2.dmaRunPort p)

/-- R372: posted writes of a channel are lost: the descriptors that have completed are named; one in flight ends in error itself. -/
def execPostedLost (c : Fin 32) (s : State) : Out :=
  let c := c.val
  let ch := s.dmaOf c
  match ch.lost with
  | none => .next s
  | some a =>
    let flying := ch.descs.map (fun d => d.seq)
    let named := ch.trail.filter (fun q => !flying.contains q)
    let ds := ch.descs.map (fun d =>
      if d.err.isSome then d
      else if ch.trail.contains d.seq then { d with err := some (2, 7, a) }
      else if dBarrier d && decide (d.given = 0) && !named.isEmpty then { d with err := some (2, 8, if dDir d = 1 then dDst d else dDstIn d) }
      else d)
    let s1 := s.setDma c { ch with descs := ds, trail := named, lost := none }
    if named.isEmpty then .next (s1.noteTrail c)
    else
      let frozen := s.on pDMA (chF c 0x24 8 1)
      let s2 := s1.noteTrail c
      let s3 := if frozen then s2 else (s2.put pDMA (chF c 0x24 8 1) 1).put pDMA (chF c 0x24 12 4) 7
      let s4 := s3.setDma c { s3.dmaOf c with trail := [] }
      let s5 := s4.chFault c 1 2 7 (named.getD 0 0) a 2
      .next (if s.chStop c then s5.setCur c ch.next else s5)

/-- R375: the window of a descriptor in flight closes: `second` names the younger one. -/
def execDescriptorTimeout (c : Fin 32) (second : Bool) (s : State) : Out :=
  let c := c.val
  let i := if second then 1 else 0
  let tmo := s.get pDMA (chF c 0x34 0 16)
  match (s.dmaOf c).descs[i]? with
  | none => .next s
  | some d =>
    if d.err.isSome ∨ tmo = 0 ∨ s.time < d.since + tmo * usSub ∨ s.chState c = 3 then .next s
    else .next (s.setDesc c i { d with err := some (7, 0, d.addr) })

/-- R376: a write of CH_CTRL.ABORT. -/
def execDmaAbort (m : Master) (c : Fin 32) (s : State) : Out :=
  .next (s.regCmd m pDMA (0x800 + 0x40 * c.val) (fun s =>
    let c := c.val
    if s.chState c = 1 ∧ (s.dmaOf c).descs ≠ [] then s.setChState c 3
    else if s.chState c = 1 ∨ s.chState c = 2 ∨ s.chState c = 0 then
      if (s.dmaOf c).descs ≠ [] then s.setChState c 3
      else ((s.setDma c { s.dmaOf c with last := false, halt := false }).setChState c 0).put pDMA (chF c 0 0 1) 0
    else s))

/-- R376: the outstanding responses of an aborting channel have arrived. -/
def execAbortDrained (c : Fin 32) (s : State) : Out :=
  let c := c.val
  if s.chState c = 3 ∧ ((s.dmaOf c).descs.all (fun d => d.reads.isEmpty)) = true then
    let s1 := s.endAll c 4 0
    .next (((s1.setDma c { s1.dmaOf c with halt := false }).setChState c 0).put pDMA (chF c 0 0 1) 0)
  else .next s

end Sys2Proof.Machine
end

