-- ==== Sys2Proof/Machine/Supply.lean ====
section
/-! DEFINITION. Supply loss (R183, R449–R451, R454, R530): arming of causes, the decision, the close of the write window. -/

namespace Sys2Proof.Machine

/-- A retract is asked for or runs. -/
def State.retracting (s : State) : Bool := s.mot.retractReq.isSome || s.acts.any (fun a => decide (s.rampState a = 6))

/-- WI_LAST of every actuator: an inhibit for all heads opens. -/
def State.noteAllInhibit (s : State) (cause : Nat) : State := s.each s.acts (fun s a => s.noteInhibit a cause 0xF)

/-- A decision with cause `c` (1 VIN12, 2 V5, 3 SGOOD, 4 PDIS, 5 RAIL, 6 REMOVED, 7 FORCED) and rail `r`, td now: its record, the SUPPLY
inhibit, the spindle's HOLDUP; a further cause is only added to CAUSES (R449–R451). -/
def State.supplyLoss (s : State) (c r : Nat) : State :=
  let causes := withBit (s.get pMOT MOT.LOSS_LOG_CAUSES) (c - 1) true
  match s.supply with
  | some _ => s.put pMOT MOT.LOSS_LOG_CAUSES causes
  | none =>
    let late := s.retracting
    let s1 := ((s.setReg pMOT 0x218 (BitVec.ofNat 32 (c + 256 * 2 ^ (c - 1) + 65536 * r))).put pMOT MOT.LOSS_TIME s.timeLo).put pMOT MOT.SUP_STAT_LOSS 1
    let s2 := ((s1.irq pMOT 3).noteAllInhibit wSUPPLY).supplyGates s.time
    if late then { s2 with windowClosed := true } else s2.askEmergency

/-- The cause's input in SUP_STAT: bad, with the rail that left its window. -/
def State.supplyBad (s : State) (c r : Nat) : State :=
  match c with
  | 1 => s.put pMOT MOT.SUP_STAT_VIN12_OK 0
  | 2 => s.put pMOT MOT.SUP_STAT_V5_OK 0
  | 3 => s.put pMOT MOT.SUP_STAT_SGOOD 0
  | 4 => s.put pMOT MOT.SUP_STAT_PDIS 1
  | _ => s.put pMOT MOT.SUP_STAT_RAILS_OK (withBit (s.get pMOT MOT.SUP_STAT_RAILS_OK) r false)

/-- A measured 12 V or 5 V input. -/
def State.supplyMeas (s : State) (c mv : Nat) : State :=
  match c with
  | 1 =>
    let s1 := s.put pMOT MOT.VIN12_MEAS mv
    if mv < s1.get pMOT MOT.VIN12_MIN ∨ s1.mot.vinSeen = false then
      { s1.put pMOT MOT.VIN12_MIN mv with mot := { s1.mot with vinSeen := true } }
    else s1
  | 2 => s.put pMOT MOT.V5_MEAS mv
  | _ => s

/-- The cause is armed and enabled; a voltage lies below its threshold (R449, R530). -/
def State.supplyCause (s : State) (c mv : Nat) : Bool :=
  match c with
  | 1 => bit s.supArmed 0 && decide (mv < s.get pMOT MOT.SUP_CFG_UV12)
  | 2 => bit s.supArmed 1 && decide (mv < s.get pMOT MOT.SUP_CFG_UV5)
  | 3 => bit s.supArmed 2 && s.on pMOT MOT.SUP_CTRL_SGOOD_EN
  | 4 => true
  | _ => bit s.supArmed 3 && s.on pMOT MOT.SUP_CTRL_RAIL_EN

/-- R449: a cause has held for 2 µs: `cause` 0 VIN12, 1 the 5 V input, 2 SGOOD, 3 power-disable, 4 a rail; `mv` the voltage of the first
two, `rail` the rail of the last. -/
def execSupplyLossDecision (cause : Fin 5) (mv : BitVec 16) (rail : Fin 6) (s : State) : Out :=
  let c := cause.val + 1
  let r := if c = 5 then rail.val else 0
  let s1 := (s.supplyBad c r).supplyMeas c mv.toNat
  .next (if s.supplyCause c mv.toNat then
    let s2 := s1.supplyLoss c r
    if s.supply.isSome then s2 else s2.raise pMOT 5
  else s1)

/-- R530: an input is seen good: `cause` 0 VIN12, 1 the 5 V input, 2 SGOOD, 3 all six rails. -/
def execSupplyCauseArmed (cause : Fin 4) (s : State) : Out :=
  let s1 : State := { s with supArmed := withBit s.supArmed cause.val true }
  .next (match cause.val with
  | 0 => s1.put pMOT MOT.SUP_STAT_VIN12_OK 1
  | 1 => s1.put pMOT MOT.SUP_STAT_V5_OK 1
  | 2 => s1.put pMOT MOT.SUP_STAT_SGOOD 1
  | _ => s1.put pMOT MOT.SUP_STAT_RAILS_OK 0x3F)

/-- R183, R421, R450: at td + 14,400 ft the write window closes: gates still kept are dropped, the DEVICE inhibit acts, the retract may
begin. -/
def execWriteWindowClose (s : State) : Out :=
  match s.supply with
  | none => .next s
  | some td =>
    if s.windowClosed ∨ s.time < td + 14400 * ftSub then .next s
    else
      let s1 := s.each (s.wrh.map (·.1)) (fun s h =>
        let w := s.wrOf h
        match w.gate with
        | some g => s.setWr h { w with gate := some { g with kept := false } }
        | none => s)
      let s2 : State := { s1.noteAllInhibit wDEVICE with windowClosed := true, deviceInh := true }
      .next (s2.dropGates.askRetract (if s2.get pMOT MOT.LOSS_LOG_CAUSE = 4 then 3 else 1))

end Sys2Proof.Machine
end

