-- ==== Sys2Proof/Machine/HostPorts.lean ====
section
/-! DEFINITION. The host ports HIFA and HIFB and the doorbell assist (R386–R416), but for BAR0 requests, which stand with the register
accesses. Layouts inside the capability structures are those of PCI Express Base 6.0 (log 10). -/

namespace Sys2Proof.Machine

/-! ### Configuration space (R389, R390) -/

def State.cfgDw (s : State) (p i : Nat) (d : Word) : Word := tabGet (s.portOf p).cfg i d
def State.setCfgDw (s : State) (p i : Nat) (v d : Word) : State :=
  let q := s.portOf p
  s.setPort p { q with cfg := tabPut q.cfg i v d }

/-- Reset value of a writable double word: Device Control's, and 0. -/
def cfgReset (i : Nat) : Word := if i = 0x1A then 0x2810 else 0

/-- Read a stored double word. -/
def State.cfgGet (s : State) (p i : Nat) : Nat := (s.cfgDw p i (cfgReset i)).toNat
def State.cfgPut (s : State) (p i v : Nat) : State := s.setCfgDw p i (BitVec.ofNat 32 v) (cfgReset i)

/-- Command and Status (0x004), PMCSR (0x044), Message Control (0x048), Device Control (0x068), AER Uncorrectable Error Status and Mask
(0x104, 0x108), AER Control (0x118), Header Log (0x11C), DOE Read Data Mailbox (0x2B4). -/
abbrev cCMD : Nat := 0x01
abbrev cPMCSR : Nat := 0x11
abbrev cMSIX : Nat := 0x12
abbrev cDEVCTL : Nat := 0x1A
abbrev cUESTAT : Nat := 0x41
abbrev cUEMASK : Nat := 0x42
abbrev cAERCTL : Nat := 0x46
abbrev cHDRLOG : Nat := 0x47
abbrev cDOEREAD : Nat := 0xAD

def State.msixEn (s : State) (p : Nat) : Bool := bit (s.cfgGet p cMSIX) 31
def State.funcMask (s : State) (p : Nat) : Bool := bit (s.cfgGet p cMSIX) 30
def State.intxDisabled (s : State) (p : Nat) : Bool := bit (s.cfgGet p cCMD) 10
def State.pmeEn (s : State) (p : Nat) : Bool := bit (s.cfgGet p cPMCSR) 8
def State.memEn (s : State) (p : Nat) : Bool := s.on (pHIF p) HIF.LINK_STAT_MSE

/-- PBA_COUNT, and the copies of configuration bits in LINK_STAT, INT_STAT and PORT_STAT (R384, R414); a change of Bus Master Enable or of
the D-state sets its IRQ bit (R403, R414). -/
def State.notePort (s0 : State) (p : Nat) : State :=
  let cmd := s0.cfgGet p cCMD
  let g := pHIF p
  let sb := if s0.on g HIF.LINK_STAT_BME = bit cmd 2 then s0 else s0.irq g 5
  let s := if s0.on g HIF.LINK_STAT_D3HOT = decide (s0.cfgGet p cPMCSR % 4 = 3) then sb else sb.irq g 6
  let s1 := ((s.putB g HIF.LINK_STAT_BME (bit cmd 2)).putB g HIF.LINK_STAT_MSE (bit cmd 1)).putB g HIF.LINK_STAT_MSIX_EN (s.msixEn p)
  let s2 := ((s1.putB g HIF.LINK_STAT_D3HOT (decide (s.cfgGet p cPMCSR % 4 = 3))).putB g HIF.INT_STAT_MSIX_EN (s.msixEn p)).putB g HIF.INT_STAT_FUNC_MASK (s.funcMask p)
  (s2.put g HIF.INT_STAT_PBA_COUNT (s.portOf p).pba.length).putB pDMA (if p = 0 then DMA.PORT_STAT_BME_A else DMA.PORT_STAT_BME_B) (bit cmd 2)

/-- Lengths and powers a value outside its range stands for (R414: the nearest limit). -/
def State.bar0Log (s : State) (p : Nat) : Nat := max 14 (min 18 (s.get (pHIF p) HIF.BAR_CFG_BAR0_LOG2))
def State.bar2Log (s : State) (p : Nat) : Nat :=
  let v := s.get (pHIF p) HIF.BAR_CFG_BAR2_LOG2
  if v = 0 then 0 else max 24 (min 36 v)

/-- The capability structures: start, end (double words), identity and next pointer as the first double word reads. -/
def capHeads : List (Nat × Nat × Nat) :=
  [(0x10, 0x12, 0x00034801), (0x12, 0x15, 0x00006011), (0x18, 0x27, 0x00020010), (0x40, 0x54, 0x15020001), (0x54, 0x57, 0x16010003),
    (0x58, 0x60, 0x18010019), (0x60, 0x63, 0x19010025), (0x64, 0x70, 0x1C010026), (0x70, 0x80, 0x2001002A), (0x80, 0x90, 0x24010031)] ++
    [(0x90, 0x96, 0x2601001E), (0x98, 0x9A, 0x27010018), (0x9C, 0xA8, 0x2A010027), (0xA8, 0xAE, 0x2D01002E), (0xB4, 0xB8, 0x0001002F)]

/-- Bits the host may write: of the registers that the module uses, and of latency and substate controls. -/
def cfgMask (i : Nat) : Nat :=
  match i with
  | 0x01 => 0x0546
  | 0x0F => 0x000000FF
  | 0x11 => 0x0103
  | 0x12 => 0xC0000000
  | 0x1A => 0x7CFF
  | 0x1C => 0x03FF
  | 0x22 => 0x041F
  | 0x24 => 0x1FFF
  | 0x42 => 0xFFFFFFFF
  | 0x43 => 0xFFFFFFFF
  | 0x45 => 0xFFFFFFFF
  | 0x92 => 0xFFFFFFFF
  | 0x93 => 0xFF
  | 0x99 => 0x1FFF1FFF
  | _ => 0

/-- Bits a write of 1 clears: the AER status registers. -/
def cfgW1c (i : Nat) : Nat := if i = 0x41 ∨ i = 0x44 then 0xFFFFFFFF else 0

/-- The address bits of BAR double word `i` (4–9): none writable where the BAR is absent. -/
def State.barMask (s : State) (p i : Nat) : Nat :=
  let m := fun (log hi : Nat) => if hi = 0 then (if log ≤ 31 then 2 ^ 32 - 2 ^ log else 0) else if log ≤ 32 then 2 ^ 32 - 1 else 2 ^ 32 - 2 ^ (log - 32)
  match i with
  | 4 => m (s.bar0Log p) 0
  | 5 => m (s.bar0Log p) 1
  | 6 => if s.bar2Log p = 0 then 0 else m (s.bar2Log p) 0
  | 7 => if s.bar2Log p = 0 then 0 else m (s.bar2Log p) 1
  | 8 => m 13 0
  | 9 => m 13 1
  | _ => 0

/-- A configuration read of double word `i` (R389, R390). -/
def State.cfgRead (s : State) (p i : Nat) : Nat :=
  let g := pHIF p
  let st := s.cfgGet p i
  match i with
  | 0x00 => (s.reg g 0x4C).toNat
  | 0x01 => st % 65536 + 2 ^ 20 + (if (s.reg g 0x6C).toNat = 0 then 0 else 2 ^ 19)
  | 0x02 => (s.reg g 0x54).toNat
  | 0x04 => st + 4
  | 0x05 => st
  | 0x06 => if s.bar2Log p = 0 then 0 else st + 12
  | 0x07 => st
  | 0x08 => st + 4
  | 0x09 => st
  | 0x0B => (s.reg g 0x50).toNat
  | 0x0D => 0x40
  | 0x0F => st + 0x100
  | 0x11 => st + 8
  | 0x12 => st / 2 ^ 30 * 2 ^ 30 + 0x00FF6011
  | 0x13 => 4
  | 0x14 => 0x1004
  | 0x41 => st
  | 0x44 => st
  | 0x47 => st
  | 0x48 => st
  | 0x49 => st
  | 0x4A => st
  | 0x55 => (s.reg g 0x5C).toNat
  | 0x56 => (s.reg g 0x60).toNat
  | 0xAB => (if s.on g HIF.DOE_STAT_RX_READY then 1 else 0) + (if (s.portOf p).doeErr then 4 else 0) + (if (s.portOf p).doeOut.isEmpty then 0 else 2 ^ 31)
  | 0xAD => ((s.portOf p).doeOut.head?.getD 0).toNat
  | _ =>
    match capHeads.find? (fun c => decide (c.1 ≤ i) && decide (i < c.2.1)) with
    | none => 0
    | some c =>
      if i = c.1 then c.2.2
      else ((Config.pcieReadOnly p i &&& ~~~ BitVec.ofNat 32 (cfgMask i)) ||| BitVec.ofNat 32 (Nat.land st (cfgMask i))).toNat

/-- Byte enables as a mask of bits. -/
def beMask (be : Nat) : Nat := ((List.range 4).map (fun k => if bit be k then 255 * 2 ^ (8 * k) else 0)).sum

/-! ### AER (R411) -/

/-- Log an uncorrectable error of status bit `b`: the header log, whose contents are the TLP's header, keeps the first. -/
def State.aerLog (s : State) (p b : Nat) : State :=
  let st := s.cfgGet p cUESTAT
  let s1 := s.cfgPut p cUESTAT (withBit st b true)
  if st ≠ 0 then s1
  else (s1.cfgPut p cAERCTL (s1.cfgGet p cAERCTL / 32 * 32 + b)).each (List.range 4) (fun s k => (s.cfgPut p (cHDRLOG + k) s.freeVal).drew)

/-- The port's completion of a host request. -/
def State.complete (s : State) (p status : Nat) (data : List Byte) : State :=
  { s.setPort p { s.portOf p with cpl := status, cplData := data } with resp := { value := leNat data, err := decide (status ≠ 0) } }

/-- An Unsupported Request: logged, counted; a read completes with it (R411). -/
def State.unsupported (s : State) (p : Nat) (write : Bool) : State :=
  let s1 := (s.aerLog p 20).inc (pHIF p) HIF.UR_CNT
  if write then s1 else s1.complete p 1 []

/-- A Completer Abort (R396). -/
def State.completerAbort (s : State) (p : Nat) (write : Bool) : State :=
  let s1 := (s.aerLog p 15).inc (pHIF p) HIF.CA_CNT
  if write then s1 else s1.complete p 4 []

/-! ### What takes requests away from DMA -/

/-- Every outstanding read of the channels bound to a port ends with this DETAIL (R409). -/
def State.readsEnd (s : State) (p det : Nat) : State :=
  s.each ((s.dma.map (fun x => x.1)).filter (fun c => decide (s.chPort c = p))) (fun s c =>
    let ch := s.dmaOf c
    (s.setDma c { ch with descs := ch.descs.map (fun d => match d.reads.head? with | some r => { d with reads := [], err := some (d.err.getD (1, det, r.host)) } | none => d) }).noteCh c)

/-- The transmit queue is discarded, its posted writes are lost (R372, R409). -/
def State.txqDiscard (s : State) (p : Nat) : State :=
  let q := (s.portOf p).txq
  let s1 := (s.setPort p { s.portOf p with txq := [] }).noteTxq p
  s1.each (q.filter (fun t => decide (t.kind = 0))) (fun s t =>
    let ch := s.dmaOf t.chan
    if ch.lost.isSome then s else s.setDma t.chan { ch with lost := some t.addr })

/-- The link is lost without a reset: what the port held ends as R409 states. -/
def State.linkEnd (s : State) (p st : Nat) : State :=
  ((((s.txqDiscard p).readsEnd p 7).put (pHIF p) HIF.LINK_STAT_STATE st).dmaRunPort p)

/-- Bus Master Enable is 0 now: host-side descriptors in flight end ABORTED_BME (R377). -/
def State.bmeOff (s : State) (p : Nat) : State :=
  s.each ((s.dma.map (fun x => x.1)).filter (fun c => decide (s.chPort c = p))) (fun s c =>
    let ch := s.dmaOf c
    s.setDma c { ch with descs := ch.descs.map (fun d => if dHost d && d.err.isNone then { d with err := some (3, 0, if dDir d = 1 then dDst d else dSrc d) } else d), last := ch.last || ch.descs.any dHost })

/-! ### The link (R388, R409) -/

/-- The conditions of R388. -/
def State.mayTrain (s : State) (p : Nat) : Bool :=
  let g := pHIF p
  s.present g && s.powered g && s.on g HIF.HIF_CTRL_LINK_EN && !s.on g HIF.LINK_STAT_PERST && !s.fenced g

/-- HELD while a condition fails, and out of it when all hold. -/
def State.settlePort (s : State) (p : Nat) : State :=
  let g := pHIF p
  let st := s.get g HIF.LINK_STAT_STATE
  if s.mayTrain p then
    if st = 0 then (s.put g HIF.LINK_STAT_STATE 1).setPort p { s.portOf p with trainAt := some s.time, trainTold := false } else s
  else if st = 0 then s
  else
    let s1 := s.linkEnd p 0
    s1.setPort p { s1.portOf p with trainAt := none }

/-- The INTA condition without the link's part; what INTX_ASSERTED shows (R401). -/
def State.intxWant (s : State) (p : Nat) : Bool := !s.msixEn p && !s.intxDisabled p && decide ((s.reg (pHIF p) 0x6C).toNat ≠ 0)

/-- Send Assert_INTA or Deassert_INTA if the condition differs from the last message and the link is in L0 or L0P. -/
def State.intxSend (s : State) (p : Nat) : State :=
  let st := s.get (pHIF p) HIF.LINK_STAT_STATE
  let w := s.intxWant p
  let q := s.portOf p
  if (st = 3 ∨ st = 4) ∧ w ≠ q.intx then
    ((s.setPort p { q with intx := w }).takeTlp p { kind := if w then 2 else 3 }).putB (pHIF p) HIF.INT_STAT_INTX_ASSERTED w
  else s

/-- 1, 2 or 4 lanes. -/
def lanes (n : Nat) : Nat := if n < 2 then 1 else if n < 4 then 2 else 4

/-- R388: the link reaches L0 at what the partner offers, within MAX_SPEED and MAX_WIDTH. -/
def execLinkUp (p : Fin 2) (speed : BitVec 3) (width : BitVec 3) (s : State) : Out :=
  let p := p.val
  let g := pHIF p
  let st := s.get g HIF.LINK_STAT_STATE
  if s.mayTrain p && (st == 1 || st == 2 || st == 9) then
    let w := min (lanes (s.get g HIF.HIF_CFG_MAX_WIDTH)) (lanes width.toNat)
    let s1 := ((s.put g HIF.LINK_STAT_STATE 3).put g HIF.LINK_STAT_SPEED (max 1 (min (s.get g HIF.HIF_CFG_MAX_SPEED) (min 6 speed.toNat)))).put g HIF.LINK_STAT_WIDTH w
    .next (((s1.setPort p { s1.portOf p with trainAt := none, width := w }).irq g 0).intxSend p)
  else .next s

/-- R409: the link leaves L0, L0P, L1 or RECOVERY for DETECT, or for DISABLED. -/
def execLinkDown (p : Fin 2) (disabled : Bool) (s : State) : Out :=
  let p := p.val
  let g := pHIF p
  if s.linkUpOn p then
    let s1 := (((s.linkEnd p (if disabled then 9 else 1)).inc g HIF.LINK_DOWN_CNT).irq g 1).raise g 0
    .next (s1.setPort p { s1.portOf p with trainAt := some s1.time, trainTold := false })
  else .next s

/-- R413: 100 ms in TRAINING without reaching L0. -/
def execTrainFail (p : Fin 2) (s : State) : Out :=
  let p := p.val
  let q := s.portOf p
  match q.trainAt with
  | none => .next s
  | some t => if q.trainTold ∨ s.time < t + 100 * msSub then .next s else .next ((s.setPort p { q with trainTold := true }).raise (pHIF p) 1)

/-- R404: the queue has been short for IDLE µs: the link narrows. -/
def execL0pNarrow (p : Fin 2) (s : State) : Out :=
  let p := p.val
  let g := pHIF p
  let q := s.portOf p
  let w := if s.get g HIF.L0P_CFG_WIDTH = 2 then 2 else 1
  if s.on g HIF.L0P_CFG_AUTO && decide (s.get g HIF.LINK_STAT_STATE = 3) && decide (s.txqBytes p < 8192) && decide (q.idleAt ≠ 0) &&
      decide (q.idleAt + s.get g HIF.L0P_CFG_IDLE * usSub ≤ s.time + 1) && decide (w < q.width) then
    .next ((s.put g HIF.LINK_STAT_STATE 4).put g HIF.LINK_STAT_WIDTH w)
  else .next s

/-- R405: a write of PME_REQ. -/
def execPmeReq (m : Master) (p : Fin 2) (s : State) : Out :=
  .next (s.regCmd m (pHIF p.val) 0x9C (fun s =>
    let p := p.val
    if !s.pmeEn p then s
    else if s.linkUpOn p then s.takeTlp p { kind := 4 }
    else if s.on (pHIF p) HIF.LINK_STAT_PERST then s.setPort p { s.portOf p with wake := true }
    else s))

/-! ### Resets of a port (R407, R408) -/

/-- The doorbells of a port, their pending entries included, return to reset. -/
def State.dropDoorbells (s : State) (p : Nat) : State :=
  let s1 : State := { s with dbs := s.dbs.filter (fun x => decide (x.1 / 1024 ≠ p)), dbq := (s.dbq.map (fun x => (x.1, x.2.filter (fun e => decide (e.port ≠ p))))).filter (fun x => decide (x.2 ≠ [])) }
  s1.each (List.range 8) (fun s c => s.put pDBA (DBA.PEND c) (tabGet s.dbq c []).length)

/-- Steps 1–3 of R407. -/
def State.flrReset (s : State) (p : Nat) : State :=
  let g := pHIF p
  let s1 := s.each ((List.range 32).filter (fun c => decide (s.chPort c = p))) (fun s c => s.resetChan c)
  let s2 := (List.range 64).foldl (fun (s : State) i => (s.setReg g (0x100 + 4 * i) 0).setShadowReg g (0x100 + 4 * i) 0) s1
  let s3 := (((s2.setReg g 0x6C 0).setReg g 0xA8 0).setReg g 0xAC 0).disarm g
  let q := s3.portOf p
  ((s3.setPort p { q with msix := [], pba := [], cfg := q.cfg.filter (fun x => decide (0x41 ≤ x.1) && decide (x.1 < 0x4B)) }).dropDoorbells p).notePort p

def State.flrOver (s : State) (p : Nat) : State := (s.put (pHIF p) HIF.LINK_STAT_FLR_ACTIVE 0).setPort p { s.portOf p with flrAt := none }

/-- R407: the host initiates a Function Level Reset; a second during one is ignored. -/
def State.flrBegin (s : State) (p : Nat) : State :=
  let g := pHIF p
  if s.on g HIF.LINK_STAT_FLR_ACTIVE then s
  else
    let s1 := (((s.inc g HIF.FLR_CNT).flrReset p).put g HIF.LINK_STAT_FLR_ACTIVE 1).irq g 2
    s1.setPort p { s1.portOf p with flrAt := some s1.time }

def execFlr (p : Fin 2) (s : State) : Out := .next (if s.linkUpOn p.val then s.flrBegin p.val else s)

/-- R407: a write of FLR_ACK. -/
def execFlrAck (m : Master) (p : Fin 2) (s : State) : Out :=
  .next (s.regCmd m (pHIF p.val) 0x44 (fun s => if s.on (pHIF p.val) HIF.LINK_STAT_FLR_ACTIVE then s.flrOver p.val else s))

/-- R407: FLR_TMO has passed. -/
def execFlrTmo (p : Fin 2) (s : State) : Out :=
  let p := p.val
  match (s.portOf p).flrAt with
  | none => .next s
  | some t =>
    if s.time < t + max 1 (min 90 (s.get (pHIF p) HIF.FLR_CFG_FLR_TMO)) * msSub then .next s else .next ((s.flrOver p).raise (pHIF p) 5)

/-- PERST# and hot reset (R408): the link goes down, everything an FLR does, CFG_READY and the queue. -/
def State.portReset (s : State) (p : Nat) : State :=
  let g := pHIF p
  let s0 := s.txqDiscard p
  let trails := (List.range 32).filterMap (fun c => let ch := s0.dmaOf c
    match ch.lost with
    | some a => some (c, ch.trail.filter (fun q => !(ch.descs.any (fun d => decide (d.seq = q)))), a)
    | none => none)
  let s1 := (s0.put g HIF.LINK_STAT_STATE 0).flrReset p
  let s2 := s1.each trails (fun s x => s.setDma x.1 { s.dmaOf x.1 with trail := x.2.1, lost := some x.2.2 })
  let s3 := ((s2.flrOver p).put g HIF.HIF_CTRL_CFG_READY 0).irq g 3
  s3.setPort p { s3.portOf p with trainAt := none, doeOut := [] }

/-- R408: PERST# is asserted; a port that is off only finds the ball low when it is switched on. -/
def execPerstAssert (p : Fin 2) (s : State) : Out :=
  let g := pHIF p.val
  .next (if !s.present g then s else (if s.powered g then s.portReset p.val else s).put g HIF.LINK_STAT_PERST 1)

/-- R388, R405: PERST# deasserts: WAKE# is released and the port may train. -/
def execPerstDeassert (p : Fin 2) (s : State) : Out :=
  .next (if s.present (pHIF p.val) then
    ((s.put (pHIF p.val) HIF.LINK_STAT_PERST 0).setPort p.val { s.portOf p.val with wake := false }).settlePort p.val
  else s)

def execHotReset (p : Fin 2) (s : State) : Out := .next (if s.linkUpOn p.val then (s.portReset p.val).settlePort p.val else s)

/-- R410: PRSNT# has been high for 2 µs: the module has been removed from the shelf. LINK_STAT.PRSNT is then 1 (DEDUCED, log 88). -/
def execRemoved (p : Fin 2) (s : State) : Out :=
  let g := pHIF p.val
  .next (if s.present g && s.powered g && s.on g HIF.HIF_CFG_PRSNT_EN then ((s.put g HIF.LINK_STAT_PRSNT 1).supplyLoss 6 0).raise g 6 else s)

/-! ### Configuration requests and what the host changes by them -/

/-- R377, R403, R406: effects of a change of Bus Master Enable or D-state, from the state before to the state after the write. -/
def State.cfgEffects (s : State) (p : Nat) (bme d3 : Bool) : State :=
  let s1 := s.notePort p
  if !s1.bmeOn p && (bme && !d3) then s1.bmeOff p else s1

/-- A configuration write of double word `i` under byte enables. -/
def State.cfgWrite (s : State) (p i be v : Nat) : State :=
  let g := pHIF p
  let bme := s.on g HIF.LINK_STAT_BME
  let d3 := s.on g HIF.LINK_STAT_D3HOT
  let m := if 4 ≤ i ∧ i ≤ 9 then s.barMask p i else cfgMask i
  let old := s.cfgGet p i
  let em := beMask be
  let keep := Nat.land (2 ^ 32 - 1 - Nat.land m em) old
  let kept := Nat.land keep (2 ^ 32 - 1 - Nat.land (Nat.land (cfgW1c i) em) v)
  let s1 := if i = cDOEREAD then s.setPort p { s.portOf p with doeOut := (s.portOf p).doeOut.drop 1 } else s.cfgPut p i (Nat.lor kept (Nat.land (Nat.land m em) v))
  let s2 := if i = cDOEREAD ∧ (s1.portOf p).doeOut.isEmpty then s1.put g HIF.DOE_STAT_TX_BUSY 0 else s1
  let s3 := s2.cfgEffects p bme d3
  if i = cDEVCTL ∧ bit v 15 ∧ bit be 1 then s3.flrBegin p else s3

/-- R389, R390: a configuration request for double word `i`. -/
def execConfigRequest (p : Fin 2) (write : Bool) (i : BitVec 10) (be : BitVec 4) (v : Word) (s : State) : Out :=
  let p := p.val
  let g := pHIF p
  if !s.linkUpOn p then .next s
  else if !s.on g HIF.HIF_CTRL_CFG_READY || s.on g HIF.LINK_STAT_FLR_ACTIVE then .next (s.complete p 2 [])
  else if write then .next ((s.cfgWrite p i.toNat be.toNat v.toNat).complete p 0 [])
  else .next (s.complete p 0 (leBytes (s.cfgRead p i.toNat) 4))

/-- R389: a write of CFG_READY. -/
def execCfgReady (m : Master) (p : Fin 2) (on_ : Bool) (s : State) : Out :=
  .next (s.regCmd m (pHIF p.val) 0x44 (fun s => s.putB (pHIF p.val) HIF.HIF_CTRL_CFG_READY on_))

/-- R403: the host writes the power state. -/
def execDState (p : Fin 2) (d3 : Bool) (s : State) : Out :=
  let p := p.val
  .next (if s.linkUpOn p then s.cfgWrite p cPMCSR 1 (s.cfgGet p cPMCSR / 4 * 4 + (if d3 then 3 else 0)) else s)

/-- R406: the host clears Bus Master Enable. -/
def execBmeClear (p : Fin 2) (s : State) : Out :=
  let p := p.val
  .next (if s.linkUpOn p then s.cfgWrite p cCMD 1 (withBit (s.cfgGet p cCMD) 2 false) else s)

/-! ### Interrupts to the host (R400, R401) -/

/-- A masking condition holds for vector `v`. -/
def State.vectorMasked (s : State) (p v : Nat) : Bool :=
  s.funcMask p || bit (tabGet (s.portOf p).msix (4 * v + 3) (1 : Word)).toNat 0 || !s.bmeOn p

/-- The message of vector `v`, with the address and data in the table now. -/
def State.msixMessage (s : State) (p v : Nat) : State :=
  let t := (s.portOf p).msix
  let a := (tabGet t (4 * v) (0 : Word)).toNat + 2 ^ 32 * (tabGet t (4 * v + 1) (0 : Word)).toNat
  s.takeTlp p { kind := 1, seq := v, addr := a, data := leBytes (tabGet t (4 * v + 2) (0 : Word)).toNat 4 }

/-- R400: a write of MSIX_SEND. -/
def execMsixSend (m : Master) (p : Fin 2) (v : BitVec 8) (s : State) : Out :=
  .next (s.regCmd m (pHIF p.val) 0x64 (fun s =>
    let p := p.val
    let v := v.toNat
    let q := s.portOf p
    if !s.msixEn p then s.irq (pHIF p) 9
    else if s.vectorMasked p v then (if q.pba.contains v then s else (s.setPort p { q with pba := q.pba ++ [v] }).notePort p)
    else s.msixMessage p v))

/-- R400: a pending vector is sent. -/
def execPbaSend (p : Fin 2) (v : BitVec 8) (s : State) : Out :=
  let p := p.val
  let q := s.portOf p
  if q.pba.contains v.toNat && s.msixEn p && !s.vectorMasked p v.toNat then
    .next (((s.setPort p { q with pba := q.pba.erase v.toNat }).notePort p).msixMessage p v.toNat)
  else .next s

/-- R401: the INTA condition has changed. -/
def execIntxChange (p : Fin 2) (s : State) : Out := .next (s.intxSend p.val)

/-- R391: a host request to BAR4: bytes of the MSI-X table (offset below 0x1000) or of the PBA. -/
def State.bar4Byte (s : State) (p o : Nat) : Byte :=
  let q := s.portOf p
  if o < 0x1000 then BitVec.ofNat 8 ((tabGet q.msix (o / 4) (if o / 4 % 4 = 3 then (1 : Word) else 0)).toNat / 256 ^ (o % 4))
  else if o < 0x1020 then BitVec.ofNat 8 ((List.range 8).foldl (fun acc k => if q.pba.contains (8 * (o - 0x1000) + k) then acc + 2 ^ k else acc) 0)
  else 0

def State.setBar4Byte (s : State) (p o : Nat) (b : Byte) : State :=
  if o < 0x1000 then
    let q := s.portOf p
    let i := o / 4
    let d : Word := if i % 4 = 3 then 1 else 0
    let w := (tabGet q.msix i d).toNat
    let k := 256 ^ (o % 4)
    let m := if i % 4 = 3 then 1 else 2 ^ 32 - 1
    s.setPort p { q with msix := tabPut q.msix i (BitVec.ofNat 32 (Nat.land (w - w / k % 256 * k + b.toNat * k) m)) d }
  else s

def execMsixTableAccess (p : Fin 2) (write : Bool) (off : BitVec 13) (len : BitVec 4) (data : List Byte) (s : State) : Out :=
  let p := p.val
  let n := max 1 (min len.toNat (0x2000 - off.toNat))
  if !s.linkUpOn p then .next s
  else if !s.memEn p then .next (s.unsupported p write)
  else if write then .next (((List.range n).zip (fitBytes n data)).foldl (fun (s : State) x => s.setBar4Byte p (off.toNat + x.1) x.2) s)
  else .next (s.complete p 0 ((List.range n).map (fun i => s.bar4Byte p (off.toNat + i))))

/-! ### Inbound windows (R393–R396) -/

/-- The window that serves a request, and its target address. -/
def State.winHit (s : State) (p : Nat) (write : Bool) (o n : Nat) : Option Nat :=
  let g := pHIF p
  (firstBelow 16 (fun j =>
    let b := s.get g (WIN.OFS_OFFSET j) * 4096
    bit (s.get g HIF.WIN_STAT_VALID) j && s.on g (WIN.TGT_LO_EN j) && s.on g (if write then WIN.TGT_LO_WR j else WIN.TGT_LO_RD j) &&
      decide (b ≤ o) && decide (o + n ≤ b + s.get g (WIN.SIZE_SIZE j) * 4096))).map
    (fun j => s.winTarget g j + (o - s.get g (WIN.OFS_OFFSET j) * 4096))

/-- The port with the translation table that holds at the start of the FCLK cycle in which a header is received (R395). -/
def State.winTable (s : State) (p : Nat) : State := s.beforeCopy (pHIF p)

/-- A BAR2 request that hits no window. -/
def State.winMiss (s : State) (p : Nat) (write : Bool) (o : Nat) : State :=
  let g := pHIF p
  ((s.setReg g 0x8C (BitVec.ofNat 32 o)).setReg g 0x90 (BitVec.ofNat 32 (o / 2 ^ 32 % 16 + (if write then 2 ^ 31 else 0)))).unsupported p write

/-- The request lies in BAR2 and memory requests are enabled. -/
def State.bar2Ok (s : State) (p o n : Nat) : Bool := s.memEn p && decide (s.bar2Log p ≠ 0) && decide (o + n ≤ 2 ^ s.bar2Log p)

def portMaster (p : Nat) : Master := .host (Fin.ofNat 2 p)

/-- R393, R396: a posted write to BAR2. -/
def execInboundWrite (p : Fin 2) (off : BitVec 36) (data : List Byte) (s0 : State) : Out :=
  let p := p.val
  let o := off.toNat
  let s := s0.settle (pHIF p) s0.time
  if !s0.linkUpOn p then .next s0
  else if !s.bar2Ok p o data.length then .next (s.unsupported p true)
  else match (s.winTable p).winHit p true o data.length with
    | none => .next (s.winMiss p true o)
    | some a =>
      if s.dramHeld a then .next s
      else
      let w := s.bufWrite (some (portMaster p)) a data
      .next (if w.2 then w.1 else w.1.completerAbort p true)

/-- R396: a read of BAR2, of up to 4,096 B. -/
def execInboundRead (p : Fin 2) (off : BitVec 36) (len : BitVec 13) (s0 : State) : Out :=
  let p := p.val
  let o := off.toNat
  let s := s0.settle (pHIF p) s0.time
  let n := max 1 (min 4096 len.toNat)
  if !s0.linkUpOn p then .next s0
  else if !s.bar2Ok p o n then .next (s.unsupported p false)
  else match (s.winTable p).winHit p false o n with
    | none => .next (s.winMiss p false o)
    | some a => if s.dramHeld a then .next s else match s.bufRead (some (portMaster p)) a n with
      | (s1, some bs) => .next (s1.complete p 0 bs)
      | (s1, none) => .next (s1.completerAbort p false)

/-! ### Protocol violations (R402, R411) -/

/-- R402: the completion of a host read times out. -/
def execCplTimeout (c : Fin 32) (i : BitVec 8) (s : State) : Out :=
  let p := s.chPort c.val
  if ((s.dmaOf c.val).descs.map (fun d => d.reads.length)).sum ≤ i.toNat then .next s
  else .next ((((s.hostData c.val i.toNat 4 []).aerLog p 14).inc (pHIF p) HIF.CPL_TMO_CNT).noteCh c.val)

def execMalformedTlp (p : Fin 2) (s : State) : Out :=
  .next (if s.linkUpOn p.val then (s.aerLog p.val 18).inc (pHIF p.val) HIF.MALF_CNT else s)

/-- R411: a poisoned posted write, or a poisoned completion of read `i` of channel `c`. -/
def execPoisonedTlp (p : Fin 2) (cpl : Option (Fin 32 × BitVec 8)) (s : State) : Out :=
  if !s.linkUpOn p.val then .next s
  else
    let s1 := (s.aerLog p.val 12).inc (pHIF p.val) HIF.POISON_CNT
    .next (match cpl with
    | some (c, i) => (s1.hostData c.val i.toNat 3 []).noteCh c.val
    | none => s1)

def execUnsupportedRequest (p : Fin 2) (posted : Bool) (s : State) : Out :=
  .next (if s.linkUpOn p.val then s.unsupported p.val posted else s)

def execUnexpectedCompletion (p : Fin 2) (s : State) : Out :=
  .next (if s.linkUpOn p.val then (s.aerLog p.val 16).inc (pHIF p.val) HIF.UNEXP_CPL_CNT else s)

/-! ### The DOE mailbox (R412) -/

/-- The answer to DOE Discovery: index 0 is Discovery itself, index 1 SPDM, the last. -/
def doeDiscovery (index : Nat) : List Word :=
  [0x00000001, 3, if index = 0 then 0x01000001 else if index = 1 then 0x00010001 else 0x0000FFFF]

def execDoeObject (p : Fin 2) (ws : List Word) (s : State) : Out :=
  let p := p.val
  let g := pHIF p
  let q := s.portOf p
  if !s.linkUpOn p then .next s
  else if 1024 < ws.length then .next (s.setPort p { q with doeErr := true })
  else if s.on g HIF.DOE_STAT_RX_READY then .next s
  else if (ws.getD 0 0).toNat % 2 ^ 24 = 1 ∧ 2 ≤ ws.length then .next (s.setPort p { q with doeOut := doeDiscovery ((ws.getD 2 0).toNat % 256) })
  else
    let s1 := (s.bufWrite (some (portMaster p)) (stgBase + 4096 * s.get g HIF.DOE_BUF_RX_IDX) (wordBytes (ws.map (·.toNat)))).1
    .next (((s1.put g HIF.DOE_STAT_RX_LEN ws.length).put g HIF.DOE_STAT_RX_READY 1).irq g 7)

def execRxDone (m : Master) (p : Fin 2) (s : State) : Out :=
  .next (s.regCmd m (pHIF p.val) 0xBC (fun s => (s.put (pHIF p.val) HIF.DOE_STAT_RX_READY 0).put (pHIF p.val) HIF.DOE_STAT_ABORTED 0))

/-- R412: a write of DOE_TX.LEN sends the response from page TX_IDX. -/
def execDoeTx (m : Master) (p : Fin 2) (len : BitVec 11) (s : State) : Out :=
  .next (s.regCmd m (pHIF p.val) 0xB8 (fun s =>
    let p := p.val
    let g := pHIF p
    let n := max 1 (min 1024 len.toNat)
    match s.bufRead (some (portMaster p)) (stgBase + 4096 * s.get g HIF.DOE_BUF_TX_IDX) (4 * n) with
    | (s1, some bs) =>
      let ws := (List.range n).map (fun i => (BitVec.ofNat 32 (leNat ((bs.drop (4 * i)).take 4)) : Word))
      (s1.setPort p { s1.portOf p with doeOut := ws }).put g HIF.DOE_STAT_TX_BUSY 1
    | (s1, none) => s1))

def execDoeAbort (p : Fin 2) (s : State) : Out :=
  let g := pHIF p.val
  if !s.linkUpOn p.val then .next s
  else
    let s1 := s.setPort p.val { s.portOf p.val with doeOut := [], doeErr := false }
    .next ((((s1.put g HIF.DOE_STAT_RX_READY 0).put g HIF.DOE_STAT_TX_BUSY 0).put g HIF.DOE_STAT_ABORTED 1).irq g 8)

/-! ### BAR0 slots (R392) -/

/-- The pages that no PAGE slot may name. -/
def barredPage (i : Nat) : Bool := ([pSYS, pCLK, pPWR, pFLT, pNVS, pSEC, 0x30, 0x31, pDBA] : List Nat).contains i

/-- R392: a write of BAR0_SLOTs. -/
def execBar0Slot (m : Master) (p : Fin 2) (n : Fin 64) (v : Word) (s : State) : Out :=
  .next (s.regCmd m (pHIF p.val) (0x200 + 4 * n.val) (fun s =>
    let g := pHIF p.val
    let w := v.toNat
    let second := decide (w % 4 = 3) && (List.range 64).any (fun j => decide (j ≠ n.val) && decide (s.get g (HIF.BAR0_SLOT_KIND j) = 3))
    if (w % 4 = 1 ∧ barredPage (bits w 18 8) = true) ∨ second = true then (s.setReg g (0x200 + 4 * n.val) 0).raise g 4
    else s.setReg g (0x200 + 4 * n.val) (v &&& 0x7FF13)))

/-! ### Doorbell assist (R397–R399) -/

/-- The queue-event input of core `c` (R398, R416). -/
def State.queueEvent (s : State) (c : Nat) : Bool := !s.fenced pDBA && decide (s.get pDBA (DBA.PEND c) ≠ 0)

def State.dbOf (s : State) (k : Nat) : Doorbell := tabGet s.dbs k {}
def State.setDb (s : State) (k : Nat) (v : Doorbell) : State := { s with dbs := tabPut s.dbs k v {} }

/-- A core's list, with PENDc. -/
def State.setDbq (s : State) (c : Nat) (q : List DbEvent) : State :=
  { s with dbq := tabPut s.dbq c q [] }.put pDBA (DBA.PEND c) (min 4095 q.length)

/-- DB_ERR and INV_CNT: cause 1 DISABLED, 2 RANGE, 3 FORMAT. -/
def State.dbErr (s : State) (p d v cause : Nat) : State :=
  (s.setReg pDBA 0x4C (BitVec.ofNat 32 (v % 65536 + d % 1024 * 2 ^ 16 + p * 2 ^ 26 + cause * 2 ^ 28 + 2 ^ 31))).inc pDBA DBA.INV_CNT

/-- A doorbell write at slot offset `o`: `len` bytes, `full` with every byte enabled. -/
def State.ringDoorbell (s : State) (p o len : Nat) (full : Bool) (w : Nat) : State :=
  let d := o / 4 % 1024
  let v := w % 65536
  if s.fenced pDBA || !s.enabled pDBA then s
  else if len ≠ 4 ∨ o % 4 ≠ 0 ∨ full = false then (s.dbErr p d v 3).unsupported p true
  else
    let k := 1024 * p + d
    let b := s.dbOf k
    let core := bits b.cfg.toNat 6 4
    if !bit b.cfg.toNat 0 then (s.dbErr p d v 1).irq pDBA 0
    else if bits b.cfg.toNat 31 16 < v then
      let s1 := (s.dbErr p d v 2).irq pDBA 0
      s1.setDbq core (tabGet s1.dbq core [] ++ [{ port := p, db := d, bad := some v }])
    else
      let s1 := s.inc pDBA DBA.WRITE_CNT
      match b.pend with
      | some _ => (s1.setDb k { b with value := v }).inc pDBA DBA.COALESCE_CNT
      | none => (s1.setDb k { b with value := v, pend := some core }).setDbq core (tabGet s1.dbq core [] ++ [{ port := p, db := d }])

/-- R397: a host write to the port's DOORBELL slot. -/
def execDoorbellWrite (p : Fin 2) (off : BitVec 12) (len : BitVec 4) (full : Bool) (v : Word) (s : State) : Out :=
  let p := p.val
  let g := pHIF p
  if !s.linkUpOn p then .next s
  else if !s.memEn p || !(List.range (2 ^ (s.bar0Log p - 12))).any (fun j => decide (s.get g (HIF.BAR0_SLOT_KIND j) = 3)) then .next (s.unsupported p true)
  else .next (s.ringDoorbell p off.toNat len.toNat full v.toNat)

/-- R398: a read of CLAIMc. -/
def execDoorbellClaim (m : Master) (c : Fin 8) (s : State) : Out :=
  .next (s.regRead m pDBA (0x80 + 4 * c.val) (fun s =>
    let c := c.val
    if s.fenced pDBA then s.answer 0
    else match tabGet s.dbq c [] with
      | [] => s.answer 0
      | e :: r =>
        let k := 1024 * e.port + e.db
        let s1 := s.setDbq c r
        match e.bad with
        | some v => s1.answer (v + e.db * 2 ^ 16 + e.port * 2 ^ 26 + 2 ^ 27 + 2 ^ 31)
        | none =>
          let b := s1.dbOf k
          (s1.setDb k { b with pend := none }).answer (b.value + e.db * 2 ^ 16 + e.port * 2 ^ 26 + 2 ^ 31)))

/-- The doorbell that DB_SEL selects. -/
def State.dbSel (s : State) : Nat := 1024 * s.get pDBA DBA.DB_SEL_PORT + s.get pDBA DBA.DB_SEL_DB

/-- R398: a firmware write of DB_VAL. -/
def execDbVal (m : Master) (v : BitVec 16) (s : State) : Out :=
  .next (s.regCmd m pDBA 0x48 (fun s => s.setDb s.dbSel { s.dbOf s.dbSel with value := v.toNat }))

end Sys2Proof.Machine
end

