-- ==== Sys2Proof/Machine/SerialFlash.lean ====
section
/-! DEFINITION. The serial-flash controller NVS (R472–R492): probing, the read window, programs and erases with suspend and
resume, write protection, and the erase bracket journal. -/

namespace Sys2Proof.Machine

/-! ### Devices (R473) -/

/-- Bytes of one device; the SIZE codes above 4 name none and act as 4. -/
def State.norDev (s : State) : Nat := 2 ^ 26 * 2 ^ min 4 (s.get pNVS NVS.XSPI_CFG_SIZE)

/-- The installed capacity: device 1 counts while it has passed probing (R474); the window ends at 1 GiB (R32). -/
def State.norCap (s : State) : Nat :=
  min (2 ^ 30) (if s.on pNVS NVS.XSPI_CFG_DEVS && bit (s.get pNVS NVS.NVS_STAT_DEV_OK) 1 then 2 * s.norDev else s.norDev)

def State.norDevOf (s : State) (a : Nat) : Nat := a / s.norDev
def norSector (a : Nat) : Nat := a / 65536

/-- A byte as it reads: a free value where a program or erase has left the cells uncertain (R488, log 3). -/
def State.norByte (s : State) (a : Nat) : Byte :=
  if s.norUnsure.any (fun r => decide (r.1 ≤ a) && decide (a < r.1 + r.2)) then
    BitVec.ofNat 8 ((Config.freeWord (s.free + a / 4)).toNat / 256 ^ (a % 4))
  else tabGet s.nor a 0xFF

/-- A 32-bit word, least significant byte first (log 12). -/
def State.norWord (s : State) (a : Nat) : Nat := leNat ((List.range 4).map (fun i => s.norByte (a + i)))

/-- The state after a read: another read of uncertain cells may differ. -/
def State.norReadDone (s : State) : State := if s.norUnsure = [] then s else { s with free := s.free + 2 ^ 28 }

/-- A program leaves a 1 only where the byte had one (log 12). -/
def State.norProgram (s : State) (a : Nat) (bs : List Byte) : State :=
  match bs with
  | [] => s
  | b :: r => { s with nor := tabPut s.nor a (tabGet s.nor a 0xFF &&& b) 0xFF }.norProgram (a + 1) r

/-- An erase leaves every byte of the sector 0xFF and its cells certain. -/
def State.norErase (s : State) (k : Nat) : State :=
  { s with nor := s.nor.filter (fun e => decide (norSector e.1 ≠ k)), norUnsure := s.norUnsure.filter (fun r => decide (norSector r.1 ≠ k)) }

def State.norBlur (s : State) (a n : Nat) : State :=
  if s.norUnsure.contains (a, n) then s else { s with norUnsure := s.norUnsure ++ [(a, n)] }

/-! ### The suspect set (R488) -/

/-- SUSP_CNT and SUSP0–SUSP15 follow the set. -/
def State.showSuspects (s : State) : State :=
  let l := s.nvs.suspects
  let s1 := s.put pNVS NVS.SUSP_CNT l.length
  s1.each (List.range 16) (fun s (i : Nat) =>
    match l[i]? with
    | some k => s.setReg pNVS (0x8C + 4 * i) (BitVec.ofNat 32 (k + 2 ^ 31))
    | none => s.setReg pNVS (0x8C + 4 * i) 0)

def insertNat (k : Nat) (l : List Nat) : List Nat :=
  match l with
  | [] => [k]
  | x :: r => if k < x then k :: x :: r else if k = x then x :: r else x :: insertNat k r

def State.addSuspect (s : State) (k : Nat) : State :=
  { s with nvs := { s.nvs with suspects := insertNat k s.nvs.suspects } }.showSuspects

def State.dropSuspect (s : State) (k : Nat) : State :=
  { s with nvs := { s.nvs with suspects := s.nvs.suspects.filter (fun x => decide (x ≠ k)) } }.showSuspects

def State.isSuspect (s : State) (k : Nat) : Bool := s.nvs.suspects.contains k

/-! ### The journal (R484) -/

abbrev jBase (j : Nat) : Nat := 0x2000000 + 65536 * j

def State.jWord (s : State) (j i w : Nat) : Nat := s.norWord (jBase j + 16 * i + 4 * w)

def State.jEmpty (s : State) (j i : Nat) : Bool := (List.range 4).all (fun w => decide (s.jWord j i w = 0xFFFFFFFF))

/-- CRC-32 over three words (R231, R484). -/
def crc3 (a b c : Nat) : Nat := crc32Part (crc32Part (crc32Part 0 a) b) c

def State.jGood (s : State) (j i : Nat) : Bool :=
  decide (s.jWord j i 3 = crc3 (s.jWord j i 0) (s.jWord j i 1) (s.jWord j i 2))

def State.jHeader (s : State) (j : Nat) : Option Nat :=
  if s.jGood j 0 ∧ s.jWord j 0 0 % 256 = 0xA1 then some (s.jWord j 0 1) else none

/-- Index of the first empty record after the header. -/
def State.jNext (s : State) (j : Nat) : Nat := ((List.range 4096).find? (fun i => decide (1 ≤ i) && s.jEmpty j i)).getD 4096

/-- The active journal sector (R486, R487), as NVS knows it. -/
def State.jActive (s : State) : Option Nat :=
  if s.get pNVS NVS.NVS_STAT_JRNL = 1 then some (s.get pNVS NVS.JGEN_ACTIVE) else none

/-- The steps of a rollover into sector `j` (R486); the SEQ of its INTENT records is not stated (log 3). -/
def State.rollSteps (s : State) (j gen : Nat) : List NorStep :=
  NorStep.erase (0x200 + j) ::
    (s.nvs.suspects.zipIdx.map (fun (e : Nat × Nat) => NorStep.record (jBase j + 16 * (1 + e.2)) 0xA2 e.1 (Config.freeWord (s.free + e.2)).toNat))
    ++ [NorStep.record (jBase j) 0xA1 0 gen]

/-- A bracket of sector `x` (R485): its steps and how many are the rollover's. -/
def State.bracketSteps (s : State) (x : Nat) : List NorStep × Nat :=
  let q := s.get pNVS NVS.JSEQ
  let three := fun (a : Nat) => [NorStep.record a 0xA2 x q, NorStep.erase x, NorStep.record (a + 16) 0xA3 x q]
  let roll := fun (j gen : Nat) =>
    let r := s.rollSteps j gen
    (r ++ three (jBase j + 16 * (1 + s.nvs.suspects.length)), r.length)
  match s.jActive with
  | none => roll 0 1
  | some j =>
    let n := s.jNext j
    if 4096 - n < 2 then roll (1 - j) ((s.jWord j 0 1 + 1) % 2 ^ 32) else (three (jBase j + 16 * n), 0)

/-! ### The operation in progress -/

def NorStep.isErase (t : NorStep) : Bool := match t with | .erase _ => true | _ => false

/-- The NOR address a step works at. -/
def NorStep.at_ (t : NorStep) : Nat :=
  match t with
  | .page a _ _ => a
  | .erase k => 65536 * k
  | .record a _ _ _ => a

/-- NVS_STAT.OP of an operation. -/
def NorOp.code (o : NorOp) : Nat :=
  if 0 < o.roll then 4 else match o.cmd with | 1 => 1 | 2 => 2 | 3 => 3 | 6 => 5 | _ => 6

/-- The device a program, an erase or a journal record works on. -/
def State.norBusy (s : State) (d : Nat) : Bool :=
  match s.nvs.op with
  | some o => match o.ended, o.steps with
    | none, t :: _ => decide (s.norDevOf t.at_ = d)
    | _, _ => false
  | none => false

/-- The running erase, not suspended (R481). -/
def State.norErasing (s : State) : Option NorOp :=
  match s.nvs.op with
  | some o => match o.ended, o.steps with
    | none, .erase _ :: _ => some o
    | _, _ => none
  | none => none

/-- Reads of a device are queued. -/
def State.norReadsOf (s : State) (d : Nat) : Bool := s.nvs.reads.any (fun r => decide (s.norDevOf r.a = d))

/-- R476: with AUTO_SUSP a queued read of the erasing device requests a suspend. -/
def State.norAuto (s : State) : State :=
  match s.norErasing with
  | some o =>
    if s.on pNVS NVS.NVS_CTRL_AUTO_SUSP && decide (o.roll = 0) && (match o.steps with | t :: _ => s.norReadsOf (s.norDevOf t.at_) | [] => false) then
      { s with nvs := { s.nvs with autoWant := true } }
    else s
  | none => s

/-- NVS_STAT's view of the operation in progress and of the suspend. -/
def State.nvsView (s : State) : State :=
  let code := match s.nvs.op with
    | some o => o.code
    | none => match s.nvs.susp with | some o => o.code | none => 0
  let s1 := (s.put pNVS NVS.NVS_STAT_OP code).putB pNVS NVS.NVS_STAT_SUSP s.nvs.susp.isSome
  (s1.putB pNVS NVS.NVS_STAT_SUSP_HELD ((s.nvs.fwWant || s.nvs.autoWant) && decide (s.nvs.issued = 0))).putB pNVS NVS.NVS_STAT_AUTO (s.nvs.autoIn && !s.nvs.fwIn)

/-- NVS_STAT, with the suspend that queued reads request (R476). -/
def State.showNvs (s : State) : State := s.norAuto.nvsView

def State.setNorOp (s : State) (o : Option NorOp) : State := { s with nvs := { s.nvs with op := o } }

/-- The operation ends with a STATUS once its end is taken (R479). -/
def State.norEnd (s : State) (o : NorOp) (st : Nat) : State :=
  s.setNorOp (some { o with ended := some st, steps := [], roll := 0 })

/-- Issue the first step of an operation: a page takes its bytes from buffer memory, a record gets its time and CRC; buffer memory that
refuses the read ends it FAILED. -/
def State.norIssue (s : State) (o : NorOp) : State :=
  let o1 := { o with since := s.time }
  match o.steps with
  | [] => s.norEnd o 1
  | .erase _ :: _ => s.setNorOp (some o1)
  | .record _ typ k w1 :: _ =>
    let w0 := typ + 65536 * k
    s.setNorOp (some { o1 with data := wordBytes [w0, w1, s.timeLo, crc3 w0 w1 s.timeLo] })
  | .page _ src n :: _ =>
    match s.bufRead none src n with
    | (s1, some bs) => s1.setNorOp (some { o1 with data := bs })
    | (s1, none) => s1.norEnd o 2

/-- What a step that ended with good status has done; the header of a rollover makes its sector the active one (R486). -/
def State.norEffect (s : State) (o : NorOp) (t : NorStep) : State :=
  match t with
  | .erase k => s.norErase k
  | .page a _ _ => s.norProgram a o.data
  | .record a typ _ w1 =>
    let s1 := s.norProgram a o.data
    if typ = 0xA1 then
      ((s1.put pNVS NVS.NVS_STAT_JRNL 1).put pNVS NVS.JGEN_GEN w1).put pNVS NVS.JGEN_ACTIVE (a / 65536 % 2)
    else s1

/-- A suspend asked for lapses (R482). -/
def Nvs.lapse (v : Nvs) : Nvs := { v with fwWant := false, autoWant := false, issued := 0, suspTried := false }

/-- A second failure: NVS FL1, and the operation ends FAILED (R480). -/
def State.norFail (s : State) (o : NorOp) : State :=
  let s1 := match o.steps with
    | .erase k :: _ => s.norBlur (65536 * k) 65536
    | t :: _ => s.norBlur t.at_ o.data.length
    | [] => s
  let s2 : State := { s1 with nvs := s1.nvs.lapse }
  (s2.norEnd o 2).raise pNVS 2

/-- A failure: retried once, then final (R480). -/
def State.norBad (s : State) (o : NorOp) : State :=
  if o.tried then s.norFail o
  else
    let s1 : State := { s with nvs := s.nvs.lapse }
    ((s1.inc pNVS NVS.RETRY_CNT).put pNVS NVS.OP_STAT_RETRIED 1).setNorOp (some { o with tried := true, since := s.time })

/-! ### Suspend and resume (R481, R482) -/

/-- Issue a suspend that is wanted once progress has reached T_RUN_MIN. -/
def State.norSuspendNow (s : State) : State :=
  match s.norErasing with
  | none => s
  | some o =>
    if (s.nvs.fwWant || s.nvs.autoWant) && decide (s.nvs.issued = 0) && decide (o.since + s.get pNVS NVS.T_RUN_MIN * usSub ≤ s.time) then
      { s with nvs := { s.nvs with issued := s.time + 1 } }
    else s

/-- Issue a suspend that firmware or queued reads want (R481). -/
def State.norTrySuspend (s : State) : State := s.norAuto.norSuspendNow

/-- The suspended erase goes on; progress counts from zero. -/
def State.norResume (s : State) : State :=
  match s.nvs.susp with
  | none => s
  | some o => { s with nvs := { s.nvs with op := some { o with since := s.time }, susp := none, autoIn := false, fwIn := false, resume := false } }

/-- The suspended sector, and its device. -/
def State.norSuspSector (s : State) : Option Nat :=
  match s.nvs.susp with
  | some o => match o.steps with | t :: _ => some (norSector t.at_) | [] => none
  | none => none

def State.norSuspDev (s : State) : Nat := match s.norSuspSector with | some k => s.norDevOf (65536 * k) | none => 0

/-- Resume where a resume is due: none of the device's reads is queued, firmware does not hold the suspend, no other operation is in
progress. -/
def State.norTryResume (s : State) : State :=
  if s.nvs.susp.isSome && !s.nvs.fwIn && (s.nvs.autoIn || s.nvs.resume) && s.nvs.op.isNone && !(s.nvs.autoIn && s.norReadsOf s.norSuspDev) then s.norResume
  else s

/-! ### Commands (R478) -/

/-- NVS takes commands and reads: STATE READY, enabled, not fenced. -/
def State.nvsReady (s : State) : Bool := decide (s.get pNVS NVS.NVS_STAT_STATE = 2) && s.enabled pNVS && !s.fenced pNVS

/-- A sector is write-protected (R483). -/
def State.norProtected (s : State) (k : Nat) : Bool := bit (s.reg pNVS (0x800 + 4 * (k / 32))).toNat (k % 32)

/-- Target or range outside what exists. -/
def State.norRange (s : State) (c : Nat) : Bool :=
  let a := s.get pNVS NVS.OP_ADDR
  let n := s.get pNVS NVS.OP_LEN
  let src := s.addr48 pNVS NVS.OP_SRC_LO NVS.OP_SRC_HI
  let inSram := decide (afmBase ≤ src) && decide (src + n ≤ sramEnd)
  let inDram := decide (dramBase ≤ src) && decide (src + n ≤ dramBase + s.usable)
  (decide (c = 1 ∨ c = 2 ∨ c = 3 ∨ c = 6) && decide (s.norCap ≤ a)) ||
    (decide (c = 1) && (decide (n = 0 ∨ 65536 < n) || decide (65536 < a % 65536 + n) || !(inSram || inDram)))

/-- RESULT of a command, the checks in their order; 0 ACCEPTED. -/
def State.norResult (s : State) (c : Nat) : Nat :=
  let k := norSector (s.get pNVS NVS.OP_ADDR)
  let change := decide (c = 1 ∨ c = 2 ∨ c = 3)
  if !s.nvsReady then 1
  else if (c = 0 ∨ 7 < c) ∨ (c = 4 ∧ s.norErasing.isNone = true ∧ s.nvs.susp.isNone = true) ∨ (c = 5 ∧ s.nvs.susp.isNone = true) then 3
  else if c ≠ 4 ∧ c ≠ 5 ∧ (s.nvs.op.isSome = true ∨ (match s.nvs.susp with | some o => decide (0 < o.roll) | none => false) = true) then 2
  else if s.norRange c = true then 4
  else if (change = true ∧ (k = 0x200 ∨ k = 0x201)) ∨ (c = 3 ∧ 4093 < s.nvs.suspects.length) then 5
  else if c = 3 ∧ s.get pNVS NVS.NVS_STAT_JRNL = 0 then 9
  else if change = true ∧ s.norProtected k = true then 6
  else if (c = 1 ∨ c = 2) ∧ s.isSuspect k = true then 7
  else if (s.nvs.susp.isSome = true ∧ (c = 2 ∨ c = 3)) ∨ ((c = 1 ∨ c = 6) ∧ s.norSuspSector = some k) then 8
  else 0

/-- The pages of a program (R472, R478). -/
def norPages (fuel a src n : Nat) : List NorStep :=
  match fuel with
  | 0 => []
  | f + 1 =>
    if n = 0 then []
    else
      let c := min n (256 - a % 256)
      NorStep.page a src c :: norPages f (a + c) (src + c) (n - c)

/-- Take an accepted command. -/
def State.norAccept (s : State) (c : Nat) : State :=
  let a := s.get pNVS NVS.OP_ADDR
  let k := norSector a
  match c with
  | 4 =>
    if s.nvs.susp.isSome then { s with nvs := { s.nvs with fwIn := true, resume := false } }
    else ({ s with nvs := { s.nvs with fwWant := true } } : State).norTrySuspend
  | 5 => ({ s with nvs := { s.nvs with fwIn := false, resume := true } } : State).norTryResume
  | _ =>
    let s1 := (((s.put pNVS NVS.OP_STAT_STATUS 0).put pNVS NVS.OP_STAT_BLANK 0).put pNVS NVS.OP_STAT_RETRIED 0).put pNVS NVS.OP_STAT_DONE 0
    let o : NorOp := { cmd := c, sector := k }
    match c with
    | 1 => s1.norIssue { o with steps := norPages 257 a (s.addr48 pNVS NVS.OP_SRC_LO NVS.OP_SRC_HI) (s.get pNVS NVS.OP_LEN) }
    | 2 => s1.norIssue { o with steps := [.erase k] }
    | 3 =>
      let b := s.bracketSteps k
      let s2 : State := if 0 < b.2 then { s1 with free := s1.free + s.nvs.suspects.length } else s1
      s2.norIssue { o with steps := b.1, roll := b.2 }
    | _ => s1.setNorOp (some { o with ended := some 1 })

/-- A write of OP_CMD (R478). -/
def State.nvsCommand (s : State) (m : Master) (c : Nat) : State :=
  s.regCmd m pNVS 0x6C (fun s =>
    let r := s.norResult c
    let s1 := s.put pNVS NVS.OP_STAT_RESULT r
    if r = 0 then (s1.norAccept c).showNvs else (s1.irq pNVS 2).raise pNVS 1)

/-- R478: OP_CMD 0x1. -/
def execProgram (m : Master) (s : State) : Out := .next (s.nvsCommand m 1)
/-- R478: OP_CMD 0x2. -/
def execErase (m : Master) (s : State) : Out := .next (s.nvsCommand m 2)
/-- R485: OP_CMD 0x3. -/
def execEraseBr (m : Master) (s : State) : Out := .next (s.nvsCommand m 3)
/-- R481: OP_CMD 0x4. -/
def execNvsSuspend (m : Master) (s : State) : Out := .next (s.nvsCommand m 4)
/-- R481: OP_CMD 0x5. -/
def execNvsResume (m : Master) (s : State) : Out := .next (s.nvsCommand m 5)
/-- R478: OP_CMD 0x6. -/
def execBlankCheck (m : Master) (s : State) : Out := .next (s.nvsCommand m 6)
/-- R487: OP_CMD 0x7. -/
def execJscan (m : Master) (s : State) : Out := .next (s.nvsCommand m 7)

/-- R481: a held suspend is issued. -/
def execSuspendIssue (s : State) : Out := .next s.norTrySuspend.showNvs

/-- R476, R482: an auto-suspended erase resumes, and a RESUME that waited for the reads takes effect. -/
def execAutoResume (s : State) : Out := .next s.norTryResume.showNvs

/-! ### Polls and ends (R479, R480) -/

/-- The first step ended with good status: its effect, then the next step. -/
def State.norGood (s : State) (o : NorOp) : State :=
  match o.steps with
  | [] => s
  | t :: r =>
    let s1 := s.norEffect o t
    let s2 : State := if t.isErase then { s1 with nvs := s1.nvs.lapse } else s1
    s2.norIssue { o with steps := r, roll := o.roll - 1, tried := false, data := [] }

/-- The erase is suspended: SUSP sets (R481). -/
def State.norSuspended (s : State) (o : NorOp) : State :=
  ({ s with nvs := { s.nvs.lapse with op := none, susp := some o, autoIn := s.nvs.autoWant, fwIn := s.nvs.fwWant } } : State).irq pNVS 1

/-- R480, R481: a poll of the busy device reads `status`; `complete` says whether an erase under a suspend command had completed,
`wrong` that a journal record reads back wrong. -/
def execStatusPoll (status : BitVec 8) (complete wrong : Bool) (s : State) : Out :=
  match s.nvs.op with
  | none => .next s
  | some o =>
    match o.ended, o.steps with
    | none, t :: _ =>
      let st := status.toNat
      if bit st (s.get pNVS NVS.STS_CFG_WIP_BIT) then .next s
      else if 0 < s.nvs.issued ∧ complete = false then .next (s.norSuspended o).showNvs
      else
        let rec_ := match t with | .record _ _ _ _ => true | _ => false
        let bad := decide (Nat.land st (s.get pNVS NVS.STS_CFG_ERR_MASK) ≠ 0) || (rec_ && wrong)
        .next (if bad then s.norBad o else s.norGood o).showNvs
    | _, _ => .next s

/-- R480: WIP has stayed set beyond its time-out, or a suspend has taken longer than 100 µs. -/
def execNorOpTimeout (s : State) : Out :=
  match s.nvs.op with
  | none => .next s
  | some o =>
    match o.ended, o.steps with
    | none, t :: _ =>
      if 0 < s.nvs.issued then
        (if s.nvs.issued - 1 + 100 * usSub < s.time then
          .next (if s.nvs.suspTried then s.norFail o
            else ((({ s with nvs := { s.nvs with issued := s.time + 1, suspTried := true } } : State).inc pNVS NVS.RETRY_CNT).put pNVS NVS.OP_STAT_RETRIED 1)).showNvs
        else .next s)
      else
        let lim := if t.isErase then max 1 (s.get pNVS NVS.OP_TMO_ERASE_TMO) * 100 * msSub else max 1 (s.get pNVS NVS.OP_TMO_PROG_TMO) * msSub
        if o.since + lim < s.time then .next (s.norBad o).showNvs else .next s
    | _, _ => .next s

/-- The sector reads 0xFF throughout (R478). -/
def State.norBlank (s : State) (k : Nat) : Bool := (List.range 65536).all (fun i => decide (s.norByte (65536 * k + i) = 0xFF))

/-- What a scan finds in journal sector `j` (R487): the INTENT records without COMPLETE, the highest SEQ plus 1, the torn records. -/
def State.jScan (s : State) (j : Nat) : List Nat × Option Nat × Nat :=
  let idx := (List.range (s.jNext j)).filter (fun i => decide (1 ≤ i))
  let good := idx.filter (fun i => s.jGood j i)
  let key := fun (i : Nat) => (s.jWord j i 0 % 256, s.jWord j i 0 / 65536 % 16384, s.jWord j i 1)
  let open_ := good.filter (fun i => decide ((key i).1 = 0xA2) && !good.any (fun k => decide (i < k) && decide (key k = (0xA3, (key i).2))))
  let seqs := (good.filter (fun i => decide ((key i).1 = 0xA2 ∨ (key i).1 = 0xA3))).map (fun i => (key i).2.2 + 1)
  (open_.map (fun i => (key i).2.1), seqs.max?, idx.length - good.length)

/-- The effect of a scan (R487). -/
def State.norScan (s : State) : State :=
  let act := match s.jHeader 0, s.jHeader 1 with
    | some g, some h => some (if h ≤ g then (0, g) else (1, h))
    | some g, none => some (0, g)
    | none, some h => some (1, h)
    | none, none => none
  match act with
  | none => (s.put pNVS NVS.NVS_STAT_JRNL 2).norReadDone
  | some (j, g) =>
    let r := s.jScan j
    let s1 := ((s.put pNVS NVS.NVS_STAT_JRNL 1).put pNVS NVS.JGEN_GEN g).put pNVS NVS.JGEN_ACTIVE j
    let s2 := match r.2.1 with | some q => s1.put pNVS NVS.JSEQ q | none => s1
    let s3 := s2.each r.1 (fun s k => s.addSuspect k)
    let s4 := if 0 < r.2.2 then (s3.addSat pNVS NVS.TORN_CNT r.2.2).raise pNVS 5 else s3
    s4.norReadDone

/-- The end of an operation in OP_STAT (R479). -/
def State.norReport (s : State) (st : Nat) : State :=
  ((s.put pNVS NVS.OP_STAT_STATUS st).put pNVS NVS.OP_STAT_DONE 1).irq pNVS 0

/-- R479: the operation ends. A bracket that ends OK clears its sector from the suspect set (R485). -/
def execNorOpDone (s : State) : Out :=
  match s.nvs.op with
  | none => .next s
  | some o =>
    match o.ended with
    | none => .next s
    | some st =>
      let s1 := s.setNorOp none
      let s2 := match o.cmd with
        | 3 => if st = 1 then (s1.dropSuspect o.sector).addWrap pNVS NVS.JSEQ 1 else s1
        | 6 => (s1.putB pNVS NVS.OP_STAT_BLANK (s.norBlank o.sector)).norReadDone
        | 7 => s1.norScan
        | _ => s1
      .next ((s2.norReport st).norTryResume).showNvs

/-! ### Stops (R479) -/

/-- What a cut-off operation leaves: an aborted ERASE or ERASE_BR makes its sector suspect, in whatever phase a bracket is (DEDUCED, log 92),
and the cells it worked on are uncertain. -/
def State.norCut (s : State) (o : NorOp) (suspect : Bool) : State :=
  match o.ended with
  | some _ => s
  | none =>
    let s1 := if suspect && (o.cmd == 2 || o.cmd == 3) then s.addSuspect o.sector else s
    match o.steps with
    | .erase k :: _ => s1.norBlur (65536 * k) 65536
    | t :: _ => s1.norBlur t.at_ o.data.length
    | [] => s1

/-- Queued reads get their error response. -/
def State.norDropReads (s : State) : State :=
  let l := s.nvs.reads
  let s1 : State := { s with nvs := { s.nvs with reads := [] } }
  s1.each l (fun s r => s.respond r.master 0 true)

/-- SOFT_RESET, ENABLE cleared, or a fence: the operation and a suspended erase end ABORTED. -/
def State.nvsStop (s : State) : State :=
  let s1 := match s.nvs.susp with | some o => (s.norCut o true).norReport 3 | none => s
  let s2 := match s.nvs.op with | some o => (s1.norCut o true).norReport 3 | none => s1
  let s3 : State := { s2 with nvs := { s2.nvs.lapse with op := none, susp := none, autoIn := false, fwIn := false, resume := false } }
  s3.norDropReads.showNvs

/-- Power off: nothing ends, the device keeps what it had (R479). -/
def State.nvsOff (s : State) : State :=
  let s1 := match s.nvs.susp with | some o => s.norCut o false | none => s
  let s2 := match s.nvs.op with | some o => s1.norCut o false | none => s1
  ({ s2 with nvs := { s2.nvs.lapse with op := none, susp := none, autoIn := false, fwIn := false, resume := false, probe := none } } : State).norDropReads

/-- STATE becomes PROBE: at power-up, after unfencing, and after a soft reset (R474, R480). -/
def State.nvsProbe (s : State) : State :=
  ({ s with nvs := { s.nvs with probe := none } } : State).put pNVS NVS.NVS_STAT_STATE 1

/-- NVS is fenced (R480, R492). -/
def State.nvsFenced (s : State) : State :=
  let s1 := s.nvsStop
  if s1.get pNVS NVS.NVS_STAT_STATE = 3 then s1 else s1.put pNVS NVS.NVS_STAT_STATE 4

/-! ### Probing (R474) -/

/-- R474: the controller resets the enabled devices and reads their IDs; `ok0` and `ok1` say whether the ID read in 8D-8D-8D matches the
one read before. -/
def execNorProbe (ok0 ok1 : Bool) (s : State) : Out :=
  if s.powered pNVS ∧ s.get pNVS NVS.NVS_STAT_STATE = 1 then .next { s with nvs := { s.nvs with probe := some (ok0, ok1) } } else .next s

/-- R474: probing ends; without device 0 the boot ROM stops with ERROR NOR_ABSENT. -/
def execProbeDone (s : State) : Out :=
  match s.nvs.probe with
  | none => .next s
  | some (a, b) =>
    if s.get pNVS NVS.NVS_STAT_STATE ≠ 1 then .next s
    else
      let two := s.on pNVS NVS.XSPI_CFG_DEVS
      let s1 : State := { s with nvs := { s.nvs with probe := none } }
      let s2 := s1.put pNVS NVS.NVS_STAT_DEV_OK ((if a then 1 else 0) + (if two && b then 2 else 0))
      let s3 := if two && !b then s2.raise pNVS 4 else s2
      let s4 := if s3.get pSYS SYS.BOOT_STAT_STAGE = 5 ∧ s3.on pSYS SYS.BOOT_STAT_DONE = false then s3.put pSYS SYS.BOOT_STAT_ERROR 3 else s3
      .next (if a then s3.put pNVS NVS.NVS_STAT_STATE 2 else (s4.put pNVS NVS.NVS_STAT_STATE 3).raise pNVS 3)

/-! ### Reads (R475–R477) -/


/-- R475: an access to the read window. -/
def execNorRead (m : Master) (write : Bool) (addr : BitVec 48) (len : BitVec 7) (s : State) : Out :=
  let a := addr.toNat - norWindow
  let n := len.toNat
  if addr.toNat < norWindow ∨ norWindow + 2 ^ 30 ≤ addr.toNat then .next s
  else if !s.powered pNVS then .next ((s.raiseBy pPWR 1 m (if write then 2 else 1) addr.toNat).answer 0)
  else if write = true ∨ ¬ (n = 4 ∨ n = 8 ∨ n = 64) ∨ a % n ≠ 0 ∨ s.norCap < a + n then
    .next (s.raiseAccess (some m) (if write then 2 else 1) addr.toNat).answerErr
  else if !s.nvsReady then .next s.answerErr
  else if s.norSuspSector = some (norSector a) then .next (s.raiseBy pNVS 0 m 1 addr.toNat).answerErr
  else
    let s1 : State := { s with nvs := { s.nvs with reads := s.nvs.reads ++ [{ master := m, a := a, n := n }] } }
    .next s1.norTrySuspend.showNvs

/-- R476, R477, R480: the first queued read whose device is free is served; `lost` says that the data strobe was absent for 1 µs. -/
def execNorReadDone (lost : Bool) (s : State) : Out :=
  match s.nvs.reads.find? (fun r => !s.norBusy (s.norDevOf r.a)) with
  | none => .next s
  | some r =>
    let rest := s.nvs.reads.erase r
    let s1 : State := { s with nvs := { s.nvs with reads := rest } }
    if s.norSuspSector = some (norSector r.a) then
      .next (((s1.raiseBy pNVS 0 r.master 1 (norWindow + r.a)).respond r.master 0 true).norTryResume).showNvs
    else if lost then
      (if r.tried then .next ((s1.raise pNVS 2).respond r.master 0 true)
      else .next (({ s with nvs := { s.nvs with reads := { r with tried := true } :: rest } } : State).inc pNVS NVS.RETRY_CNT))
    else
      let v := leNat ((List.range r.n).map (fun i => s.norByte (r.a + i)))
      let s2 := if s.isSuspect (norSector r.a) then s1.inc pNVS NVS.SUSPECT_RD else s1
      .next ((s2.norReadDone.respond r.master v false).norTryResume).showNvs

/-! ### Write protection (R483) -/

/-- R483: a write of WPn; the bits are in always-on logic, which no soft reset touches, and only added to once WP_LOCK is set. -/
def execWpWrite (_m : Master) (n : Fin 512) (v : Word) (s : State) : Out :=
  let off := 0x800 + 4 * n.val
  .next (s.setReg pNVS off (if s.on pNVS NVS.NVS_CTRL_WP_LOCK then s.reg pNVS off ||| v else v))

/-- R483: a write of 1 to NVS_CTRL.WP_LOCK; a write of 0 leaves it. -/
def execWpLock (_m : Master) (v : Bool) (s : State) : Out :=
  .next (if v then s.put pNVS NVS.NVS_CTRL_WP_LOCK 1 else s)

end Sys2Proof.Machine
end

