-- ==== Sys2Proof/Machine/Security.lean ====
section
/-! DEFINITION. Security (R493–R507): fuses and life cycle, the job engine and its measurements, the TRNG, the debug lock, and
the key slots of the XTS key store. -/

namespace Sys2Proof.Machine

/-! ### Fuses (R493–R495) -/

/-- A fuse row as it stands; row 2 holds the variant (R493). -/
def State.fuse (s : State) (r : Nat) : Nat := tabGet s.sec.fuses r (if r = 2 then s.part.cap else 0)

/-- A fuse row as the last stage FUSE read it. -/
def State.fuseUse (s : State) (r : Nat) : Nat := tabGet s.sec.used r 0

def State.setFuse (s : State) (r v : Nat) : State :=
  { s with sec := { s.sec with fuses := tabPut s.sec.fuses r v (if r = 2 then s.part.cap else 0) } }

/-- Every row is read. -/
def State.latchFuses (s : State) : State :=
  { s with sec := { s.sec with used := ((List.range 128).map (fun (r : Nat) => (r, s.fuse r))).filter (fun e => decide (e.2 ≠ 0)) } }

/-- A field of whole rows as bytes (log 11). -/
def State.fuseBytes (s : State) (r n : Nat) : List Byte :=
  let v := (List.range n).foldl (fun acc (i : Nat) => acc + s.fuseUse (r + i) * 2 ^ (64 * i)) 0
  if Config.fuseBigEndian then beBytes v (8 * n) else leBytes v (8 * n)

/-- Life cycle of a row value (R494): 0 BLANK, 1 DEVELOP, 2 PRODUCTION, 3 RMA. -/
def lifeOf (v : Nat) : Nat := if !bit v 0 then 0 else if !bit v 1 then 1 else if !bit v 2 then 2 else 3

/-- Bits set in a 64-bit row (MIN_VERSION). -/
def popCount (v : Nat) : Nat := ((List.range 64).filter (bit v)).length

/-- A thermometer value: bits from bit 0 upwards. -/
def isThermo (v : Nat) : Bool := decide (v = 2 ^ popCount v - 1)

/-- Rows [r, r + n) read blank at stage FUSE. -/
def State.blankUse (s : State) (r n : Nat) : Bool := (List.range n).all (fun i => decide (s.fuseUse (r + i) = 0))

/-- The programming rule of row `r` for the bits `p` (R493). -/
def State.fuseRule (s : State) (r p : Nat) : Bool :=
  let old := s.fuse r
  let new := Nat.lor old p
  if r = 3 then isThermo new && decide (new < 8)
  else if 8 ≤ r ∧ r < 40 then s.blankUse (8 * (r / 8)) 8
  else if r = 40 then decide (p < 16) && decide (popCount p = 1)
  else if r = 41 then isThermo new
  else if 42 ≤ r ∧ r < 50 then s.blankUse 42 8
  else if r = 50 ∨ r = 51 then s.blankUse 50 2
  else if r = 52 ∨ r = 53 then s.blankUse 52 2
  else false

/-- R495: a write of FUSE_CMD; one that meets a row still being programmed has no effect. -/
def execFuseCmd (m : Master) (row : Fin 128) (key : BitVec 16) (s : State) : Out :=
  .next (s.regCmd m pSEC 0x68 (fun s =>
    if s.sec.prog.isSome then s
    else
      let p := s.get pSEC SEC.FUSE_PROG_LO + 2 ^ 32 * s.get pSEC SEC.FUSE_PROG_HI
      if m = .bsc ∧ key = 0x6B1D ∧ s.fuseRule row.val p = true then
        ({ s with sec := { s.sec with prog := some (row.val, s.fuse row.val, p) } } : State).setReg pSEC 0x6C 0
      else (s.setReg pSEC 0x6C 0x80000001).irq pSEC 1))

/-- R495: programming ends; `back` is the row as read back. Programming only sets bits: those set before stay. -/
def execFuseProgDone (back : BitVec 64) (s : State) : Out :=
  match s.sec.prog with
  | none => .next s
  | some (r, old, p) =>
    let s1 := ({ s with sec := { s.sec with prog := none } } : State).setFuse r (Nat.lor (s.fuse r) back.toNat)
    .next (if back.toNat = Nat.lor old p then (s1.setReg pSEC 0x6C 0x80000000).irq pSEC 1
      else ((s1.setReg pSEC 0x6C 0x80000002).irq pSEC 1).raise pSEC 3)

/-! ### Registers that hold byte strings -/

/-- Bytes into registers from offset `off`, least significant byte of each first. -/
def State.putBytes (s : State) (p off : Nat) (bs : List Byte) : State :=
  s.each (List.range (bs.length / 4)) (fun s (i : Nat) => s.setReg p (off + 4 * i) (BitVec.ofNat 32 (leNat ((bs.drop (4 * i)).take 4))))

/-- The bytes of `n` registers from offset `off`. -/
def State.getBytes (s : State) (p off n : Nat) : List Byte :=
  ((List.range n).map (fun (i : Nat) => leBytes (s.reg p (off + 4 * i)).toNat 4)).flatten

/-- `n` bytes of the TRNG: free values (log 3). -/
def State.trng (s : State) (n : Nat) : List Byte :=
  (List.range n).map (fun i => BitVec.ofNat 8 ((Config.freeWord (s.free + i / 4)).toNat / 256 ^ (i % 4)))

def State.trngDrew (s : State) (n : Nat) : State := { s with free := s.free + (n + 3) / 4 }

/-! ### Identity (R498) and what a reset leaves (R494, R499, R503) -/

/-- The identity key and KEK, from UDS alone, in DEVELOP and PRODUCTION. -/
def State.deriveKeys (s : State) : State :=
  let lc := lifeOf (s.fuseUse 3)
  if lc = 1 ∨ lc = 2 then
    let uds := s.fuseBytes 4 4
    let d := beNat (hmac512 uds [0x49, 0x44]) % (ecN - 1) + 1
    { s with sec := { s.sec with idKey := some d, kek := (hmac512 uds [0x4B, 0x45]).take 32 } }
  else { s with sec := { s.sec with idKey := none, kek := [] } }

/-- SEC's registers at their values after a reset of the unit: those that the fuses and the identity give. -/
def State.secDefaults (s : State) : State :=
  let s1 := (s.put pSEC SEC.LC_STAT_STATE (lifeOf (s.fuseUse 3))).put pSEC SEC.LC_STAT_MIN_VERSION (popCount (s.fuseUse 41))
  let s2 := s1.each (List.range 4) (fun s (i : Nat) => s.setReg pSEC (0x44 + 4 * i) (BitVec.ofNat 32 (s.fuseUse (i / 2) / 2 ^ (32 * (i % 2)))))
  match s2.sec.idKey with
  | some d => (s2.put pSEC SEC.ID_STAT_VALID 1).putBytes pSEC 0x100 (ecPublic d)
  | none => s2

/-- A reset of the debug lock and of the challenge (R494, R503). -/
def State.debugReset (s : State) : State :=
  let s1 := s.setReg pSEC 0x88 (if lifeOf (s.fuseUse 3) = 2 then 0 else 1)
  (s1.putBytes pSEC 0x300 (s.trng 64)).trngDrew 64

/-! ### The job engine (R500) -/

abbrev measOff (n : Nat) : Nat := 0x200 + 64 * n

/-- MEASn := SHA-512(MEASn ‖ digest) (R499). -/
def State.extend (s : State) (n : Nat) (digest : List Byte) : State :=
  s.putBytes pSEC (measOff n) (sha512 (s.getBytes pSEC (measOff n) 16 ++ digest))

/-- A job command: BUSY while a job runs or SEC is fenced (R500, R502). -/
def State.secCommand (s : State) (m : Master) (op meas : Nat) : State :=
  s.regCmd m pSEC 0x78 (fun s =>
    if s.sec.job.isSome then (s.put pSEC SEC.JOB_STAT_RESULT 1).raise pSEC 1
    else if s.fenced pSEC then ((s.setReg pSEC 0x7C 0x80000001).irq pSEC 0).raise pSEC 1
    else ({ s with sec := { s.sec with job := some { op := op, meas := meas } } } : State).setReg pSEC 0x7C 0)

/-- R500: JOB_CMD.OP 1. -/
def execHash (m : Master) (s : State) : Out := .next (s.secCommand m 1 0)
/-- R500: JOB_CMD.OP 2. -/
def execVerify (m : Master) (s : State) : Out := .next (s.secCommand m 2 0)
/-- R500: JOB_CMD.OP 3. -/
def execSignId (m : Master) (s : State) : Out := .next (s.secCommand m 3 0)
/-- R499: JOB_CMD.OP 4. -/
def execExtend (m : Master) (meas : Fin 4) (s : State) : Out := .next (s.secCommand m 4 meas.val)

/-- A range wholly inside SRAM or usable DRAM (R500). -/
def State.secRange (s : State) (a n : Nat) : Bool :=
  (decide (afmBase ≤ a) && decide (a + n ≤ sramEnd)) || (decide (dramBase ≤ a) && decide (a + n ≤ dramBase + s.usable))

/-- The result of a job that writes its answer to memory. -/
def jobWrote (r : State × Bool) : State × Nat := (r.1, if r.2 then 0 else 7)

/-- HASH of data read, with the digest stored at `a`. -/
def jobHash (a : Nat) (r : State × Option (List Byte)) : State × Nat :=
  match r.2 with
  | none => (r.1, 7)
  | some bs => jobWrote (r.1.bufWrite none a (sha512 bs))

/-- What a job does once its block at `a` has been read. -/
def jobOn (a : Nat) (j : SecJob) (r : State × Option (List Byte)) : State × Nat :=
  match r.2 with
  | none => (r.1, 7)
  | some blk =>
    let s := r.1
    let at_ := fun (o n : Nat) => (blk.drop o).take n
    match j.op with
    | 1 =>
      let src := leNat (at_ 0 8)
      let n := leNat (at_ 8 8)
      if !s.secRange src n then (s, 3)
      else if n = 0 then jobHash (a + 0x40) (s, some [])
      else jobHash (a + 0x40) (s.bufRead none src n)
    | 2 => (s, if ecdsaVerify (at_ 0x40 64) (at_ 0x80 132) (at_ 0x108 132) then 0 else 4)
    | 3 =>
      match s.sec.idKey with
      | none => (s, 5)
      | some d =>
        let k := beNat (s.trng 68) % (ecN - 1) + 1
        jobWrote ((s.trngDrew 68).bufWrite none (a + 0x108) (ecdsaSign (at_ 0x40 64) d k))
    | _ => if s.locked pSEC && decide (j.meas < 3) then (s, 6) else (s.extend j.meas (at_ 0x40 64), 0)

/-- What a job does: the state it leaves and its RESULT. -/
def State.jobRun (s : State) (j : SecJob) : State × Nat :=
  let a := s.get pSEC SEC.JOB_ADDR_LO * 64 + s.get pSEC SEC.JOB_ADDR_HI * 2 ^ 32
  if j.op = 0 ∨ 4 < j.op then (s, 2)
  else if !s.secRange a 512 then (s, 3)
  else jobOn a j (s.bufRead none a 512)

/-- JOB_STAT, the interrupt and the fault of a job's RESULT. -/
def jobEnd (r : State × Nat) : State :=
  let s1 := (r.1.setReg pSEC 0x7C (BitVec.ofNat 32 (2 ^ 31 + r.2))).irq pSEC 0
  if r.2 = 0 then s1 else s1.raise pSEC 1

/-- R500: the job ends. -/
def execJobDone (s : State) : Out :=
  match s.sec.job with
  | none => .next s
  | some j =>
    let s0 : State := { s with sec := { s.sec with job := none } }
    .next (jobEnd (if s0.fenced pSEC then (s0, 1) else s0.jobRun j))

/-! ### The TRNG (R502) -/

/-- R502: a health test ends; the first that passes makes the TRNG ready. -/
def execRngHealth (pass : Bool) (s : State) : Out :=
  if pass then .next (if s.on pSEC SEC.RNG_STAT_HEALTH_FAIL then s else s.put pSEC SEC.RNG_STAT_READY 1)
  else .next (((s.put pSEC SEC.RNG_STAT_READY 0).put pSEC SEC.RNG_STAT_HEALTH_FAIL 1).raise pSEC 0)

/-- A read of RNG_DATA. -/
def State.rngRead (s : State) : State :=
  if s.on pSEC SEC.RNG_STAT_READY && !s.fenced pSEC then s.drew.answer s.freeVal else s.answer 0

/-! ### The debug lock (R503) -/

/-- R503: a public key and a signature written through the JTAG unlock register. -/
def execDebugUnlock (pub sig : List Byte) (s : State) : Out :=
  let chal := s.getBytes pSEC 0x300 16
  let fails := s.get pSEC SEC.DBG_STAT_FAILS
  let ok := !s.on pSEC SEC.DBG_STAT_DISABLED && decide (fails < 8) && decide (pub.length = 132) && decide (sig.length = 132) &&
    decide (sha512 pub = s.fuseBytes 42 8) && ecdsaVerify (sha512 (chal ++ s.fuseBytes 0 2)) pub sig
  .next (if ok then (s.put pSEC SEC.DBG_STAT_UNLOCKED 1).extend 0 (sha512 chal)
    else (s.put pSEC SEC.DBG_STAT_FAILS (min 8 (fails + 1))).raise pSEC 2)

/-- R503: a write of 1 to DBG_CTRL.DISABLE by a core. -/
def execDbgDisable (m : Master) (s : State) : Out :=
  .next (s.regCmd m pSEC 0x8C (fun s => (s.put pSEC SEC.DBG_CTRL_DISABLE 1).put pSEC SEC.DBG_STAT_DISABLED 1))

/-! ### Key slots (R504–R506) -/

/-- SLOT_VALID follows the key store. -/
def State.showSlots (s : State) : State :=
  let m := s.keys.foldl (fun (acc : Nat) (e : Nat × List Byte) => acc + 2 ^ e.1) 0
  (s.put pXTS XTS.SLOT_VALID_LO m).put pXTS XTS.SLOT_VALID_HI (m / 2 ^ 32)

/-- Load or, with no bytes, empty a slot. -/
def State.putKeySlot (s : State) (k : Nat) (bs : List Byte) : State := { s with keys := tabPut s.keys k bs [] }.showSlots

/-- An uncorrectable error in slot `k` empties it (R506). -/
def State.slotLost (s : State) (k : Nat) : State := if k < 64 then s.putKeySlot k [] else s

/-- The key store goes off: every slot is empty (R506). -/
def State.keysLost (s : State) : State :=
  let s1 : State := { s with keys := [] }
  if s1.present pXTS && s1.powered pXTS then s1.showSlots else s1

/-- Slots in use (R505). -/
def State.slotsUsed (s : State) : Nat := s.get pXTS XTS.IN_USE_LO + 2 ^ 32 * s.get pXTS XTS.IN_USE_HI

/-- RESULT of a key command, and the slot contents it stores. -/
def State.keyResult (s : State) (k op : Nat) (w : List Byte) : Nat × List Byte :=
  if op = 0 ∨ 4 < op then (3, [])
  else if (s.get pSEC SEC.LC_STAT_STATE = 0 ∨ s.get pSEC SEC.LC_STAT_STATE = 3) ∨ s.domOn domKS = false ∨ s.fenced pXTS = true then (4, [])
  else if (op = 4 ∧ s.slotsUsed ≠ 0) ∨ (op ≠ 4 ∧ bit s.slotsUsed k = true) then (1, [])
  else
    match op with
    | 1 => if w.take 32 = (w.drop 32).take 32 then (5, []) else (0, w.take 64)
    | 2 =>
      (match keyUnwrap s.sec.kek w with
      | none => (2, [])
      | some key => if key.take 32 = key.drop 32 then (5, []) else (0, key))
    | _ => (0, [])

/-- A write of KEY_CMD (R505). -/
def State.keyCommand (s : State) (m : Master) (k op : Nat) : State :=
  s.regCmd m pXTS 0x88 (fun s =>
    let r := s.keyResult k op (s.getBytes pXTS 0x40 18)
    let s1 := s.each (List.range 18) (fun s (i : Nat) => s.setReg pXTS (0x40 + 4 * i) 0)
    let s2 := (s1.setReg pXTS 0x8C (BitVec.ofNat 32 (2 ^ 31 + r.1))).irq pXTS 0
    if r.1 ≠ 0 then s2.raise pXTS 3
    else if op = 4 then ({ s2 with keys := [] } : State).showSlots
    else s2.putKeySlot k r.2)

/-- R505: KEY_CMD LOAD. -/
def execKeyLoad (m : Master) (slot : Fin 64) (s : State) : Out := .next (s.keyCommand m slot.val 1)
/-- R505: KEY_CMD LOAD_WRAPPED. -/
def execKeyLoadWrapped (m : Master) (slot : Fin 64) (s : State) : Out := .next (s.keyCommand m slot.val 2)
/-- R505: KEY_CMD ERASE. -/
def execKeyErase (m : Master) (slot : Fin 64) (s : State) : Out := .next (s.keyCommand m slot.val 3)
/-- R505: KEY_CMD ERASE_ALL. -/
def execKeyEraseAll (m : Master) (s : State) : Out := .next (s.keyCommand m 0 4)

end Sys2Proof.Machine
end

