-- ==== Sys2Proof/Machine/Smbus.lean ====
section
/-! DEFINITION. The SMBus of the SYS page (R524–R526). -/

namespace Sys2Proof.Machine

/-- R526: a write transaction to address `addr` has ended with its stop; `pecOk` says whether its PEC, where one is expected, was good. -/
def execSmbWriteReceived (addr : BitVec 7) (data : List Byte) (pecOk : Bool) (s : State) : Out :=
  if !s.on pSYS SYS.SMB_CTRL_EN || decide (s.get pSYS SYS.SMB_CTRL_ADDR ≠ addr.toNat) then .next s
  else if s.on pSYS SYS.SMB_STAT_RX_READY then .next (s.inc pSYS SYS.SMB_NAK_CNT)
  else
    let kept := data.take 256
    let s1 := s.putBytes pSYS 0x140 (kept ++ List.replicate ((4 - kept.length % 4) % 4) 0)
    let s2 := (s1.put pSYS SYS.SMB_STAT_RX_LEN kept.length).putB pSYS SYS.SMB_STAT_OVF (decide (256 < data.length))
    let s3 := s2.putB pSYS SYS.SMB_STAT_PEC_BAD (s.on pSYS SYS.SMB_CTRL_PEC && !pecOk)
    .next ((s3.put pSYS SYS.SMB_STAT_RX_READY 1).irq pSYS 16)

/-- R526: a target read of `n` bytes from address `addr`, answered from SMB_RDBUF. -/
def execSmbTargetRead (addr : BitVec 7) (n : BitVec 9) (s : State) : Out :=
  if !s.on pSYS SYS.SMB_CTRL_EN || decide (s.get pSYS SYS.SMB_CTRL_ADDR ≠ addr.toNat) then .next s
  else .next (s.answer (leNat (((s.getBytes pSYS 0x340 8) ++ List.replicate 480 0xFF).take n.toNat)))

/-- R526: a write of SMB_TX; one while TX_BUSY is 1 is ignored, and one with a LEN outside 1–256 starts nothing. -/
def execSmbTx (m : Master) (len : BitVec 9) (dest : BitVec 7) (s : State) : Out :=
  .next (s.regCmd m pSYS 0x10C (fun s =>
    if s.on pSYS SYS.SMB_STAT_TX_BUSY || !s.on pSYS SYS.SMB_CTRL_EN || decide (len.toNat = 0 ∨ 256 < len.toNat) then s
    else ({ s with smbTx := some (dest.toNat, len.toNat) } : State).put pSYS SYS.SMB_STAT_TX_BUSY 1))

/-- A transmission ends with a TX_RESULT. -/
def State.smbEnd (s : State) (r : Nat) : State :=
  match s.smbTx with
  | none => s
  | some (d, n) =>
    let s1 : State := { s with smbTx := none, smbOut := if r = 0 then some (d, (s.getBytes pSYS 0x240 64).take n) else s.smbOut }
    ((s1.put pSYS SYS.SMB_STAT_TX_BUSY 0).put pSYS SYS.SMB_STAT_TX_RESULT r).irq pSYS 17

/-- R525: a transmission ends: 0 OK, 1 NAK, 2 ARB_LOST, 3 TIMEOUT. -/
def execSmbTxEnd (r : Fin 4) (s : State) : Out := .next (s.smbEnd r.val)

/-- R525: a write of 1 to SMB_RX_DONE. -/
def execSmbRxDone (m : Master) (s : State) : Out := .next (s.regCmd m pSYS 0x108 (fun s => s.put pSYS SYS.SMB_STAT_RX_READY 0))

/-- R524: the clock stayed low for 25 ms: the transaction is abandoned. -/
def execSmbTimeout (s : State) : Out :=
  if !s.on pSYS SYS.SMB_CTRL_EN then .next s
  else .next (((s.inc pSYS SYS.SMB_TO_CNT).irq pSYS 18).smbEnd 3)

end Sys2Proof.Machine
end

