-- ==== Sys2Proof/Machine/Units.lean ====
section
/-! DEFINITION. What stops a unit and what a stop, a soft reset, a fence and a power-down leave of it (R40–R47, R423–R425, R445), unit
by unit as the units' own chapters say. -/

namespace Sys2Proof.Machine

/-! ### Registers of a page -/

/-- Registers of a page that SOFT_RESET leaves (R43, and the chapter of each page): what the chapter names, and status that shows a
state outside the page's unit (log 14). -/
def keptOff (k : PageKind) (off : Nat) : Bool :=
  match k with
  | .sys => off == 0x40 || off == 0x5C
  | .clk => true
  | .pwr => off == 0x88
  | .flt => off != 0x60
  | .spn => off == 0xAC
  | .mot => off == 0x78 || off == 0x218 || off == 0x21C
  | .nvs => decide (0x800 ≤ off)
  | .sec => off == 0x88 || off == 0x8C || decide (0x200 ≤ off)
  | .gln => off == 0x90 || off == 0x94
  | .mdc => off == 0x74 || off == 0x78
  | .act => off == 0x10C
  | _ => false

/-- Every page-specific register of `p` that `keep` does not name returns to its reset value, shadow copies and per-master
registers included. -/
def State.clearRegs (s : State) (p : Nat) (keep : Nat → Bool) : State :=
  let out := fun (k : Nat) => decide (k / 1024 = p) && decide (16 ≤ k % 1024) && !keep (4 * (k % 1024))
  { s with regs := s.regs.filter (fun e => !out e.1), shadow := s.shadow.filter (fun e => !out e.1), mregs := s.mregs.filter (fun e => !out (e.1 % 2 ^ 20)) }

/-- The same, with the levels of the page's input balls as they are: PERST# and presence (R388, R410), AALERT (R113). -/
def State.clearPage (s : State) (p : Nat) (keep : Nat → Bool) : State :=
  let s1 := s.clearRegs p keep
  match pageKind p with
  | some .hif => (s1.put p HIF.LINK_STAT_PERST (s.get p HIF.LINK_STAT_PERST)).put p HIF.LINK_STAT_PRSNT (s.get p HIF.LINK_STAT_PRSNT)
  | some .lnk => s1.put p LNK.ALERT_STAT_LEVEL (s.get p LNK.ALERT_STAT_LEVEL)
  | some .nvs => s1.put p NVS.NVS_CTRL_WP_LOCK (s.get p NVS.NVS_CTRL_WP_LOCK)
  | _ => s1

/-- Reset values that the fuses give: port IDs and DSN (R389), the NOR profile (R492), SEC's (R508); log 13. -/
def State.fuseDefaults (s : State) (p : Nat) : State :=
  match pageKind p with
  | some .hif =>
    let at_ := fun (s : State) (off row hi : Nat) => s.setReg p off (BitVec.ofNat 32 (s.fuseUse row / 2 ^ (32 * hi)))
    at_ (at_ (at_ (at_ s 0x4C 50 0) 0x50 50 1) 0x5C 51 0) 0x60 51 1
  | some .nvs =>
    if s.fuseUse 53 = 0 then s
    else (s.setReg p 0x40 (BitVec.ofNat 32 (s.fuseUse 53) &&& 0x131F0F)).setReg p 0x44 (BitVec.ofNat 32 (s.fuseUse 53 / 2 ^ 32))
  | some .sec => s.secDefaults
  | _ => s

/-- DD_STATd of the deep decoders with no job: FENCED, IDLE or OFF. -/
def State.noteDds (s : State) : State :=
  s.each (List.range 8) (fun s d => if (s.runOf d).isSome then s else s.ddState d (if s.subFenced pAFM (192 + d) then 6 else if s.domOn (domDD d) then 1 else 0))

/-- Status that follows what lies outside the unit, after its registers were reset. -/
def State.refresh (s : State) (p : Nat) : State :=
  match pageKind p with
  | some .afm => s.noteDds
  | some .nvs => s.showSuspects
  | some .xts => s.showSlots.noteInUse
  | some .mdc => s.noteMdc
  | some .dil => s.put p DIL.RUN_STAT_STATE (if s.fenced p then 4 else 1)
  | some .lnk => s.put p LNK.LINK_STAT_STATE (if s.fenced p then 3 else 0)
  | some .mot => if s.spnState = stHOLDUP ∧ s.mot.retractReq = none then s.retractCheck else s
  | some .bfm => s.putB p BFM.SRT_STAT_FENCED (s.fenced p)
  | some .til => s.each (List.range 13) (fun s j => if s.subFenced p j || s.fenced p then s.put p (LOOP.LSTAT_FENCED j) 1 else s)
  | _ => s

/-! ### Clearing CTRL.ENABLE by a register write -/

/-- Every SRT request and every request waiting at BFM is answered with an error. -/
def State.bfmDrop (s : State) : State :=
  let rs := (s.bufq.map (fun (e : Nat × List BufReq) => e.2)).flatten
  let s1 : State := { s with bufq := [], srt := {} }
  s1.each rs (fun s r => s.respond r.master 0 true)

/-- The unit stops because its ENABLE was cleared (R47, R66, R86, R143, R185, R206, R222, R363, R378, R479, R536). -/
def State.unitDisabled (s : State) (p : Nat) : State :=
  match pageKind p with
  | some .hch => (s.abortRead (p - 0x100) 0x12).abortWrite (p - 0x100) wABORTED
  | some .dil => s.dilStopWith ((p - 0x40) / 16) 4
  | some .drl => s.flushDrill (if p = 5 then 8 else (p - 0x40) / 16)
  | some .lnk => if s.fenced p then s else s.linkDrop ((p - 0x40) / 16) 0
  | some .fur => s.trackerIdle
  | some .nvs => s.nvsStop
  | some .gln => s.glnStop
  | some .mdc => s.mdcOff
  | some .stp => s.abortStripes
  | some .afm => s.afmEndAll
  | some .dma => s.dmaReset
  | _ => s

/-- What setting ENABLE starts: a link trains (R536), the MDC may leave bypass (R362), the tracker may acquire (R66). -/
def State.unitEnabled (s : State) (p : Nat) : State :=
  match pageKind p with
  | some .lnk => if s.get p LNK.LINK_STAT_STATE = 0 then s.put p LNK.LINK_STAT_STATE 1 else s
  | some .mdc => s.noteMdc
  | some .fur => s.trackerStart
  | _ => s

/-! ### State lost in a soft reset and in a power-down -/

/-- The unit's state beside its registers. The PES guard is not a head channel's (R179); a head's held records go (R182). -/
def State.unitClear (s : State) (p : Nat) : State :=
  let a := (p - 0x40) / 16
  let h := p - 0x100
  match pageKind p with
  | some .hch => { s with afe := tabPut s.afe h {} {}, rdh := tabPut s.rdh h {} {}, wrh := tabPut s.wrh h {} {} }
  | some .srv => { s with srv := tabPut s.srv a {} {}, srvh := (List.range 12).foldl (fun (t : List (Nat × SrvHead)) (k : Nat) => tabPut t (12 * a + k) {} {}) s.srvh }
  | some .til => { s with til := tabPut s.til a {} {}, loops := (List.range 13).foldl (fun (t : List (Nat × TilLoop)) (j : Nat) => tabPut t (16 * a + j) {} {}) s.loops }
  | some .prf => { s with prf := tabPut s.prf a {} {} }
  | some .dil => s.setDil a { micro := (s.dilOf a).micro, nano := (s.dilOf a).nano, dmem := (s.dilOf a).dmem }
  | some .stp => { s with stripes := [], stpReady := [], stpIn := [] }
  | some .afm => { s with afm := {} }
  | some .gln => s.glnStop
  | some .hif => { s with ports := tabPut s.ports (p - 0x30) {} {} }
  | some .dba => { s with dbs := [], dbq := [] }
  | some .spn => { s with spn := {}, spnWedge := none }
  | some .mot => { s with macts := [], mot := { retractReq := s.mot.retractReq, emergReq := s.mot.emergReq } }
  | _ => s

/-- The unit's part in a SOFT_RESET, its registers apart: it stops. A head channel's held records wait for their reply still (R182,
R186); a retract or emergency stop that is asked for stays so. -/
def State.unitReset (s : State) (p : Nat) : State :=
  match pageKind p with
  | some .hch =>
    let s1 := (s.abortRead (p - 0x100) 0x12).abortWrite (p - 0x100) wABORTED
    (s1.unitClear p).setWr (p - 0x100) { held := (s1.wrOf (p - 0x100)).held }
  | some .spn => s.speedLost.unitClear p
  | some .mot => (if s.get pMOT MOT.SHOCK_STAT_ABOVE = 0 then s else s.shockOver).unitClear p
  | some .drl => s.resetDrill (if p = 5 then 8 else (p - 0x40) / 16)
  | some .lnk => if s.fenced p then s else s.linkDrop ((p - 0x40) / 16) 0
  | some .fur => s.trackerIdle
  | some .nvs => s.nvsStop
  | some .mdc => s.mdcOff
  | some .stp => s.abortStripes.unitClear p
  | some .afm => s.afmEndAll.unitClear p
  | some .dma => s.dmaReset
  | some .bfm => s.dramOff.bfmDrop
  | some .sec => { s with sec := { s.sec with job := none } }
  | some .hif => (s.linkEnd (p - 0x30) 0).unitClear p
  | some .sys => { s with claims := [], smbTx := none }
  | _ => s.unitClear p

/-- The unit's domain has gone off: its contents are lost (R41, R445), the Dill stores (R211) and what lies in always-on logic
(R483) apart; GLN keeps what the last self-test left (R350). -/
def State.unitOff (s : State) (p : Nat) : State :=
  let s1 := match pageKind p with
    | some .drl => s.setDrl ((p - 0x40) / 16) {}
    | some .lnk => if s.fenced p then s else s.linkDrop ((p - 0x40) / 16) 0
    | some .nvs => s.nvsOff
    | some .mdc => s.mdcOff
    | some .afm => s.dropFilling.unitClear p
    | some .dmc => if s.chanInUse (p - 16) then s.dramOff else s
    | some .hif => (s.linkEnd (p - 0x30) 0).unitClear p
    | _ => s.unitClear p
  let keep := fun off => (p == pNVS && decide (0x800 ≤ off)) || (p == pGLN && (off == 0x90 || off == 0x94))
  (s1.clearPage p keep).setReg p 8 0

/-- The unit's domain is on: its registers hold their reset values (R41), with what the fuses and the fences give. -/
def State.unitOn (s : State) (p : Nat) : State :=
  let s1 := (s.fuseDefaults p).refresh p
  match pageKind p with
  | some .nvs => s1.nvsProbe
  | some .hif => s1.settlePort (p - 0x30)
  | _ => s1

/-! ### Fencing (R423–R425) -/

/-- The unit's part when its page is fenced (R28, R87, R111, R143, R185, R206, R235, R277, R331, R342, R363, R409, R480). -/
def State.unitFenced (s : State) (p : Nat) : State :=
  let a := (p - 0x40) / 16
  match pageKind p with
  | some .hch => ((s.abortRead (p - 0x100) 0x13).abortWrite (p - 0x100) wFENCED).stpHeadFenced (p - 0x100)
  | some .prf => s.seekFenced a
  | some .dil => s.dilFenced a
  | some .drl => s.skipDrill (if p = 5 then 8 else a)
  | some .lnk => s.linkFenced a
  | some .nvs => s.nvsFenced
  | some .gln => s.glnStop
  | some .mdc => s.mdcOff
  | some .stp => s.abortStripes
  | some .afm => s.dropFilling
  | some .bfm => s.put p BFM.SRT_STAT_FENCED 1
  | some .hif => s.settlePort (p - 0x30)
  | _ => s

/-- LEVEL, CLASS and SOURCE of FENCE. -/
def State.fenceWords (s : State) (p lvl cls src : Nat) : State :=
  ((s.put p HDR.FENCE_LEVEL lvl).put p HDR.FENCE_CLASS cls).put p HDR.FENCE_SOURCE src

/-- Fence a page. -/
def State.fencePage (s : State) (p lvl cls src : Nat) : State :=
  if !s.present p then s
  else if s.fenced p then (if s.get p HDR.FENCE_LEVEL < lvl then s.fenceWords p lvl cls src else s)
  else
    let s1 := ((s.fenceWords p lvl cls src).put p HDR.FENCE_FENCED 1).inc p HDR.FENCE_COUNT
    let s2 := (s1.put p HDR.CTRL_ENABLE 0).disarm p
    (s2.irq pFLT 1).unitFenced p

/-- A fenced loop's computation is discarded (R259); LSTAT.FENCED. -/
def State.fenceLoop (s : State) (a j : Nat) : State :=
  if s.on (pTIL a) (LOOP.LSTAT_FENCED j) then s
  else (((s.setLoop a j { s.loopOf a j with res := none }).put (pTIL a) (LOOP.LSTAT_FENCED j) 1).irq (pTIL a) 4)

/-- A fenced AFM slot: the job that names it ends with the stored failure status, the slot stays pinned (R162). -/
def State.slotFenced (s : State) (i : Nat) : State :=
  let x := (i / 2, i % 2)
  let j := (s.afm.sweeps ++ s.afm.jobs).filter (fun j => j.slots.contains x)
  let s1 := s.setAfm { s.afm with sweeps := s.afm.sweeps.filter (fun j => !j.slots.contains x), jobs := s.afm.jobs.filter (fun j => !j.slots.contains x) }
  let s2 := s1.each j (fun s j => ((s.each j.slots (fun s y => s.setSlot y.1 y.2 2)).postJob j { status := s.storedStatus j.head j.slot } true).jobDone)
  s2.each (s2.afm.runs.filter (fun e => e.2.job.slots.contains x)) (fun s e => s.finishRun e.1 e.2 { status := s.storedStatus e.2.job.head e.2.job.slot })

/-- Fence a sub-unit (R423): a loop, a DMA channel, an AFM slot or deep decoder, an MDC entry, an application core. -/
def State.fenceSub (s : State) (p sub lvl cls src : Nat) : State :=
  let s0 := if s.fenced p || (s.subFenced p sub && decide (lvl ≤ s.get p HDR.FENCE_LEVEL)) then s else s.fenceWords p lvl cls src
  if s.subFenced p sub then s0
  else
    let s1 := ({ s0 with subFence := s0.subFence ++ [(p, sub, cls)] } : State).irq pFLT 1
    match pageKind p with
    | some .til => s1.fenceLoop ((p - 0x40) / 16) sub
    | some .dma => s1.dmaFenced sub
    | some .afm => if sub < 192 then s1.slotFenced sub else s1.ddStopped (sub - 192) 6
    | some .mdc => (s1.setMdcDis sub true).noteMdc
    | some .sys => { s1 with claims := s1.claims.filter (fun c => decide (c.2.1 ≠ sub)) }
    | _ => s1

/-- The actuator group is fenced (R30, R87, R281): its seven pages, its 13 loops; the gates drop with ACT_FENCED, its stripes lose every
member, MOT is told to unload. -/
def State.fenceActuator (s : State) (a lvl cls src : Nat) : State :=
  let fresh := !s.fenced (pACT a)
  let s1 := s.each (actPages a) (fun s p => s.fencePage p lvl cls src)
  if fresh && s.present (pACT a) then
    let s2 := s1.each (List.range 13) (fun s j => s.fenceLoop a j)
    let s3 := (s2.noteInhibit a wACT 0xF).dropGates
    let s4 := (s3.stpActFenced a).seekFenced a
    { s4 with mot := { s4.mot with unloadReq := if s4.mot.unloadReq.contains a then s4.mot.unloadReq else s4.mot.unloadReq ++ [a] } }
  else s1

/-! ### Unfencing (R430) -/

/-- The state that a page's unit returns to. -/
def State.unitUnfenced (s : State) (p : Nat) : State :=
  match pageKind p with
  | some .dil =>
    let a := (p - 0x40) / 16
    let s1 := if s.dilState a = 2 ∨ s.dilState a = 3 then s.endRoutine a 5 0 (s.dilPc a) 4 else s
    if s.powered p then s1.put p DIL.RUN_STAT_STATE 1 else s1
  | some .lnk => s.put p LNK.LINK_STAT_STATE 0
  | some .hif => s.settlePort (p - 0x30)
  | some .nvs => if s.powered p then s.nvsProbe else s
  | some .bfm => s.put p BFM.SRT_STAT_FENCED 0
  | some .dmc => s.put p DMC.UE_CNT 0
  | some .mdc => s.noteMdc
  | _ => s

def State.unfencePage (s : State) (p : Nat) : State :=
  if s.fenced p then (s.put p HDR.FENCE_FENCED 0).unitUnfenced p else s

def State.unfenceSub (s : State) (p sub : Nat) : State :=
  let s1 : State := { s with subFence := s.subFence.filter (fun e => !(decide (e.1 = p) && decide (e.2.1 = sub))) }
  match pageKind p with
  | some .til => s1.put p (LOOP.LSTAT_FENCED sub) 0
  | some .dma => s1.dmaUnfenced sub
  | some .afm => if sub < 192 then s1.setSlot (sub / 2) (sub % 2) 0 else s1.noteDds
  | some .mdc => ((s1.setMdcDis sub false).setMdcEnt sub { s1.mdcEnt sub with ces := 0 }).noteMdc
  | _ => s1

/-- The actuator group and every fenced loop. -/
def State.unfenceActuator (s : State) (a : Nat) : State :=
  let s1 := s.each (actPages a) (fun s p => s.unfencePage p)
  s1.each (List.range 13) (fun s j => s.unfenceSub (pTIL a) j)

end Sys2Proof.Machine
end

