-- ==== Sys2Proof/Machine/Faults.lean ====
section
/-! DEFINITION. The fault collector FLT (R417–R436): grading, records, the actions of each level, acknowledgement, unfencing, the
watchdog, ALIVE. -/

namespace Sys2Proof.Machine

/-- FLT's level sources: UNACKED, DEGRADED, SAFE, WDOG (R436). -/
def State.fltLevels (s : State) : Nat :=
  let lvl := s.get pFLT FLT.DEV_STAT_LEVEL
  (if s.get pFLT FLT.UNACK = 0 then 0 else 1) + (if lvl = 3 ∨ lvl = 4 then 4 else 0) + (if lvl = 4 then 8 else 0) +
    (if s.on pFLT FLT.WDOG_STAT_EXPIRED then 16 else 0)

def State.fltLatch (s : State) : State := s.irqBits pFLT s.fltLevels

/-! ### ALIVE (R433, R434) -/

abbrev aliveTicks : Nat := 2400000

/-- The level that ALIVE has been driven to by the edges at ticks up to time `t` (sub-ticks). -/
def State.aliveLevel (s : State) (t : Nat) : Bool :=
  match s.aliveStart with
  | none => false
  | some k =>
    let first := (k + aliveTicks * ftSub - 1) / (aliveTicks * ftSub) * aliveTicks
    decide (first ≤ t / ftSub) && decide (t / ftSub % aliveTicks < aliveTicks / 2)

/-- ALIVE stops at instant `t`: no edge at or after it is driven. -/
def State.aliveStop (s : State) (cause t : Nat) : State :=
  if s.on pFLT FLT.ALIVE_STAT_STOPPED then s
  else
    let lvl := decide (0 < t) && s.aliveLevel (t - 1)
    ((((s.putB pFLT FLT.ALIVE_STAT_LEVEL lvl).put pFLT FLT.ALIVE_STAT_RUNNING 0).put pFLT FLT.ALIVE_STAT_STOPPED 1).put pFLT
      FLT.ALIVE_STAT_CAUSE cause).put pFLT FLT.ALIVE_STOP (t % 2 ^ 32)

/-- R433: a write of ALIVE_CTRL.START. -/
def execAliveStart (m : Master) (s : State) : Out :=
  .next (s.regCmd m pFLT 0x70 (fun s =>
    if m = .bsc ∧ s.on pFLT FLT.ALIVE_STAT_STOPPED = false ∧ s.aliveStart = none then
      ({ s with aliveStart := some s.time } : State).put pFLT FLT.ALIVE_STAT_RUNNING 1
    else s))

/-- R433: the edge due at this tick is driven. -/
def execAliveEdge (s : State) : Out :=
  .next (if s.on pFLT FLT.ALIVE_STAT_RUNNING && !s.on pFLT FLT.ALIVE_STAT_STOPPED then s.putB pFLT FLT.ALIVE_STAT_LEVEL (s.aliveLevel s.time) else s)

/-! ### Units and groups (R423) -/

/-- What an event at FL1 or FL2 fences. -/
inductive FenceUnit where
  | none
  | page (p : Nat)
  | sub (p i : Nat)
  | actuator (a : Nat)
deriving DecidableEq, Repr

/-- The unit of a power domain (R447). -/
def domUnit (d : Nat) : FenceUnit :=
  if d < 96 then .page (pHCH d)
  else if d < 104 then .actuator (d - 96)
  else if d < 116 then .page (pDMC (d - 104))
  else if d < 118 then .page (pHIF (d - 116))
  else if d < 126 then .sub pSYS (d - 118)
  else if d < 134 then .sub pAFM (192 + (d - 126))
  else .page (([pSTP, pXTS, pAFM, pMDC, pGLN, pNVS, pXTS] : List Nat).getD (d - 134) pXTS)

/-- The unit of an event. A RAMP_FAIL of PWR carries its domain as sub-unit. -/
def fenceUnitOf (r : Report) : FenceUnit :=
  match pageKind r.page, r.sub with
  | some .til, some k => if r.bit = 6 then .sub r.page k else .actuator ((r.page - 0x40) / 16)
  | some .til, Option.none => .actuator ((r.page - 0x40) / 16)
  | some .dma, c => .sub pDMA (c.getD 0)
  | some .afm, some i => .sub pAFM i
  | some .mdc, some e => .sub pMDC e
  | some .sys, some c => .sub pSYS c
  | some .pwr, some d => if r.bit = 0 then domUnit d else .none
  | some .sys, Option.none | some .flt, _ | some .fur, _ | some .clk, _ | some .pwr, Option.none | some .mot, _ | Option.none, _ => .none
  | some .afm, Option.none | some .mdc, Option.none => .page r.page
  | some .hch, _ | some .act, _ | some .srv, _ | some .prf, _ | some .dil, _ | some .drl, _ | some .lnk, _ | some .hif, _ | some .dmc, _
  | some .bfm, _ | some .spn, _ | some .stp, _ | some .xts, _ | some .gln, _ | some .nvs, _ | some .sec, _ | some .dba, _ => .page r.page

/-- The group of a unit. -/
def State.groupOf (s : State) (u : FenceUnit) : FenceUnit :=
  match u with
  | .none => .none
  | .actuator a => .actuator a
  | .page p =>
    (match pageKind p with
    | some .hch => .actuator (actOf (p - 0x100))
    | some .act | some .srv | some .prf | some .dil | some .lnk | some .til => .actuator ((p - 0x40) / 16)
    | some .drl => if p = 5 then .page p else .actuator ((p - 0x40) / 16)
    | _ => .page p)
  | .sub p i =>
    if p = pDMA then .page (pHIF (s.chPort i))
    else if p = pAFM ∨ p = pMDC then .page p
    else if p = pSYS then .sub p i
    else .actuator ((p - 0x40) / 16)

/-- Fence a unit or a group. -/
def State.fenceUnit (s : State) (u : FenceUnit) (lvl cls src : Nat) : State :=
  match u with
  | .none => s
  | .page p => s.fencePage p lvl cls src
  | .sub p i => s.fenceSub p i lvl cls src
  | .actuator a => s.fenceActuator a lvl cls src

/-! ### Records (R426–R428) -/

/-- The sub-unit index a record names. -/
def Report.subIndex (r : Report) : Nat :=
  match fenceUnitOf r with
  | .sub _ i => i
  | _ => if r.page = pPWR then 0 else r.sub.getD 0

/-- The eight words of R428 with COUNT 0. -/
def Report.words (r : Report) (lvl : Nat) (esc : Bool) (seq : Nat) : List Nat :=
  [lvl + (if r.forced then 8 else 0) + 16 * r.base + 256 * (r.bit % 256) + 65536 * r.page + 2 ^ 25 * r.cls + (if esc then 2 ^ 30 else 0) + 2 ^ 31,
    r.time % 2 ^ 32, r.time / 2 ^ 32 % 2 ^ 32, r.addr % 2 ^ 32, r.addr / 2 ^ 32 % 2 ^ 32, r.master + 65536 * r.access, r.subIndex, seq]

def State.putWords (s : State) (p off : Nat) (ws : List Nat) : State :=
  s.each ws.zipIdx (fun s (e : Nat × Nat) => s.setReg p (off + 4 * e.2) (BitVec.ofNat 32 e.1))

/-- FIRSTc of class `c`. -/
abbrev firstOff (c : Nat) : Nat := 0x100 + 0x20 * c

/-- Record an event: FIRSTc or its COUNT, UNACK, HIST, EVENT_CNT (R419, R426, R427). -/
def State.fltRecord (s : State) (r : Report) (lvl : Nat) (esc : Bool) : State :=
  let seq := s.get pFLT FLT.EVENT_CNT % 65536
  let ws := r.words lvl esc seq
  let s1 := if esc then
      s.addSat pFLT ⟨firstOff r.cls + 24, 16, 16⟩ 1
    else s.putWords pFLT (firstOff r.cls) ws
  let s2 := s1.put pFLT FLT.UNACK (withBit (s1.get pFLT FLT.UNACK) r.cls true)
  let s3 := s2.putWords pFLT (0x400 + 0x20 * (seq % 32)) ws
  (s3.addWrap pFLT FLT.EVENT_CNT 1).put pFLT FLT.HIST_WR_NEXT_SEQ (seq + 1)

/-! ### Device level (R421, R422) -/

/-- The DEVICE write inhibit acts on every head. -/
def State.deviceInhibit (s : State) : State :=
  if s.deviceInh then s else ({ s.noteAllInhibit wDEVICE with deviceInh := true } : State).dropGates

/-- FL3: DEGRADED unless at that level or above. -/
def State.degrade (s : State) (cls seq : Nat) : State :=
  let add := fun (s : State) => s.put pFLT FLT.DEV_STAT_DEG_CLASSES (withBit (s.get pFLT FLT.DEV_STAT_DEG_CLASSES) cls true)
  if s.get pFLT FLT.DEV_STAT_LEVEL = 0 then
    let s1 := ((s.put pFLT FLT.DEV_STAT_LEVEL 3).put pFLT FLT.DEV_STAT_DEG_CLASSES 0).put pFLT FLT.DEG_SEQ seq
    (add s1).deviceInhibit
  else add s

/-- A supply-loss decision or a removal (R449, R410): its inhibit and retract wait for the write window of R183. -/
def Report.supply (r : Report) : Bool := (r.page == pMOT && r.bit == 5) || (pageKind r.page == some .hif && r.bit == 6)

/-- FL4: SAFE, the DEVICE inhibit, the retract, the emergency stop, the end of ALIVE. Over a lost die-to-die link neither is asked for: the
motion die's own timer begins them (R15, R282). -/
def State.goSafe (s : State) (r : Report) (seq : Nat) : State :=
  let s0 := s.put pFLT FLT.DEV_STAT_DEG_CLASSES (withBit (s.get pFLT FLT.DEV_STAT_DEG_CLASSES) r.cls true)
  let fresh := decide (s0.get pFLT FLT.DEV_STAT_LEVEL ≠ 4)
  let s1 := if fresh then ((s0.put pFLT FLT.DEV_STAT_LEVEL 4).put pFLT FLT.SAFE_SEQ seq).aliveStop 1 s0.time else s0
  if r.supply then s1
  else if fresh || (s.supply.isSome && !s.windowClosed) then
    (if s.d2dLost then s1.deviceInhibit else (s1.deviceInhibit.askRetract 2).askEmergency)
  else s1

/-- The actions of an event graded `lvl`: every level from its base up (R421, R424). -/
def State.fltActions (s : State) (r : Report) (lvl seq : Nat) : State :=
  let u := fenceUnitOf r
  let act1 := fun (s : State) => if u = .none then s.degrade r.cls seq else s.fenceUnit u lvl r.cls r.bit
  let act2 := fun (s : State) => if u = .none then s.degrade r.cls seq else s.fenceUnit (s.groupOf u) lvl r.cls r.bit
  let s1 := if r.base ≤ 1 ∧ 1 ≤ lvl then act1 s else s
  let s2 := if r.base ≤ 2 ∧ 2 ≤ lvl then act2 s1 else s1
  let s3 := if r.base ≤ 3 ∧ 3 ≤ lvl then s2.degrade r.cls seq else s2
  if 4 ≤ lvl then s3.goSafe r seq else s3

/-- Grade an event (R419), record it, perform its actions. -/
def State.fltGrade (s : State) (r : Report) : State :=
  let esc := bit (s.get pFLT FLT.UNACK) r.cls
  let lvl := if esc then min 4 (r.base + 1) else r.base
  let seq := s.get pFLT FLT.EVENT_CNT % 65536
  ((s.fltRecord r lvl esc).fltActions r lvl seq).fltLatch

/-- The PCLK cycle in which a report reached FLT has ended. Reports of one cycle are graded in R420's order, after an ACK of that cycle
(DEDUCED, log 140). -/
def State.gradable (s : State) (r : Report) : Bool := decide (r.time / pclkSub < s.time / pclkSub)

/-- A source whose cause lies outside the model detects its fault. KS_UE names the slot whose key is lost (R506). -/
def State.detect (s : State) (p b : Nat) (sub : Option Nat) : State :=
  if p = pXTS ∧ b = 1 then (match sub with | some k => s.slotLost k | none => s).raise p b
  else s.raiseWith p b { sub := sub }

/-- R418–R420: FLT grades the first of the reports that wait. `det` is a detection by a source whose cause lies outside the model (an
error in an array, a self-check): page, FLT_STAT bit, sub-unit; it is reported first. -/
def execFaultEvent (det : Option (Fin 352 × Fin 32 × Option (BitVec 8))) (s : State) : Out :=
  let s1 := match det with
    | some (p, b, sub) => s.detect p.val b.val (sub.map (fun (x : BitVec 8) => x.toNat))
    | none => s
  match s1.fltq with
  | [] => .next s1
  | r :: q => .next (if s1.gradable r then ({ s1 with fltq := q } : State).fltGrade r else s1)

/-! ### Acknowledgement and return to NORMAL -/

/-- R429: a write of ACK. -/
def execAck (m : Master) (v : Word) (s : State) : Out :=
  .next (s.regCmd m pFLT 0x4C (fun s =>
    let cs := (List.range 15).filter (fun (c : Nat) => decide (1 ≤ c) && bit v.toNat c)
    (s.each cs (fun s (c : Nat) =>
      let s1 := s.put pFLT FLT.UNACK (withBit (s.get pFLT FLT.UNACK) c false)
      s1.put pFLT ⟨firstOff c, 31, 1⟩ 0)).fltLatch))

/-- R422: a write of DEV_CTRL.CLR_DEGRADED. -/
def execClrDegraded (m : Master) (s : State) : Out :=
  .next (s.regCmd m pFLT 0x44 (fun s =>
    if s.get pFLT FLT.DEV_STAT_LEVEL = 3 ∧ Nat.land (s.get pFLT FLT.DEV_STAT_DEG_CLASSES) (s.get pFLT FLT.UNACK) = 0 then
      { ((s.put pFLT FLT.DEV_STAT_LEVEL 0).put pFLT FLT.DEV_STAT_DEG_CLASSES 0).put pFLT FLT.DEV_STAT_CLR_REFUSED 0 with deviceInh := false }
    else s.put pFLT FLT.DEV_STAT_CLR_REFUSED 1))

/-! ### Unfencing (R430) -/

/-- Sub-units of a page (R423). -/
def subUnits (p : Nat) : Nat :=
  match pageKind p with
  | some .til => 12
  | some .dma => 32
  | some .afm => 200
  | some .mdc => 48
  | some .sys => 8
  | _ => 0

/-- A page without a fence of its own (R424). -/
def noFence (p : Nat) : Bool := p == pSYS || p == pFLT || p == pFUR || p == pCLK || p == pPWR || p == pMOT

/-- The class of a fenced sub-unit. -/
def State.subClass (s : State) (p i : Nat) : List Nat := ((s.subFence.filter (fun e => decide (e.1 = p ∧ e.2.1 = i))).map (fun e => e.2.2))

/-- The classes of the fences a request would clear; empty when nothing it covers is fenced. -/
def State.unfenceClasses (s : State) (p : Nat) (sub : Option Nat) : List Nat :=
  match sub with
  | some i => s.subClass p i
  | none =>
    let of_ := fun (p : Nat) => if s.fenced p then [s.get p HDR.FENCE_CLASS] else []
    if pageKind p = some .act then
      ((actPages ((p - 0x40) / 16)).map of_).flatten ++ ((List.range 13).map (fun j => s.subClass (pTIL ((p - 0x40) / 16)) j)).flatten
    else of_ p

/-- The target belongs to a fenced group and is not its named page. -/
def State.groupFenced (s : State) (p : Nat) (sub : Option Nat) : Bool :=
  match pageKind p with
  | some .srv | some .til | some .prf | some .dil | some .lnk => s.fenced (pACT ((p - 0x40) / 16))
  | some .drl => p != 5 && s.fenced (pACT ((p - 0x40) / 16))
  | some .dma => (match sub with | some c => s.fenced (pHIF (s.chPort c)) | none => false)
  | some .afm | some .mdc => sub.isSome && s.fenced p
  | _ => false

/-- RESULT of a request. -/
def State.unfenceResult (s : State) (p : Nat) (sub : Option Nat) : Nat :=
  let bad := !s.present p || (match sub with | some i => decide (subUnits p ≤ i) | none => noFence p)
  let cs := s.unfenceClasses p sub
  if bad then 5
  else if s.get pFLT FLT.DEV_STAT_LEVEL = 4 then 4
  else if cs.isEmpty then 1
  else if s.groupFenced p sub then 3
  else if cs.any (fun c => bit (s.get pFLT FLT.UNACK) c) then 2
  else 0

/-- R430: a write of UNFENCE; `sub` is SUB where SUB_EN is 1. -/
def execUnfence (m : Master) (page : BitVec 9) (sub : Option (BitVec 8)) (s : State) : Out :=
  .next (s.regCmd m pFLT 0x50 (fun s =>
    if s.unfencing.isSome then s.put pFLT FLT.UNFENCE_STAT_BUSY_REFUSED 1
    else
      let x := sub.map (·.toNat)
      let r : UnfenceReq := { page := page.toNat, sub := x, result := s.unfenceResult page.toNat x }
      { (s.put pFLT FLT.UNFENCE_STAT_BUSY_REFUSED 0).put pFLT FLT.UNFENCE_STAT_DONE 0 with unfencing := some r }))

/-- R430: the request completes. -/
def execUnfenceDone (s : State) : Out :=
  match s.unfencing with
  | none => .next s
  | some r =>
    let s0 : State := { s with unfencing := none }
    let s1 := if r.result ≠ 0 then s0
      else match r.sub with
        | some i => s0.unfenceSub r.page i
        | none => if pageKind r.page = some .act then s0.unfenceActuator ((r.page - 0x40) / 16) else s0.unfencePage r.page
    .next (((s1.put pFLT FLT.UNFENCE_STAT_RESULT r.result).put pFLT FLT.UNFENCE_STAT_DONE 1).irq pFLT 5)

/-! ### The watchdog (R432) -/

/-- The window's length that PERIOD gives. -/
def State.wdogLen (s : State) : Nat := max 1 (s.get pFLT FLT.WDOG_CFG_PERIOD) * msSub

/-- R432: a write of WDOG_CFG. -/
def execWdogEnable (m : Master) (period : BitVec 16) (en : Bool) (s : State) : Out :=
  .next (s.regCmd m pFLT 0x64 (fun s =>
    if m = .bsc ∧ s.locked pFLT = false then
      let s1 := s.put pFLT FLT.WDOG_CFG_PERIOD period.toNat
      if en && !s.on pFLT FLT.WDOG_CFG_EN then
        { (s1.put pFLT FLT.WDOG_CFG_EN 1).put pFLT FLT.WDOG_STAT_RUNNING 1 with wdog := some (s1.time, s1.wdogLen) }
      else s1
    else s))

/-- R432: a write of WDOG_KICK. A kick at or after the window's close comes too late. -/
def execWdogKick (m : Master) (v : Word) (s : State) : Out :=
  .next (s.regCmd m pFLT 0x68 (fun s =>
    if m = .bsc ∧ v = 0xA5C3 then
      (match s.wdog with
      | some (k, n) => if s.time < k + n then { s with wdog := some (s.time, s.wdogLen) } else s
      | none => s)
    else (s.put pFLT FLT.WDOG_STAT_BAD_KICK 1).raiseBy pFLT 2 m 2 (regAddr pFLT 0x68)))

/-- The watchdog's effects at instant `t`. -/
def State.wdogExpire (s : State) (t : Nat) : State :=
  let s1 : State := { s with wdog := none }
  (((s1.put pFLT FLT.WDOG_STAT_RUNNING 0).put pFLT FLT.WDOG_STAT_EXPIRED 1).aliveStop 2 t).fltLatch

/-- R432: the window has closed without a kick. -/
def execWdogExpired (s : State) : Out :=
  match s.wdog with
  | some (k, n) => .next (if k + n ≤ s.time then (s.wdogExpire (k + n)).raise pFLT 3 else s)
  | none => .next s

end Sys2Proof.Machine
end

