-- ==== Sys2Proof/Machine/Power.lean ====
section
/-! DEFINITION. Clocks, power domains and temperature (R437–R448, R452, R453). -/

namespace Sys2Proof.Machine

/-! ### Clocks (R438–R440) -/

/-- R438: the crystal oscillator is stable: stage POR ends (R457). -/
def execOscStable (s : State) : Out :=
  if s.oscStable ∨ s.testHeld then .next s
  else
    let s1 : State := { s with oscStable := true }
    .next (if s1.get pSYS SYS.BOOT_STAT_STAGE = 0 then s1.put pSYS SYS.BOOT_STAT_STAGE 1 else s1)

/-- R438, R440: the PLL locks, `us` microseconds (rounded up) after a stable LREF or the start of the relock. At its first lock Furrow
time starts and stage CLOCK ends; a relock leaves FURROW_SUSPECT. -/
def execPllLock (us : BitVec 16) (s : State) : Out :=
  let locked := fun (s : State) => (((s.put pCLK CLK.PLL_STAT_LOCKED 1).put pCLK CLK.PLL_STAT_HOLDOVER 0).put pCLK CLK.PLL_STAT_LOCK_TIME us.toNat).irq pCLK 0
  if s.relock then .next (locked { s with relock := false })
  else if s.oscStable ∧ s.get pSYS SYS.BOOT_STAT_STAGE = 1 ∧ s.rootRuns = false then .next ((locked s).put pSYS SYS.BOOT_STAT_STAGE 2)
  else .next s

/-- A loss of kind `b`: 0 LOCK_LOSS, 1 XTAL_LOSS: holdover, LOSS_LOG, LOSS_TIME (R440, R452). -/
def State.clockLoss (s : State) (b : Nat) : State :=
  let log := s.get pCLK CLK.LOSS_LOG_CAUSE
  let s1 := if log = 0 then s.put pCLK CLK.LOSS_TIME s.timeLo else s
  let s2 := (s1.put pCLK CLK.LOSS_LOG_CAUSE (withBit log b true)).put pCLK CLK.PLL_STAT_LOCKED 0
  (s2.put pCLK CLK.PLL_STAT_HOLDOVER 1).put pCLK CLK.PLL_STAT_FURROW_SUSPECT 1

/-- R439: no LREF edge for 16 cycles of the monitor's oscillator. -/
def execXtalLoss (s : State) : Out := .next (if s.rootRuns then (s.clockLoss 1).raise pCLK 1 else s)

/-- R439: a phase error beyond ±200 ps on four consecutive LREF cycles. -/
def execLockLoss (s : State) : Out := .next (if s.rootRuns then (s.clockLoss 0).raise pCLK 0 else s)

/-! ### Domains (R441) -/

abbrev domNum : Nat := 141

/-- The pages whose unit lies in a domain. -/
def domPages (d : Nat) : List Nat :=
  if d < 96 then [pHCH d]
  else if d < 104 then actPages (d - 96)
  else if d < 116 then [pDMC (d - 104)]
  else if d < 118 then [pHIF (d - 116)]
  else if 134 ≤ d ∧ d < 140 then [([pSTP, pXTS, pAFM, pMDC, pGLN, pNVS] : List Nat).getD (d - 134) pNVS]
  else []

/-- The domain is present on the part (R3, R7). -/
def State.hasDom (s : State) (d : Nat) : Bool :=
  if d = domKS then s.present pXTS
  else decide (d < domNum) && (domPages d).all s.present

/-- RAMP and total limits of R442 in µs. -/
def rampUs (d : Nat) : Nat :=
  if d = 136 then 50
  else if 104 ≤ d ∧ d < 118 then 20
  else if d < 104 ∨ (118 ≤ d ∧ d < 134) then 10
  else 5

/-- R442: the hardware holds in reset an application core whose domain lacks POWER_ACK. -/
def State.holdCore (s : State) (d : Nat) : State :=
  if 118 ≤ d ∧ d < 126 then s.put pSYS SYS.CORE_HOLD_HOLD (withBit (s.get pSYS SYS.CORE_HOLD_HOLD) (d - 118) true) else s

/-- The contents of a domain are lost. -/
def State.domLost (s : State) (d : Nat) : State :=
  let s1 := s.each (domPages d) (fun s p => s.unitOff p)
  if 118 ≤ d ∧ d < 126 then s1.holdCore d
  else if 126 ≤ d ∧ d < 134 then s1.ddStopped (d - 126) (if s1.subFenced pAFM (192 + (d - 126)) then 6 else 0)
  else if d = domKS then s1.keysLost
  else s1

/-- The requests that wait, with domain `d` added: in order of arrival, those of one PCLK cycle in ascending domain number (R443). -/
def State.waitWith (s : State) (d : Nat) : List Nat :=
  let after := fun (x : Nat) => decide ((s.domOf x).since / pclkSub = s.time / pclkSub) && decide (d < x)
  s.domWait.filter (fun x => !after x) ++ [d] ++ s.domWait.filter after

/-- A request for a domain (R443, R445, R447): a domain that is off, or FAILED, goes to WAIT; one not yet off waits for that. -/
def State.domRequest (s : State) (d : Nat) : State :=
  let v := s.domOf d
  if !s.hasDom d then s
  else if (v.st = 0 ∧ v.offAt = 0) ∨ v.st = 6 then
    { s.setDom d { v with st := 1, req := true, since := s.time } with domWait := s.waitWith d }
  else s.setDom d { v with req := true }

/-- A request withdrawn (R444), or a power-down (R445). -/
def State.domWithdraw (s : State) (d : Nat) : State :=
  let v := s.domOf d
  if v.st = 1 then { s.setDom d { v with st := 0, req := false } with domWait := s.domWait.filter (fun x => decide (x ≠ d)) }
  else if v.st = 0 ∨ v.st = 6 then s.setDom d { v with req := false }
  else
    let off : Dom := { v with st := 0, req := false, since := s.time, offAt := s.time + 2 * usSub }
    if v.st = 5 then (s.setDom d off).domLost d else s.setDom d off

/-- Ramp places (R443): RAMP_MAX, AFM taking 8 or all. -/
def State.rampMax (s : State) : Nat :=
  let n := s.get pPWR PWR.RAMP_MAX
  if n = 0 ∨ 8 < n then 8 else n

def State.ramping (s : State) : List Nat := (s.dom.filter (fun e => decide (e.2.st = 2))).map (fun e => e.1)

/-- The first waiting request may enter RAMP. -/
def State.rampFree (s : State) (d : Nat) : Bool :=
  if d = 136 then s.ramping.isEmpty
  else !s.ramping.contains 136 && decide (s.ramping.length < s.rampMax)

/-- R443: the request that waits longest enters RAMP when a place is free. -/
def execDomainRampStart (s : State) : Out :=
  match s.domWait with
  | [] => .next s
  | d :: r =>
    if s.rampFree d then .next { s.setDom d { s.domOf d with st := 2, since := s.time, ramp0 := s.time } with domWait := r } else .next s

/-- Microseconds of a power-up; how a fraction counts is not stated (log 3). -/
def State.upTime (s : State) (t : Nat) : Nat := min 65535 (t / usSub + (if t % usSub = 0 then 0 else s.freeVal % 2))

/-- A failed checker of the domain (R350): the fault of its unit, the notice of GLN; the domain goes off. -/
def State.domBad (s : State) (d : Nat) : State :=
  let s1 := match domUnit d with
    | .sub p i => s.reportUnnamed p cMEM 1 { sub := some i }
    | .page p => s.selfTestFault p
    | .actuator a => s.selfTestFault (pACT a)
    | .none => s
  (s1.raise pGLN 2).irq pPWR 1

/-- The fill of a domain's arrays in buffer memory (R347): AFM's. -/
def State.domFill (s : State) (d : Nat) : State := if d = 136 then s.zeroRange afmBase scrBase else s

/-- R442, R447: a domain moves on: `phase` 0 ends RAMP, 1 ends FILL, 2 ends TEST and with it the power-up; `bad` says that a checker of
the domain fails its self-test. DMCn and key-store domains follow the same states. -/
def execDomainUp (d : Fin 141) (phase : Fin 3) (bad : Bool) (s : State) : Out :=
  let d := d.val
  let v := s.domOf d
  if v.st < 2 ∨ 4 < v.st then .next s
  else if phase.val = 0 then .next (if v.st = 2 then s.setDom d { v with st := 3, since := s.time } else s)
  else if phase.val = 1 then .next (if v.st ≤ 3 then ((s.setDom d { v with st := 4, since := s.time }).domFill d) else s)
  else if bad then .next (((s.setDom d { v with st := 6, since := s.time }).holdCore d).domBad d)
  else
    let sF := if v.st < 4 then s.domFill d else s
    let s1 := (sF.setDom d { v with st := 5, since := s.time, up := s.upTime (s.time - v.ramp0) }).drew
    let s2 := s1.each (domPages d) (fun s p => s.unitOn p)
    let s3 := if 126 ≤ d ∧ d < 134 then s2.noteDds else s2
    .next (s3.irq pPWR 0)

/-- R447: the switch has not reported good within twice the RAMP time. -/
def execDomainFailed (d : Fin 141) (s : State) : Out :=
  let d := d.val
  let v := s.domOf d
  if v.st = 2 ∧ v.ramp0 + 2 * rampUs d * usSub ≤ s.time then
    let s1 := s.setDom d { v with st := 6, since := s.time }
    let s2 := s1.holdCore d
    .next ((s2.irq pPWR 1).raiseWith pPWR 0 { sub := some d })
  else .next s

/-- R445: the domain is off; a request made meanwhile goes to WAIT. -/
def execDomainOff (d : Fin 141) (s : State) : Out :=
  let d := d.val
  let v := s.domOf d
  if v.offAt = 0 then .next s
  else
    let s1 := s.setDom d { v with offAt := 0 }
    .next (if v.req then s1.domRequest d else s1)

/-! ### Requests by register -/

/-- R446: a clear of a DOM_REQ bit is refused. -/
def State.clearRefused (s : State) (d : Nat) : Bool :=
  if d < 126 then !bit (s.get pSYS SYS.CORE_HOLD_HOLD) (d - 118) && !s.subFenced pSYS (d - 118)
  else if d < 134 then
    let st := s.get pAFM ⟨0xA0 + 4 * (d - 126), 0, 3⟩
    st != 0 && st != 1 && st != 6
  else false

/-- The domain of bit `i` of DOM_REQ. -/
def domOfBit (i : Nat) : Nat := if i < 16 then 118 + i else domKS

/-- R446: a write of PWR.DOM_REQ. -/
def execDomReq (m : Master) (v : BitVec 17) (s : State) : Out :=
  .next (s.regCmd m pPWR 0x40 (fun s =>
    let bad := (List.range 17).filter (fun i => !v.getLsbD i && (s.domOf (domOfBit i)).req && s.clearRefused (domOfBit i))
    let s1 := s.each (List.range 17) (fun s i =>
      let d := domOfBit i
      if bad.contains i then s
      else if v.getLsbD i && (!(s.domOf d).req || decide ((s.domOf d).st = 6)) then s.domRequest d
      else if !v.getLsbD i && (s.domOf d).req then s.domWithdraw d
      else s)
    if bad.isEmpty then s1.put pPWR PWR.PWR_STAT_REFUSED 0
    else (s1.put pPWR PWR.PWR_STAT_REFUSED 1).each bad (fun s _ => s.raiseBy pPWR 2 m 2 (regAddr pPWR 0x40))))

/-! ### Temperature (R448) -/

/-- The hottest of the readings, and its sensor. -/
def hottest (ts : List (BitVec 16)) : Int × Nat :=
  ts.zipIdx.foldl (fun (acc : Int × Nat) (e : BitVec 16 × Nat) => if acc.1 < e.1.toInt then (e.1.toInt, e.2) else acc)
    (match ts with | t :: _ => (t.toInt, 0) | [] => (0, 0))

/-- One threshold (°C): its fault is raised when the reading rises above it, and armed again 5 °C below. -/
def State.thmCheck (s : State) (i thr : Nat) (t : Int) : State :=
  if t > 8 * thr ∧ bit s.thmTold i = false then
    (({ s with thmTold := withBit s.thmTold i true } : State).irq pPWR 2).raise pPWR (3 + i)
  else if t ≤ 8 * (thr : Int) - 40 then { s with thmTold := withBit s.thmTold i false }
  else s

/-- R448: the eight junction sensors are read (in 0.125 °C, signed). -/
def execTempSample (ts : List (BitVec 16)) (s : State) : Out :=
  if ts.isEmpty then .next s
  else
    let h := hottest ts
    let s1 := s.setReg pPWR 0x80 (BitVec.ofNat 32 (enc 16 h.1 + 65536 * (h.2 % 8)))
    let s2 : State := if s1.thmSeen = false ∨ sgn 16 (s1.get pPWR PWR.TEMP_MAX % 65536) < h.1 then
        { s1.setReg pPWR 0x84 (BitVec.ofNat 32 (enc 16 h.1)) with thmSeen := true }
      else s1
    .next (((s2.thmCheck 0 (s2.get pPWR PWR.THM_CFG_WARN) h.1).thmCheck 1 (s2.get pPWR PWR.THM_CFG_HIGH) h.1).thmCheck 2
      (s2.get pPWR PWR.THM_CFG_CRIT) h.1)

end Sys2Proof.Machine
end

