-- ==== Sys2Proof/Machine/Control.lean ====
section
/-! DEFINITION. The common header's commands (R38–R50): enabling, soft reset, power requests, interrupt latches, fault injection,
locks; and the interrupt router of SYS (R51, R52). -/

namespace Sys2Proof.Machine

/-- A write to the header that a soft reset in progress makes the page ignore; the pages of the motion die are reached only over the
die-to-die link (R14, R15, R38, R43). -/
def State.hdrOn (s : State) (p : Nat) (k : State → State) : State :=
  if s.d2dLost && (p == pSPN || p == pMOT) then s else s.hdrCmd p k

/-! ### Interrupt sources that are levels (R44) -/

/-- A ring holds records: its write index differs from its read index. -/
def State.ringLevel (s : State) (p b : Nat) (wr rd : Fld) : Nat := if s.get p wr = s.get p rd then 0 else 2 ^ b

/-- Some head has both its slots in states 2 to 5 (R164). -/
def State.bothPinned (s : State) : Bool :=
  (List.range 96).any (fun (h : Nat) =>
    let held := fun (i : Nat) => decide (2 ≤ s.get pAFM (AFM.SLOT_STAT_STATE (2 * h + i))) && decide (s.get pAFM (AFM.SLOT_STAT_STATE (2 * h + i)) ≤ 5)
    held 0 && held 1)

/-- The page-specific bits of IRQ_RAW that stay 1 while a condition lasts. -/
def State.irqOwn (s : State) (p : Nat) : Nat :=
  match pageKind p with
  | some .sys => if s.on pSYS SYS.SMB_STAT_RX_READY then 2 ^ 16 else 0
  | some .flt => s.fltLevels
  | some .drl => s.ringLevel p 0 DRL.RET_WR DRL.RET_RD
  | some .hch => s.ringLevel p 8 HCH.STS_WR HCH.STS_RD + s.ringLevel p 16 HCH.WST_WR HCH.WST_RD
  | some .stp => s.ringLevel p 0 STP.RING_WR STP.RING_RD
  | some .srv => s.ringLevel p 2 SRV.PCAP_WR SRV.PCAP_RD
  | some .afm => if s.bothPinned then 4 else 0
  | some .dma => (if Nat.land (s.get p DMA.DONE_PEND) (s.get p DMA.DONE_EN) = 0 then 0 else 1) +
      (if Nat.land (s.get p DMA.ERR_PEND) (s.get p DMA.ERR_EN) = 0 then 0 else 2)
  | some .hif => (if s.on p HIF.LINK_STAT_FLR_ACTIVE then 4 else 0) +
      (if (s.reg p 0xA8).toNat = 0 ∧ (s.reg p 0xAC).toNat = 0 then 0 else 16)
  | _ => 0

/-- IRQ_RAW but for the pulses: bit 31 is FAULT (R44). A unit that is off has no page-specific source. -/
def State.irqLevels (s : State) (p : Nat) : Nat :=
  (if s.present p && s.powered p then s.irqOwn p else 0) + (if s.reg p 0x1C = 0 then 0 else 2 ^ 31)

/-- IRQ_PEND as it stands: every bit of IRQ_RAW that is 1 now is set (R44). -/
def State.irqPend (s : State) (p : Nat) : Nat := Nat.lor (s.reg p 0x18).toNat (s.irqLevels p)

/-- Latch the levels, before a change may end them. -/
def State.latchLevels (s : State) (p : Nat) : State := if s.present p then s.irqBits p (s.irqLevels p) else s

/-- The page's interrupt output (R44). -/
def State.irqOut (s : State) (p : Nat) : Bool := s.present p && decide (Nat.land (s.irqPend p) (s.reg p 0x14).toNat ≠ 0)

/-- R44: a write of IRQ_PEND. A source whose level is still 1 stays set; a pulse latched before it is cleared (DEDUCED, log 141). -/
def execIrqPendClear (m : Master) (p : Fin 352) (v : Word) (s : State) : Out :=
  let _ := m
  let p := p.val
  .next (s.hdrOn p (fun s =>
    s.setReg p 0x18 ((s.reg p 0x18 &&& ~~~ v) ||| BitVec.ofNat 32 (s.irqLevels p))))

/-! ### Enabling (R40) -/

/-- A write of CTRL.ENABLE. SPN's clear acts as COAST while it turns (R308). -/
def State.writeEnable (s : State) (p : Nat) (on_ : Bool) : State :=
  if on_ then
    if s.powered p && !s.fenced p && !s.enabled p then (s.put p HDR.CTRL_ENABLE 1).unitEnabled p else s
  else if !s.enabled p then s
  else if p = pSPN ∧ s.spnState ≠ stSTOPPED then
    match s.coastCmd with
    | some r => s.spnRefuse r
    | none => s.goCoast.put p HDR.CTRL_ENABLE 0
  else (s.put p HDR.CTRL_ENABLE 0).unitDisabled p

/-- R40: a write of CTRL.ENABLE. -/
def execEnable (m : Master) (p : Fin 352) (on_ : Bool) (s : State) : Out :=
  let _ := m
  .next (s.hdrOn p.val (fun s => s.writeEnable p.val on_))

/-! ### Power requests (R40, R441) -/

/-- DRLa holds the close of a gate whose open has launched. -/
def State.closeHeld (s : State) (d : Nat) : Bool :=
  if 96 ≤ d ∧ d < 104 then (s.drlOf (d - 96)).ents.any (fun e => e.launched) else false

/-- A write of CTRL.POWER_REQ, refused while a page of the domain is enabled. -/
def State.writePower (s : State) (p : Nat) (on_ : Bool) : State :=
  match pageDom p with
  | none => s
  | some d =>
    if on_ then s.domRequest d
    else if (domPages d).any s.enabled || s.closeHeld d || !(s.domOf d).req then s
    else s.domWithdraw d

/-- R40: a write of CTRL.POWER_REQ. RESET_BUSY does not hinder it (R43). -/
def execPowerReq (m : Master) (p : Fin 352) (on_ : Bool) (s : State) : Out :=
  let _ := m
  .next (if s.present p.val then s.writePower p.val on_ else s)

/-! ### Soft reset (R43) -/

/-- The header's part: ENABLE and the page's CTRL bits, IRQ_EN, IRQ_PEND, all of SHADOW_CTL but EPOCH, SHADOW_TIME (R13, R43). -/
def State.resetHeader (s : State) (p : Nat) : State :=
  let s1 := ((s.setReg p 8 0).setReg p 0x14 0).setReg p 0x18 0
  let s2 := (s1.disarm p).setReg p 0x2C 0
  s2.setReg p 0x28 (s2.reg p 0x28 &&& HDR.SHADOW_CTL_EPOCH.mask)

/-- The page's registers are at their reset values, its unit has stopped; a flash operation that this ends shows ABORTED (R479, log 94). -/
def State.resetPage (s : State) (p : Nat) : State :=
  let s1 := (s.unitReset p).resetHeader p
  let s2 := ((s1.clearPage p (match pageKind p with | some k => keptOff k | none => fun _ => false)).fuseDefaults p).refresh p
  if p = pPWR then { s2 with thmSeen := false }
  else if p = pNVS ∧ (s.nvs.op.isSome = true ∨ s.nvs.susp.isSome = true) then s2.norReport 3
  else s2

/-- What SOFT_RESET does on each page (R43, R308, R435, R453). -/
def State.softReset (s : State) (p : Nat) : State :=
  if p = pFLT then ((s.setReg p 0x14 0).setReg p 0x18 0).setReg p 0x60 0
  else if p = pSPN ∧ s.spnState ≠ stSTOPPED then
    match s.coastCmd with
    | some r =>
      let s1 := (s.spnRefuse r).setReg p 0x18 0
      (s1.clearRegs p (fun off => !(([0x48, 0x88, 0x8C, 0x94, 0xA8] : List Nat).contains off))).put p SPN.OVR_STAT_APPLIED 0
    | none => s.goCoast.resetPage p
  else s.resetPage p

/-- R43: a write of CTRL that sets SOFT_RESET; `pr` is its POWER_REQ field. -/
def execSoftReset (m : Master) (p : Fin 352) (pr : Bool) (s : State) : Out :=
  let _ := m
  let p := p.val
  if !s.present p then .next s
  else
    let s1 := s.writePower p pr
    .next (s1.hdrOn p (fun s => { s.softReset p with resetting := s.resetting ++ [p] }))

/-- R43: the soft reset finishes. -/
def execSoftResetDone (p : Fin 352) (s : State) : Out :=
  let p := p.val
  if s.isResetting p then
    let s1 : State := { s with resetting := s.resetting.filter (fun x => decide (x ≠ p)) }
    .next (match pageKind p with
      | some .nvs => if s1.powered p && !s1.fenced p then s1.nvsProbe else s1
      | some .hif => s1.settlePort (p - 0x30)
      | _ => s1)
  else .next s

/-! ### Locks (R50) -/

/-- R50: a write of LOCK: each bit of `v` that is 1 sets its bit. -/
def execLock (m : Master) (p : Fin 352) (v : BitVec 2) (s : State) : Out :=
  let p := p.val
  let _ := m
  .next (if s.present p && !(s.d2dLost && (p == pSPN || p == pMOT)) then s.setReg p 0x30 (s.reg p 0x30 ||| v.setWidth 32) else s)

/-! ### Fault injection (R45, R374, R431) -/

/-- The sub-unit that a forced source names. -/
def State.forceSub (s : State) (p b : Nat) : Option Nat :=
  let f := s.get pFLT FLT.FORCE_SUB
  match pageKind p with
  | some .til => if b = 6 then some f else none
  | some .sys => if b = 0 ∧ f < 8 then some f else none
  | some .mdc => if b = 0 ∨ b = 2 then some f else none
  | some .afm => if b = 0 then some f else if 8 ≤ b ∧ b < 16 then some (192 + (b - 8)) else if 16 ≤ b then some (192 + (b - 16)) else none
  | some .dma => some (s.get pDMA DMA.FORCE_SEL_CH)
  | some .pwr => if b = 0 then some f else none
  | _ => none

/-- A forced detection: the report with FORCED. -/
def State.raiseForced (s : State) (p b : Nat) : State := s.raiseWith p b { sub := s.forceSub p b, forced := true }

/-- A forced error of the channel in FORCE_SEL (R374); with nothing in flight, or no trail, there is the detection alone. -/
def State.forceDma (s : State) (b : Nat) : State :=
  let c := s.get pDMA DMA.FORCE_SEL_CH
  let ch := s.dmaOf c
  let plain := s.raiseWith pDMA b { sub := some c, forced := true, level := some (if b = 2 ∨ s.chStop c = true then 1 else 0) }
  if b = 0 then
    match ch.descs with
    | [] => plain
    | d :: r =>
      let e := d.err.getD (if dDir d = 1 then 2 else 1, 7, if dDir d = 1 then dDst d else dSrc d)
      s.setDma c { ch with descs := { d with err := some e } :: r, forced := true }
  else if b = 1 ∧ ch.trail ≠ [] then s.setDma c { ch with lost := some (ch.lost.getD 0), forced := true }
  else plain

/-- What a forced detection of a source that belongs to loop `j` of a TIL page does beside its report (R251–R261). -/
def State.forceLoop (s : State) (p j b : Nat) : State :=
  match b with
  | 0 => (s.put p (LOOP.FLAGS_INT_WRAP j) 1).inc p TIL.WRAP_CNT
  | 1 => s.put p (LOOP.FLAGS_SIG_WRAP j) 1
  | 2 => ((s.put p (LOOP.FLAGS_HO_REFUSED j) 1).put p TIL.HO_STAT_REFUSED (withBit (s.get p TIL.HO_STAT_REFUSED) j true)).irq p 2
  | 3 => s.put p (LOOP.FLAGS_COEF_SKIP j) 1
  | 4 => (((s.put p (LOOP.FLAGS_OVERRUN j) 1).inc p TIL.OVR_CNT).addSat p (LOOP.LSTAT_OVR j) 1).irq p 3
  | 10 => s.put p (LOOP.FLAGS_CLOSE_REFUSED j) 1
  | _ => s

/-- What a forced detection of the motion die's pages does beside its report (R278, R286, R304, R309, R313, R317, R320). An actuator's
source acts on the actuator in FORCE_SUB (DESIGN CHOICE, log 137). -/
def State.forceMotion (s : State) (p b : Nat) : State :=
  let a := s.get pFLT FLT.FORCE_SUB
  let st := s.spnState
  if p = pSPN then
    match b with
    | 1 => if st = stALIGN ∨ st = stRAMP ∨ st = stACCEL then (s.spnOutcome 6).spnGo stCOAST else s
    | 3 => s.speedLost.irq pSPN 4
    | 4 => if st = stDECEL then s.shortBrake 5 else s
    | 5 => s.bridgeTrip
    | 6 => s.inc pSPN SPN.OVR_IGN
    | 7 => s.irq pSPN 3
    | _ => s
  else
    match b with
    | 0 => if s.part.hasAct a && decide (s.rampState a = 1) then s.rampGo a 4 else s
    | 1 => if s.part.hasAct a && decide (s.rampState a = 4) then s.rampGo a 7 else s
    | 2 => s.put pMOT MOT.MA_STAT_BOOST_OK 0
    | 3 => if s.part.hasAct a then (s.put pMOT (MOTA.VCM_CFG_BRIDGE_EN a) 0).parkFailed a else s
    | 4 => (s.askRetract 5).askEmergency
    | 5 => s.supplyLoss 7 0
    | _ => s

/-- What a forced detection of a head channel's source does beside its report (R102, R138, R139, R182, R185, R187). -/
def State.forceHead (s : State) (h b : Nat) : State :=
  let p := pHCH h
  match b with
  | 2 => s.irq p 0
  | 11 => s.inc p HCH.STS_LOST
  | 12 => s.irq p 10
  | 16 => s.inc p HCH.WST_LOST
  | 17 => (if (s.wrOf h).gate.isSome then s.abortWrite h wUNDERRUN else s).inc p HCH.UNDERRUN_CNT
  | 18 => ((s.put p HCH.WR_INH_FAULT_LATCH 1).noteInhibit (actOf h) wPREAMP (h % 12)).dropGates
  | _ => s

/-- What a forced detection of the memories' sources does beside its report (R331, R361, R363, R478, R480, R495, R503, R506): the entry of
MDC and the key slot are FORCE_SUB's. -/
def State.forceMemory (s : State) (p b : Nat) : State :=
  let e := s.get pFLT FLT.FORCE_SUB
  match pageKind p, b with
  | some .mdc, 0 => if e < 48 ∧ s.mdcDis e = false then s.mdcTake e true else s
  | some .mdc, 2 => if e < 48 ∧ s.mdcDis e = false then s.mdcTake e false else s
  | some .mdc, 3 => if e < 48 then (s.mdcDrop e).inc pMDC MDC.LOST_DIRTY else s
  | some .mdc, 1 | some .mdc, 4 =>
    if e < 48 then
      let n := (s.mdcEnt e).ces + 1
      let s1 := (s.setMdcEnt e { s.mdcEnt e with ces := n }).inc pMDC MDC.CE_CNT
      if 3 ≤ n ∧ s.mdcDis e = false then s1.mdcDisable e 2 false else s1
    else s
  | some .dmc, 2 =>
    let s1 := (s.inc p DMC.UE_CNT).irq p 1
    if max 1 (s1.get p DMC.UE_LIMIT) ≤ s1.get p DMC.UE_CNT then s1.raise p 3 else s1
  | some .dmc, 4 => s.inc p DMC.CE_CNT
  | some .dmc, 5 => s.irq p 0
  | some .bfm, 4 => s.put p BFM.SRT_STAT_SHIFT_REFUSED 1
  | some .gln, 0 => { s with gln := { s.gln with sramLate := true } }
  | some .gln, 1 => { s with gln := { s.gln with dramLate := true } }
  | some .nvs, 1 => s.irq p 2
  | some .nvs, 2 => (match s.nvs.op with | some o => { s with nvs := s.nvs.lapse }.norEnd o 2 | none => s)
  | some .nvs, 3 => (s.put p NVS.NVS_STAT_DEV_OK (withBit (s.get p NVS.NVS_STAT_DEV_OK) 0 false)).put p NVS.NVS_STAT_STATE 3
  | some .nvs, 4 => s.put p NVS.NVS_STAT_DEV_OK (withBit (s.get p NVS.NVS_STAT_DEV_OK) 1 false)
  | some .nvs, 5 => s.inc p NVS.TORN_CNT
  | some .sec, 0 => (s.put p SEC.RNG_STAT_READY 0).put p SEC.RNG_STAT_HEALTH_FAIL 1
  | some .sec, 2 => s.put p SEC.DBG_STAT_FAILS (min 8 (s.get p SEC.DBG_STAT_FAILS + 1))
  | some .sec, 3 => s.irq p 1
  | some .xts, 1 => s.slotLost e
  | some .xts, 3 => s.irq p 0
  | _, _ => s

/-- What the detection does beside its report (R45): what its rule says of the state, where the source stands in the state that the rule
names. -/
def State.forceEffect (s : State) (p b : Nat) : State :=
  match pageKind p, b with
  | some .clk, 0 => s.clockLoss 0
  | some .clk, 1 => s.clockLoss 1
  | some .pwr, 0 =>
    let d := s.get pFLT FLT.FORCE_SUB
    (if d < 141 ∧ (s.domOf d).st = 2 then (s.setDom d { s.domOf d with st := 6, since := s.time }).holdCore d else s).irq p 1
  | some .pwr, 2 => s.put p PWR.PWR_STAT_REFUSED 1
  | some .pwr, 3 | some .pwr, 4 | some .pwr, 5 => s.irq p 2
  | some .pwr, 6 => (s.each s.acts (fun s a => s.noteInhibit a wD2D 0xF)).each (s.wrh.map (fun x => x.1)) (fun s h => s.abortWrite h wD2D)
  | some .flt, 2 => s.put p FLT.WDOG_STAT_BAD_KICK 1
  | some .flt, 3 => s.wdogExpire s.time
  | some .fur, 0 => s.irq p 4
  | some .fur, 1 =>
    if s.trkState = 3 then { ((s.put pFUR FUR.TRK_STAT_STATE 4).put pSPN SPN.SPN_STAT_FINE 0).irq p 1 with trk := { s.trk with good := 0, hold := 0 } } else s
  | some .fur, 2 => if s.trkState = 4 then (s.put pFUR FUR.TRK_STAT_STATE 5).irq p 2 else s
  | some .fur, 4 => (if s.trkState = 1 ∨ s.trkState = 2 then { s.put p FUR.TRK_STAT_NO_LOCK 1 with trk := { s.trk with noLockTold := true } } else s).irq p 5
  | some .drl, 0 => (s.inc p DRL.MISS_COUNT).irq p 1
  | some .drl, 1 | some .drl, 2 => s.irq p 2
  | some .drl, 4 => (s.inc p DRL.RET_LOST).irq p 4
  | some .drl, 30 | some .hif, 30 | some .til, 30 | some .hch, 30 => s.put p HDR.SHADOW_CTL_LATE 1
  | some .spn, b | some .mot, b => s.forceMotion p b
  | some .stp, 0 => s.irq p 1
  | some .stp, 1 => (s.inc p STP.RING_LOST).irq p 4
  | some .afm, 3 => (s.inc p AFM.SWEEP_DROP).irq p 1
  | some .afm, 4 => s.inc p AFM.REC_LOST
  | some .hif, 0 =>
    let q := p - 0x30
    if s.linkUpOn q then
      let s1 := ((s.linkEnd q 1).inc p HIF.LINK_DOWN_CNT).irq p 1
      s1.setPort q { s1.portOf q with trainAt := some s1.time, trainTold := false }
    else s
  | some .hif, 1 => s.setPort (p - 0x30) { s.portOf (p - 0x30) with trainTold := true }
  | some .hif, 5 => if s.on p HIF.LINK_STAT_FLR_ACTIVE then s.flrOver (p - 0x30) else s
  | some .hif, 6 => s.supplyLoss 6 0
  | some .til, b => let j := s.get pFLT FLT.FORCE_SUB; if j < 13 then s.forceLoop p j b else s
  | some .prf, 0 => s.irq p 2
  | some .dil, 9 => s.irq p 2
  | some .dil, 10 => s.irq p 3
  | some .dil, b =>
    let a := (p - 0x40) / 16
    if b < 8 ∧ (s.dilState a = 2 ∨ s.dilState a = 3) then s.endRoutine a 5 0 (s.dilPc a) 4 else s
  | some .lnk, 2 =>
    let a := (p - 0x40) / 16
    ((s.put p LNK.ALERT_STAT_MASKED 1).put (pACT a) ACT.WI_STAT_ALERT 0).setAlert a (if s.alertOf a = 1 then 1 else 0)
  | some .hch, b => s.forceHead (p - 0x100) b
  | _, b => s.forceMemory p b

/-- Force source `b` of page `p`. -/
def State.forceFault (s : State) (p b : Nat) : State :=
  if (faultGrade p b).isNone then s
  else if p = pDMA then s.forceDma b
  else (s.raiseForced p b).forceEffect p b

/-- R45: a write of FLT_FORCE. -/
def execFltForce (m : Master) (p : Fin 352) (v : Word) (s : State) : Out :=
  let _ := m
  let p := p.val
  .next (s.hdrOn p (fun s =>
    if s.on p HDR.LOCK_FORCE_LOCK then s
    else s.each ((List.range 32).filter (fun (b : Nat) => v.getLsbD b)) (fun s b => s.forceFault p b)))

/-! ### The interrupt router (R51, R52) -/

/-- The interrupt source number of a page (R36); none for a position that has no source. -/
def irqSource (p : Nat) : Option Nat :=
  if p < 28 then some p
  else if p = 0x20 then some 28
  else if 0x30 ≤ p ∧ p < 0x33 then some (29 + (p - 0x30))
  else if 0x40 ≤ p ∧ p < 0xC0 ∧ p % 16 < 7 then some (32 + 7 * ((p - 0x40) / 16) + p % 16)
  else if 0x100 ≤ p ∧ p < 0x160 then some (96 + (p - 0x100))
  else none

/-- The page of an interrupt source. -/
def irqPage (n : Nat) : Option Nat := firstBelow 352 (fun p => decide (irqSource p = some n))

def State.irqTarget (s : State) (n : Nat) : Nat := s.get pSYS (SYS.IRQ_ROUTE_TARGET n)
def State.irqPrio (s : State) (n : Nat) : Nat := s.get pSYS (SYS.IRQ_ROUTE_PRIORITY n)

/-- Source `n` is eligible at target `c`. -/
def State.irqEligible (s : State) (c n : Nat) : Bool :=
  decide (s.irqTarget n = c) && decide (s.get pSYS (SYS.IRQ_THR_THRESHOLD c) < s.irqPrio n) &&
    !s.claims.any (fun x => decide (x.1 = n)) &&
    (match irqPage n with | some p => s.irqOut p | none => false)

/-- The eligible source with the highest priority, the lowest number winning a tie. -/
def State.irqBest (s : State) (c : Nat) : Option Nat :=
  ((List.range 192).filter (s.irqEligible c)).foldl (fun (best : Option Nat) (n : Nat) =>
    match best with
    | none => some n
    | some b => if s.irqPrio b < s.irqPrio n then some n else some b) none

/-- Target `c`'s interrupt input (R52). -/
def State.irqInput (s : State) (c : Nat) : Bool := (s.irqBest c).isSome

/-- R52: a read of IRQ_CLAIMc. -/
def execIrqClaim (m : Master) (c : Fin 9) (s : State) : Out :=
  .next (s.regRead m pSYS (0x800 + 0x10 * c.val) (fun s =>
    match s.irqBest c.val with
    | some n => ({ s with claims := s.claims ++ [(n, c.val, s.reg pSYS (0x400 + 4 * n))] } : State).answer (2 ^ 31 + n)
    | none => s.answer 0))

/-- R52: a write of IRQ_DONEc. -/
def execIrqDone (m : Master) (c : Fin 9) (n : BitVec 8) (s : State) : Out :=
  .next (s.regCmd m pSYS (0x804 + 0x10 * c.val) (fun s => { s with claims := s.claims.filter (fun x => decide (x.1 ≠ n.toNat)) }))

end Sys2Proof.Machine
end

