-- ==== Sys2Proof/Machine/StartUp.lean ====
section
/-! DEFINITION. Resets and start-up (R455–R471): power-on reset, warm reset, the reset of the motion die, the hardware's stages FUSE,
FILL and SELFTEST, CORE_HOLD. -/

namespace Sys2Proof.Machine

/-! ### What a reset stops (R468) -/

/-- Every gate drops, every descriptor in flight ends ABORTED_RESET, every host link goes down. -/
def State.dropAll (s : State) : State :=
  let s1 := s.each (s.rdh.map (fun x => x.1)) (fun s h => s.abortRead h 0x12)
  let s2 := s1.each (s1.wrh.map (fun x => x.1)) (fun s h => s.abortWrite h wABORTED)
  (s2.dmaReset).each ((s2.ports).map (fun x => x.1)) (fun s p => s.portReset p)

/-- The emergency stop of R15 on the motion die, if anything moves; its reset follows the stop, or comes at once. -/
def State.motionWarm (s : State) : State :=
  if s.motionStill && !s.mot.emergReq then s.motionReset motionKept
  else { (s.askRetract 4).askEmergency with motionDue := true }

/-! ### Warm reset (R468–R470) -/

/-- The bits of a register that a warm reset keeps. -/
def warmMask (p off : Nat) : Word :=
  if off = 0x24 then 0xFFFF0000
  else if p = pSYS then (if off = 4 ∨ off = 0x40 ∨ off = 0x5C then 0xFFFFFFFF else 0)
  else if p = pCLK then (if 0x40 ≤ off then 0xFFFFFFFF else 0)
  else if p = pFLT then (if off = 0x58 ∨ off = 0x5C ∨ 0x100 ≤ off then 0xFFFFFFFF else 0)
  else if p = pGLN then (if off = 0x90 ∨ off = 0x94 then 0xFFFFFFFF else 0)
  else if p = pSPN ∨ p = pMOT then (if 0x40 ≤ off then 0xFFFFFFFF else 0)
  else if pageKind p = some .hif ∧ off = 0x48 then HIF.LINK_STAT_PERST.mask ||| HIF.LINK_STAT_PRSNT.mask
  else if pageKind p = some .lnk ∧ off = 0x60 then LNK.ALERT_STAT_LEVEL.mask
  else 0

/-- The registers after a warm reset: the bits kept, every other at its reset value. -/
def keepRegs (regs : List (Nat × Word)) : List (Nat × Word) :=
  regs.filterMap (fun (e : Nat × Word) =>
    let m := warmMask (e.1 / 1024) (4 * (e.1 % 1024))
    let v := (e.2 &&& m) ||| (resetKey e.1 &&& ~~~ m)
    if v = resetKey e.1 then none else some (e.1, v))

/-- The machine with every array and register of the logic die at its reset value but for what R470 keeps. -/
def State.warmCore (s : State) : State :=
  { pending := s.pending, time := s.time, part := s.part, regs := keepRegs s.regs, mem := s.mem.filter (fun c => decide (c.1 < dramBase)),
    free := s.free, dil := s.dil.filterMap (fun (e : Nat × Dil) =>
      let d : Dil := { micro := e.2.micro, nano := e.2.nano, dmem := e.2.dmem }
      if d = {} then none else some (e.1, d)),
    macts := s.macts, mot := s.mot, spn := s.spn, supArmed := s.supArmed, motionDue := s.motionDue, nor := s.nor, norUnsure := s.norUnsure,
    nvs := { suspects := s.nvs.suspects }, sec := { s.sec with prog := none, job := none }, oscStable := s.oscStable, testHeld := s.testHeld }

/-- R468: a warm reset that has been asked for takes place. -/
def execWarmReset (s : State) : Out :=
  match s.warmReq with
  | none => .next s
  | some b =>
    let s1 := s.dropAll.nvsOff.warmCore.motionWarm
    let s2 := ((s1.put pSYS ⟨0x40, b, 1⟩ 1).inc pSYS SYS.WARM_CNT).put pSYS SYS.BOOT_STAT_STAGE 3
    let s3 : State := { s2.secDefaults.debugReset with relock := s.on pCLK CLK.PLL_STAT_HOLDOVER }
    .next s3

/-- A request for a warm reset: before DONE it is refused (R469). -/
def State.warmAsk (s : State) (b : Nat) (stopped : Bool) : State :=
  if s.on pSYS SYS.BOOT_STAT_DONE || stopped then { s with warmReq := some b } else s.put pSYS SYS.BOOT_STAT_WARM_REFUSED 1

/-- R471: a write of RST_CTRL. -/
def execRstCtrlWarm (m : Master) (key : BitVec 16) (warm : Bool) (s : State) : Out :=
  .next (s.regCmd m pSYS 0x44 (fun s =>
    if m ≠ .bsc ∨ key ≠ 0x57A4 then s.raiseBy pSYS 16 m 2 (regAddr pSYS 0x44)
    else if warm then s.warmAsk 1 false
    else s))

/-- R455, R466: the JTAG reset command, with debug unlocked; a start-up that has stopped in the boot ROM is left by it. -/
def execJtagWarmReset (s : State) : Out :=
  let e := s.get pSYS SYS.BOOT_STAT_ERROR
  .next (if s.on pSEC SEC.DBG_STAT_UNLOCKED then s.warmAsk 2 (decide (e ≠ 0 ∧ e ≠ 2)) else s)

/-! ### Power-on resets (R455) -/

/-- A motion-die timer counts from the new start of time. -/
def Mact.rebase (m : Mact) : Mact := { m with since := 0, ph2 := m.ph2.map (fun _ => 0) }

/-- R455: the power-on reset of the logic die. It acts on the motion die as a warm reset; `test` says whether a TEST ball is held high
(R523). -/
def execPowerOnReset (test : Bool) (s : State) : Out :=
  let motion := s.regs.filter (fun e => (decide (e.1 / 1024 = pSPN) || decide (e.1 / 1024 = pMOT)) && decide (16 ≤ e.1 % 1024))
  let s1 : State := { pending := s.pending, part := s.part, nor := s.nor, norUnsure := s.norUnsure, sec := { fuses := s.sec.fuses }, free := s.free, regs := motion, macts := (s.macts.map (fun e => (e.1, e.2.rebase))).filter (fun e => decide (e.2 ≠ {})), mot := s.mot, spn := { emerg := s.spn.emerg, bridgeOff := s.spn.bridgeOff }, supArmed := s.supArmed, testHeld := test }
  .next s1.motionWarm

/-- R455: both the 5 V input and VHOLD (in mV) lie below 3.0 V: everything on the motion die is cleared. -/
def execMotionPowerOnReset (v5 vhold : BitVec 16) (s : State) : Out :=
  if v5.toNat < 3000 ∧ vhold.toNat < 3000 then
    let s1 := s.motionReset (fun _ _ => false)
    let s2 : State := { s1 with regs := s1.regs.filter (fun e => !((decide (e.1 / 1024 = pSPN) || decide (e.1 / 1024 = pMOT)) && decide (e.1 % 1024 ≠ 9))), supArmed := 0 }
    .next (s2.put pSYS ⟨0x40, 3, 1⟩ 1)
  else .next s

/-! ### The hardware's stages (R457–R459) -/

/-- R457: stage FUSE ends; `ue` says that a row is uncorrectable (R459). -/
def execFuseRead (ue : Bool) (s : State) : Out :=
  if s.get pSYS SYS.BOOT_STAT_STAGE ≠ 2 ∨ s.get pSYS SYS.BOOT_STAT_ERROR ≠ 0 ∨ s.rootRuns = false then .next s
  else if ue then .next ((s.put pSYS SYS.BOOT_STAT_ERROR 2).setReg pSYS 4 0)
  else
    let s1 := s.latchFuses.deriveKeys
    .next ((((s1.setReg pSYS 4 (BitVec.ofNat 32 (s1.fuseUse 2))).secDefaults).debugReset).put pSYS SYS.BOOT_STAT_STAGE 3)

/-- R347, R349, R457, R458: the fill ends and the self-test follows; `rom` says that the checkers of the boot ROM and of the
boot-and-safety core's memory passed, `fails` names the failing checkers elsewhere. At power-on the Dill control stores are
filled too. -/
def execInitFillDone (rom : Bool) (fails : List (Fin 352 × BitVec 8)) (s : State) : Out :=
  if s.get pSYS SYS.BOOT_STAT_STAGE ≠ 3 then .next s
  else
    let s1 := s.zeroRange afmBase sramEnd
    let s2 := s1.selfTest (fails.map (fun (f : Fin 352 × BitVec 8) => (f.1.val, f.2.toNat)))
    if rom then .next ((s2.put pSYS SYS.BOOT_STAT_STAGE 5).domRequest 139)
    else .next ((s2.put pSYS SYS.BOOT_STAT_STAGE 4).put pSYS SYS.BOOT_STAT_ERROR 1)

/-! ### The application cores (R471) -/

/-- R471: a write of CORE_HOLD: the boot-and-safety core's alone; a core whose domain lacks POWER_ACK stays held. -/
def execCoreHold (m : Master) (v : BitVec 8) (s : State) : Out :=
  .next (s.regCmd m pSYS 0x4C (fun s =>
    if m = .bsc then
      s.each (List.range 8) (fun s (c : Nat) =>
        let h := s.get pSYS SYS.CORE_HOLD_HOLD
        if v.getLsbD c then s.put pSYS SYS.CORE_HOLD_HOLD (withBit h c true)
        else if s.domOn (domCore c) then s.put pSYS SYS.CORE_HOLD_HOLD (withBit h c false)
        else s)
    else s))

end Sys2Proof.Machine
end

