-- ==== Sys2Proof/Machine/Access.lean ====
section
/-! DEFINITION. Register access (R11, R32–R50): what a register reads as, what a write to it does, access widths, and the accesses that
are refused. A field with a command of its own acts as that command does. -/

namespace Sys2Proof.Machine

/-- The state that a meaning leaves. -/
def outState (o : Out) (s : State) : State :=
  match o with
  | .next t => t
  | _ => s

/-! ### Views: registers that show what other state holds -/

/-- A Drill entry that acts on the unit of page `p` is pending (R42, R537). -/
def State.drillPending (s : State) (p : Nat) : Bool :=
  (List.range 9).any (fun d => (s.drlOf d).ents.any (fun e => ((drillUnits d e.action e.target e.arg).getD []).contains p))

/-- The unit has no operation in progress (R42). -/
def State.unitQuiet (s : State) (p : Nat) : Bool :=
  let a := (p - 0x40) / 16
  let h := p - 0x100
  match pageKind p with
  | some .hch =>
    let r := s.rdOf h
    let w := s.wrOf h
    r.gate.isNone && r.recv.isNone && r.dec.isEmpty && w.gate.isNone && w.sec.isNone
  | some .drl => let q := s.drlOf (if p = pDRLD then 8 else a); q.ents.isEmpty && q.batch.isNone
  | some .act => (s.drlOf a).ents.isEmpty
  | some .til => (List.range 13).all (fun j => !s.on p (LOOP.LSTAT_CLOSED j))
  | some .prf => decide (s.get p PRF.PRF_STAT_STATE = 0) && (tabGet s.prf a ({} : Prf)).starts.isEmpty
  | some .dil => decide (s.dilState a = 0 ∨ s.dilState a = 1 ∨ s.dilState a = 4)
  | some .lnk => let l := s.lnkOf a; l.unans.isEmpty && l.retx.isEmpty && l.fifo.isEmpty && !l.alert
  | some .stp => s.stripes.isEmpty && s.stpReady.isEmpty && s.stpIn.isEmpty
  | some .afm => s.afm.sweeps.isEmpty && s.afm.jobs.isEmpty && s.afm.runs.isEmpty
  | some .dma => s.dma.all (fun c => c.2.descs.isEmpty)
  | some .dmc => (tabGet s.bufq (p - 16) []).isEmpty
  | some .bfm => s.bufq.isEmpty && s.srt.queue.isEmpty && s.srt.run.isNone && s.srt.shift.isNone && !s.srt.check
  | some .hif => (s.portOf (p - 0x30)).txq.isEmpty
  | some .dba => s.dbq.isEmpty
  | some .nvs => s.nvs.op.isNone && s.nvs.susp.isNone && s.nvs.reads.isEmpty
  | some .sec => s.sec.job.isNone && s.sec.prog.isNone
  | some .xts => decide (s.slotsUsed = 0)
  | some .gln => !s.gln.sramOn && !s.gln.dramOn
  | some .mdc => s.mdc.fills.isEmpty && s.mdc.victims.isEmpty && s.mdc.waits.isEmpty && s.mdc.maint.isEmpty
  | some .fur => decide (s.trkState = 0)
  | some .spn => decide (s.spnState = stSTOPPED)
  | some .mot => s.acts.all (fun a => decide (s.rampState a = 0 ∨ s.rampState a = 3 ∨ s.rampState a = 7))
  | some .flt => s.unfencing.isNone
  | some .sys => s.smbTx.isNone
  | _ => true

/-- STAT.IDLE: no operation in progress and no Drill entry of the unit pending launch (R42). -/
def State.unitIdle (s : State) (p : Nat) : Bool := s.unitQuiet p && !s.drillPending p

/-- The page's own STAT bits (R72, R263). -/
def State.statPage (s : State) (p : Nat) : Nat :=
  match pageKind p with
  | some .fur => 2 ^ 16 * (s.trkState % 8) + (if s.reg p 0x1C &&& 1 = 0 then 0 else 2 ^ 19)
  | some .til => (if (List.range 13).any (fun j => s.on p (LOOP.FLAGS_INT_WRAP j)) then 2 ^ 16 else 0) +
      (if (List.range 13).any (fun j => s.on p (LOOP.LSTAT_SAT j)) then 2 ^ 17 else 0)
  | _ => 0

/-- The page's own CTRL bits (R105). -/
def ctrlBits (p : Nat) : Word := if pageKind p = some .hch then 0x70000 else 0

/-- CLASS and INSTANCE (R36). -/
def pageId (p : Nat) : Nat :=
  let a := (p - 0x40) / 16
  let ci : Nat × Nat := match pageKind p with
    | some .dmc => (0x11, p - 16)
    | some .dma => (0x12, 0)
    | some .hif => (0x13, p - 0x30)
    | some .dba => (0x14, 0)
    | some .act => (0x20, a)
    | some .srv => (0x21, a)
    | some .til => (0x22, a)
    | some .prf => (0x23, a)
    | some .dil => (0x24, a)
    | some .drl => if p = pDRLD then (6, 0) else (0x25, a)
    | some .lnk => (0x26, a)
    | some .hch => (0x30, p - 0x100)
    | _ => (p + 1, 0)
  ci.1 * 65536 + ci.2 * 256 + 1

/-- A header register of a present page (R38–R53). -/
def State.hdrView (s : State) (p off : Nat) : Nat :=
  let r := (s.reg p off).toNat
  match off with
  | 0x00 => pageId p
  | 0x04 => if p = pSYS then r else if hasShadow p then 2 ^ 31 else 0
  | 0x08 => Nat.lor (Nat.land r (1 + (ctrlBits p).toNat)) ((if s.isResetting p then 2 else 0) + (if s.powerReq p then 4 else 0))
  | 0x0C => (if s.powered p then 1 else 0) + (if s.running p then 2 else 0) + (if s.unitIdle p then 4 else 0) +
      (if s.isResetting p then 8 else 0) + (if s.fenced p then 16 else 0) + (if s.powered p then s.statPage p else 0)
  | 0x10 => s.irqLevels p
  | 0x18 => s.irqPend p
  | 0x20 => 0
  | 0x28 => if hasShadow p then r else 0
  | 0x2C => if hasShadow p then r else 0
  | _ => r

/-- A register of which each master has its own copy (R72, R80, R159, R338, R360). -/
def perMaster (p off : Nat) : Bool :=
  match pageKind p with
  | some .fur => off == 0x44 || off == 0x48 || off == 0x4C
  | some .drl => off == 0x40 || off == 0x44 || off == 0x48 || off == 0x50
  | some .afm => off == 0x60 || off == 0x64 || off == 0x68 || off == 0x70
  | some .bfm => decide (0x114 ≤ off) && decide (off < 0x134)
  | some .mdc => off == 0x48 || off == 0x4C || off == 0x54
  | _ => false

/-- A shadowed register: one of the shadow set, or ZPT_SEL (R53, R100). -/
def isShadow (p off : Nat) : Bool := decide (accMask p off .sh ≠ 0) || (pageKind p == some .hch && off == 0x40)

/-- DOM_ACK, DOM_REQ: a bit for each domain of DOM_REQ's layout. -/
def domMask (f : Nat → Bool) : Nat := (List.range 17).foldl (fun acc (i : Nat) => if f (domOfBit i) then acc + 2 ^ i else acc) 0

/-- PWR's views of the domains (R453). -/
def State.pwrView (s : State) (off : Nat) : Nat :=
  let num := fun (st : Nat) => ((List.range domNum).filter (fun d => decide ((s.domOf d).st = st))).length
  let sel := s.get pPWR PWR.DOM_SEL_DOM
  if off = 0x40 then domMask (fun d => (s.domOf d).req)
  else if off = 0x44 then domMask s.domOn
  else if off = 0x48 then num 5 + 2 ^ 8 * num 2 + 2 ^ 16 * num 1 + (if s.on pPWR PWR.PWR_STAT_REFUSED then 2 ^ 24 else 0)
  else if off = 0x50 then
    (if domNum ≤ sel then 7 else if !s.hasDom sel then 7 else (s.domOf sel).st + 2 ^ 16 * (s.domOf sel).up)
  else (List.range 32).foldl (fun acc (i : Nat) => if s.domOn (32 * ((off - 0x60) / 4) + i) then acc + 2 ^ i else acc) 0

/-- The live bits of AFE_STAT, RD_STAT and WR_STAT (R105, R145, R189; log 110). -/
def State.headView (s : State) (h off : Nat) : Nat :=
  let f := s.afeOf h
  let r := s.rdOf h
  let w := s.wrOf h
  if off = 0x44 then b2n (decide (s.time < f.settleTo)) + b2n (s.afeDoze h && f.readyAt.isNone) * 2
  else if off = 0x12C then
    b2n r.gate.isSome + b2n (r.recv.isSome && !r.gate.any (·.live)) * 2 + b2n (!r.dec.isEmpty) * 4 +
      s.pins h * 2 ^ 4 + (match r.recv with | some x => x.frags % 16 * 2 ^ 8 | none => 0)
  else if off = 0x22C then b2n w.gate.isSome + b2n (w.sec.isSome && w.gate.isNone) * 2 + b2n (!w.held.isEmpty) * 4 + s.wfifo h % 2 ^ 15 * 2 ^ 8
  else 0

/-- The live bits of WI_STAT: DEVICE and LINK (R178, R190). -/
def State.inhView (s : State) (a : Nat) : Nat := b2n s.deviceInh * 2 ^ 18 + b2n (s.fenced (pLNK a)) * 2 ^ 19

/-- A page-specific register as a read finds it, `m` reading. -/
def State.pageView (s : State) (m : Master) (p off : Nat) : Nat :=
  let hide := accMask p off .wo
  let raw := if perMaster p off then s.mreg m p off
    else if isShadow p off then (if s.on p HDR.SHADOW_CTL_VIEW then s.activeView p off else s.shadowReg p off)
    else s.reg p off
  let r := (raw &&& ~~~ hide).toNat
  match pageKind p with
  | some .hch => r + s.headView (p - 0x100) off
  | some .lnk => if off = 0x48 then r + s.cmdFree ((p - 0x40) / 16) else r
  | some .afm =>
    if 0xA0 ≤ off ∧ off < 0xC0 ∧ r % 8 = 2 then
      (match s.runOf ((off - 0xA0) / 4) with
      | some run => r - 2 + s.tryStage run ((s.time - run.since) / 96)
      | none => r)
    else r
  | some .prf =>
    let a := (p - 0x40) / 16
    if off = 0x50 ∧ s.seekState a = 0 ∧ s.loopMode a 12 = 0 then enc 32 ((s.prfOf a).hold / 16) else r
  | some .act => if off = 0x10C then r + s.inhView ((p - 0x40) / 16) else r
  | some .pwr => if off = 0x40 ∨ off = 0x44 ∨ off = 0x48 ∨ off = 0x50 ∨ (0x60 ≤ off ∧ off < 0x74) then s.pwrView off else r
  | some .flt =>
    if off = 0x6C then
      (match s.wdog with
      | some (k, n) => r - r % 65536 + min 65535 ((k + n - s.time) / msSub)
      | none => r - r % 65536)
    else r
  | some .nvs =>
    if off = 0x88 then r % 2 ^ 14 + (if s.nvs.suspects.contains (r % 2 ^ 14) then 2 ^ 31 else 0) else r
  | some .sec =>
    let row := s.get pSEC SEC.FUSE_SEL
    let v := if 4 ≤ row ∧ row < 8 then 0 else s.fuse row
    if off = 0x58 then v % 2 ^ 32 else if off = 0x5C then v / 2 ^ 32 % 2 ^ 32 else r
  | some .dba =>
    let b := s.dbOf s.dbSel
    if off = 0x44 then b.cfg.toNat else if off = 0x48 then b.value + (if b.pend.isSome then 65536 else 0) else r
  | some .bfm => if off = 0x4C then r - Nat.land r 8 + (if s.reg p 0x1C &&& 1 = 0 then 0 else 8) else r
  | _ => r

/-! ### Reads -/

/-- The registers that lie in always-on logic whatever their unit's power: WP0–WP511 and WP_LOCK (R483). -/
def alwaysOn (p off : Nat) : Bool := p == pNVS && (decide (0x800 ≤ off) || off == 0x54)

/-- The motion die does not answer (R15). -/
def State.motSilent (s : State) (p : Nat) : Bool := s.d2dLost && (p == pSPN || p == pMOT)

/-- RC: the read clears the register's RC bits once it has completed (R11, R49). -/
def State.readClear (s : State) (p off : Nat) : State :=
  let rc := accMask p off .rc
  if rc = 0 then s
  else
    let s1 := s.setReg p off (s.reg p off &&& ~~~ rc)
    if p = pPWR then { s1 with thmSeen := false }
    else if p = pMOT ∧ off = 0x220 then { s1 with mot := { s1.mot with vinSeen := false } }
    else s1

/-- A 32-bit read of the register at `off` of page `p` (R6, R11, R38, R41, R43). -/
def State.readReg (s : State) (m : Master) (p off : Nat) : State :=
  if !s.present p then s.answer 0
  else if s.motSilent p then s.drew.answer s.freeVal
  else
    let s0 := s.settle p s.time
    if off < 0x40 then s0.answer (s0.hdrView p off)
    else if !s0.powered p && !alwaysOn p off then (s0.raiseBy pPWR 1 m 1 (regAddr p off)).answer 0
    else if s0.isResetting p && !alwaysOn p off then s0.answer 0
    else if p = pFUR ∧ off = 0x40 then outState (execTimeLoRead m s0) s0
    else if p = pSYS ∧ 0x800 ≤ off ∧ off < 0x890 ∧ off % 16 = 0 then outState (execIrqClaim m (Fin.ofNat 9 ((off - 0x800) / 16)) s0) s0
    else if p = pDBA ∧ 0x80 ≤ off ∧ off < 0xA0 then outState (execDoorbellClaim m (Fin.ofNat 8 ((off - 0x80) / 4)) s0) s0
    else if p = pSEC ∧ off = 0x80 then s0.rngRead
    else (s0.answer (s0.pageView m p off)).readClear p off

/-! ### Writes to the header -/

/-- A write that sets AFE_DOZE powers the front end down, unless a gate of the head or its servo window is open (R94, R240). -/
def State.dozeSet (s : State) (p : Nat) (old : Word) : State :=
  let h := p - 0x100
  if pageKind p = some .hch ∧ s.afeDoze h = true ∧ old.getLsbD 16 = false then
    s.setAfe h { s.afeOf h with readyAt := if (s.rdOf h).gate.isSome || (s.wrOf h).gate.isSome || s.inServo h s.time then some s.time else none }
  else s

/-- A write of a header register (R39–R53). -/
def State.writeHdr (s : State) (m : Master) (p off : Nat) (v : Word) : State :=
  let pp := Fin.ofNat 352 p
  match off with
  | 0x08 =>
    if v.getLsbD 1 then outState (execSoftReset m pp (v.getLsbD 2) s) s
    else
      let s1 := if s.powerReq p = v.getLsbD 2 then s else outState (execPowerReq m pp (v.getLsbD 2) s) s
      if s.isResetting p then s1
      else
        let s2 := outState (execEnable m pp (v.getLsbD 0) s1) s1
        (s2.setReg p 8 ((s2.reg p 8 &&& ~~~ ctrlBits p) ||| (v &&& ctrlBits p))).dozeSet p (s2.reg p 8)
  | 0x14 => s.hdrOn p (fun s => s.setReg p 0x14 v)
  | 0x18 => outState (execIrqPendClear m pp v s) s
  | 0x1C => s.hdrOn p (fun s => s.setReg p 0x1C (s.reg p 0x1C &&& ~~~ v))
  | 0x20 => outState (execFltForce m pp v s) s
  | 0x28 =>
    if hasShadow p then s.hdrOn p (fun s =>
      let s1 := s.settle p s.time
      let s2 := s1.setReg p 0x28 ((s1.reg p 0x28 &&& ~~~ (v &&& 0x18) &&& ~~~ (0x10000 : Word)) ||| (v &&& 0x10000))
      s2.writeArm p (v.getLsbD 0) (v.toNat / 2 % 4))
    else s
  | 0x2C => if hasShadow p && !(s.settle p s.time).on p HDR.SHADOW_CTL_ARM then s.hdrOn p (fun s => (s.settle p s.time).setReg p 0x2C v) else s
  | 0x30 => outState (execLock m pp (v.setWidth 2) s) s
  | _ => s

/-! ### Writes to page-specific registers -/

/-- A register's RW fields are writable now (R98, R194, R293, R323, R327, R339, R368, R389). -/
def State.mayWrite (s : State) (p off : Nat) : Bool :=
  match pageKind p with
  | some .spn => off != 0x4C || decide (s.spnState = stSTOPPED)
  | some .bfm =>
    if off = 0x40 then decide (s.get pSYS SYS.CORE_HOLD_HOLD = 0xFF)
    else if off = 0x44 then !s.on pBFM BFM.DRAM_CTRL_DRAM_EN
    else if off = 0x108 then s.on pBFM BFM.SRT_CTRL_FREEZE && !s.on pBFM BFM.SRT_STAT_BUSY
    else true
  | some .dma => !(decide (0x800 ≤ off) && (off % 0x40 == 8 || off % 0x40 == 0xC)) || decide (s.chState ((off - 0x800) / 0x40) = 0)
  | some .hif => !(decide (0x4C ≤ off) && decide (off ≤ 0x60)) || !s.on p HIF.HIF_CTRL_CFG_READY
  | some .hch => !(off == 0x50 || off == 0x54) || (s.rdOf (p - 0x100)).gate.isNone
  | some .stp => !decide (0x800 ≤ off) || decide (s.stripeState ((off - 0x800) / 16) = 0 ∨ s.stripeState ((off - 0x800) / 16) = 4)
  | some .flt => off != 0x64
  | some .dba => off != 0x44
  | _ => true

/-- What a write that is not allowed sets, where the chapter says so (R194, R293, R323). -/
def State.writeDenied (s : State) (m : Master) (p off : Nat) : State :=
  match pageKind p with
  | some .spn => s.raiseBy pSPN 0 m 2 (regAddr p off)
  | some .bfm => if off = 0x40 ∧ s.locked p = false then s.raiseBy pBFM 0 m 2 (regAddr p off) else s
  | some .stp => s.raiseBy pSTP 2 m 2 (regAddr p off)
  | _ => s

/-- The bits of a register that a write stores now: WO and RW, RWL while LOCK is 0; CH_CTRL.PORT in IDLE alone. -/
def State.storeMask (s : State) (p off : Nat) : Word :=
  let m := accMask p off .rw ||| accMask p off .wo ||| (if s.locked p then 0 else accMask p off .rwl)
  if p = pDMA ∧ 0x800 ≤ off ∧ off % 0x40 = 0 ∧ s.chState ((off - 0x800) / 0x40) ≠ 0 then m &&& ~~~ (0x10 : Word) else m

/-- Registers that the boot ROM's code keeps although they read as RO: BOOT_STAT and BOOT_DONE, until DONE (R457–R465). -/
def State.romMask (s : State) (m : Master) (p off : Nat) : Word :=
  if p = pSYS ∧ m = .bsc ∧ s.on pSYS SYS.BOOT_STAT_DONE = false then
    (if off = 0x48 then 0xC0F7FF0F else if off = 0x58 then 0xFFFFFFFF else 0)
  else 0

/-- The plain part of a write: every field that has no command of its own (R11). -/
def State.writePlain (s : State) (m : Master) (p off : Nat) (v : Word) : State :=
  let rw := s.storeMask p off ||| s.romMask m p off
  let w1c := accMask p off .w1c
  if perMaster p off then s.setMreg m p off ((s.mreg m p off &&& ~~~ rw) ||| (v &&& rw))
  else if rw = 0 ∧ w1c = 0 then s
  else if !s.mayWrite p off then s.writeDenied m p off
  else s.setReg p off (((s.reg p off &&& ~~~ rw) ||| (v &&& rw)) &&& ~~~ (v &&& w1c))

/-- A write of shadowed registers. -/
def State.writeShadow (s : State) (p off : Nat) (v : Word) : State :=
  let sh := accMask p off .sh
  if sh = 0 then s else s.shadowWrite p (fun s => s.setShadowReg p off ((s.shadowReg p off &&& ~~~ sh) ||| (v &&& sh)))

/-- FORCED inhibits that a write has opened act on the heads of `hd` (R178, R181). -/
def State.forcedInhibit (s : State) (hd : List Nat) : State :=
  if hd.isEmpty then s else (s.each hd (fun s h => s.noteInhibit (actOf h) wFORCED (h % 12))).dropGates

/-- What a plain write does beside storing, given the state before it. -/
def State.afterWrite (s : State) (old : State) (p off : Nat) (v : Word) : State :=
  match pageKind p with
  | some .act =>
    if off = 0x108 then
      let a := (p - 0x40) / 16
      s.forcedInhibit (((List.range 12).filter (fun (k : Nat) => bit (s.get p ACT.WI_FORCE_MASK) k && !bit (old.get p ACT.WI_FORCE_MASK) k)).map (fun (k : Nat) => 12 * a + k))
    else s
  | some .hch =>
    let h := p - 0x100
    if off = 0x230 then s.forcedInhibit (if s.on p HCH.WR_INH_FORCE && !old.on p HCH.WR_INH_FORCE then [h] else [])
    else if (off = 0x50 ∨ off = 0x54) ∧ old.mayWrite p off = true then
      let f := s.afeOf h
      let r := seedWord v.toNat
      let put3 := fun (x : Reader) => { x with vga := r.vga, ofs := r.ofs, asym := r.asym }
      s.setAfe h (if off = 0x50 then { f with rdA := put3 f.rdA } else { f with rdB := put3 f.rdB })
    else s
  | some .hif => if off = 0x44 then s.settlePort (p - 0x30) else s
  | some .dba =>
    if off = 0x44 then
      s.setDb s.dbSel { s.dbOf s.dbSel with cfg := v &&& 0xFFFF0071 }
    else s
  | _ => s

/-- LNK.CMD (R107). -/
def State.writeCmd (s : State) (m : Master) (a : Fin 8) (v : Word) : State :=
  let head : BitVec 4 := (v >>> 26).setWidth 4
  let reg : BitVec 8 := (v >>> 16).setWidth 8
  let data : BitVec 8 := (v >>> 8).setWidth 8
  match v.toNat / 2 ^ 30 with
  | 0 => outState (execCmdWriteFrame m a head reg data s) s
  | 1 => outState (execCmdReadFrame m a head reg data s) s
  | 2 => outState (execCmdTypeRefused m a s) s
  | _ => outState (execCmdStatusReq m a head reg data s) s

/-- A one-bit request with a command of its own: the command runs where the bit changes. -/
def State.onChange (s : State) (p : Nat) (f : Fld) (b : Bool) (k : State → Out) : State :=
  if s.on p f = b then s else outState (k s) s

/-- A self-clearing request bit. -/
def State.onSet (s : State) (b : Bool) (k : State → Out) : State := if b then outState (k s) s else s

/-- The fields of a register that have commands of their own. -/
def State.writeOwn (s : State) (m : Master) (p off : Nat) (v : Word) : State :=
  let n := v.toNat
  let b := fun (i : Nat) => v.getLsbD i
  let a := Fin.ofNat 8 ((p - 0x40) / 16)
  match pageKind p with
  | some .sys =>
    if off = 0x44 then outState (execRstCtrlWarm m (BitVec.ofNat 16 (n / 65536)) (b 0) s) s
    else if off = 0x4C then outState (execCoreHold m (v.setWidth 8) s) s
    else if off = 0x108 then s.onSet (b 0) (execSmbRxDone m)
    else if off = 0x10C then outState (execSmbTx m (v.setWidth 9) (BitVec.ofNat 7 (n / 65536)) s) s
    else if 0x804 ≤ off ∧ off < 0x894 ∧ off % 16 = 4 then outState (execIrqDone m (Fin.ofNat 9 ((off - 0x804) / 16)) (v.setWidth 8) s) s
    else s
  | some .pwr => if off = 0x40 then outState (execDomReq m (v.setWidth 17) s) s else s
  | some .flt =>
    if off = 0x44 then s.onSet (b 0) (execClrDegraded m)
    else if off = 0x4C then outState (execAck m v s) s
    else if off = 0x50 then outState (execUnfence m (v.setWidth 9) (if b 24 then some (BitVec.ofNat 8 (n / 65536)) else none) s) s
    else if off = 0x64 then outState (execWdogEnable m (v.setWidth 16) (b 31) s) s
    else if off = 0x68 then outState (execWdogKick m v s) s
    else if off = 0x70 then s.onSet (b 0) (execAliveStart m)
    else s
  | some .fur =>
    if off = 0x50 then s.onChange p FUR.TRK_CTRL_TRACK_EN (b 0) (execTrackEn m (b 0))
    else if off = 0x54 then outState (execWedges m (v.setWidth 11) s) s
    else s
  | some .drl =>
    let d := Fin.ofNat 9 (drlOfPage p)
    if off = 0x4C then outState (execDirectEnqueue m d v s) s
    else if off = 0x58 then s.onSet (b 0) (execFlush m d)
    else if off = 0x5C then outState (execQCancel m d (v.setWidth 16) (BitVec.ofNat 16 (n / 65536)) s) s
    else s
  | some .spn =>
    if off = 0x40 then
      (match n % 8 with
      | 1 => outState (execSpnStart m s) s
      | 2 => outState (execSpnStop m s) s
      | 3 => outState (execBrake m s) s
      | 4 => outState (execCoast m s) s
      | _ => s.motCmd m pSPN 0x40 (fun s => s.spnRefuse 4))
    else s
  | some .mot =>
    if off = 0x40 then s.onChange p MOT.MA_CTRL_BOOST_EN (b 0) (execBoostEn m (b 0))
    else if 0x100 ≤ off ∧ off < 0x200 ∧ off % 0x20 = 0 then
      let k := Fin.ofNat 8 ((off - 0x100) / 0x20)
      (match n % 4 with
      | 1 => outState (execLoad m k s) s
      | 2 => outState (execUnload m k s) s
      | 3 => s.motCmd m pMOT off (fun s => s.rampRefuse k.val)
      | _ => s)
    else s
  | some .nvs =>
    if off = 0x54 then s.onSet (b 1) (execWpLock m true)
    else if off = 0x6C then s.nvsCommand m (n % 16)
    else if 0x800 ≤ off then outState (execWpWrite m (Fin.ofNat 512 ((off - 0x800) / 4)) v s) s
    else s
  | some .sec =>
    if off = 0x68 then outState (execFuseCmd m (Fin.ofNat 128 (n % 128)) (BitVec.ofNat 16 (n / 65536)) s) s
    else if off = 0x78 then s.secCommand m (n % 16) (n / 256 % 4)
    else if off = 0x8C then s.onSet (b 0) (execDbgDisable m)
    else s
  | some .xts => if off = 0x88 then s.keyCommand m (n % 64) (n / 256 % 8) else s
  | some .gln => if off = 0x98 then outState (execStRerun m (v.setWidth 9) [] s) s else s
  | some .mdc =>
    if off = 0x40 then s.onChange p MDC.MDC_CTRL_BYPASS_REQ (b 0) (execBypassReq m (b 0))
    else if off = 0x50 then (if n % 8 = 0 ∨ n % 8 = 7 then s.maintRefused m else s.maintWrite m (n % 8))
    else s
  | some .stp => if off = 0x5C then outState (execCancel m (v.setWidth 6) s) s else s
  | some .afm =>
    if off = 0x50 then outState (execRelease m (v.setWidth 7) (b 8) s) s
    else if off = 0x6C then s.submitJob m v
    else s
  | some .bfm =>
    if off = 0x48 then (s.onChange p BFM.DRAM_CTRL_DRAM_EN (b 0) (execDramEn m (b 0))).onChange p BFM.DRAM_CTRL_SR_REQ (b 1) (execSrReq m (b 1))
    else if off = 0x100 then (s.onChange p BFM.SRT_CTRL_FREEZE (b 0) (execFreeze m (b 0))).onSet (b 1) (execCheck m)
    else if off = 0x10C then outState (execSrtShift m (v.setWidth 16) (b 16) s) s
    else if off = 0x118 then outState (execSrtLookup m (v.setWidth 16) s) s
    else s
  | some .dma =>
    if 0x800 ≤ off then
      let c := Fin.ofNat 32 ((off - 0x800) / 0x40)
      if off % 0x40 = 0 then (s.onChange p (chF c.val 0 0 1) (b 0) (execRun m c (b 0))).onSet (b 8) (execDmaAbort m c)
      else if off % 0x40 = 0x38 then outState (execKick m c s) s
      else s
    else s
  | some .hif =>
    let q := Fin.ofNat 2 (p - 0x30)
    if off = 0x44 then (s.onChange p HIF.HIF_CTRL_CFG_READY (b 1) (execCfgReady m q (b 1))).onSet (b 2) (execFlrAck m q)
    else if off = 0x64 then outState (execMsixSend m q (v.setWidth 8) s) s
    else if off = 0x9C then s.onSet (b 0) (execPmeReq m q)
    else if off = 0xB8 then outState (execDoeTx m q (v.setWidth 11) s) s
    else if off = 0xBC then s.onSet (b 0) (execRxDone m q)
    else if 0x200 ≤ off ∧ off < 0x300 then outState (execBar0Slot m q (Fin.ofNat 64 ((off - 0x200) / 4)) v s) s
    else s
  | some .dba => if off = 0x48 then outState (execDbVal m (v.setWidth 16) s) s else s
  | some .til =>
    if off = 0x48 then outState (execOpenSet m a (v.setWidth 13) s) s
    else if off = 0x4C then outState (execCloseSet m a (v.setWidth 13) s) s
    else if off = 0x50 then outState (execHandover m a (v.setWidth 2) (BitVec.ofNat 13 (n / 65536)) s) s
    else if 0x100 ≤ off ∧ off < 0x2A0 ∧ off % 0x20 = 0x1C then outState (execMaRef m a (Fin.ofNat 13 ((off - 0x100) / 0x20)) (v.setWidth 16) s) s
    else s
  | some .prf => if off = 0x40 then s.onSet (b 0) (execAbort m a) else s
  | some .dil =>
    if off = 0x40 then outState (execDilStart m a (v.setWidth 13) s) s
    else if off = 0x44 then (s.onSet (b 0) (execKill m a)).onSet (b 1) (execDilStop m a)
    else if off = 0x74 then outState (execEvtSet m a (v.setWidth 16) s) s
    else if off = 0x78 then outState (execEvtClr m a (v.setWidth 16) s) s
    else if off = 0xEC then outState (execLdAddr m a (BitVec.ofNat 2 (n / 65536)) (v.setWidth 13) s) s
    else if off = 0xF0 then outState (execLdData m a v s) s
    else s
  | some .lnk =>
    if off = 0x44 then s.writeCmd m a v
    else if off = 0x60 then s.onSet (b 1) (execAlertUnmask m a)
    else s
  | some .hch =>
    let h := Fin.ofNat 96 (p - 0x100)
    if off = 0x40 then outState (execZptSel m h (v.setWidth 6) .good s) s
    else if off = 0x210 then outState (execWqWr m h v s) s
    else if off = 0x230 then s.onSet (b 0) (execFaultLatchClear m h)
    else s
  | _ => s

/-- A 32-bit write to the register at `off` of page `p` (R6, R11, R41, R43). -/
def State.writeReg (s : State) (m : Master) (p off : Nat) (v : Word) : State :=
  if !s.present p || s.motSilent p then s
  else
    let s0 := s.latchLevels p
    if off < 0x40 then (s0.writeHdr m p off v).latchLevels p
    else if !s0.powered p && !alwaysOn p off then s0.raiseBy pPWR 1 m 2 (regAddr p off)
    else if s0.isResetting p && !alwaysOn p off then s0
    else
      let plain := if s0.powered p && !s0.isResetting p then
          (((s0.writePlain m p off v).writeShadow p off v).afterWrite s0 p off v)
        else s0
      (plain.writeOwn m p off v).latchLevels p

/-! ### The bus -/

/-- An access to the register region by a master: 32 bits wide and aligned, or 64 bits as two of them (R48, R49). -/
def State.regAccess (s : State) (m : Master) (write : Bool) (len addr : Nat) (v : BitVec 64) : State :=
  let p := (addr - regBase) / 4096
  let off := addr % 4096
  if !s.present p then s.answer 0
  else if (len = 4 ∧ off % 4 = 0) ∨ (len = 8 ∧ off % 8 = 0) then
    if write then
      let s1 := s.writeReg m p off (v.setWidth 32)
      (if len = 8 then s1.writeReg m p (off + 4) ((v >>> 32).setWidth 32) else s1).answer 0
    else
      let s1 := s.readReg m p off
      if len = 8 then
        let s2 := s1.readReg m p (off + 4)
        s2.answer (s1.resp.value + 2 ^ 32 * s2.resp.value)
      else s1
  else (s.raiseAccess (some m) (if write then 2 else 1) addr).answerErr

/-- Masters that address registers directly: the cores, and JTAG once debug is unlocked (R35, R503). -/
def State.regMaster (s : State) (m : Master) : Bool :=
  match m with
  | .core _ => true
  | .bsc => true
  | .jtag => s.on pSEC SEC.DBG_STAT_UNLOCKED
  | _ => false

/-- R11: an access to a register: a write of `v`, or a read. -/
def execRegisterWrite (m : Master) (write : Bool) (len : BitVec 4) (addr : BitVec 48) (v : BitVec 64) (s : State) : Out :=
  .next (if regBase ≤ addr.toNat ∧ addr.toNat < regEnd ∧ s.regMaster m = true then s.regAccess m write len.toNat addr.toNat v else s)

/-- An access of `n` bytes at `a` is refused by R33's list: outside every region, the boot ROM for a core, a register of a present page with
a wrong width. -/
def State.mapRefusal (s : State) (m : Master) (n a : Nat) : Bool :=
  if a < 0x40000 then (match m with | .core _ => true | _ => false)
  else if regBase ≤ a ∧ a < regEnd then s.present ((a - regBase) / 4096) && !decide ((n = 4 ∧ a % 4 = 0) ∨ (n = 8 ∧ a % 8 = 0))
  else if norWindow ≤ a ∧ a < norWindow + 2 ^ 30 then false
  else !(decide (afmBase ≤ a ∧ a < sramEnd) || decide (dramBase ≤ a ∧ a < dramEnd))

/-- R33: an access that is refused; one that is not leaves the state as it is, since another command performs it. -/
def execRefusedAccess (m : Master) (write : Bool) (addr : BitVec 48) (len : BitVec 7) (s : State) : Out :=
  let a := addr.toNat
  let n := max 1 len.toNat
  let acc := if write then 2 else 1
  if s.mapRefusal m n a then .next (s.raiseAccess (some m) acc a).answerErr
  else if norWindow ≤ a ∧ a < norWindow + 2 ^ 30 then
    let bad := s.powered pNVS && (write || !(decide (n = 4 ∨ n = 8 ∨ n = 64) && decide (a % n = 0) && decide (a - norWindow + n ≤ s.norCap)))
    .next (if bad then (s.raiseAccess (some m) acc a).answerErr else s)
  else if (afmBase ≤ a ∧ a < sramEnd) ∨ (dramBase ≤ a ∧ a < dramEnd) then
    match s.spanRefusal (some m) write a n with
    | some (r, x) => .next (s.raiseRefusal (some m) write r x).answerErr
    | none => .next s
  else .next s

end Sys2Proof.Machine
end

