-- ==== Sys2Proof/Machine/DillBus.lean ====
section
/-! DEFINITION. The operation classes of a Dill sequencer that reach beyond it: external reads, page reads and writes, and the one-word
commit (R214, R226, R228). -/

namespace Sys2Proof.Machine

/-- The sequencer as a bus master. -/
def dilMaster (a : Nat) : Master := .dil (Fin.ofNat 8 a)

/-- A DRAM read through the metadata cache; one that the cache cannot take at once goes to BFM (log 7). -/
def State.xrdDram (s : State) (r : MdcReq) : State :=
  let s1 := s.mdcNow r
  if s1.mdc.waits.length ≤ s.mdc.waits.length then s1
  else { s1 with mdc := { s1.mdc with waits := s1.mdc.waits.dropLast } }.mdcDirect r

/-- The address of an XRD (R214). -/
def State.xrdAddr (s : State) (c : DilCtx) : Nat :=
  let base := s.addr48 (pDIL c.a) (DIL.XBASE_LO (nXb c.n)) (DIL.XBASE_HI (nXb c.n))
  ((((base + (s.opA c).toNat : Nat) : Int) + (dilImm c.w c.n).toInt) % 2 ^ 48).toNat / 4 * 4

/-- An XRD ends with a response: its value, or XRD_ERR (R235). -/
def State.xrdEnd (s : State) (a : Nat) (r : Resp) : State :=
  s.dilOp a 5 none (fun s c =>
    let s0 := s.setDil c.a { s.dilOf c.a with xrd := false }
    if r.err then (s0, some 6) else (if nWb c.n then s0.setG c.a (mRd c.w) (BitVec.ofNat 32 r.value) else s0, none))

/-- An XRD of the NOR read window queues its read, and the word waits for the response (R475, R476). -/
def State.xrdNor (s : State) (a ad : Nat) : State :=
  let m := dilMaster a
  let waits := fun (s : State) => s.nvs.reads.any (fun r => decide (r.master = m))
  if waits s then s
  else if (s.dilOf a).xrd then s.xrdEnd a (tabGet s.mresp m.code {})
  else
    let s1 := outState (execNorRead m false (BitVec.ofNat 48 ad) 4 s) s
    if waits s1 then s1.setDil a { s1.dilOf a with xrd := true } else s1.xrdEnd a s1.resp

/-- An XRD of a DRAM line that the cache does not hold waits while DRAM is in self-refresh (R328, R332). -/
def State.xrdHeld (s : State) (a ad : Nat) : Bool :=
  let l := mdcLine ad
  viaMdc (dilMaster a) ad && s.dramHeld ad && (s.mdcFind l).isNone && !s.mdc.victims.any (fun v => decide (v.1 = l)) &&
    (s.spanRefusal (some (dilMaster a)) false ad 4).isNone

/-- R214, R235: XRD. A register of R32's register region is read as any register; one of the boot ROM, which R32 gives to the boot-and-safety
core only, gets an error (DEDUCED, log 134). -/
def execXrd (a : Fin 8) (s : State) : Out :=
  let c0 := s.dilCtx a.val
  let ad0 := s.xrdAddr c0
  if s.dilReady a.val && decide (nOpc c0.n = 5) && decide (norWindow ≤ ad0) && decide (ad0 < norWindow + 2 ^ 30) then .next (s.xrdNor a.val ad0)
  else if s.dilReady a.val && decide (nOpc c0.n = 5) && s.xrdHeld a.val ad0 then .next s
  else .next (s.dilOp a.val 5 none (fun s c =>
    let ad := s.xrdAddr c
    let m := dilMaster c.a
    let put := fun (s : State) (v : Nat) => if nWb c.n then s.setG c.a (mRd c.w) (BitVec.ofNat 32 v) else s
    if regBase ≤ ad ∧ ad < regEnd then
      let s1 := s.regAccess m false 4 ad 0
      if s1.resp.err then (s1, some 6) else (put s1 s1.resp.value, none)
    else if viaMdc m ad then
      let s1 := s.xrdDram (mdcReqOf m false ad 4 [])
      if s1.resp.err then (s1, some 6) else (put s1 s1.resp.value, none)
    else match s.bufRead (some m) ad 4 with
      | (s1, some b) => (put s1 (leNat b), none)
      | (s1, none) => (s1, some 6)))

/-! ### Pages (R228) -/

/-- PAGE and OFFSET of a PRD, PWR or STW. -/
def State.dilPage (s : State) (c : DilCtx) : Nat := if bit (nN3 c.n) 21 then (s.g c.a (mRb c.w)).toNat % 32 else bits (nN3 c.n) 20 16
def dilOfs (c : DilCtx) : Nat := bits (nN3 c.n) 11 0 / 4 * 4

/-- The page position that PAGE names; none for the reserved values. -/
def dilPagePos (a k : Nat) : Option Nat :=
  if k < 12 then some (pHCH (12 * a + k))
  else if k < 19 then some (0x40 + 16 * a + (k - 12))
  else if k = 19 then some pBFM
  else none

/-- PRD may read the offset. -/
def prdAllowed (k o : Nat) : Bool := k != 19 || o == 0x104 || (decide (0x114 ≤ o) && decide (o ≤ 0x130))

/-- PWR and STW may write the offset: not of the sequencer's own DILa, nor the enqueue words of DRLa. -/
def pwrAllowed (k o : Nat) : Bool :=
  if k = 19 then o == 0x114 || o == 0x118
  else (o == 0x28 || o == 0x2C || decide (0x40 ≤ o)) && k != 16 && !(k == 17 && decide (o ≤ 0x4C) && decide (0x40 ≤ o))

/-- R228: PRD. -/
def execPrd (a : Fin 8) (s : State) : Out :=
  .next (s.dilOp a.val 6 none (fun s c =>
    let k := s.dilPage c
    let put := fun (s : State) (v : Nat) => if nWb c.n then s.setG c.a (mRd c.w) (BitVec.ofNat 32 v) else s
    match dilPagePos c.a k with
    | none => (s, some 2)
    | some p =>
      if prdAllowed k (dilOfs c) then
        let s1 := s.readReg (dilMaster c.a) p (dilOfs c)
        (put s1 s1.resp.value, none)
      else (put (s.raiseBy (pDIL c.a) 11 (dilMaster c.a) 1 (regAddr p (dilOfs c))) 0, none)))

/-- A page write: `f` takes an allowed one. A denied one is dropped and raises SEQ FL0; a reserved PAGE is BAD_WORD. -/
def State.dilWrite (s : State) (c : DilCtx) (f : State → Nat → Nat → State × Option Nat) : State × Option Nat :=
  let k := s.dilPage c
  match dilPagePos c.a k with
  | none => (s, some 2)
  | some p =>
    if pwrAllowed k (dilOfs c) then f s p (dilOfs c)
    else (s.raiseBy (pDIL c.a) 11 (dilMaster c.a) 2 (regAddr p (dilOfs c)), none)

/-- R228: PWR. -/
def execPwr (a : Fin 8) (s : State) : Out :=
  .next (s.dilOp a.val 7 none (fun s c =>
    s.dilWrite c (fun s p o => (s.writeReg (dilMaster c.a) p o (s.opA c), none))))

/-- R226: STW. -/
def execStw (a : Fin 8) (s : State) : Out :=
  .next (s.dilOp a.val 0xA none (fun s c =>
    s.dilWrite c (fun s p o =>
      let d := s.dilOf c.a
      if 8 ≤ d.writes.length then (s, some 5)
      else ((s.setDil c.a { d with writes := d.writes ++ [(p, o, s.opA c)] }).noteStg c.a, none))))

/-- The staged writes land, in staging order. -/
def State.landWrites (s : State) (a : Nat) (ws : List (Nat × Nat × Word)) : State :=
  s.each ws (fun s (w : Nat × Nat × Word) => s.writeReg (dilMaster a) w.1 w.2.1 w.2.2)

/-- R226, R227: COMMIT FN 0. -/
def execCommit (a : Fin 8) (s : State) : Out :=
  .next (s.dilPlain a.val 0xB (some 0) (fun s c =>
    let d := s.dilOf c.a
    let s0 := s.dropStaging c.a
    if d.entries = [] then (s0.setFlag c.a fE false).landWrites c.a d.writes
    else
      let y := s0.makeWay c.a 0
      let es := d.entries.map (fun (w : Word × Word × Word × Word) => y.1.makeEntry c.a w.1 w.2.1 w.2.2.1 w.2.2.2 y.1.time (240 * 64))
      let r := y.1.admitBatch c.a es y.1.time (240 * 64)
      let s1 := (r.1.each y.2 (fun s q => s.putBack c.a q)).dilVerdict c.a true r.2.1 r.2.2
      if r.2.1.result = 0 then s1.landWrites c.a d.writes else s1))

end Sys2Proof.Machine
end

