-- ==== Sys2Proof/Machine/HostBar.lean ====
section
/-! DEFINITION. Requests to BAR0, the register slots of a host port (R392). -/

namespace Sys2Proof.Machine

/-- The runs of enabled bytes of a write from address `a`. -/
def byteRuns : List (Bool × Byte) → Nat → List (Nat × List Byte)
  | [], _ => []
  | (false, _) :: r, a => byteRuns r (a + 1)
  | (true, b) :: r, a =>
    match byteRuns r (a + 1) with
    | (x, bs) :: t => if x = a + 1 then (a, b :: bs) :: t else (a, [b]) :: (x, bs) :: t
    | [] => [(a, [b])]

/-- A request to a PAGE slot, aligned 4 B or 8 B with every byte enabled; with RO at 1 a write gets the OFF answer. -/
def State.bar0Page (s : State) (p : Nat) (write : Bool) (slot o : Nat) (en : List Bool) (data : List Byte) : State :=
  let g := pHIF p
  let n := en.length
  if !((n == 4 || n == 8) && decide (o % n = 0) && en.all id) || (write && s.on g (HIF.BAR0_SLOT_RO slot)) then s.unsupported p write
  else
    let s1 := s.regAccess (portMaster p) write n (regAddr (s.get g (HIF.BAR0_SLOT_IDX slot)) o) (BitVec.ofNat 64 (leNat (fitBytes n data)))
    if write then s1 else s1.complete p 0 (leBytes s1.resp.value n)

/-- A request to a MIRROR slot: the host-staging page IDX; a write marks the slot dirty. -/
def State.bar0Mirror (s : State) (p : Nat) (write : Bool) (slot o : Nat) (en : List Bool) (data : List Byte) : State :=
  let g := pHIF p
  let a := stgBase + 4096 * s.get g (HIF.BAR0_SLOT_IDX slot) + o
  let n := en.length
  if 4096 < o + n then s.unsupported p write
  else if write then
    let rs := byteRuns (en.zip (fitBytes n data)) a
    let r := rs.foldl (fun (x : State × Bool) (w : Nat × List Byte) =>
      let y := x.1.bufWrite (some (portMaster p)) w.1 w.2
      (y.1, x.2 && y.2)) (s, true)
    let d := if slot < 32 then 0xA8 else 0xAC
    if r.2 then r.1.setReg g d (r.1.reg g d ||| BitVec.ofNat 32 (2 ^ (slot % 32))) else r.1.completerAbort p true
  else match s.bufRead (some (portMaster p)) a n with
    | (s1, some bs) => s1.complete p 0 bs
    | (s1, none) => s1.completerAbort p false

/-- R392: a host request to BAR0 offset `off`, with a byte enable for each byte. -/
def execBar0Request (p : Fin 2) (write : Bool) (off : BitVec 18) (en : List Bool) (data : List Byte) (s : State) : Out :=
  let p := p.val
  let slot := off.toNat / 4096
  let o := off.toNat % 4096
  if !s.linkUpOn p then .next s
  else if !s.memEn p || decide (2 ^ (s.bar0Log p - 12) ≤ slot) then .next (s.unsupported p write)
  else
    .next (match s.get (pHIF p) (HIF.BAR0_SLOT_KIND slot) with
    | 1 => s.bar0Page p write slot o en data
    | 2 => s.bar0Mirror p write slot o en data
    | 3 =>
      if write then s.ringDoorbell p o en.length (en.all id) (leNat (fitBytes en.length data))
      else s.complete p 0 (List.replicate en.length 0)
    | _ => s.unsupported p write)

end Sys2Proof.Machine
end

