-- ==== Sys2Proof/Machine/Dispatch.lean ====
section
/-! DEFINITION. The commands of the block and their meanings: one arm for each row of the table of commands. -/

namespace Sys2Proof.Machine

def exec (i : Instr) (s : State) : Host.Outcome State Fault Refusal :=
  match i with
  | .registerWrite m write len addr v => Sys2Proof.Machine.execRegisterWrite m write len addr v s
  | .refusedAccess m write addr len => Sys2Proof.Machine.execRefusedAccess m write addr len s
  | .powerOnReset test => Sys2Proof.Machine.execPowerOnReset test s
  | .motionPowerOnReset v5 vhold => Sys2Proof.Machine.execMotionPowerOnReset v5 vhold s
  | .warmReset => Sys2Proof.Machine.execWarmReset s
  | .rstCtrlWarm m key warm => Sys2Proof.Machine.execRstCtrlWarm m key warm s
  | .jtagWarmReset => Sys2Proof.Machine.execJtagWarmReset s
  | .enable m p on_ => Sys2Proof.Machine.execEnable m p on_ s
  | .softReset m p pr => Sys2Proof.Machine.execSoftReset m p pr s
  | .softResetDone p => Sys2Proof.Machine.execSoftResetDone p s
  | .powerReq m p on_ => Sys2Proof.Machine.execPowerReq m p on_ s
  | .irqPendClear m p v => Sys2Proof.Machine.execIrqPendClear m p v s
  | .fltForce m p v => Sys2Proof.Machine.execFltForce m p v s
  | .lock m p v => Sys2Proof.Machine.execLock m p v s
  | .irqClaim m c => Sys2Proof.Machine.execIrqClaim m c s
  | .irqDone m c n => Sys2Proof.Machine.execIrqDone m c n s
  | .shadowArm m p arm src => Sys2Proof.Machine.execShadowArm m p arm src s
  | .shadowCommit p => Sys2Proof.Machine.execShadowCommit p s
  | .pllLock us => Sys2Proof.Machine.execPllLock us s
  | .oscStable => Sys2Proof.Machine.execOscStable s
  | .counterMismatch => Sys2Proof.Machine.execCounterMismatch s
  | .timeLoRead m => Sys2Proof.Machine.execTimeLoRead m s
  | .trackEn m en => Sys2Proof.Machine.execTrackEn m en s
  | .wedges m n => Sys2Proof.Machine.execWedges m n s
  | .wedgeMeasurement => Sys2Proof.Machine.execWedgeMeasurement s
  | .trackerEnterTrack => Sys2Proof.Machine.execTrackerEnterTrack s
  | .trackerLocked => Sys2Proof.Machine.execTrackerLocked s
  | .trackerHoldover => Sys2Proof.Machine.execTrackerHoldover s
  | .trackerLost => Sys2Proof.Machine.execTrackerLost s
  | .trackToAcquire => Sys2Proof.Machine.execTrackToAcquire s
  | .acqTimeout => Sys2Proof.Machine.execAcqTimeout s
  | .directEnqueue m d w3 => Sys2Proof.Machine.execDirectEnqueue m d w3 s
  | .batchAdmission d => Sys2Proof.Machine.execBatchAdmission d s
  | .finalResolution d => Sys2Proof.Machine.execFinalResolution d s
  | .rgOpen a => Sys2Proof.Machine.execRgOpen a s
  | .rgClose a errs => Sys2Proof.Machine.execRgClose a errs s
  | .wgOpen a => Sys2Proof.Machine.execWgOpen a s
  | .wgClose a => Sys2Proof.Machine.execWgClose a s
  | .heat a => Sys2Proof.Machine.execHeat a s
  | .preReg a => Sys2Proof.Machine.execPreReg a s
  | .apply d => Sys2Proof.Machine.execApply d s
  | .maOffset a => Sys2Proof.Machine.execMaOffset a s
  | .stpStart a => Sys2Proof.Machine.execStpStart a s
  | .profileStart a => Sys2Proof.Machine.execProfileStart a s
  | .spnOvr => Sys2Proof.Machine.execSpnOvr s
  | .event d => Sys2Proof.Machine.execEvent d s
  | .missed d => Sys2Proof.Machine.execMissed d s
  | .flush m d => Sys2Proof.Machine.execFlush m d s
  | .flushDone d => Sys2Proof.Machine.execFlushDone d s
  | .qCancel m d tag mask => Sys2Proof.Machine.execQCancel m d tag mask s
  | .afeWake h delay => Sys2Proof.Machine.execAfeWake h delay s
  | .adaptBlock h xa xb errs => Sys2Proof.Machine.execAdaptBlock h xa xb errs s
  | .clipRun h rdB => Sys2Proof.Machine.execClipRun h rdB s
  | .adcStuck h rdB => Sys2Proof.Machine.execAdcStuck h rdB s
  | .zptSel m h zone ecc => Sys2Proof.Machine.execZptSel m h zone ecc s
  | .cmdWriteFrame m a head reg data => Sys2Proof.Machine.execCmdWriteFrame m a head reg data s
  | .cmdReadFrame m a head reg data => Sys2Proof.Machine.execCmdReadFrame m a head reg data s
  | .cmdStatusReq m a head reg data => Sys2Proof.Machine.execCmdStatusReq m a head reg data s
  | .cmdTypeRefused m a => Sys2Proof.Machine.execCmdTypeRefused m a s
  | .frameStart a => Sys2Proof.Machine.execFrameStart a s
  | .responseFrame a typ head seq reg data crcOk high => Sys2Proof.Machine.execResponseFrame a typ head seq reg data crcOk high s
  | .rspTimeout a => Sys2Proof.Machine.execRspTimeout a s
  | .aalertRise a => Sys2Proof.Machine.execAalertRise a s
  | .alertStuck a => Sys2Proof.Machine.execAlertStuck a s
  | .alertUnmask m a => Sys2Proof.Machine.execAlertUnmask m a s
  | .linkTrainingEnd a rsp high => Sys2Proof.Machine.execLinkTrainingEnd a rsp high s
  | .syncSearchEnd h hard => Sys2Proof.Machine.execSyncSearchEnd h hard s
  | .resyncSearchEnd h hard => Sys2Proof.Machine.execResyncSearchEnd h hard s
  | .detectorPassEnd h llr older => Sys2Proof.Machine.execDetectorPassEnd h llr older s
  | .decodeEnd h r => Sys2Proof.Machine.execDecodeEnd h r s
  | .fragmentTimeout h => Sys2Proof.Machine.execFragmentTimeout h s
  | .release m h slot => Sys2Proof.Machine.execRelease m h slot s
  | .releaseDone h slot => Sys2Proof.Machine.execReleaseDone h slot s
  | .redecode m w3 => Sys2Proof.Machine.execRedecode m w3 s
  | .reframe m w3 => Sys2Proof.Machine.execReframe m w3 s
  | .joint m w3 => Sys2Proof.Machine.execJoint m w3 s
  | .sweep m w3 => Sys2Proof.Machine.execSweep m w3 s
  | .jobDispatch => Sys2Proof.Machine.execJobDispatch s
  | .deepTryEnd d r llr llr2 => Sys2Proof.Machine.execDeepTryEnd d r llr llr2 s
  | .deepJobEnd d => Sys2Proof.Machine.execDeepJobEnd d s
  | .wqWr m h v => Sys2Proof.Machine.execWqWr m h v s
  | .writeFifoFill h => Sys2Proof.Machine.execWriteFifoFill h s
  | .underrun h => Sys2Proof.Machine.execUnderrun h s
  | .writeSectorEnd h => Sys2Proof.Machine.execWriteSectorEnd h s
  | .writeFragmentTimeout h => Sys2Proof.Machine.execWriteFragmentTimeout h s
  | .faultLatchClear m h => Sys2Proof.Machine.execFaultLatchClear m h s
  | .shockTrip n mag => Sys2Proof.Machine.execShockTrip n mag s
  | .shockRelease n mag => Sys2Proof.Machine.execShockRelease n mag s
  | .shockHoldEnd a => Sys2Proof.Machine.execShockHoldEnd a s
  | .writeWindowClose => Sys2Proof.Machine.execWriteWindowClose s
  | .stpRecord => Sys2Proof.Machine.execStpRecord s
  | .stripeTimeout n => Sys2Proof.Machine.execStripeTimeout n s
  | .rebuildStart => Sys2Proof.Machine.execRebuildStart s
  | .rebuildEnd n => Sys2Proof.Machine.execRebuildEnd n s
  | .cancel m n => Sys2Proof.Machine.execCancel m n s
  | .dilStart m a entry => Sys2Proof.Machine.execDilStart m a entry s
  | .kill m a => Sys2Proof.Machine.execKill m a s
  | .dilStop m a => Sys2Proof.Machine.execDilStop m a s
  | .evtSet m a mask => Sys2Proof.Machine.execEvtSet m a mask s
  | .evtClr m a mask => Sys2Proof.Machine.execEvtClr m a mask s
  | .eventTaken a => Sys2Proof.Machine.execEventTaken a s
  | .holdRun a => Sys2Proof.Machine.execHoldRun a s
  | .nop a => Sys2Proof.Machine.execNop a s
  | .add a => Sys2Proof.Machine.execAdd a s
  | .sub a => Sys2Proof.Machine.execSub a s
  | .and a => Sys2Proof.Machine.execAnd a s
  | .or a => Sys2Proof.Machine.execOr a s
  | .xor a => Sys2Proof.Machine.execXor a s
  | .shl a => Sys2Proof.Machine.execShl a s
  | .shr a => Sys2Proof.Machine.execShr a s
  | .sar a => Sys2Proof.Machine.execSar a s
  | .min a => Sys2Proof.Machine.execMin a s
  | .max a => Sys2Proof.Machine.execMax a s
  | .ins a => Sys2Proof.Machine.execIns a s
  | .ext a => Sys2Proof.Machine.execExt a s
  | .wadd a => Sys2Proof.Machine.execWadd a s
  | .mul a => Sys2Proof.Machine.execMul a s
  | .mulhs a => Sys2Proof.Machine.execMulhs a s
  | .mulhu a => Sys2Proof.Machine.execMulhu a s
  | .drd a => Sys2Proof.Machine.execDrd a s
  | .dwr a => Sys2Proof.Machine.execDwr a s
  | .xrd a => Sys2Proof.Machine.execXrd a s
  | .prd a => Sys2Proof.Machine.execPrd a s
  | .pwr a => Sys2Proof.Machine.execPwr a s
  | .enq a => Sys2Proof.Machine.execEnq a s
  | .stg a => Sys2Proof.Machine.execStg a s
  | .stw a => Sys2Proof.Machine.execStw a s
  | .commit a => Sys2Proof.Machine.execCommit a s
  | .discard a => Sys2Proof.Machine.execDiscard a s
  | .timeNow a => Sys2Proof.Machine.execTimeNow a s
  | .timeAngle a => Sys2Proof.Machine.execTimeAngle a s
  | .timeRev a => Sys2Proof.Machine.execTimeRev a s
  | .timePred a => Sys2Proof.Machine.execTimePred a s
  | .out a => Sys2Proof.Machine.execOut a s
  | .irq a => Sys2Proof.Machine.execIrq a s
  | .emask a => Sys2Proof.Machine.execEmask a s
  | .eclr a => Sys2Proof.Machine.execEclr a s
  | .eset a => Sys2Proof.Machine.execEset a s
  | .jmp a => Sys2Proof.Machine.execJmp a s
  | .call a => Sys2Proof.Machine.execCall a s
  | .ret a => Sys2Proof.Machine.execRet a s
  | .loop a => Sys2Proof.Machine.execLoop a s
  | .wait a => Sys2Proof.Machine.execWait a s
  | .waitRelease a => Sys2Proof.Machine.execWaitRelease a s
  | .disp a => Sys2Proof.Machine.execDisp a s
  | .endOp a => Sys2Proof.Machine.execEndOp a s
  | .resume a => Sys2Proof.Machine.execResume a s
  | .abandon a => Sys2Proof.Machine.execAbandon a s
  | .fail a => Sys2Proof.Machine.execFail a s
  | .ldAddr m a space addr => Sys2Proof.Machine.execLdAddr m a space addr s
  | .ldData m a v => Sys2Proof.Machine.execLdData m a v s
  | .servoSample a rdA rdB => Sys2Proof.Machine.execServoSample a rdA rdB s
  | .tillerCompute a j corrected => Sys2Proof.Machine.execTillerCompute a j corrected s
  | .missLimit a j => Sys2Proof.Machine.execMissLimit a j s
  | .outputFrame a => Sys2Proof.Machine.execOutputFrame a s
  | .overrunLimit a => Sys2Proof.Machine.execOverrunLimit a s
  | .outputApply a => Sys2Proof.Machine.execOutputApply a s
  | .openSet m a mask => Sys2Proof.Machine.execOpenSet m a mask s
  | .closeSet m a mask => Sys2Proof.Machine.execCloseSet m a mask s
  | .handover m a mode mask => Sys2Proof.Machine.execHandover m a mode mask s
  | .maRef m a j v => Sys2Proof.Machine.execMaRef m a j v s
  | .seekStart a => Sys2Proof.Machine.execSeekStart a s
  | .profileSample a => Sys2Proof.Machine.execProfileSample a s
  | .settleRequest a => Sys2Proof.Machine.execSettleRequest a s
  | .followRequest a => Sys2Proof.Machine.execFollowRequest a s
  | .seekTimeout a => Sys2Proof.Machine.execSeekTimeout a s
  | .abort m a => Sys2Proof.Machine.execAbort m a s
  | .stopComplete a => Sys2Proof.Machine.execStopComplete a s
  | .load m a => Sys2Proof.Machine.execLoad m a s
  | .unload m a => Sys2Proof.Machine.execUnload m a s
  | .servoFound a => Sys2Proof.Machine.execServoFound a s
  | .stopAchieved a code xs => Sys2Proof.Machine.execStopAchieved a code xs s
  | .rampStop a xs => Sys2Proof.Machine.execRampStop a xs s
  | .pushDone a => Sys2Proof.Machine.execPushDone a s
  | .rampTimeout a => Sys2Proof.Machine.execRampTimeout a s
  | .fenceUnload a => Sys2Proof.Machine.execFenceUnload a s
  | .retractStart vhold => Sys2Proof.Machine.execRetractStart vhold s
  | .retractPhase1End a xs vhold => Sys2Proof.Machine.execRetractPhase1End a xs vhold s
  | .retractEnd a vhold => Sys2Proof.Machine.execRetractEnd a vhold s
  | .boostEn m en => Sys2Proof.Machine.execBoostEn m en s
  | .boostReady => Sys2Proof.Machine.execBoostReady s
  | .boostFail => Sys2Proof.Machine.execBoostFail s
  | .vcmFault a => Sys2Proof.Machine.execVcmFault a s
  | .spnStart m => Sys2Proof.Machine.execSpnStart m s
  | .spnStop m => Sys2Proof.Machine.execSpnStop m s
  | .brake m => Sys2Proof.Machine.execBrake m s
  | .coast m => Sys2Proof.Machine.execCoast m s
  | .senseEnd amp crossings fwd per next step => Sys2Proof.Machine.execSenseEnd amp crossings fwd per next step s
  | .prebrakeEnd amp => Sys2Proof.Machine.execPrebrakeEnd amp s
  | .alignEnd => Sys2Proof.Machine.execAlignEnd s
  | .rampStep => Sys2Proof.Machine.execRampStep s
  | .startTimeout => Sys2Proof.Machine.execStartTimeout s
  | .zeroCrossing xs => Sys2Proof.Machine.execZeroCrossing xs s
  | .commutation rest => Sys2Proof.Machine.execCommutation rest s
  | .zcMiss xs => Sys2Proof.Machine.execZcMiss xs s
  | .wedgeTimeToSpn => Sys2Proof.Machine.execWedgeTimeToSpn s
  | .atSpeedSet => Sys2Proof.Machine.execAtSpeedSet s
  | .speedLoss => Sys2Proof.Machine.execSpeedLoss s
  | .ovrApply => Sys2Proof.Machine.execOvrApply s
  | .vmSample vm => Sys2Proof.Machine.execVmSample vm s
  | .chopperOn => Sys2Proof.Machine.execChopperOn s
  | .chopperOff => Sys2Proof.Machine.execChopperOff s
  | .chopFail sense => Sys2Proof.Machine.execChopFail sense s
  | .regenEnd => Sys2Proof.Machine.execRegenEnd s
  | .spinStopped amp => Sys2Proof.Machine.execSpinStopped amp s
  | .emergencyStop => Sys2Proof.Machine.execEmergencyStop s
  | .bridgeOc => Sys2Proof.Machine.execBridgeOc s
  | .d2dLoss => Sys2Proof.Machine.execD2dLoss s
  | .motionEmergency => Sys2Proof.Machine.execMotionEmergency s
  | .dramEn m en => Sys2Proof.Machine.execDramEn m en s
  | .trainingDone fails eyes => Sys2Proof.Machine.execTrainingDone fails eyes s
  | .dramFillDone => Sys2Proof.Machine.execDramFillDone s
  | .srReq m on_ => Sys2Proof.Machine.execSrReq m on_ s
  | .selfRefreshEntered => Sys2Proof.Machine.execSelfRefreshEntered s
  | .selfRefreshExited => Sys2Proof.Machine.execSelfRefreshExited s
  | .bufferRequest m write addr len data => Sys2Proof.Machine.execBufferRequest m write addr len data s
  | .arbiterGrant r e => Sys2Proof.Machine.execArbiterGrant r e s
  | .mr4Poll c code hot => Sys2Proof.Machine.execMr4Poll c code hot s
  | .rfmRequest c => Sys2Proof.Machine.execRfmRequest c s
  | .srtLookup m hi => Sys2Proof.Machine.execSrtLookup m hi s
  | .srtLookupEnd => Sys2Proof.Machine.execSrtLookupEnd s
  | .freeze m on_ => Sys2Proof.Machine.execFreeze m on_ s
  | .srtShift m index dir => Sys2Proof.Machine.execSrtShift m index dir s
  | .shiftDone => Sys2Proof.Machine.execShiftDone s
  | .check m => Sys2Proof.Machine.execCheck m s
  | .checkDone => Sys2Proof.Machine.execCheckDone s
  | .initFillDone rom fails => Sys2Proof.Machine.execInitFillDone rom fails s
  | .stRerun m page fails => Sys2Proof.Machine.execStRerun m page fails s
  | .gleanerBeat dram e raced spot => Sys2Proof.Machine.execGleanerBeat dram e raced spot s
  | .lapEnd dram => Sys2Proof.Machine.execLapEnd dram s
  | .lapLate dram => Sys2Proof.Machine.execLapLate dram s
  | .mdcRequest m write addr len data find => Sys2Proof.Machine.execMdcRequest m write addr len data find s
  | .mdcFillReturn n beat e => Sys2Proof.Machine.execMdcFillReturn n beat e s
  | .victimWritebackDone n => Sys2Proof.Machine.execVictimWritebackDone n s
  | .invAddr m => Sys2Proof.Machine.execInvAddr m s
  | .cleanAddr m => Sys2Proof.Machine.execCleanAddr m s
  | .cleanInvAddr m => Sys2Proof.Machine.execCleanInvAddr m s
  | .invAll m => Sys2Proof.Machine.execInvAll m s
  | .cleanAll m => Sys2Proof.Machine.execCleanAll m s
  | .cleanInvAll m => Sys2Proof.Machine.execCleanInvAll m s
  | .maintDone => Sys2Proof.Machine.execMaintDone s
  | .bypassReq m on_ => Sys2Proof.Machine.execBypassReq m on_ s
  | .bypassEntered => Sys2Proof.Machine.execBypassEntered s
  | .run m c on_ => Sys2Proof.Machine.execRun m c on_ s
  | .kick m c => Sys2Proof.Machine.execKick m c s
  | .descriptorFetch c => Sys2Proof.Machine.execDescriptorFetch c s
  | .hostCompletion c n status data => Sys2Proof.Machine.execHostCompletion c n status data s
  | .descriptorComplete c => Sys2Proof.Machine.execDescriptorComplete c s
  | .postedAck p => Sys2Proof.Machine.execPostedAck p s
  | .postedLost c => Sys2Proof.Machine.execPostedLost c s
  | .descriptorTimeout c second => Sys2Proof.Machine.execDescriptorTimeout c second s
  | .dmaAbort m c => Sys2Proof.Machine.execDmaAbort m c s
  | .abortDrained c => Sys2Proof.Machine.execAbortDrained c s
  | .perstAssert p => Sys2Proof.Machine.execPerstAssert p s
  | .perstDeassert p => Sys2Proof.Machine.execPerstDeassert p s
  | .hotReset p => Sys2Proof.Machine.execHotReset p s
  | .linkUp p speed width => Sys2Proof.Machine.execLinkUp p speed width s
  | .linkDown p disabled => Sys2Proof.Machine.execLinkDown p disabled s
  | .trainFail p => Sys2Proof.Machine.execTrainFail p s
  | .configRequest p write n be v => Sys2Proof.Machine.execConfigRequest p write n be v s
  | .cfgReady m p on_ => Sys2Proof.Machine.execCfgReady m p on_ s
  | .bar0Request p write off en data => Sys2Proof.Machine.execBar0Request p write off en data s
  | .bar0Slot m p n v => Sys2Proof.Machine.execBar0Slot m p n v s
  | .inboundWrite p off data => Sys2Proof.Machine.execInboundWrite p off data s
  | .inboundRead p off len => Sys2Proof.Machine.execInboundRead p off len s
  | .doorbellWrite p off len full v => Sys2Proof.Machine.execDoorbellWrite p off len full v s
  | .doorbellClaim m c => Sys2Proof.Machine.execDoorbellClaim m c s
  | .dbVal m v => Sys2Proof.Machine.execDbVal m v s
  | .msixSend m p v => Sys2Proof.Machine.execMsixSend m p v s
  | .pbaSend p v => Sys2Proof.Machine.execPbaSend p v s
  | .intxChange p => Sys2Proof.Machine.execIntxChange p s
  | .cplTimeout c n => Sys2Proof.Machine.execCplTimeout c n s
  | .dState p d3 => Sys2Proof.Machine.execDState p d3 s
  | .l0pNarrow p => Sys2Proof.Machine.execL0pNarrow p s
  | .pmeReq m p => Sys2Proof.Machine.execPmeReq m p s
  | .bmeClear p => Sys2Proof.Machine.execBmeClear p s
  | .flr p => Sys2Proof.Machine.execFlr p s
  | .flrAck m p => Sys2Proof.Machine.execFlrAck m p s
  | .flrTmo p => Sys2Proof.Machine.execFlrTmo p s
  | .removed p => Sys2Proof.Machine.execRemoved p s
  | .malformedTlp p => Sys2Proof.Machine.execMalformedTlp p s
  | .poisonedTlp p cpl => Sys2Proof.Machine.execPoisonedTlp p cpl s
  | .unsupportedRequest p posted => Sys2Proof.Machine.execUnsupportedRequest p posted s
  | .unexpectedCompletion p => Sys2Proof.Machine.execUnexpectedCompletion p s
  | .doeObject p ws => Sys2Proof.Machine.execDoeObject p ws s
  | .rxDone m p => Sys2Proof.Machine.execRxDone m p s
  | .doeTx m p len => Sys2Proof.Machine.execDoeTx m p len s
  | .doeAbort p => Sys2Proof.Machine.execDoeAbort p s
  | .faultEvent det => Sys2Proof.Machine.execFaultEvent det s
  | .ack m v => Sys2Proof.Machine.execAck m v s
  | .unfence m page sub => Sys2Proof.Machine.execUnfence m page sub s
  | .unfenceDone => Sys2Proof.Machine.execUnfenceDone s
  | .clrDegraded m => Sys2Proof.Machine.execClrDegraded m s
  | .wdogEnable m period en => Sys2Proof.Machine.execWdogEnable m period en s
  | .wdogKick m v => Sys2Proof.Machine.execWdogKick m v s
  | .wdogExpired => Sys2Proof.Machine.execWdogExpired s
  | .aliveStart m => Sys2Proof.Machine.execAliveStart m s
  | .xtalLoss => Sys2Proof.Machine.execXtalLoss s
  | .lockLoss => Sys2Proof.Machine.execLockLoss s
  | .domReq m v => Sys2Proof.Machine.execDomReq m v s
  | .domainRampStart => Sys2Proof.Machine.execDomainRampStart s
  | .domainUp d phase bad => Sys2Proof.Machine.execDomainUp d phase bad s
  | .domainFailed d => Sys2Proof.Machine.execDomainFailed d s
  | .domainOff d => Sys2Proof.Machine.execDomainOff d s
  | .tempSample ts => Sys2Proof.Machine.execTempSample ts s
  | .supplyLossDecision cause mv rail => Sys2Proof.Machine.execSupplyLossDecision cause mv rail s
  | .fuseRead ue => Sys2Proof.Machine.execFuseRead ue s
  | .coreHold m v => Sys2Proof.Machine.execCoreHold m v s
  | .norProbe ok0 ok1 => Sys2Proof.Machine.execNorProbe ok0 ok1 s
  | .probeDone => Sys2Proof.Machine.execProbeDone s
  | .norRead m write addr len => Sys2Proof.Machine.execNorRead m write addr len s
  | .norReadDone lost => Sys2Proof.Machine.execNorReadDone lost s
  | .program m => Sys2Proof.Machine.execProgram m s
  | .erase m => Sys2Proof.Machine.execErase m s
  | .eraseBr m => Sys2Proof.Machine.execEraseBr m s
  | .nvsSuspend m => Sys2Proof.Machine.execNvsSuspend m s
  | .nvsResume m => Sys2Proof.Machine.execNvsResume m s
  | .blankCheck m => Sys2Proof.Machine.execBlankCheck m s
  | .jscan m => Sys2Proof.Machine.execJscan m s
  | .suspendIssue => Sys2Proof.Machine.execSuspendIssue s
  | .autoResume => Sys2Proof.Machine.execAutoResume s
  | .statusPoll status complete wrong => Sys2Proof.Machine.execStatusPoll status complete wrong s
  | .norOpTimeout => Sys2Proof.Machine.execNorOpTimeout s
  | .norOpDone => Sys2Proof.Machine.execNorOpDone s
  | .wpWrite m n v => Sys2Proof.Machine.execWpWrite m n v s
  | .wpLock m v => Sys2Proof.Machine.execWpLock m v s
  | .fuseCmd m row key => Sys2Proof.Machine.execFuseCmd m row key s
  | .fuseProgDone back => Sys2Proof.Machine.execFuseProgDone back s
  | .hash m => Sys2Proof.Machine.execHash m s
  | .verify m => Sys2Proof.Machine.execVerify m s
  | .signId m => Sys2Proof.Machine.execSignId m s
  | .extend m meas => Sys2Proof.Machine.execExtend m meas s
  | .jobDone => Sys2Proof.Machine.execJobDone s
  | .rngHealth pass => Sys2Proof.Machine.execRngHealth pass s
  | .debugUnlock pub sig => Sys2Proof.Machine.execDebugUnlock pub sig s
  | .dbgDisable m => Sys2Proof.Machine.execDbgDisable m s
  | .keyLoad m slot => Sys2Proof.Machine.execKeyLoad m slot s
  | .keyLoadWrapped m slot => Sys2Proof.Machine.execKeyLoadWrapped m slot s
  | .keyErase m slot => Sys2Proof.Machine.execKeyErase m slot s
  | .keyEraseAll m => Sys2Proof.Machine.execKeyEraseAll m s
  | .smbWriteReceived addr data pecOk => Sys2Proof.Machine.execSmbWriteReceived addr data pecOk s
  | .smbTargetRead addr n => Sys2Proof.Machine.execSmbTargetRead addr n s
  | .smbTx m len dest => Sys2Proof.Machine.execSmbTx m len dest s
  | .smbTxEnd r => Sys2Proof.Machine.execSmbTxEnd r s
  | .smbRxDone m => Sys2Proof.Machine.execSmbRxDone m s
  | .smbTimeout => Sys2Proof.Machine.execSmbTimeout s
  | .dramPhyFault c => Sys2Proof.Machine.execDramPhyFault c s
  | .supplyCauseArmed cause => Sys2Proof.Machine.execSupplyCauseArmed cause s
  | .aliveEdge => Sys2Proof.Machine.execAliveEdge s
  | .msixTableAccess p write off len data => Sys2Proof.Machine.execMsixTableAccess p write off len data s

end Sys2Proof.Machine
end

