-- ==== Sys2Proof/Safety.lean ====
section
/-! DEFINITION. What the statements call a sound state and a safe step. -/

namespace Sys2Proof.Machine

/-- The canonical form of buffer memory: addresses strictly rising, no entry equal to the byte an unlisted address reads as. -/
abbrev Memory.wf (m : List Host.Cell) : Bool := tabWf (fun _ => (0 : Byte)) m

/-- A sound state: every table has its keys strictly rising, so that a key names one entry, and buffer memory is in canonical form. -/
structure Sound (s : State) : Prop where
  mem : Memory.wf s.mem = true
  regs : tabSorted s.regs = true
  shadow : tabSorted s.shadow = true
  mregs : tabSorted s.mregs = true
  dom : tabSorted s.dom = true
  drl : tabSorted s.drl = true
  afe : tabSorted s.afe = true
  lnk : tabSorted s.lnk = true
  rdh : tabSorted s.rdh = true
  commitAt : tabSorted s.commitAt = true
  lastCommit : tabSorted s.lastCommit = true
  wrh : tabSorted s.wrh = true
  pesGuard : tabSorted s.pesGuard = true
  alertSt : tabSorted s.alertSt = true
  shockEnd : tabSorted s.shockEnd = true
  stripes : tabSorted s.stripes = true
  dil : tabSorted s.dil = true
  srvh : tabSorted s.srvh = true
  srv : tabSorted s.srv = true
  loops : tabSorted s.loops = true
  til : tabSorted s.til = true
  prf : tabSorted s.prf = true
  macts : tabSorted s.macts = true
  bufq : tabSorted s.bufq = true
  slots : tabSorted s.slots = true
  lastGrant : tabSorted s.lastGrant = true
  mresp : tabSorted s.mresp = true
  dma : tabSorted s.dma = true
  ports : tabSorted s.ports = true
  keys : tabSorted s.keys = true
  dbs : tabSorted s.dbs = true
  dbq : tabSorted s.dbq = true
  nor : tabSorted s.nor = true
  fuses : tabSorted s.sec.fuses = true

/-- A transfer of control from a word at `p` to `q` that R217 and R234 allow; `entry`: one that may reach a vendor entry. -/
def transferOk (p q : Nat) (entry : Bool) : Bool :=
  decide (q ≤ 0x1FFF) && (decide (p < 0x800) || decide (0x800 ≤ q) || (entry && decide (q < 0x40)))

/-- A step stops: it answers a fault or a refusal. -/
def Stops (s : State) : Prop := ∀ t, step s ≠ .next t

/-- Command `c` completes in `s`, in a next state of which `P` holds. -/
def Does (c : Instr) (s : State) (P : State → Prop) : Prop := ∃ t, exec c s = .next t ∧ P t

end Sys2Proof.Machine
end

