-- ==== Sys2Proof/Certificates/Slice0/Obligations.lean ====
section
/-! DEFINITION. What is claimed of the model: one proposition for each claim, chapter by chapter of the specification. -/

open Sys2Proof Sys2Proof.Machine

/-- Where a command c stands at the front of the queue, a step is exec of c on the state with the queue's rest. -/
def Obligations.StepRunsFrontCommand : Prop :=
  ∀ (c : Instr) (rest : List Instr) (s : State), s.pending = c :: rest → step s = exec c { s with pending := rest }

/-- On an empty queue a step answers the idle state, in which the queue is empty still and Furrow time is one tick (64 sub-ticks) later if ROOT runs and the same otherwise; where no PES capture record waits, nothing else has changed. That a tick passes on an empty queue is the model's choice, log 1, that a waiting capture record is served then is log 36; that time advances only while ROOT runs is R58. -/
def Obligations.IdleStepTicks : Prop :=
  ∀ s : State, s.pending = [] →
    step s = .next s.idle ∧ s.idle.pending = [] ∧ s.idle.time = (if s.rootRuns then s.time + 64 else s.time) ∧
    ((∀ a, a < 8 → (s.srvOf a).pcap = []) → s.idle = (if s.rootRuns then { s with time := s.time + 64 } else s))

/-- At reset the queue is empty, Furrow time is 0, the tracker is IDLE with N = 640, NOM_REV = 20,000,000 ft, every interrupt source is routed to no target at priority 0 but source 3 (FLT), which has target 8 at priority 15, every application core is held, the start-up stands at stage POR, no page is fenced or locked or enabled, and no buffer memory byte is listed. -/
def Obligations.ResetValues : Prop :=
  State.reset.pending = [] ∧ State.reset.time = 0 ∧ State.reset.mem = [] ∧ State.reset.trkState = 0 ∧ State.reset.wedgesN = 640 ∧
  State.reset.get pFUR FUR.NOM_REV = 20000000 * 64 ∧ State.reset.irqTarget 3 = 8 ∧ State.reset.irqPrio 3 = 15 ∧
  (∀ n : Fin 256, n.val ≠ 3 → State.reset.irqTarget n = 15 ∧ State.reset.irqPrio n = 0) ∧
  State.reset.get pSYS SYS.CORE_HOLD_HOLD = 0xFF ∧ State.reset.get pSYS SYS.BOOT_STAT_STAGE = 0 ∧
  (∀ p : Fin 352, State.reset.fenced p = false ∧ State.reset.locked p = false ∧ State.reset.enabled p = false)

/-- For every command and every state, exec answers a next state with the same queue and the same part: no command stops the block, none leaves a command behind. -/
def Obligations.EveryCommandCompletes : Prop :=
  ∀ (c : Instr) (s : State), Does c s fun t => t.pending = s.pending ∧ t.part = s.part

/-- Every table of the state after reset is sorted by its key, and buffer memory is in canonical form. The canonical form is the model's own. -/
def Obligations.ResetIsSound : Prop :=
  Sound State.reset

/-- From every sound state, a step that answers a next state leaves it sound: each table keeps its keys strictly rising, so that a key names one entry, and buffer memory keeps its canonical form. The canonical form is the model's own. -/
def Obligations.StepKeepsSound : Prop :=
  ∀ s t : State, Sound s → step s = .next t → Sound t

/-- From every sound state, whatever the command, every bit set in a fuse row before a step is set after it. -/
def Obligations.StepKeepsFuses : Prop :=
  ∀ s t : State, Sound s → step s = .next t → ∀ r b : Nat, bit (s.fuse r) b = true → bit (t.fuse r) b = true

/-- Setting a register makes it read as the value set, leaves every register of another key and every other part of the state unchanged, and setting a field changes no other field of its register; a write of bytes to buffer memory either is refused, and then every byte reads as before, or lands, and then the bytes at its address read as the bytes given and every other byte as before. -/
def Obligations.WritesReadBack : Prop :=
  ∀ s : State,
    (∀ (p off : Nat) (w : Word), (s.setReg p off w).reg p off = w ∧
      (∀ p' off', regKey p' off' ≠ regKey p off → (s.setReg p off w).reg p' off' = s.reg p' off') ∧
      (∃ r, s.setReg p off w = { s with regs := r }) ∧
      (∀ (f g : Fld) (v : Nat), f.lo + f.wd ≤ 32 → g.off = f.off →
        (s.put p f v).get p f = v % 2 ^ f.wd ∧ (g.lo + g.wd ≤ f.lo ∨ f.lo + f.wd ≤ g.lo → (s.put p f v).get p g = s.get p g))) ∧
    (∀ (m : Option Master) (a : Nat) (bs : List Byte),
      ((s.bufWrite m a bs).2 = false → ∀ x, (s.bufWrite m a bs).1.byte x = s.byte x) ∧
      ((s.bufWrite m a bs).2 = true →
        (∀ i (h : i < bs.length), (s.bufWrite m a bs).1.byte (a + i) = bs[i]) ∧
        (∀ x, x < a ∨ a + bs.length ≤ x → (s.bufWrite m a bs).1.byte x = s.byte x)))

/-- An access by a register master to a page that the part lacks, whatever its width, its offset and its kind, answers 0 without an error and changes nothing else (R6); the header commands on it change nothing; every present page reads a CLASS other than 0 in its ID, through its own read. -/
def Obligations.AbsentPage : Prop :=
  (∀ (m : Master) (w : Bool) (len : BitVec 4) (addr : BitVec 48) (v : BitVec 64) (s : State), s.regMaster m = true →
    0xF0000000 ≤ addr.toNat → addr.toNat < 0xF0200000 → s.present ((addr.toNat - 0xF0000000) / 4096) = false →
    exec (.registerWrite m w len addr v) s = .next { s with resp := { value := 0, err := false } }) ∧
  (∀ (m : Master) (p : Fin 352) (b : Bool) (v : Word) (l src : BitVec 2) (s : State), s.present p = false →
    exec (.enable m p b) s = .next s ∧ exec (.softReset m p b) s = .next s ∧ exec (.powerReq m p b) s = .next s ∧
    exec (.irqPendClear m p v) s = .next s ∧ exec (.fltForce m p v) s = .next s ∧ exec (.lock m p l) s = .next s ∧
    exec (.shadowArm m p b src) s = .next s) ∧
  (∀ (m : Master) (p : Fin 352) (s : State), s.regMaster m = true → s.present p = true → s.motSilent p = false →
    Does (.registerWrite m false 4 (BitVec.ofNat 48 (regAddr p 0)) 0) s fun t =>
      t.resp.err = false ∧ t.resp.value = pageId p ∧ pageId p / 65536 ≠ 0)

/-- Through REGISTER_WRITE by a register master to a present page that answers and is in no soft reset: a write of IRQ_EN stores it, a write of FLT_STAT clears the bits written 1, and both answer 0 and leave buffer memory; on a powered SRVa page a 32-bit write of a page-specific register stores its RW bits (and its RWL bits while LOCK is 0), keeps the rest, and clears W1C bits written 1; a 32-bit read or write of a page-specific register of a unit that is off answers 0, raises PWR FL0 with the master's identity and does nothing else (SEC's always-on NVS registers apart); a 16-bit access to a present page is refused through SYS ACCESS with an error response. -/
def Obligations.RegisterAccess : Prop :=
  ∀ (m : Master) (p off : Nat) (v : BitVec 64) (s : State), Sound s → s.regMaster m = true → p < 352 → s.present p = true →
    s.motSilent p = false → s.isResetting p = false →
    (Does (.registerWrite m true 4 (BitVec.ofNat 48 (regAddr p 0x14)) v) s fun t =>
      t.reg p 0x14 = v.setWidth 32 ∧ t.resp = { value := 0, err := false } ∧ ∀ a, t.byte a = s.byte a) ∧
    (Does (.registerWrite m true 4 (BitVec.ofNat 48 (regAddr p 0x1C)) v) s fun t =>
      t.reg p 0x1C = s.reg p 0x1C &&& ~~~ (v.setWidth 32) ∧ t.resp = { value := 0, err := false } ∧ ∀ a, t.byte a = s.byte a) ∧
    (0x40 ≤ off → off < 4096 → off % 4 = 0 → pageKind p = some .srv → s.powered p = true → accMask p off .rw ≠ 0 →
      Does (.registerWrite m true 4 (BitVec.ofNat 48 (regAddr p off)) v) s fun t =>
        t.reg p off = ((s.reg p off &&& ~~~ s.storeMask p off) ||| (v.setWidth 32 &&& s.storeMask p off)) &&& ~~~ (v.setWidth 32 &&& accMask p off .w1c)) ∧
    (0x40 ≤ off → off < 4096 → off % 4 = 0 → s.powered p = false → alwaysOn p off = false → s.commitDue p s.time = false →
      exec (.registerWrite m false 4 (BitVec.ofNat 48 (regAddr p off)) v) s = .next ((s.raiseBy pPWR 1 m 1 (regAddr p off)).answer 0) ∧
      Does (.registerWrite m true 4 (BitVec.ofNat 48 (regAddr p off)) v) s fun t =>
        t = (((s.latchLevels p).raiseBy pPWR 1 m 2 (regAddr p off)).answer 0)) ∧
    (off < 4096 → off % 4 = 0 → ∀ w : Bool, exec (.registerWrite m w 2 (BitVec.ofNat 48 (regAddr p off)) v) s =
      .next ((s.raiseAccess (some m) (if w then 2 else 1) (regAddr p off)).answerErr))

/-- A detection by a source of a present page sets its FLT_STAT bit and the FAULT bit of IRQ_PEND, changes no other register, no byte of memory and nothing else of the state, and puts one report with the page, the bit, the class and the level among FLT's reports; a page that is absent reports nothing; an access outside every region of the map, and one of the boot ROM by an application core, gets an error response and is reported through SYS ACCESS as MEM FL0 with the master and the address. -/
def Obligations.ReportsRaise : Prop :=
  (∀ (s : State) (p b cls lvl : Nat) (d : Detail), Sound s → p < 352 → faultGrade p b = some (cls, lvl) → s.present p = true →
    (s.raiseWith p b d).reg p 0x1C = s.reg p 0x1C ||| BitVec.ofNat 32 (2 ^ b) ∧
    (s.raiseWith p b d).reg p 0x18 = s.reg p 0x18 ||| BitVec.ofNat 32 (2 ^ 31) ∧
    (∀ p' o', regKey p' o' ≠ regKey p 0x1C → regKey p' o' ≠ regKey p 0x18 → (s.raiseWith p b d).reg p' o' = s.reg p' o') ∧
    (∃ r ∈ (s.raiseWith p b d).fltq, r.page = p ∧ r.bit = b ∧ r.cls = cls ∧ r.base = d.level.getD lvl ∧ r.sub = d.sub ∧ r.master = d.master ∧
      r.access = d.access ∧ r.addr = d.addr ∧ r.time = s.time) ∧
    (s.raiseWith p b d).fltq.length = s.fltq.length + 1 ∧
    (∃ r q, s.raiseWith p b d = { s with regs := r, fltq := q })) ∧
  (∀ (s : State) (p b : Nat) (d : Detail), s.present p = false → s.raiseWith p b d = s) ∧
  (∀ (m : Master) (w : Bool) (addr : BitVec 48) (len : BitVec 7) (s : State),
    (0x40000 ≤ addr.toNat ∧ addr.toNat < 0x10000000) ∨ (0x13000000 ≤ addr.toNat ∧ addr.toNat < 0x40000000) ∨
      (0x80000000 ≤ addr.toNat ∧ addr.toNat < 0xF0000000) ∨ (0xF0200000 ≤ addr.toNat ∧ addr.toNat < 0x100000000) ∨
      0x900000000 ≤ addr.toNat ∨ (addr.toNat < 0x40000 ∧ ∃ c, m = .core c) →
    exec (.refusedAccess m w addr len) s =
      .next ((s.raiseWith pSYS 0 { sub := match m with | .core c => some c.val | _ => none, master := m.code, access := if w then 2 else 1, addr := addr.toNat }).answerErr))

/-- On a page that takes header writes: ENABLE = 1 on a powered, unfenced page sets ENABLE and starts the unit as its chapter says, and changes nothing where POWER_ACK is 0 or the page is fenced; on every page but MDC (which writes its lines back on its way into bypass) it ends with ENABLE at 1 and buffer memory as before; ENABLE = 0 on any page but SPN clears ENABLE and stops the unit as its chapter says; POWER_REQ is ignored on always-on pages, requests the domain, and withdraws it unless one of its pages is enabled or a gate's close is held; a withdrawal of what is not requested changes nothing. -/
def Obligations.EnableAndPower : Prop :=
  ∀ (m : Master) (p : Fin 352) (s : State), Sound s → s.present p = true → s.isResetting p = false → s.motSilent p = false →
    (s.powered p = true → s.fenced p = false → s.enabled p = false →
      exec (.enable m p true) s = .next ((s.put p HDR.CTRL_ENABLE 1).unitEnabled p)) ∧
    (s.powered p = true → s.fenced p = false → pageKind p ≠ some .mdc →
      Does (.enable m p true) s fun t => t.enabled p = true ∧ ∀ a, t.byte a = s.byte a) ∧
    (s.powered p = false ∨ s.fenced p = true → exec (.enable m p true) s = .next s) ∧
    (p.val ≠ pSPN → s.enabled p = true → exec (.enable m p false) s = .next ((s.put p HDR.CTRL_ENABLE 0).unitDisabled p)) ∧
    (s.enabled p = false → exec (.enable m p false) s = .next s) ∧
    (pageDom p = none → ∀ b, exec (.powerReq m p b) s = .next s) ∧
    (∀ d, pageDom p = some d →
      exec (.powerReq m p true) s = .next (s.domRequest d) ∧
      ((∃ q ∈ domPages d, s.enabled q = true) ∨ s.closeHeld d = true → exec (.powerReq m p false) s = .next s) ∧
      ((∀ q ∈ domPages d, s.enabled q = false) → s.closeHeld d = false → (s.domOf d).req = true →
        exec (.powerReq m p false) s = .next (s.domWithdraw d)) ∧
      ((s.domOf d).req = false → exec (.powerReq m p false) s = .next s))

/-- A write of IRQ_PEND keeps a latched bit that the write leaves 0, clears one written 1 whose source is inactive, and every active source is latched after it; FLT_FORCE does nothing under FORCE_LOCK, and a write of one bit forces that source; a write of LOCK sets bits and clears none, during a soft reset too. -/
def Obligations.HeaderLatches : Prop :=
  ∀ (m : Master) (p : Fin 352) (s : State), Sound s → s.present p = true → s.motSilent p = false →
    (s.isResetting p = false → ∀ v : Word, Does (.irqPendClear m p v) s fun t => ∀ b, b < 32 →
      (t.reg p 0x18).getLsbD b = (((s.reg p 0x18).getLsbD b && !v.getLsbD b) || (s.irqLevels p).testBit b)) ∧
    (s.isResetting p = false → s.on p HDR.LOCK_FORCE_LOCK = true → ∀ v, exec (.fltForce m p v) s = .next s) ∧
    (s.isResetting p = false → s.on p HDR.LOCK_FORCE_LOCK = false → ∀ b : Fin 32,
      exec (.fltForce m p (BitVec.ofNat 32 (2 ^ b.val))) s = .next (s.forceFault p b)) ∧
    (∀ v, exec (.lock m p v) s = .next (s.setReg p 0x30 (s.reg p 0x30 ||| v.setWidth 32)))

/-- A write of SOFT_RESET to a present page that the die-to-die link reaches, outside a soft reset, first applies its POWER_REQ field, then performs the page's soft reset and leaves the page resetting. With POWER_REQ as it stands, ENABLE is then 0 on every page but SPN and FLT; IRQ_EN, IRQ_PEND, SHADOW_TIME and all of SHADOW_CTL but EPOCH are 0 on every page but SPN, FLT, MOT, NVS and SEC; on the SRVa and PRFa pages every page-specific register holds its reset value, and LOCK, FLT_STAT, FENCE, the time and buffer memory are unchanged; on FLT, IRQ_EN, IRQ_PEND and the register at 0x60 are 0 and no other register changes. A second SOFT_RESET during it applies its POWER_REQ field alone. The end of the reset takes the page, and no other, out of it, and on every page but NVS and HIFp does nothing else; outside a soft reset it does nothing. -/
def Obligations.SoftReset : Prop :=
  (∀ (m : Master) (p : Fin 352) (pr : Bool) (s : State), s.present p = true → (s.writePower p pr).motSilent p = false →
    (s.writePower p pr).isResetting p = false →
    exec (.softReset m p pr) s = .next { (s.writePower p pr).softReset p with resetting := (s.writePower p pr).resetting ++ [p.val] }) ∧
  (∀ (m : Master) (p : Fin 352) (s : State), Sound s → s.present p = true → s.motSilent p = false → s.isResetting p = false →
    Does (.softReset m p (s.powerReq p)) s fun t =>
      t.isResetting p = true ∧
      (p.val ≠ pSPN → p.val ≠ pFLT → t.enabled p = false) ∧
      (p.val ≠ pSPN → p.val ≠ pFLT → p.val ≠ pMOT → p.val ≠ pNVS → p.val ≠ pSEC →
        t.reg p 0x14 = 0 ∧ t.reg p 0x18 = 0 ∧ t.reg p 0x2C = 0 ∧ t.reg p 0x28 &&& ~~~ HDR.SHADOW_CTL_EPOCH.mask = 0) ∧
      (pageKind p = some .srv ∨ pageKind p = some .prf →
        t.reg p 0x30 = s.reg p 0x30 ∧ t.reg p 0x1C = s.reg p 0x1C ∧ t.reg p 0x24 = s.reg p 0x24 ∧ t.time = s.time ∧ (∀ a, t.byte a = s.byte a) ∧
        ∀ off, 0x40 ≤ off → off < 4096 → t.reg p off = resetOf p off) ∧
      (p.val = pFLT → t.reg pFLT 0x14 = 0 ∧ t.reg pFLT 0x18 = 0 ∧ t.reg pFLT 0x60 = 0 ∧
        ∀ q off, regKey q off ≠ regKey pFLT 0x14 → regKey q off ≠ regKey pFLT 0x18 → regKey q off ≠ regKey pFLT 0x60 → t.reg q off = s.reg q off)) ∧
  (∀ (m : Master) (p : Fin 352) (pr : Bool) (s : State), s.present p = true → (s.writePower p pr).isResetting p = true →
    exec (.softReset m p pr) s = .next (s.writePower p pr)) ∧
  (∀ (p : Fin 352) (s : State),
    (s.isResetting p = true → Does (.softResetDone p) s fun t => t.isResetting p = false ∧ (∀ q, q ≠ p.val → t.isResetting q = s.isResetting q) ∧
      (pageKind p ≠ some .nvs → pageKind p ≠ some .hif → ∃ r, t = { s with resetting := r })) ∧
    (s.isResetting p = false → exec (.softResetDone p) s = .next s))

/-- On a SYS page in no soft reset, a read of IRQ_CLAIMc answers VALID and the eligible source with the highest priority, the lowest number on a tie, and claims it, so that it is not eligible at any target; it answers 0 and claims nothing where none is eligible; a write of a source to IRQ_DONEc releases its claim and nothing else. -/
def Obligations.InterruptRouter : Prop :=
  ∀ (m : Master) (c : Fin 9) (s : State), s.isResetting pSYS = false →
    ((∀ n, n < 192 → s.irqEligible c n = false) → exec (.irqClaim m c) s = .next (s.answer 0)) ∧
    (∀ n, n < 192 → s.irqEligible c n = true →
      (∀ k, k < 192 → s.irqEligible c k = true → s.irqPrio k < s.irqPrio n ∨ (s.irqPrio k = s.irqPrio n ∧ n ≤ k)) →
      Does (.irqClaim m c) s fun t =>
        t.resp = { value := 2 ^ 31 + n, err := false } ∧ (∀ c', t.irqEligible c' n = false) ∧ (∃ l x, t = { s with claims := l, resp := x })) ∧
    (∀ n : BitVec 8, Does (.irqDone m c n) s fun t =>
      t.claims.any (fun x => decide (x.1 = n.toNat)) = false ∧ (∀ x ∈ s.claims, x.1 ≠ n.toNat → x ∈ t.claims) ∧ ∃ l, t = { s with claims := l })

/-- On a shadowed page out of soft reset whose ARM is 0 and whose commit is not due, outside its commit cycle: arming with source NOW sets ARM and a commit in the FCLK cycle that begins at the next edge (a multiple of 192 sub-ticks); arming with source TIME sets ARM and a commit in the first FCLK cycle at or after SHADOW_TIME, or, where SHADOW_TIME lies in the past, in the next one with LATE set and DL FL0 raised; arming with source DRILL sets ARM alone; disarming and the reserved source leave ARM at 0 and arm no commit. In the commit cycle itself an arming with source NOW commits one FCLK cycle later. A commit that is due copies what its page copies; of an HCHh page every shadowed register, ZPT_SEL among them, then holds its shadow copy, ARM is clear, EPOCH has counted one modulo 256 and the shadow copies and buffer memory keep their values. With no commit due the command changes nothing. -/
def Obligations.ShadowCommit : Prop :=
  (∀ (m : Master) (p : Fin 352) (s : State), Sound s → s.present p = true → s.isResetting p = false → hasShadow p = true →
    s.commitDue p s.time = false → s.on p HDR.SHADOW_CTL_ARM = false →
    (s.inCommit p = false → Does (.shadowArm m p true 2) s fun t => t.on p HDR.SHADOW_CTL_ARM = true ∧ t.get p HDR.SHADOW_CTL_SRC = 2 ∧
      t.commitTime p = (s.time / 192 + 1) * 192 + 1) ∧
    (s.inCommit p = true → Does (.shadowArm m p true 2) s fun t => t.on p HDR.SHADOW_CTL_ARM = true ∧ t.commitTime p = (s.time / 192 + 2) * 192 + 1) ∧
    (s.inCommit p = false → 0 ≤ (s.reg p 0x2C - BitVec.ofNat 32 s.time).toInt →
      Does (.shadowArm m p true 0) s fun t => t.on p HDR.SHADOW_CTL_ARM = true ∧
        t.commitTime p = edgeAfter (s.time + (s.reg p 0x2C - BitVec.ofNat 32 s.time).toInt.toNat) + 1) ∧
    (s.inCommit p = false → (s.reg p 0x2C - BitVec.ofNat 32 s.time).toInt < 0 →
      Does (.shadowArm m p true 0) s fun t => t.on p HDR.SHADOW_CTL_ARM = true ∧ t.on p HDR.SHADOW_CTL_LATE = true ∧
        t.commitTime p = (s.time / 192 + 1) * 192 + 1 ∧ (t.reg p 0x1C).getLsbD 30 = true) ∧
    (Does (.shadowArm m p true 1) s fun t => t.on p HDR.SHADOW_CTL_ARM = true ∧ t.get p HDR.SHADOW_CTL_SRC = 1 ∧ t.commitAt = s.commitAt) ∧
    (∀ b src, b = false ∨ src = 3 → Does (.shadowArm m p b src) s fun t => t.on p HDR.SHADOW_CTL_ARM = false ∧ t.commitAt = s.commitAt)) ∧
  (∀ (p : Fin 352) (s : State), s.commitDue p s.time = true → exec (.shadowCommit p) s = .next (s.commitPage p (s.commitTime p - 1))) ∧
  (∀ (p : Fin 352) (s : State), Sound s → 0x100 ≤ p.val → s.commitDue p s.time = true →
    Does (.shadowCommit p) s fun t =>
      (∀ off ∈ shadowOffs p, t.reg p off = s.shadowReg p off) ∧ 0x40 ∈ shadowOffs p ∧ t.shadow = s.shadow ∧ t.on p HDR.SHADOW_CTL_ARM = false ∧
      t.get p HDR.SHADOW_CTL_EPOCH = (s.get p HDR.SHADOW_CTL_EPOCH + 1) % 256 ∧ t.commitTime p = 0 ∧ ∀ a, t.byte a = s.byte a) ∧
  (∀ (p : Fin 352) (s : State), s.commitDue p s.time = false → exec (.shadowCommit p) s = .next s)

/-- RST_CTRL.WARM written with KEY 0x57A4 by the boot-and-safety core after DONE asks for the software warm reset and before DONE sets WARM_REFUSED alone; another KEY or master raises SEQ FL0 through SYS and does nothing else; the JTAG reset command asks for a warm reset after DONE while debug is unlocked, and does nothing while it is locked. -/
def Obligations.WarmResetRequests : Prop :=
  ∀ (m : Master) (key : BitVec 16) (w : Bool) (s : State), s.isResetting pSYS = false →
    (s.on pSYS SYS.BOOT_STAT_DONE = true → exec (.rstCtrlWarm .bsc 0x57A4 true) s = .next { s with warmReq := some 1 }) ∧
    (s.on pSYS SYS.BOOT_STAT_DONE = false → exec (.rstCtrlWarm .bsc 0x57A4 true) s = .next (s.put pSYS SYS.BOOT_STAT_WARM_REFUSED 1)) ∧
    exec (.rstCtrlWarm .bsc 0x57A4 false) s = .next s ∧
    (m ≠ .bsc ∨ key ≠ 0x57A4 → exec (.rstCtrlWarm m key w) s = .next (s.raiseBy pSYS 16 m 2 0xF0000044)) ∧
    (s.on pSEC SEC.DBG_STAT_UNLOCKED = true → s.on pSYS SYS.BOOT_STAT_DONE = true →
      exec .jtagWarmReset s = .next { s with warmReq := some 2 }) ∧
    (s.on pSEC SEC.DBG_STAT_UNLOCKED = false → exec .jtagWarmReset s = .next s)

/-- A logic-die power-on reset zeroes Furrow time, empties buffer memory, the Drill queues, the head channels' read and write paths, the key slots, the interrupt claims, the DMA channels, the host ports, the watchdog and ALIVE, keeps the NOR contents and the fuses, and leaves every register of every page but FUR, SPN and MOT at its reset value. A motion-die power-on reset needs both supplies below 3.0 V and does nothing otherwise; with both below it returns every page-specific register of SPN and MOT to its reset value, sets RST_CAUSE.MOTION_POR and leaves the time, buffer memory and the Drill queues. A warm reset does nothing unless one was asked for; one that was starts again at stage FILL with its cause set in RST_CAUSE, and leaves no fence report, no fenced sub-unit, no Drill entry, no DMA channel, no key, no watchdog, no ALIVE, no request and no byte of DRAM; where nothing is in flight (no head path, no DMA channel, no host port, no flash operation or read) it keeps Furrow time, the fuses, the NOR contents, every byte below DRAM and the Dill stores. -/
def Obligations.Resets : Prop :=
  (∀ (b : Bool) (s : State), Sound s → Does (.powerOnReset b) s fun t =>
    t.time = 0 ∧ t.mem = [] ∧ t.drl = [] ∧ t.rdh = [] ∧ t.wrh = [] ∧ t.keys = [] ∧ t.claims = [] ∧ t.dma = [] ∧ t.ports = [] ∧
    t.wdog = none ∧ t.aliveStart = none ∧ t.nor = s.nor ∧ t.sec.fuses = s.sec.fuses ∧
    ∀ p off, p < 352 → off < 4096 → p ≠ pFUR → p ≠ pSPN → p ≠ pMOT → t.reg p off = resetOf p off) ∧
  (∀ (v5 vh : BitVec 16) (s : State), 3000 ≤ v5.toNat ∨ 3000 ≤ vh.toNat → exec (.motionPowerOnReset v5 vh) s = .next s) ∧
  (∀ (v5 vh : BitVec 16) (s : State), Sound s → v5.toNat < 3000 → vh.toNat < 3000 → Does (.motionPowerOnReset v5 vh) s fun t =>
    (∀ off, 0x40 ≤ off → off < 4096 → t.reg pSPN off = resetOf pSPN off ∧ t.reg pMOT off = resetOf pMOT off) ∧
    t.get pSYS ⟨0x40, 3, 1⟩ = 1 ∧ t.time = s.time ∧ t.mem = s.mem ∧ t.drl = s.drl) ∧
  (∀ s : State, s.warmReq = none → exec .warmReset s = .next s) ∧
  (∀ (s : State) (b : Nat), Sound s → s.warmReq = some b → b < 32 → Does .warmReset s fun t =>
    t.get pSYS SYS.BOOT_STAT_STAGE = 3 ∧ t.get pSYS ⟨0x40, b, 1⟩ = 1 ∧ t.drl = [] ∧ t.dma = [] ∧ t.keys = [] ∧ t.fltq = [] ∧ t.subFence = [] ∧
    t.wdog = none ∧ t.aliveStart = none ∧ t.warmReq = none ∧ (∀ c ∈ t.mem, c.1 < 0x100000000)) ∧
  (∀ (s : State) (b : Nat), Sound s → s.warmReq = some b → s.rdh = [] → s.wrh = [] → s.dma = [] → s.ports = [] → s.nvs.op = none → s.nvs.susp = none →
    s.nvs.reads = [] → Does .warmReset s fun t =>
      t.time = s.time ∧ t.sec.fuses = s.sec.fuses ∧ t.nor = s.nor ∧ (∀ x, x < 0x100000000 → t.byte x = s.byte x) ∧
      ∀ a, (t.dilOf a).micro = (s.dilOf a).micro ∧ (t.dilOf a).nano = (s.dilOf a).nano ∧ (t.dilOf a).dmem = (s.dilOf a).dmem)

/-- OSC_STABLE at stage POR with no TEST ball held ends the stage (stage CLOCK), at a later stage it sets the oscillator stable alone, and with a TEST ball held or the oscillator stable already it does nothing. PLL_LOCK at stage CLOCK with the oscillator stable sets LOCKED and LOCK_TIME, latches CLK's interrupt bit 0 and starts stage FUSE; a relock sets LOCKED and LOCK_TIME, clears HOLDOVER, latches the same bit and leaves the stage; PLL_LOCK does nothing with no relock due and the oscillator not stable, ROOT running or another stage. XTAL_LOSS and LOCK_LOSS with ROOT running put the PLL in holdover with FURROW_SUSPECT and raise CLK FL4 through CLK's bits 1 and 0; a counter mismatch raises CLK FL4 through FUR's bit 3. -/
def Obligations.ClockStart : Prop :=
  faultGrade pCLK 0 = some (13, 4) ∧ faultGrade pCLK 1 = some (13, 4) ∧ faultGrade pFUR 3 = some (13, 4) ∧
  ∀ s : State, Sound s →
    (s.oscStable = false → s.testHeld = false → s.get pSYS SYS.BOOT_STAT_STAGE = 0 →
      Does .oscStable s fun t => t.oscStable = true ∧ t.get pSYS SYS.BOOT_STAT_STAGE = 1 ∧ t.time = s.time) ∧
    (s.oscStable = false → s.testHeld = false → s.get pSYS SYS.BOOT_STAT_STAGE ≠ 0 → exec .oscStable s = .next { s with oscStable := true }) ∧
    (s.testHeld = true ∨ s.oscStable = true → exec .oscStable s = .next s) ∧
    (∀ us : BitVec 16, s.relock = false → s.oscStable = true → s.get pSYS SYS.BOOT_STAT_STAGE = 1 → s.rootRuns = false →
      Does (.pllLock us) s fun t => t.rootRuns = true ∧ t.on pCLK CLK.PLL_STAT_LOCKED = true ∧ (t.reg pCLK 0x18).getLsbD 0 = true ∧
        t.get pCLK CLK.PLL_STAT_LOCK_TIME = us.toNat ∧ t.get pSYS SYS.BOOT_STAT_STAGE = 2 ∧ t.time = s.time) ∧
    (∀ us : BitVec 16, s.relock = true →
      Does (.pllLock us) s fun t => t.relock = false ∧ t.on pCLK CLK.PLL_STAT_LOCKED = true ∧ t.on pCLK CLK.PLL_STAT_HOLDOVER = false ∧
        (t.reg pCLK 0x18).getLsbD 0 = true ∧ t.get pCLK CLK.PLL_STAT_LOCK_TIME = us.toNat ∧
        t.get pSYS SYS.BOOT_STAT_STAGE = s.get pSYS SYS.BOOT_STAT_STAGE ∧ t.time = s.time) ∧
    (∀ us : BitVec 16, s.relock = false → s.oscStable = false ∨ s.rootRuns = true ∨ s.get pSYS SYS.BOOT_STAT_STAGE ≠ 1 → exec (.pllLock us) s = .next s) ∧
    (s.rootRuns = true → exec .xtalLoss s = .next ((s.clockLoss 1).raise pCLK 1) ∧ exec .lockLoss s = .next ((s.clockLoss 0).raise pCLK 0)) ∧
    (∀ b, b < 2 → (s.clockLoss b).on pCLK CLK.PLL_STAT_LOCKED = false ∧ (s.clockLoss b).on pCLK CLK.PLL_STAT_HOLDOVER = true ∧
      (s.clockLoss b).on pCLK CLK.PLL_STAT_FURROW_SUSPECT = true ∧ (s.clockLoss b).rootRuns = true) ∧
    exec .counterMismatch s = .next (s.raise pFUR 3)

/-- A read of TIME_LO answers Furrow time [31:0]; the reading master's TIME_HI then holds bits [63:32]; while the angle is valid or extrapolated its ANG_WEDGE holds VALID, the wedge index and the fraction of the instant and its ANG_REV the revolution count; while the angle is invalid both hold 0 (that they hold 0 then is the model's choice, log 114); no other register, no other copy of this or another master and no byte of memory changes. -/
def Obligations.TimeRead : Prop :=
  ∀ (m : Master) (s : State), Sound s → Does (.timeLoRead m) s fun t =>
    t.resp = { value := s.time % 2 ^ 32, err := false } ∧ t.mreg m pFUR 0x44 = BitVec.ofNat 32 (s.time / 2 ^ 32) ∧
    (s.angleOk = false → t.mreg m pFUR 0x48 = 0 ∧ t.mreg m pFUR 0x4C = 0) ∧
    (s.angleOk = true → t.mreg m pFUR 0x48 = BitVec.ofNat 32 (2 ^ 31 + s.angIndex s.time * 2 ^ 16 + s.angFrac s.time) ∧
      t.mreg m pFUR 0x4C = BitVec.ofNat 32 (s.angRev s.time)) ∧
    (∀ p off, p < 512 → off < 4096 → regKey p off ≠ regKey pFUR 0x44 → regKey p off ≠ regKey pFUR 0x48 → regKey p off ≠ regKey pFUR 0x4C →
      t.mreg m p off = s.mreg m p off) ∧
    (∀ m' p off, m'.code ≠ m.code → p < 512 → off < 4096 → t.mreg m' p off = s.mreg m' p off) ∧ t.regs = s.regs ∧ t.mem = s.mem

/-- With FUR in no soft reset: a value that is not a multiple of 4, that lies outside 256 to 1,024, or that arrives while STATE is not IDLE leaves N unchanged, sets CFG_ERR (the page's FLT_STAT bit 0, which STAT shows) and raises CLK FL0; any other value becomes N and raises nothing. -/
def Obligations.WedgesWrite : Prop :=
  ∀ (m : Master) (n : BitVec 11) (s : State), Sound s → s.isResetting pFUR = false →
    (n.toNat % 4 = 0 → 256 ≤ n.toNat → n.toNat ≤ 1024 → s.get pFUR FUR.TRK_STAT_STATE = 0 →
      exec (.wedges m n) s = .next (s.put pFUR FUR.WEDGES_N n.toNat) ∧ (s.put pFUR FUR.WEDGES_N n.toNat).get pFUR FUR.WEDGES_N = n.toNat) ∧
    (n.toNat % 4 ≠ 0 ∨ n.toNat < 256 ∨ 1024 < n.toNat ∨ s.get pFUR FUR.TRK_STAT_STATE ≠ 0 →
      Does (.wedges m n) s fun t => t.get pFUR FUR.WEDGES_N = s.get pFUR FUR.WEDGES_N ∧ (t.reg pFUR 0x1C).getLsbD 0 = true ∧
        t.statPage pFUR / 2 ^ 19 % 2 = 1 ∧
        ∃ r ∈ t.fltq, r.page = pFUR ∧ r.bit = 0 ∧ r.cls = 13 ∧ r.base = 0)

/-- Clearing TRACK_EN takes the tracker to IDLE and clears NO_LOCK; setting it in IDLE with FUR enabled and the spindle at speed enters ACQUIRE. A wedge's measurements in IDLE or LOST change no register; in ACQUIRE they give the wedge that most of them name, with their mean time, as the newest of the run, and with none the run ends; in TRACK, LOCKED and HOLDOVER the phase becomes the prediction plus KP times the error of the mean and the period gains KI times it where some measurement names the expected wedge (in HOLDOVER only an error up to UNLOCK_THR), else the phase becomes the prediction, the period stays and MISS_WEDGES counts. Three consecutive good wedges take ACQUIRE to TRACK with the phase of the third wedge and the mean of the two spacings as period; LOCK_COUNT good wedges take TRACK or HOLDOVER to LOCKED and clear NO_LOCK; two bad wedges take LOCKED to HOLDOVER with CLK FL0; HOLD_MAX wedges take HOLDOVER to LOST with CLK FL3 unless LOCK_COUNT good ones were reached at the same wedge; two missing wedges, or a disagreeing one, take TRACK to ACQUIRE; without LOCKED for 2 · NOM_REV since ACQUIRE, NO_LOCK is set and CLK FL0 raised, and not again while it is told. -/
def Obligations.TrackerStates : Prop :=
  faultGrade pFUR 1 = some (13, 0) ∧ faultGrade pFUR 2 = some (13, 3) ∧ faultGrade pFUR 4 = some (13, 0) ∧
  ∀ (m : Master) (s : State), Sound s → s.isResetting pFUR = false →
    (Does (.trackEn m false) s fun t => t.trkState = 0 ∧ t.get pFUR FUR.TRK_STAT_NO_LOCK = 0 ∧ t.on pFUR FUR.TRK_CTRL_TRACK_EN = false) ∧
    (s.trkState = 0 → s.enabled pFUR = true → s.on pSPN SPN.SPN_STAT_AT_SPEED = true →
      Does (.trackEn m true) s fun t => t.trkState = 1 ∧ t.trk.acqStart = s.time ∧ t.trk.acq = []) ∧
    (s.trkState = 0 ∨ s.trkState = 5 → exec .wedgeMeasurement s = .next { s with meas := [] }) ∧
    (s.trkState = 1 → votedIndex s.refMeas = none → Does .wedgeMeasurement s fun t => t.trkState = 1 ∧ t.trk.acq = [] ∧ t.meas = []) ∧
    (∀ i, s.trkState = 1 → votedIndex s.refMeas = some i → Does .wedgeMeasurement s fun t =>
      t.trkState = 1 ∧ t.trk.acq.head? = some (meanTime (s.refMeas.filter (fun x => decide (x.wedge = i))), i) ∧ t.meas = []) ∧
    (∀ us e, 2 ≤ s.trkState → s.trkState ≤ 4 → us = s.refMeas.filter (fun x => decide (x.wedge = (s.trk.idx + 1) % s.wedgesN)) →
      e = meanTime us - (s.trk.phase + s.trk.period) → us ≠ [] →
      s.trkState ≠ 4 ∨ ((if 0 ≤ e then e else -e) ≤ (s.get pFUR FUR.LOCK_CFG_UNLOCK_THR : Rat)) → Does .wedgeMeasurement s fun t =>
        t.trkState = s.trkState ∧ t.trk.idx = (s.trk.idx + 1) % s.wedgesN ∧
        t.trk.phase = s.trk.phase + s.trk.period + (s.get pFUR FUR.TRK_GAIN_KP : Rat) / 65536 * e ∧
        t.trk.period = s.trk.period + (s.get pFUR FUR.TRK_GAIN_KI : Rat) / 16777216 * e ∧ t.meas = []) ∧
    (2 ≤ s.trkState → s.trkState ≤ 4 → s.refMeas.filter (fun x => decide (x.wedge = (s.trk.idx + 1) % s.wedgesN)) = [] → Does .wedgeMeasurement s fun t =>
      t.trkState = s.trkState ∧ t.trk.phase = s.trk.phase + s.trk.period ∧ t.trk.period = s.trk.period ∧
      t.get pFUR FUR.MISS_WEDGES = min (s.get pFUR FUR.MISS_WEDGES + 1) (2 ^ FUR.MISS_WEDGES.wd - 1)) ∧
    (∀ t2 i2 t1 i1 t0 i0, s.trkState = 1 → s.trk.acq = [(t2, i2), (t1, i1), (t0, i0)] →
      Does .trackerEnterTrack s fun t => t.trkState = 2 ∧ t.trk.phase = t2 ∧ t.trk.period = (t2 - t0) / 2 ∧ t.trk.idx = i2 ∧ t.mem = s.mem) ∧
    (s.trkState = 2 ∨ s.trkState = 4 → s.lockCount ≤ s.trk.good →
      Does .trackerLocked s fun t => t.trkState = 3 ∧ t.get pFUR FUR.TRK_STAT_NO_LOCK = 0 ∧ t.trk.phase = s.trk.phase ∧ t.trk.period = s.trk.period) ∧
    (s.trkState = 3 → 2 ≤ s.trk.bad → Does .trackerHoldover s fun t =>
      t.trkState = 4 ∧ t.get pSPN SPN.SPN_STAT_FINE = 0 ∧ (t.reg pFUR 0x1C).getLsbD 1 = true ∧ t.trk.phase = s.trk.phase) ∧
    (s.trkState = 4 → s.holdMax ≤ s.trk.hold → s.trk.good < s.lockCount →
      Does .trackerLost s fun t => t.trkState = 5 ∧ (t.reg pFUR 0x1C).getLsbD 2 = true) ∧
    (s.trkState = 4 → s.lockCount ≤ s.trk.good → exec .trackerLost s = .next s) ∧
    (s.trkState = 2 → 2 ≤ s.trk.miss ∨ s.trk.disagree = true →
      Does .trackToAcquire s fun t => t.trkState = 1 ∧ t.trk.acq = [] ∧ t.trk.acqStart = s.trk.acqStart) ∧
    (s.trkState = 1 ∨ s.trkState = 2 → s.trk.noLockTold = false → s.trk.acqStart + 2 * s.get pFUR FUR.NOM_REV ≤ s.time →
      Does .acqTimeout s fun t => t.get pFUR FUR.TRK_STAT_NO_LOCK = 1 ∧ t.trk.noLockTold = true ∧ (t.reg pFUR 0x1C).getLsbD 4 = true) ∧
    (s.trk.noLockTold = true → exec .acqTimeout s = .next s)

/-- For a master that owns enqueue words, on a powered queue page in no soft reset, the write of ENQ_W3 makes a direct enqueue of its four words; another master's write does nothing. Where no commit of the page is due, no batch waits and no request that this one goes before was taken in this FCLK cycle: with HOLD_ENQ at 1 or ENABLE at 0 the result is STOPPED; otherwise the checks of R82 run on the entry as resolved now with MIN_LEAD 48 ft, and an accepted entry joins the end of the queue with DONE, RESULT 0 and its slot in the master's ENQ_STAT, while a refused one leaves the queue's entries as they were and reports DETAIL and RESULT; no byte of memory changes. Where one request taken in this cycle stands behind it in the order of R227, that one is withdrawn, this one taken, and that one put back. -/
def Obligations.DirectEnqueue : Prop :=
  ∀ (m : Master) (d : Fin 9) (w3 : Word) (s : State), Sound s → s.present (drlPage d) = true → s.powered (drlPage d) = true →
    s.isResetting (drlPage d) = false →
    (ownsEnq m d = false → exec (.directEnqueue m d w3) s = .next s) ∧
    (ownsEnq m d = true → exec (.directEnqueue m d w3) s =
      .next (s.directEnqueue m d (s.mreg m (drlPage d) 0x40) (s.mreg m (drlPage d) 0x44) (s.mreg m (drlPage d) 0x48) w3)) ∧
    (ownsEnq m d = true → s.commitDue (drlPage d) s.time = false → (s.drlOf d).batch = none →
      (∀ r ∈ s.reqsOf d (s.time / 192), r.rank ≤ enqRank m) →
      (s.on (drlPage d) DRL.Q_CTRL_HOLD_ENQ = true ∨ s.enabled (drlPage d) = false →
        Does (.directEnqueue m d w3) s fun t => t.mreg m (drlPage d) 0x50 = 0x80000004 ∧ (t.drlOf d).ents = (s.drlOf d).ents ∧ t.mem = s.mem) ∧
      (s.on (drlPage d) DRL.Q_CTRL_HOLD_ENQ = false → s.enabled (drlPage d) = true →
        ∀ e v, e = s.makeEntry d (s.mreg m (drlPage d) 0x40) (s.mreg m (drlPage d) 0x44) (s.mreg m (drlPage d) 0x48) w3 s.time (48 * 64) →
          v = s.admitCheck d e s.time (48 * 64) s.allEntries (s.drlOf d).used →
          (v.result = 0 → Does (.directEnqueue m d w3) s fun t =>
            (∃ slot slotC, (t.drlOf d).ents = (s.drlOf d).ents ++ [{ e with seq := (s.drlOf d).seq, slot := slot, slotC := slotC }] ∧
              t.mreg m (drlPage d) 0x50 = BitVec.ofNat 32 (2 ^ 31 + slot * 2 ^ 16)) ∧ t.mem = s.mem) ∧
          (v.result ≠ 0 → Does (.directEnqueue m d w3) s fun t => (t.drlOf d).ents = (s.drlOf d).ents ∧ t.mem = s.mem ∧
            t.mreg m (drlPage d) 0x50 = BitVec.ofNat 32 (2 ^ 31 + v.detail * 256 + v.result)))) ∧
    (∀ r, ownsEnq m d = true → s.commitDue (drlPage d) s.time = false → (s.drlOf d).batch = none → s.reqsOf d (s.time / 192) = [r] → enqRank m < r.rank →
      exec (.directEnqueue m d w3) s = .next (((s.withdraw d (s.time / 192) [] [r]).takeReq d { rank := enqRank m, master := m, w0 := s.mreg m (drlPage d) 0x40, w1 := s.mreg m (drlPage d) 0x44, w2 := s.mreg m (drlPage d) 0x48, w3 := w3, now := s.time }).putBack d r))

/-- If the checks of R82 accept an entry, then its action and target are allowed on the queue, every unit it acts on is present, powered and unfenced, a serialised action has SLACK, an ANGLE entry is enqueued while the tracker holds an angle, a lane action lies at least MIN_LEAD ahead, a gate closes after it opens and within 1,048,576 ft, no admitted gate pair of its head overlaps it but a background read under a foreground gate, and a write pair keeps 48 heads device-wide and 12 on the actuator at every instant; an action code outside the table is refused as BAD_ACTION and a serialised action with SLACK 0 as BAD_SLACK. -/
def Obligations.AdmittedEntryIsSafe : Prop :=
  (∀ (s : State) (d : Nat) (e : Entry) (now lead : Int) (others : List (Nat × Entry)) (used : Nat),
    (s.admitCheck d e now lead others used).result = 0 →
    ∃ us, drillUnits d e.action e.target e.arg = some us ∧ (∀ p ∈ us, s.present p = true ∧ s.powered p = true ∧ s.fenced p = false) ∧
      (e.serial = true → e.slack ≠ 0) ∧ (e.angle = true → s.angleOk = true) ∧ e.t - now < 2 ^ 31 ∧
      (e.serial = false → now + lead ≤ e.t) ∧ (e.serial = true → now + lead < e.t + e.slack) ∧
      (e.gate = true → e.t < e.c ∧ e.c - e.t ≤ 1048576 * 64) ∧
      (∀ x ∈ others, x.1 = d → clashes e x.2 = false) ∧
      (e.action = aWG → writeFits (others.filter (fun x => x.2.action = aWG)) d e = true) ∧
      used + e.slots ≤ drlCap d) ∧
  (∀ (s : State) (d : Nat) (e : Entry) (now lead : Int) (others : List (Nat × Entry)) (used : Nat),
    (e.action = 0 ∨ 10 < e.action ∨ (d < 8 ∧ e.action = aSPN) ∨ (d < 8 ∧ 12 ≤ e.target ∧ (e.gate = true ∨ e.action = aMAOFS)) →
      s.admitCheck d e now lead others used = { result := 1, detail := 7, fault := some 2 })) ∧
  (∀ (s : State) (d : Nat) (e : Entry) (now lead : Int) (others : List (Nat × Entry)) (used : Nat),
    drillUnits d e.action e.target e.arg ≠ none → e.serial = true → e.slack = 0 →
      s.admitCheck d e now lead others used = { result := 1, detail := 8, fault := some 2 })

/-- With no batch waiting nothing happens. With one waiting of whose commit cycle no direct enqueue of a core has been taken: on a queue that is stopped nothing is admitted and RESULT is 4 with the commit's EPOCH; else a count above 32 admits nothing and reports RESULT 1, DETAIL 0xC and INDEX 0 with the EPOCH; else, if some staged entry fails a check, nothing is admitted and BATCH_STAT names the first entry and its failing check, and if none fails every staged entry joins the queue in stage order; the active STAGE_COUNT reads 0 afterwards, the shadow copy keeps its value, no batch waits and IRQ_PEND bit 3 is set. Where cores' enqueues of its commit cycle were taken, they are withdrawn, the batch admitted or refused, and they are put back in their order. -/
def Obligations.BatchAdmission : Prop :=
  ∀ (d : Fin 9) (s : State), Sound s →
    ((s.drlOf d).batch = none → exec (.batchAdmission d) s = .next s) ∧
    (∀ c ep, (s.drlOf d).batch = some (c, ep) → s.reqsOf d (c / 192) ≠ [] → exec (.batchAdmission d) s =
      .next (((s.withdraw d (c / 192) [] (s.reqsOf d (c / 192))).admitStaged d).each (s.reqsOf d (c / 192)) (fun s r => s.putBack d r))) ∧
    (∀ c ep, (s.drlOf d).batch = some (c, ep) → s.reqsOf d (c / 192) = [] → ep < 256 →
      (Does (.batchAdmission d) s fun t => (t.drlOf d).batch = none ∧ t.get (drlPage d) DRL.STAGE_COUNT_COUNT = 0 ∧ t.shadow = s.shadow ∧
        (t.reg (drlPage d) 0x18).getLsbD 3 = true) ∧
      (s.drlStopped d = true → Does (.batchAdmission d) s fun t =>
        t.reg (drlPage d) 0x64 = BitVec.ofNat 32 (2 ^ 31 + ep * 2 ^ 16 + 4) ∧ (t.drlOf d).ents = (s.drlOf d).ents) ∧
      (s.drlStopped d = false → 32 < s.get (drlPage d) DRL.STAGE_COUNT_COUNT → Does (.batchAdmission d) s fun t =>
        t.reg (drlPage d) 0x64 = BitVec.ofNat 32 (2 ^ 31 + ep * 2 ^ 16 + 0xC * 16 + 1) ∧ (t.drlOf d).ents = (s.drlOf d).ents) ∧
      (s.drlStopped d = false → s.get (drlPage d) DRL.STAGE_COUNT_COUNT ≤ 32 →
        ∀ u es, u = s.setDrl d { s.drlOf d with batch := none } →
        es = (List.range (s.get (drlPage d) DRL.STAGE_COUNT_COUNT)).map (fun i => u.makeEntry d (s.reg (drlPage d) (0x200 + 16 * i))
          (s.reg (drlPage d) (0x204 + 16 * i)) (s.reg (drlPage d) (0x208 + 16 * i)) (s.reg (drlPage d) (0x20C + 16 * i)) c (240 * 64)) →
        (∀ i v, u.batchFail d c (240 * 64) [] es (u.drlOf d).used 0 = some (i, v) → Does (.batchAdmission d) s fun t =>
          t.reg (drlPage d) 0x64 = BitVec.ofNat 32 (2 ^ 31 + ep * 2 ^ 16 + i * 256 + v.detail * 16 + v.result) ∧
          (t.drlOf d).ents = (s.drlOf d).ents) ∧
        (u.batchFail d c (240 * 64) [] es (u.drlOf d).used 0 = none → Does (.batchAdmission d) s fun t =>
          t.reg (drlPage d) 0x64 = BitVec.ofNat 32 (2 ^ 31 + ep * 2 ^ 16) ∧
          (t.drlOf d).ents.map (fun e => (e.w0, e.w1, e.w2, e.w3)) = ((s.drlOf d).ents ++ es).map (fun e => (e.w0, e.w1, e.w2, e.w3)) ∧ t.mem = s.mem)))

/-- A lane item is due only when its final time is not after now and no lane item of any queue comes before it in the order of R77. For the entry e that is due: APPLY on an unfenced page armed for DRILL retires LAUNCHED and commits the page in the first FCLK cycle at or after the launch, on an unfenced page not so armed retires NOT_ARMED; MA_OFFSET retires LAUNCHED and adds ARG[15:0], signed, to the loop's reference; PROFILE_START retires LAUNCHED and hands PRFa the slot's eight words; EVENT retires LAUNCHED and raises Dill event ARG[3:0] on DRLa, and on DRLD latches interrupt bit 8; HEAT and PRE_REG start their frame at the link's turn and wait before it; STP_START, once the first FCLK edge at or after its time has come, retires LAUNCHED and starts the stripe of its ARG where STP runs, and waits before that edge; SPN_OVR is launched on the die-to-die link with its apply instant the first motion clock edge 960 ft later; each of these whose unit is fenced retires SKIPPED without its effect. A window that closes retires MISSED, or SKIPPED where the unit is fenced. Where nothing is due each of these commands changes nothing. -/
def Obligations.DrillLaunches : Prop :=
  (∀ (s : State) (x : LaneItem), s.dueLane = some x →
    x.time ≤ (s.time : Int) ∧ ∀ d, d < 9 → ∀ e ∈ (s.drlOf d).ents, ∀ y, laneItem d e = some y → y.first x = false) ∧
  ∀ (s : State),
    (∀ (d : Fin 9) (e : Entry), s.dueAction d aAPPLY false = some e →
      (s.fenced (applyPage d e) = false → s.on (applyPage d e) HDR.SHADOW_CTL_ARM = true → s.get (applyPage d e) HDR.SHADOW_CTL_SRC = 1 → exec (.apply d) s =
        .next (((s.retireOne d e 0 0).setCommitTime (applyPage d e) (edgeAfter e.t.toNat + 1)).settle (applyPage d e) s.time)) ∧
      (s.fenced (applyPage d e) = false → s.on (applyPage d e) HDR.SHADOW_CTL_ARM = false ∨ s.get (applyPage d e) HDR.SHADOW_CTL_SRC ≠ 1 →
        exec (.apply d) s = .next (s.retireOne d e 4 0)) ∧
      (s.fenced (applyPage d e) = true → exec (.apply d) s = .next (s.retireOne d e 3 0))) ∧
    (∀ (a : Fin 8) (e : Entry), s.dueAction a aMAOFS false = some e →
      (s.drillFenced a aMAOFS e.target e.arg = false →
        exec (.maOffset a) s = .next ((s.retireOne a e 0 0).addRef a e.target [] [sgn 16 (bits e.arg 15 0)])) ∧
      (s.drillFenced a aMAOFS e.target e.arg = true → exec (.maOffset a) s = .next (s.retireOne a e 3 0))) ∧
    (∀ (a : Fin 8) (e : Entry), s.dueAction a aPROF false = some e →
      (s.drillFenced a aPROF e.target e.arg = false → Does (.profileStart a) s fun t =>
        (t.prfOf a).starts = ((s.retireOne a e 0 0).prfOf a).starts ++ [(bits e.arg 3 0,
          (List.range 8).map (fun i => s.reg (pPRF a) (0x200 + 0x20 * bits e.arg 3 0 + 4 * i)), ((s.retireOne a e 0 0).srvOf a).n)] ∧
        t.drl = (s.retireOne a e 0 0).drl ∧ t.mem = (s.retireOne a e 0 0).mem) ∧
      (s.drillFenced a aPROF e.target e.arg = true → exec (.profileStart a) s = .next (s.retireOne a e 3 0))) ∧
    (∀ (a : Fin 8) (e : Entry), s.dueAction a aEVENT false = some e →
      (s.fenced (pDIL a) = false → exec (.event (Fin.ofNat 9 a)) s = .next ((s.retireOne a e 0 0).dilRaise a (2 ^ (e.arg % 16)))) ∧
      (s.fenced (pDIL a) = true → exec (.event (Fin.ofNat 9 a)) s = .next (s.retireOne a e 3 0))) ∧
    (∀ e : Entry, s.dueAction 8 aEVENT false = some e → exec (.event 8) s = .next ((s.retireOne 8 e 0 0).irq pDRLD 8)) ∧
    (∀ (a : Fin 8) (e : Entry),
      (s.dueSerial a aHEAT = some e → exec (.heat a) s = .next (s.launchFrame a e)) ∧
      (s.dueSerial a aPRE = some e → exec (.preReg a) s = .next (s.launchFrame a e)) ∧
      (s.drillFenced a e.action e.target e.arg = false → s.drillTurn a = true → s.launchFrame a e = (s.sendNew a (s.drillTx a e)).launchSerial a e 240) ∧
      (s.drillFenced a e.action e.target e.arg = false → s.drillTurn a = false → s.launchFrame a e = s) ∧
      (s.drillFenced a e.action e.target e.arg = true → s.launchFrame a e = s.retireOne a e 3 0)) ∧
    (∀ (a : Fin 8) (e : Entry), s.dueAction a aSTP false = some e →
      (s.time < edgeAfter e.t.toNat → exec (.stpStart a) s = .next s) ∧
      (edgeAfter e.t.toNat ≤ s.time → s.fenced pSTP = true → exec (.stpStart a) s = .next (s.retireOne a e 3 0)) ∧
      (edgeAfter e.t.toNat ≤ s.time → s.fenced pSTP = false → exec (.stpStart a) s = .next (if (s.retireOne a e 0 0).running pSTP
        then (s.retireOne a e 0 0).startStripe (e.arg % 64) a e.t.toNat else s.retireOne a e 0 0))) ∧
    (∀ e : Entry, s.dueSerial 8 aSPN = some e →
      (s.drillFenced 8 aSPN e.target e.arg = false → s.d2dLost = false → Does .spnOvr s fun t =>
        t.drl = (s.launchSerial 8 e 24).drl ∧ t.spn.ovr = (s.launchSerial 8 e 24).spn.ovr ++
          [((mclkAfter ((s.time + 960 * 64 : Nat) : Rat)).toNat, bits e.arg 3 0, max 1 (min 250 (bits e.arg 15 8)))]) ∧
      (s.drillFenced 8 aSPN e.target e.arg = false → s.d2dLost = true → exec .spnOvr s = .next (s.launchSerial 8 e 24)) ∧
      (s.drillFenced 8 aSPN e.target e.arg = true → exec .spnOvr s = .next (s.retireOne 8 e 3 0))) ∧
    (∀ (d : Fin 9) (e : Entry), s.missedSerial d = some e →
      exec (.missed d) s = .next (s.retireOne d e (if s.drillFenced d e.action e.target e.arg then 3 else 2) 0)) ∧
    (∀ d : Fin 9, (s.dueAction d aAPPLY false = none → exec (.apply d) s = .next s) ∧ (s.dueAction d aEVENT false = none → exec (.event d) s = .next s) ∧
      (s.missedSerial d = none → exec (.missed d) s = .next s)) ∧
    (∀ a : Fin 8, (s.dueAction a aMAOFS false = none → exec (.maOffset a) s = .next s) ∧ (s.dueAction a aPROF false = none → exec (.profileStart a) s = .next s) ∧
      (s.dueSerial a aHEAT = none → exec (.heat a) s = .next s) ∧ (s.dueSerial a aPRE = none → exec (.preReg a) s = .next s) ∧
      (s.dueAction a aSTP false = none → exec (.stpStart a) s = .next s)) ∧
    (s.dueSerial 8 aSPN = none → exec .spnOvr s = .next s)

/-- On a powered queue page in no soft reset FLUSH removes every pending entry but gates whose opens have launched, each with outcome FLUSHED, and sets Q_CTRL.FLUSH until FLUSH_DONE clears it; Q_CANCEL removes with the same outcome those of them alone whose masked TAG matches, and with none matching changes nothing. Where no two entries share an enqueue number, the entries that FLUSH leaves are exactly the gates whose opens have launched. The unresolved ANGLE entry whose resolution point comes first, once it has come, is retired NO_ANGLE where the tracker holds no angle, and otherwise keeps its place with its final time; before it, and with none, the command changes nothing. -/
def Obligations.DrillRemoval : Prop :=
  ∀ (m : Master) (d : Fin 9) (s : State), s.present (drlPage d) = true → s.powered (drlPage d) = true → s.isResetting (drlPage d) = false →
    exec (.flush m d) s = .next ((s.removeEntries d (fun _ => true) 5).put (drlPage d) DRL.Q_CTRL_FLUSH 1) ∧
    (Sound s → ((s.drlOf d).ents.map (fun e => e.seq)).Nodup → Does (.flush m d) s fun t =>
      (t.drlOf d).ents = (s.drlOf d).ents.filter (fun e => e.launched) ∧ t.get (drlPage d) DRL.Q_CTRL_FLUSH = 1) ∧
    exec (.flushDone d) s = .next (s.put (drlPage d) DRL.Q_CTRL_FLUSH 0) ∧
    (∀ tag mask : BitVec 16, exec (.qCancel m d tag mask) s =
      .next (s.removeEntries d (fun e => decide (BitVec.ofNat 16 e.tag &&& mask = tag &&& mask)) 5)) ∧
    (∀ (f : Entry → Bool) (o : Nat), s.removeEntries d f o = s.each ((s.drlOf d).ents.filter (fun e => f e && !e.launched)) (fun s e => s.retireWhole d e o)) ∧
    (∀ tag mask : BitVec 16, (∀ e ∈ (s.drlOf d).ents, BitVec.ofNat 16 e.tag &&& mask ≠ tag &&& mask) → exec (.qCancel m d tag mask) s = .next s) ∧
    (∀ e, s.nextUnresolved d = some e → e.point ≤ (s.time : Rat) → s.angleOk = false → exec (.finalResolution d) s = .next (s.retireWhole d e 7)) ∧
    (∀ e, s.nextUnresolved d = some e → e.point ≤ (s.time : Rat) → s.angleOk = true →
      exec (.finalResolution d) s = .next (s.updEntry d { e with t := s.resolveOpen d e e.lo, c := if e.gate then s.resolveClose d e (s.resolveOpen d e e.lo) else 0, fin := true })) ∧
    (∀ e, s.nextUnresolved d = some e → (s.time : Rat) < e.point → exec (.finalResolution d) s = .next s) ∧
    (s.nextUnresolved d = none → exec (.finalResolution d) s = .next s)

/-- A retirement with outcome LAUNCHED and MODE 0 writes no record and only counts (that a retirement without a record counts is the model's choice, log 112); one with another outcome than LAUNCHED, MISSED and NOT_ARMED of an entry that is not quiet counts and writes one 16 B record, with IRQ_PEND bit 4 where it is lost. With the ring full a record is dropped and counted in the ring's lost counter, the ring's fault source is raised and no memory byte changes; one that fits lands at the write index and the index advances modulo the ring's size, and one that the buffer refuses is dropped and counted likewise. MISSED counts in MISS_COUNT, saturating, leaves LAST_MISS and raises DL FL0. -/
def Obligations.Retirement : Prop :=
  (∀ d, d < 9 → faultGrade (drlPage d) 0 = some (2, 0)) ∧
  (∀ (s : State) (d : Nat) (e : Entry) (c : Bool) (l : Option Int) (late : Int), s.on (drlPage d) DRL.RET_CTRL_MODE = false →
    s.retire d e c 0 l late = s.setDrl d { s.drlOf d with retired := ((s.drlOf d).retired + 1) % 65536 }) ∧
  (∀ (s : State) (d : Nat) (e : Entry) (c : Bool) (o : Nat) (l : Option Int) (late : Int), o ≠ 0 → o ≠ 2 → o ≠ 4 → e.quiet = false →
    ∀ r, r = (s.setDrl d { s.drlOf d with retired := ((s.drlOf d).retired + 1) % 65536 }).ringWrite (drlRing d) none (retireWords e c o l late (s.drlOf d).retired) →
    s.retire d e c o l late = if r.2 then r.1 else r.1.irq (drlPage d) 4) ∧
  (∀ (s : State) (r : Ring) (m : Option Master) (ws : List Nat), s.ringFull r = true →
    s.ringWrite r m ws = ((s.inc r.page r.lost).raise r.page r.fault, false) ∧ (s.ringWrite r m ws).1.mem = s.mem) ∧
  (∀ (s : State) (r : Ring) (m : Option Master) (ws : List Nat), s.ringFull r = false →
    ∀ a, a = s.addr48 r.page r.baseLo r.baseHi + r.recBytes * (s.get r.page r.wr % s.ringSize r) →
    ((s.bufWrite m a (wordBytes ws)).2 = true →
      s.ringWrite r m ws = (((s.bufWrite m a (wordBytes ws)).1.put r.page r.wr ((s.get r.page r.wr % s.ringSize r + 1) % s.ringSize r)).irq r.page r.pend, true)) ∧
    ((s.bufWrite m a (wordBytes ws)).2 = false → s.ringWrite r m ws = (((s.bufWrite m a (wordBytes ws)).1.inc r.page r.lost).raise r.page r.fault, false))) ∧
  (∀ (s : State) (d : Nat) (e : Entry) (c : Bool) (l : Option Int) (late : Int), Sound s → d < 9 → s.present (drlPage d) = true →
    ((s.retire d e c 2 l late).reg (drlPage d) 0x1C).getLsbD 0 = true ∧
    (s.retire d e c 2 l late).get (drlPage d) DRL.MISS_COUNT = min (s.get (drlPage d) DRL.MISS_COUNT + 1) (2 ^ 32 - 1) ∧
    (s.retire d e c 2 l late).get (drlPage d) DRL.LAST_MISS = e.tag + e.action * 65536)

/-- A dozing front end of a present head wakes for an admitted gate open within 2,400 ft and for a servo window of the head that is open, ready after the delay given; one that does not doze is left alone. A block outside a read gate changes nothing; inside one the samples of the gate's edges up to now, at most a block's, advance the gate's sample count, and a loop whose FRZ_ bit is set keeps its value. The 256th clipped sample of a run makes the run due for its report and so does the 4,096th identical one; a due report raises CH FL0 for clipping and CH FL1 for a stuck converter, once each, and with none due the commands change nothing. ZPT_SEL on a powered head page with no commit due loads W0 to W17 of a valid entry, without their reserved bits, into the shadow set, records an invalid one as refused with SEQ FL0 and leaves the shadow set, and an uncorrectable entry raises MEM FL1 and does nothing else. -/
def Obligations.FrontEnd : Prop :=
  (∀ h, h < 96 → faultGrade (pHCH h) 3 = some (4, 0) ∧ faultGrade (pHCH h) 4 = some (4, 1) ∧ faultGrade (pHCH h) 2 = some (6, 0) ∧ faultGrade (pHCH h) 0 = some (1, 1)) ∧
  (∀ (r : Reader) (x : Int), (x = -64 ∨ x = 63 → r.clipRun = 255 → (r.count (some x)).clipDue = r.clipDue + 1) ∧
    (0 < r.sameRun → x = r.last → r.sameRun = 4095 → (r.count (some x)).stuckDue = r.stuckDue + 1)) ∧
  ∀ (m : Master) (h : Fin 96) (s : State), Sound s → s.present (pHCH h) = true →
    (∀ delay : BitVec 16, s.afeDoze h = true → (s.afeOf h).awake s.time = false →
      (∃ e ∈ (s.drlOf (actOf h)).ents, e.gate = true ∧ e.opened = false ∧ e.target = h.val % 12 ∧ e.t - 2400 * 64 ≤ (s.time : Int)) ∨
        (s.servoOn h = true ∧ s.inServo h s.time = true) →
      exec (.afeWake h delay) s = .next (s.setAfe h { s.afeOf h with readyAt := some (s.time + delay.toNat * 64), sleepAt := none })) ∧
    (∀ delay : BitVec 16, s.afeDoze h = false → exec (.afeWake h delay) s = .next s) ∧
    (∀ xa xb errs, (s.rdOf h).gate = none → exec (.adaptBlock h xa xb errs) s = .next s) ∧
    (∀ g xa xb errs, (s.rdOf h).gate = some g →
      Does (.adaptBlock h xa xb errs) s fun t =>
        (t.afeOf h).samples = (s.afeOf h).samples + min (s.samplesLeft h g) (min (if (s.afeOf h).samples < fastSamples g.set then 64 else 512) (min xa.length xb.length)) ∧
        (s.on (pHCH h) HCH.ADAPT_CTL_FRZ_VGA = true → (t.afeOf h).rdA.vga = (s.afeOf h).rdA.vga ∧ (t.afeOf h).rdB.vga = (s.afeOf h).rdB.vga) ∧
        (s.on (pHCH h) HCH.ADAPT_CTL_FRZ_OFS = true → (t.afeOf h).rdA.ofs = (s.afeOf h).rdA.ofs ∧ (t.afeOf h).rdB.ofs = (s.afeOf h).rdB.ofs) ∧
        (s.on (pHCH h) HCH.ADAPT_CTL_FRZ_ASYM = true → (t.afeOf h).rdA.asym = (s.afeOf h).rdA.asym ∧ (t.afeOf h).rdB.asym = (s.afeOf h).rdB.asym)) ∧
    (0 < (s.afeOf h).rdA.clipDue → Does (.clipRun h false) s fun t =>
      (t.reg (pHCH h) 0x1C).getLsbD 3 = true ∧ (t.afeOf h).rdA.clipDue = (s.afeOf h).rdA.clipDue - 1 ∧ t.mem = s.mem) ∧
    (0 < (s.afeOf h).rdB.clipDue → Does (.clipRun h true) s fun t =>
      (t.reg (pHCH h) 0x1C).getLsbD 3 = true ∧ (t.afeOf h).rdB.clipDue = (s.afeOf h).rdB.clipDue - 1 ∧ t.mem = s.mem) ∧
    (0 < (s.afeOf h).rdA.stuckDue → Does (.adcStuck h false) s fun t =>
      (t.reg (pHCH h) 0x1C).getLsbD 4 = true ∧ (t.afeOf h).rdA.stuckDue = (s.afeOf h).rdA.stuckDue - 1 ∧ t.mem = s.mem) ∧
    (0 < (s.afeOf h).rdB.stuckDue → Does (.adcStuck h true) s fun t =>
      (t.reg (pHCH h) 0x1C).getLsbD 4 = true ∧ (t.afeOf h).rdB.stuckDue = (s.afeOf h).rdB.stuckDue - 1 ∧ t.mem = s.mem) ∧
    ((s.afeOf h).rdA.clipDue = 0 → exec (.clipRun h false) s = .next s) ∧ ((s.afeOf h).rdB.clipDue = 0 → exec (.clipRun h true) s = .next s) ∧
    ((s.afeOf h).rdA.stuckDue = 0 → exec (.adcStuck h false) s = .next s) ∧ ((s.afeOf h).rdB.stuckDue = 0 → exec (.adcStuck h true) s = .next s) ∧
    (∀ (z : BitVec 6) (ecc : Ecc), s.powered (pHCH h) = true → s.isResetting (pHCH h) = false → s.commitDue (pHCH h) s.time = false →
      (ecc ≠ .ue → setValid (s.zptEntry h z.toNat) = true → Does (.zptSel m h z ecc) s fun t =>
        (∀ i, i < 18 → t.shadowReg (pHCH h) (0x80 + 4 * i) = ((s.zptEntry h z.toNat)[i]?).getD 0 &&& accMask (pHCH h) (0x80 + 4 * i) .sh) ∧ t.shadowReg (pHCH h) 0x40 = z.setWidth 32 ∧ t.mem = s.mem) ∧
      (ecc ≠ .ue → setValid (s.zptEntry h z.toNat) = false → Does (.zptSel m h z ecc) s fun t =>
        t.shadow = s.shadow ∧ t.get (pHCH h) HCH.AFE_STAT_REFUSED_ZONE = z.toNat ∧ (t.reg (pHCH h) 0x1C).getLsbD 2 = true) ∧
      exec (.zptSel m h z .ue) s = .next (s.raise (pHCH h) 0))

/-- On a powered LNKa page in no soft reset a CMD write of TYPE WRITE, READ or STATUS_REQ to a link in TRAIN or UP joins the FIFO's end with its HEAD, REG and DATA, clears DONE and OVERFLOW and leaves FREE the places that are left; with four frames queued it is dropped and sets OVERFLOW alone; with the link OFF or FENCED it is dropped and sets RESULT 0x2 alone; TYPE 0b10 queues nothing and sets RESULT 0x3 alone. -/
def Obligations.PreampCommands : Prop :=
  ∀ (m : Master) (a : Fin 8) (hd : BitVec 4) (reg data : BitVec 8) (s : State), Sound s → s.present (pLNK a) = true →
    s.powered (pLNK a) = true → s.isResetting (pLNK a) = false →
    (∀ (c : Instr) (ty : Nat), (c, ty) ∈ [(.cmdWriteFrame m a hd reg data, 0), (.cmdReadFrame m a hd reg data, 1), (.cmdStatusReq m a hd reg data, 3)] →
      (s.linkState a = 0 ∨ s.linkState a = 3 → exec c s = .next (s.put (pLNK a) LNK.CMD_STAT_RESULT 2)) ∧
      (s.linkState a = 1 ∨ s.linkState a = 2 → 4 ≤ (s.lnkOf a).fifo.length → exec c s = .next (s.put (pLNK a) LNK.CMD_STAT_OVERFLOW 1)) ∧
      (s.linkState a = 1 ∨ s.linkState a = 2 → (s.lnkOf a).fifo.length < 4 → Does c s fun t =>
        (t.lnkOf a).fifo = (s.lnkOf a).fifo ++ [{ typ := ty, head := hd.toNat, seq := 0, reg := reg.toNat, data := data.toNat, source := .page }] ∧
        t.get (pLNK a) LNK.CMD_STAT_DONE = 0 ∧ t.get (pLNK a) LNK.CMD_STAT_OVERFLOW = 0 ∧
        t.cmdFree a = (3 - (s.lnkOf a).fifo.length) * 2 ^ 24 ∧ t.mem = s.mem ∧ t.drl = s.drl)) ∧
    exec (.cmdTypeRefused m a) s = .next (s.put (pLNK a) LNK.CMD_STAT_RESULT 3)

/-- On an UP link that can start a frame, a waiting retransmission starts first, counted in RETRY_CNT with IRQ_PEND bit 2; then alert service; then a Drill frame that is due; then a page frame; each new command of an alert or a page takes the next SEQ and starts only with fewer than four unanswered; a link that cannot start one starts none. A response on an UP link with a bad CRC is counted and dropped; one that matches the oldest transmission ends it: a page frame's with RESULT 0, and DATA for a READ, an alert's as the reply to the STATUS_REQ; a NAK counts in NAK_CNT and makes it wait for retransmission, up to three times, and then raises LNK FL1; any other is counted as unsolicited; on a link that is not UP a response changes nothing. A transmission unanswered for RSP_TIMEOUT (120 ft at least) waits for retransmission likewise, and before that nothing happens. -/
def Obligations.PreampFrames : Prop :=
  (∀ a, a < 8 → faultGrade (pLNK a) 0 = some (5, 1)) ∧
  ∀ (a : Fin 8) (s : State), Sound s →
    (∀ t r, s.linkFree a = true → (s.lnkOf a).retx = t :: r → Does (.frameStart a) s fun u =>
      (u.lnkOf a).retx = r ∧ (u.lnkOf a).unans = (s.lnkOf a).unans ++ [{ t with tries := t.tries + 1, sentEnd := s.time + 198 * 64 }] ∧
      (u.lnkOf a).nextStart = s.time + 240 * 64 ∧ u.get (pLNK a) LNK.RETRY_CNT = min (s.get (pLNK a) LNK.RETRY_CNT + 1) (2 ^ LNK.RETRY_CNT.wd - 1) ∧
      (u.reg (pLNK a) 0x18).getLsbD 2 = true) ∧
    (s.linkFree a = true → (s.lnkOf a).retx = [] → (s.lnkOf a).alert = true → (s.lnkOf a).unans.length < 4 →
      Does (.frameStart a) s fun u => (u.lnkOf a).alert = false ∧ (u.lnkOf a).seq = ((s.lnkOf a).seq + 1) % 4 ∧ u.regs = s.regs ∧
        (u.lnkOf a).unans = (s.lnkOf a).unans ++ [{ typ := 3, head := 0, seq := (s.lnkOf a).seq, reg := 0, data := 0, source := .alert, sentEnd := s.time + 198 * 64 }]) ∧
    (∀ e, s.linkFree a = true → (s.lnkOf a).retx = [] → (s.lnkOf a).alert = false → s.dueDrillFrame a = some e →
      exec (.frameStart a) s = .next (s.launchFrame a e)) ∧
    (∀ t r, s.linkFree a = true → (s.lnkOf a).retx = [] → (s.lnkOf a).alert = false → s.dueDrillFrame a = none → (s.lnkOf a).fifo = t :: r →
      ((s.lnkOf a).unans.length < 4 → Does (.frameStart a) s fun u => (u.lnkOf a).fifo = r ∧ (u.lnkOf a).seq = ((s.lnkOf a).seq + 1) % 4 ∧
        (u.lnkOf a).unans = (s.lnkOf a).unans ++ [{ t with seq := (s.lnkOf a).seq, sentEnd := s.time + 198 * 64 }]) ∧
      (4 ≤ (s.lnkOf a).unans.length → exec (.frameStart a) s = .next s)) ∧
    (s.linkFree a = false → exec (.frameStart a) s = .next s) ∧
    (∀ ty hd sq reg data ok high, s.linkState a ≠ 2 → exec (.responseFrame a ty hd sq reg data ok high) s = .next s) ∧
    (∀ ty hd sq reg data high, s.linkState a = 2 →
      exec (.responseFrame a ty hd sq reg data false high) s = .next ((s.putB (pLNK a) LNK.ALERT_STAT_LEVEL high).inc (pLNK a) LNK.CRC_ERR_CNT)) ∧
    (∀ t r ty hd sq reg data high, s.linkState a = 2 → (s.lnkOf a).unans = t :: r → sq.toNat = t.seq → ty = 0 ∨ ty = 1 →
      ∀ s1, s1 = (s.putB (pLNK a) LNK.ALERT_STAT_LEVEL high).setLnk a { s.lnkOf a with unans := r } →
      (t.source = .drill → exec (.responseFrame a ty hd sq reg data true high) s = .next s1) ∧
      (t.source = .alert → exec (.responseFrame a ty hd sq reg data true high) s = .next (s1.alertReply a hd.toNat data.toNat)) ∧
      (t.source = .page → Does (.responseFrame a ty hd sq reg data true high) s fun u => (u.lnkOf a).unans = r ∧ u.get (pLNK a) LNK.CMD_STAT_RESULT = 0 ∧
        (ty = 1 → u.get (pLNK a) LNK.CMD_STAT_DATA = data.toNat) ∧ u.mem = s.mem)) ∧
    (∀ t r hd sq reg data high, s.linkState a = 2 → (s.lnkOf a).unans = t :: r → sq.toNat = t.seq → t.tries < 3 →
      Does (.responseFrame a 2 hd sq reg data true high) s fun u => (u.lnkOf a).unans = r ∧ (u.lnkOf a).retx = (s.lnkOf a).retx ++ [t] ∧
        u.get (pLNK a) LNK.NAK_CNT = min (s.get (pLNK a) LNK.NAK_CNT + 1) (2 ^ LNK.NAK_CNT.wd - 1)) ∧
    (∀ t r hd sq reg data high, s.present (pLNK a) = true → s.linkState a = 2 → (s.lnkOf a).unans = t :: r → sq.toNat = t.seq → 3 ≤ t.tries →
      Does (.responseFrame a 2 hd sq reg data true high) s fun u => (u.lnkOf a).unans = r ∧ (u.lnkOf a).retx = (s.lnkOf a).retx ∧ (u.reg (pLNK a) 0x1C).getLsbD 0 = true) ∧
    (∀ ty hd sq reg data high, s.linkState a = 2 → ty = 3 ∨ (s.lnkOf a).unans = [] ∨ (∃ t r, (s.lnkOf a).unans = t :: r ∧ sq.toNat ≠ t.seq) →
      exec (.responseFrame a ty hd sq reg data true high) s = .next (((s.putB (pLNK a) LNK.ALERT_STAT_LEVEL high).inc (pLNK a) LNK.UNSOL_CNT).irq (pLNK a) 3)) ∧
    (∀ t r, (s.lnkOf a).unans = t :: r → t.sentEnd + max 120 (s.get (pLNK a) LNK.RSP_TIMEOUT) * 64 ≤ s.time →
      (t.tries < 3 → Does (.rspTimeout a) s fun u => (u.lnkOf a).unans = r ∧ (u.lnkOf a).retx = (s.lnkOf a).retx ++ [t] ∧ u.regs = s.regs) ∧
      (3 ≤ t.tries → s.present (pLNK a) = true → Does (.rspTimeout a) s fun u => (u.lnkOf a).unans = r ∧ (u.lnkOf a).retx = (s.lnkOf a).retx ∧
        (u.reg (pLNK a) 0x1C).getLsbD 0 = true)) ∧
    (∀ t r, (s.lnkOf a).unans = t :: r → s.time < t.sentEnd + max 120 (s.get (pLNK a) LNK.RSP_TIMEOUT) * 64 → exec (.rspTimeout a) s = .next s) ∧
    ((s.lnkOf a).unans = [] → exec (.rspTimeout a) s = .next s)

/-- A rise of AALERT shows in LEVEL and starts its 1 ms; on an UP link whose MASKED is clear it makes one STATUS_REQ due; unmasked and unfenced, with ALERT_INH set the actuator's 12 heads are inhibited with ALERT and their write gates drop, with ALERT_INH clear buffer memory stays. High for 1 ms and unmasked it is masked and raises LNK FL0; before that, masked or low nothing happens. A write of a 1 to a set MASKED on a powered page unmasks it and starts the 1 ms again, and with MASKED clear it changes neither the link nor a register. Training without OVR_EN ends UP with the centre, rounded down, of a longest circular run of the phases all of whose four responses are good (phase 3 when all pass) if three or more pass, and with fewer raises LNK FL1 and stays in TRAIN; with OVR_EN the frames at PHASE_OVR alone decide. A link not in TRAIN is left alone. -/
def Obligations.PreampAlertsAndTraining : Prop :=
  (∀ a, a < 8 → faultGrade (pLNK a) 2 = some (5, 0) ∧ faultGrade (pLNK a) 1 = some (5, 1)) ∧
  (∀ (m : Master) (a : Fin 8) (s : State), Sound s → s.present (pLNK a) = true →
    (∀ s1, s1 = (s.put (pLNK a) LNK.ALERT_STAT_LEVEL 1).setLnk a { s.lnkOf a with alertAt := s.time, alert := (s.lnkOf a).alert || (decide (s.linkState a = 2) && !s.on (pLNK a) LNK.ALERT_STAT_MASKED) } →
      (s.on (pLNK a) LNK.ALERT_STAT_MASKED = true ∨ s.linkState a = 3 → exec (.aalertRise a) s = .next s1) ∧
      (s.on (pLNK a) LNK.ALERT_STAT_MASKED = false → s.linkState a ≠ 3 → s.on (pACT a) ACT.WI_CFG_ALERT_INH = true →
        exec (.aalertRise a) s = .next ((((s1.setAlert a 2).put (pACT a) ACT.WI_STAT_ALERT 1).noteInhibit a wALERT 0xF).dropGates)) ∧
      (s.on (pLNK a) LNK.ALERT_STAT_MASKED = false → s.linkState a ≠ 3 → s.on (pACT a) ACT.WI_CFG_ALERT_INH = false → Does (.aalertRise a) s fun t =>
        (t.lnkOf a).alert = (s1.lnkOf a).alert ∧ (t.lnkOf a).alertAt = s.time ∧ t.on (pLNK a) LNK.ALERT_STAT_LEVEL = true ∧ t.mem = s.mem)) ∧
    (s.on (pLNK a) LNK.ALERT_STAT_LEVEL = true → s.on (pLNK a) LNK.ALERT_STAT_MASKED = false → (s.lnkOf a).alertAt + 2400000 * 64 ≤ s.time →
      Does (.alertStuck a) s fun t => t.on (pLNK a) LNK.ALERT_STAT_MASKED = true ∧ (t.reg (pLNK a) 0x1C).getLsbD 2 = true) ∧
    (s.on (pLNK a) LNK.ALERT_STAT_LEVEL = false ∨ s.on (pLNK a) LNK.ALERT_STAT_MASKED = true ∨ s.time < (s.lnkOf a).alertAt + 2400000 * 64 →
      exec (.alertStuck a) s = .next s) ∧
    (s.powered (pLNK a) = true → s.isResetting (pLNK a) = false →
      (s.on (pLNK a) LNK.ALERT_STAT_MASKED = true → Does (.alertUnmask m a) s fun t =>
        t.on (pLNK a) LNK.ALERT_STAT_MASKED = false ∧ (t.lnkOf a).alertAt = s.time) ∧
      (s.on (pLNK a) LNK.ALERT_STAT_MASKED = false → Does (.alertUnmask m a) s fun t => (t.lnkOf a) = (s.lnkOf a) ∧ t.regs = s.regs)) ∧
    (∀ rsp high ps mask, s.linkState a = 1 → s.on (pLNK a) LNK.ADI_CAL_OVR_EN = false →
      ps = (List.range 8).filter (fun i => phasePasses (bits (s.reg (pLNK a) 0x6C).toNat 7 0) ((rsp[i]?).getD [])) →
      mask = ps.foldl (fun n i => n + 2 ^ i) 0 →
      (3 ≤ ps.length → Does (.linkTrainingEnd a rsp high) s fun t =>
        t.linkState a = 2 ∧ t.get (pLNK a) LNK.LINK_STAT_ADI_PHASE = trainPhase mask ∧ t.get (pLNK a) LNK.LINK_STAT_PASS_MASK = mask % 256) ∧
      (ps.length < 3 → Does (.linkTrainingEnd a rsp high) s fun t =>
        t.linkState a = 1 ∧ (t.reg (pLNK a) 0x1C).getLsbD 1 = true ∧ t.get (pLNK a) LNK.LINK_STAT_PASS_MASK = mask % 256)) ∧
    (∀ rsp high, s.linkState a = 1 → s.on (pLNK a) LNK.ADI_CAL_OVR_EN = true →
      (phasePasses (bits (s.reg (pLNK a) 0x6C).toNat 7 0) ((rsp[0]?).getD []) = true → Does (.linkTrainingEnd a rsp high) s fun t =>
        t.linkState a = 2 ∧ t.get (pLNK a) LNK.LINK_STAT_ADI_PHASE = s.get (pLNK a) LNK.ADI_CAL_PHASE_OVR) ∧
      (phasePasses (bits (s.reg (pLNK a) 0x6C).toNat 7 0) ((rsp[0]?).getD []) = false → Does (.linkTrainingEnd a rsp high) s fun t =>
        t.linkState a = 1 ∧ (t.reg (pLNK a) 0x1C).getLsbD 1 = true)) ∧
    (∀ rsp high, s.linkState a ≠ 1 → exec (.linkTrainingEnd a rsp high) s = .next s)) ∧
  (∀ (want : Nat) (rsp : List Word), phasePasses want rsp = true ↔
    rsp.length = 4 ∧ ∀ w ∈ rsp, frameCrc w.toNat = w.toNat % 256 ∧ bits w.toNat 15 8 = want) ∧
  trainPhase 255 = 3 ∧
  (∀ ps : BitVec 8, ps ≠ 255 → ps ≠ 0 → ∃ p L : Fin 9, 0 < L.val ∧ (∀ i : Fin 8, i.val < L.val → bit ps.toNat ((p.val + i.val) % 8) = true) ∧
    (∀ q M : Fin 9, (∀ i : Fin 8, i.val < M.val → bit ps.toNat ((q.val + i.val) % 8) = true) → M.val ≤ L.val) ∧
    trainPhase ps.toNat = (p.val + (L.val - 1) / 2) % 8)

/-- With no launch of a read gate due RG_OPEN and RG_CLOSE change nothing. The open of a fenced unit's entry retires SKIPPED alone; on a head channel that is not running it retires LAUNCHED and opens no gate. On a running one, once a due commit, an expired sector and a background gate that a foreground open cuts have been settled: a whole or first fragment with a valid set and a reader opens a live gate whose sector has one fragment, no mark and no pass; a first fragment without a valid set ends NO_ZONE and one with both readers off NO_READER; a middle or last fragment with nothing pending ends ORPHAN and its gate reaches no sector; one that follows the pending sector's SECTOR_ID with a valid set of the same format and a reader adds a fragment to that sector. A close that finds no gate of its own pair only retires; that of a gate that reaches no sector removes the gate; that of a live gate adds the fragment's symbol count, leaves a sector of more fragments pending, and hands one whose last fragment has closed to decoding unless it ends with MARK_MISSED or GATE_SHORT (NOT_RETAINED without a slot). FRAGMENT_TIMEOUT ends a pending sector FRAG_BROKEN (NOT_RETAINED without a slot) once 1,048,576 ft have passed since its last close, and otherwise changes nothing. -/
def Obligations.ReadGates : Prop :=
  ∀ (a : Fin 8) (s : State), Sound s →
    (s.dueAction a aRG false = none → exec (.rgOpen a) s = .next s) ∧
    (∀ errs, s.dueAction a aRG true = none → exec (.rgClose a errs) s = .next s) ∧
    (∀ e, s.dueAction a aRG false = some e → s.drillFenced a e.action e.target e.arg = true → exec (.rgOpen a) s = .next (s.retireOpen a e 3)) ∧
    (∀ e s1, s.dueAction a aRG false = some e → s.drillFenced a e.action e.target e.arg = false → e.target < 12 →
      s1 = (let u := ((s.retireOpen a e 0).settle (pHCH (12 * a + e.target)) e.t.toNat).expireRead (12 * a + e.target) e.t
            if e.bg then u else u.cutBg (12 * a + e.target) e.t) →
      (s1.running (pHCH (12 * a + e.target)) = false → exec (.rgOpen a) s = .next s1) ∧
      (s1.running (pHCH (12 * a + e.target)) = true → bits e.arg 17 16 < 2 →
        (setValid (s1.activeSet (12 * a + e.target)) = true →
          ¬(s1.rdrOff (12 * a + e.target) false = true ∧ s1.rdrOff (12 * a + e.target) true = true) →
          Does (.rgOpen a) s fun t => ∃ g x, (t.rdOf (12 * a + e.target)).gate = some g ∧ (t.rdOf (12 * a + e.target)).recv = some x ∧
            g.live = true ∧ g.opened = e.t ∧ g.closes = e.c ∧ g.last = decide (bits e.arg 17 16 = 0) ∧ x.sid = e.arg % 65536 ∧ x.frags = 1 ∧
            x.mark = 0 ∧ x.passes = 0 ∧ x.unret = x.slot.isNone) ∧
        (setValid (s1.activeSet (12 * a + e.target)) = false → Does (.rgOpen a) s fun t =>
          (t.rdOf (12 * a + e.target)).recv = none ∧ t.get (pHCH (12 * a + e.target)) HCH.RD_STAT_LAST_STATUS = 0x10) ∧
        (setValid (s1.activeSet (12 * a + e.target)) = true → s1.rdrOff (12 * a + e.target) false = true → s1.rdrOff (12 * a + e.target) true = true →
          Does (.rgOpen a) s fun t =>
            (t.rdOf (12 * a + e.target)).recv = none ∧ t.get (pHCH (12 * a + e.target)) HCH.RD_STAT_LAST_STATUS = 0x11)) ∧
      (s1.running (pHCH (12 * a + e.target)) = true → 2 ≤ bits e.arg 17 16 →
        setValid (s1.activeSet (12 * a + e.target)) = true →
        ¬(s1.rdrOff (12 * a + e.target) false = true ∧ s1.rdrOff (12 * a + e.target) true = true) →
        ((s1.rdOf (12 * a + e.target)).recv = none → Does (.rgOpen a) s fun t => ∃ g, (t.rdOf (12 * a + e.target)).gate = some g ∧ g.live = false ∧
          (t.rdOf (12 * a + e.target)).recv = none ∧ t.get (pHCH (12 * a + e.target)) HCH.RD_STAT_LAST_STATUS = 0x15) ∧
        (∀ x, (s1.rdOf (12 * a + e.target)).recv = some x → x.sid = e.arg % 65536 → x.frags < 8 →
          sameFormat x.set (s1.activeSet (12 * a + e.target)) = true →
          Does (.rgOpen a) s fun t => ∃ g y, (t.rdOf (12 * a + e.target)).gate = some g ∧ (t.rdOf (12 * a + e.target)).recv = some y ∧
            g.live = true ∧ g.opened = e.t ∧ g.closes = e.c ∧ g.last = decide (bits e.arg 17 16 = 3) ∧
            y.sid = x.sid ∧ y.frags = x.frags + 1 ∧ y.syms = x.syms ∧ y.mark = x.mark ∧ y.slot = x.slot))) ∧
    (∀ errs e, s.dueAction a aRG true = some e →
      (∀ g, (s.rdOf (12 * a + e.target)).gate = some g → g.opened ≠ e.t ∨ g.bg ≠ e.bg) →
      exec (.rgClose a errs) s = .next (s.retireClose a e (s.closeOutcome a e))) ∧
    (∀ errs e g, s.dueAction a aRG true = some e → (s.rdOf (12 * a + e.target)).gate = some g → g.opened = e.t → g.bg = e.bg → g.live = false →
      Does (.rgClose a errs) s fun t => (t.rdOf (12 * a + e.target)).gate = none ∧
        (t.rdOf (12 * a + e.target)).recv = (s.rdOf (12 * a + e.target)).recv ∧ (t.rdOf (12 * a + e.target)).dec = (s.rdOf (12 * a + e.target)).dec) ∧
    (∀ errs e g x, s.dueAction a aRG true = some e → e.target < 12 → (s.rdOf (12 * a + e.target)).gate = some g → g.opened = e.t → g.bg = e.bg →
      g.live = true → (s.rdOf (12 * a + e.target)).recv = some x →
      (g.last = false → Does (.rgClose a errs) s fun t => ∃ y n, (t.rdOf (12 * a + e.target)).gate = none ∧ (t.rdOf (12 * a + e.target)).recv = some y ∧
        y.sid = x.sid ∧ y.frags = x.frags ∧ y.syms = x.syms ++ [n] ∧ y.lastClose = e.c.toNat ∧ y.mark = x.mark ∧ y.slot = x.slot) ∧
      (g.last = true → x.mark < 2 → Does (.rgClose a errs) s fun t => ∃ y n, (t.rdOf (12 * a + e.target)).gate = none ∧
        (t.rdOf (12 * a + e.target)).recv = none ∧ (t.rdOf (12 * a + e.target)).dec = (s.rdOf (12 * a + e.target)).dec ++ [y] ∧
        y.sid = x.sid ∧ y.frags = x.frags ∧ y.syms = x.syms ++ [n] ∧ y.lastClose = e.c.toNat ∧ y.mark = x.mark ∧ y.slot = x.slot) ∧
      (g.last = true → x.mark = 2 → Does (.rgClose a errs) s fun t => (t.rdOf (12 * a + e.target)).gate = none ∧
        (t.rdOf (12 * a + e.target)).recv = none ∧
        ((∃ y n, (t.rdOf (12 * a + e.target)).dec = (s.rdOf (12 * a + e.target)).dec ++ [y] ∧ y.short = false ∧ y.sid = x.sid ∧ y.syms = x.syms ++ [n]) ∨
          (t.rdOf (12 * a + e.target)).dec = (s.rdOf (12 * a + e.target)).dec ∧
          t.get (pHCH (12 * a + e.target)) HCH.RD_STAT_LAST_STATUS = if x.slot.isSome then 0xD else 0xC)) ∧
      (g.last = true → x.mark = 3 → Does (.rgClose a errs) s fun t => (t.rdOf (12 * a + e.target)).gate = none ∧ (t.rdOf (12 * a + e.target)).recv = none ∧
        (t.rdOf (12 * a + e.target)).dec = (s.rdOf (12 * a + e.target)).dec ∧
        t.get (pHCH (12 * a + e.target)) HCH.RD_STAT_LAST_STATUS = if x.slot.isSome then 0xA else 0xC)) ∧
    (∀ (h : Fin 96),
      ((s.rdOf h).recv = none ∨ (s.rdOf h).gate.any (·.live) = true → exec (.fragmentTimeout h) s = .next s) ∧
      (∀ x, (s.rdOf h).recv = some x → (s.rdOf h).gate.any (·.live) = false →
        (x.lastClose + 1048576 * 64 ≤ s.time → Does (.fragmentTimeout h) s fun t => (t.rdOf h).recv = none ∧ (t.rdOf h).dec = (s.rdOf h).dec ∧
          t.get (pHCH h) HCH.RD_STAT_LAST_STATUS = if x.slot.isSome then 0xE else 0xC) ∧
        (s.time < x.lastClose + 1048576 * 64 → exec (.fragmentTimeout h) s = .next s)))

/-- A mark search accepts an offset within SYNC_W, at the first candidate position inside the fragment whose 32 decisions differ from the pattern in at most MARK_TOL symbols. SYNC_SEARCH_END and RESYNC_SEARCH_END change nothing when no sector of the head is in that search or, with a slot for the resync search, when the outcome is not yet known. An accepted mark frames the sector with its offset (the resync mark sets MARK_SRC); a missed sync mark is counted and turns to the resync mark where the set has one and the sector a slot, and to no mark otherwise; a missed resync mark, and a resync search without a slot, leave the sector without a mark. A sector whose last fragment has closed then stays in decoding, or ends GATE_SHORT (framed too late) or MARK_MISSED (no mark), NOT_RETAINED without a slot. DETECTOR_PASS_END counts the first pass of a newly framed sector and ends every older sector in decoding with TIMEOUT, LDPC_FAIL for one with a slot and NOT_RETAINED without; with no first pass due it counts a further pass where one is allowed and otherwise changes nothing. DECODE_END with no sector in decoding changes nothing; a codeword that the decoder calls converged and the checker does not raises CH FL1; a good CRC ends the sector GOOD or RESYNCED (NO_LANDING without a landing slot, unless STATUS_ONLY); a bad one, or no convergence with no further pass left, takes the sector out of decoding, and one that is not handed over ends CRC_FAIL or LDPC_FAIL (NOT_RETAINED without a slot); without convergence and with a further pass left nothing changes. -/
def Obligations.FramingAndDecoding : Prop :=
  (∀ (x : RdSector) (rd : RdHead) (r : Bool) (hard : List Bool) (ofs : Int) (k tm : Nat), x.search rd r hard = .hit ofs k tm →
    -(zSyncW x.set : Int) ≤ ofs ∧ ofs ≤ zSyncW x.set ∧ k = (x.expected rd r).1 ∧
    0 ≤ (x.expected rd r).2 + ofs ∧ (x.expected rd r).2 + ofs + 31 < (x.count rd k).1 ∧
    markFits x.set (zW x.set (if r then 10 else 9)) hard (ofs + zSyncW x.set).toNat = true ∧
    ∀ o : Int, -(zSyncW x.set : Int) ≤ o → o < ofs → 0 ≤ (x.expected rd r).2 + o →
      markFits x.set (zW x.set (if r then 10 else 9)) hard (o + zSyncW x.set).toNat = false) ∧
  ∀ (h : Fin 96) (s : State), Sound s →
    (∀ hard, (s.rdOf h).searching 0 = none → exec (.syncSearchEnd h hard) s = .next s) ∧
    (∀ hard, (s.rdOf h).searching 1 = none → exec (.resyncSearchEnd h hard) s = .next s) ∧
    (∀ x hard, (s.rdOf h).searching 0 = some x →
      (x.search (s.rdOf h) false hard = .wait → exec (.syncSearchEnd h hard) s = .next s) ∧
      (∀ ofs k tm y, x.search (s.rdOf h) false hard = .hit ofs k tm → y = { x with mark := 2, markOfs := ofs, markTime := tm, markFrag := k } →
        ((s.rdOf h).dec.contains x = false → Does (.syncSearchEnd h hard) s fun t => t.regs = s.regs ∧ (t.rdOf h).recv = some y) ∧
        ((s.rdOf h).dec.contains x = true → y.short = false → Does (.syncSearchEnd h hard) s fun t => t.regs = s.regs ∧
          (t.rdOf h).dec = (s.rdOf h).dec.map (fun z => if z = x then y else z)) ∧
        ((s.rdOf h).dec.contains x = true → y.short = true → Does (.syncSearchEnd h hard) s fun t => (t.rdOf h).dec = (s.rdOf h).dec.erase x ∧
          t.get (pHCH h) HCH.RD_STAT_LAST_STATUS = if x.slot.isSome then 0xD else 0xC)) ∧
      (∀ y, x.search (s.rdOf h) false hard = .miss → y = { x with mark := if zResync x.set && x.slot.isSome then 1 else 3 } →
        ((s.rdOf h).dec.contains x = false → Does (.syncSearchEnd h hard) s fun t => (t.rdOf h).recv = some y ∧
          t.get (pHCH h) HCH.MARK_MISS_CNT = min (s.get (pHCH h) HCH.MARK_MISS_CNT + 1) (2 ^ 32 - 1)) ∧
        ((s.rdOf h).dec.contains x = true → y.mark = 1 → Does (.syncSearchEnd h hard) s fun t =>
          (t.rdOf h).dec = (s.rdOf h).dec.map (fun z => if z = x then y else z) ∧
          t.get (pHCH h) HCH.MARK_MISS_CNT = min (s.get (pHCH h) HCH.MARK_MISS_CNT + 1) (2 ^ 32 - 1)) ∧
        ((s.rdOf h).dec.contains x = true → y.mark = 3 → Does (.syncSearchEnd h hard) s fun t => (t.rdOf h).dec = (s.rdOf h).dec.erase x ∧
          t.get (pHCH h) HCH.MARK_MISS_CNT = min (s.get (pHCH h) HCH.MARK_MISS_CNT + 1) (2 ^ 32 - 1) ∧
          t.get (pHCH h) HCH.RD_STAT_LAST_STATUS = if x.slot.isSome then 0xA else 0xC))) ∧
    (∀ x hard, (s.rdOf h).searching 1 = some x →
      (x.slot.isSome = true → x.search (s.rdOf h) true hard = .wait → exec (.resyncSearchEnd h hard) s = .next s) ∧
      (∀ ofs k tm y, x.slot.isSome = true → x.search (s.rdOf h) true hard = .hit ofs k tm →
        y = { x with mark := 2, markOfs := ofs, markTime := tm, markSrc := true, markFrag := k } →
        ((s.rdOf h).dec.contains x = false → Does (.resyncSearchEnd h hard) s fun t => t.regs = s.regs ∧ (t.rdOf h).recv = some y) ∧
        ((s.rdOf h).dec.contains x = true → y.short = false → Does (.resyncSearchEnd h hard) s fun t => t.regs = s.regs ∧
          (t.rdOf h).dec = (s.rdOf h).dec.map (fun z => if z = x then y else z)) ∧
        ((s.rdOf h).dec.contains x = true → y.short = true → Does (.resyncSearchEnd h hard) s fun t => (t.rdOf h).dec = (s.rdOf h).dec.erase x ∧
          t.get (pHCH h) HCH.RD_STAT_LAST_STATUS = 0xD)) ∧
      (x.slot.isSome = false ∨ x.search (s.rdOf h) true hard = .miss →
        ((s.rdOf h).dec.contains x = false → Does (.resyncSearchEnd h hard) s fun t => t.regs = s.regs ∧ (t.rdOf h).recv = some { x with mark := 3 }) ∧
        ((s.rdOf h).dec.contains x = true → Does (.resyncSearchEnd h hard) s fun t => (t.rdOf h).dec = (s.rdOf h).dec.erase x ∧
          t.get (pHCH h) HCH.RD_STAT_LAST_STATUS = if x.slot.isSome then 0xA else 0xC))) ∧
    (∀ x llr older, (s.rdOf h).dec.find? (fun x => decide (x.mark = 2) && decide (x.passes = 0)) = some x →
      (Does (.detectorPassEnd h llr older) s fun t => t.get (pHCH h) HCH.TIMEOUT_CNT =
        min (s.get (pHCH h) HCH.TIMEOUT_CNT + ((s.rdOf h).dec.filter (fun y => decide (0 < y.passes))).length) (2 ^ 32 - 1)) ∧
      ((s.rdOf h).dec = [x] → Does (.detectorPassEnd h llr older) s fun t => t.regs = s.regs ∧ t.mem = s.mem ∧
        (t.rdOf h).dec = [{ x with passes := 1, llr := llr.map (fun l => scaleLlr (zLlr x.set) l.toInt) }]) ∧
      (∀ y, (s.rdOf h).dec = [y, x] → 0 < y.passes → Does (.detectorPassEnd h llr older) s fun t =>
        (t.rdOf h).dec = [{ x with passes := 1, llr := llr.map (fun l => scaleLlr (zLlr x.set) l.toInt) }] ∧
        (s.on (pHCH h) HCH.RD_CTRL_SWEEP_DIS = true ∨ zEarly y.set = false ∨ y.slot = none →
          t.get (pHCH h) HCH.RD_STAT_LAST_STATUS = if y.slot.isSome then 8 else 0xC))) ∧
    (∀ llr older, (s.rdOf h).dec.find? (fun x => decide (x.mark = 2) && decide (x.passes = 0)) = none →
      (∀ x, (s.rdOf h).dec.find? (fun x => decide (0 < x.passes) && x.more) = some x → Does (.detectorPassEnd h llr older) s fun t =>
        t.regs = s.regs ∧ t.mem = s.mem ∧ (t.rdOf h).dec = (s.rdOf h).dec.map (fun y => if y = x then
          { x with passes := x.passes + 1, llr := llr.map (fun l => scaleLlr (zLlr x.set) l.toInt) } else y)) ∧
      ((s.rdOf h).dec.find? (fun x => decide (0 < x.passes) && x.more) = none → exec (.detectorPassEnd h llr older) s = .next s)) ∧
    (∀ r, (s.rdOf h).dec.find? (fun x => decide (0 < x.passes)) = none → exec (.decodeEnd h r) s = .next s) ∧
    (∀ x (r : Decoded), (s.rdOf h).dec.find? (fun x => decide (0 < x.passes)) = some x →
      (r.conv = true → r.checkOk = false → exec (.decodeEnd h r) s = .next (s.raise (pHCH h) 10) ∧ faultGrade (pHCH h) 10 = some (4, 1)) ∧
      (r.conv = true → r.checkOk = true → payloadCrcOk x.format r.data = true → Does (.decodeEnd h r) s fun t =>
        (t.rdOf h).dec = (s.rdOf h).dec.erase x ∧ t.get (pHCH h) HCH.RD_STAT_LAST_STATUS =
          if x.land = 0xFFFF ∧ x.statusOnly = false then 0x16 else if x.markSrc then 1 else 0) ∧
      (r.conv = true → r.checkOk = true → payloadCrcOk x.format r.data = false → Does (.decodeEnd h r) s fun t =>
        (t.rdOf h).dec = (s.rdOf h).dec.erase x ∧
        (s.on (pHCH h) HCH.RD_CTRL_SWEEP_DIS = true ∨ zEarly x.set = false ∨ x.slot = none →
          t.get (pHCH h) HCH.RD_STAT_LAST_STATUS = if x.slot.isSome then 9 else 0xC)) ∧
      (r.conv = false → x.more = true → exec (.decodeEnd h r) s = .next s) ∧
      (r.conv = false → x.more = false → Does (.decodeEnd h r) s fun t =>
        (t.rdOf h).dec = (s.rdOf h).dec.erase x ∧
        (s.on (pHCH h) HCH.RD_CTRL_SWEEP_DIS = true ∨ zEarly x.set = false ∨ x.slot = none →
          t.get (pHCH h) HCH.RD_STAT_LAST_STATUS = if x.slot.isSome then 8 else 0xC)))

/-- On an AFM that is powered and in no soft reset, RELEASE of a slot that is not fenced leaves a FREE or FILLING slot alone, frees a PINNED one, frees a QUEUED one, takes its job out of its queue with a record to its head's ring and JOB_DONE counted and leaves the job's other slots PINNED, and turns a DEEP one to RELEASING with BUSY; of a fenced slot, or of a head above 95, it changes nothing. RELEASE_DONE of a slot that is not RELEASING changes nothing; else the deep decoder drops the job, whose slots being released become FREE and the others PINNED, with JOB_DONE counted and a record; without a job the slot becomes FREE. A write of JOB_W3 counts for the command of its TYPE only; a submission that passes the checks answers ACCEPTED in JOB_STAT, queues the job at the end of the firmware class and turns its slots to QUEUED; one that fails a check answers DONE with the check's number and raises AFM bit 2, SEQ FL0, without queueing. -/
def Obligations.AftermathSlotsAndJobs : Prop :=
  faultGrade pAFM 2 = some (6, 0) ∧
  ∀ (m : Master) (s : State), Sound s → s.powered pAFM = true → s.isResetting pAFM = false →
    (∀ (h : BitVec 7) (k : Bool), 96 ≤ h.toNat ∨ s.subFenced pAFM (slotIdx h.toNat (b2n k)) = true → exec (.release m h k) s = .next s) ∧
    (∀ (h : BitVec 7) (k : Bool), h.toNat < 96 → s.subFenced pAFM (slotIdx h.toNat (b2n k)) = false →
      (s.slotState h.toNat (b2n k) < 2 → exec (.release m h k) s = .next s) ∧
      (s.slotState h.toNat (b2n k) = 2 → Does (.release m h k) s fun t => t.slotState h.toNat (b2n k) = 0 ∧ t.afm = s.afm ∧ t.mem = s.mem) ∧
      (∀ j, s.slotState h.toNat (b2n k) = 3 → s.queuedJob h.toNat (b2n k) = some j → (∀ x ∈ j.slots, x.1 < 96 ∧ x.2 < 2) →
        Does (.release m h k) s fun t => t.slotState h.toNat (b2n k) = 0 ∧ j ∉ t.afm.sweeps ++ t.afm.jobs ∧
          (∀ x ∈ j.slots, x ≠ (h.toNat, b2n k) → t.slotState x.1 x.2 = 2) ∧
          (s.powered (pHCH j.head) = true → (t.rdOf j.head).seq = ((s.rdOf j.head).seq + 1) % 65536) ∧
          t.get pAFM AFM.JOB_DONE = min (s.get pAFM AFM.JOB_DONE + 1) (2 ^ 32 - 1)) ∧
      (s.slotState h.toNat (b2n k) = 3 → s.queuedJob h.toNat (b2n k) = none → Does (.release m h k) s fun t => t.slotState h.toNat (b2n k) = 0 ∧ t.afm = s.afm) ∧
      (s.slotState h.toNat (b2n k) = 4 → Does (.release m h k) s fun t =>
        t.slotState h.toNat (b2n k) = 5 ∧ t.on pAFM AFM.REL_STAT_BUSY = true ∧ t.afm = s.afm)) ∧
    (∀ (h : Fin 96) (k : Bool), (s.slotState h (b2n k) ≠ 5 → exec (.releaseDone h k) s = .next s) ∧
      (∀ d run, s.slotState h (b2n k) = 5 → s.afm.runs.find? (fun e => e.2.job.slots.contains (h.val, b2n k)) = some (d, run) → d < 8 →
        run.job.slots.Nodup → (∀ x ∈ run.job.slots, x.1 < 96 ∧ x.2 < 2) → Does (.releaseDone h k) s fun t =>
          (∀ x ∈ run.job.slots, t.slotState x.1 x.2 = if s.slotState x.1 x.2 = 5 then 0 else 2) ∧ t.runOf d = none ∧
          (s.powered (pHCH run.job.head) = true → (t.rdOf run.job.head).seq = ((s.rdOf run.job.head).seq + 1) % 65536) ∧
          t.get pAFM AFM.JOB_DONE = min (s.get pAFM AFM.JOB_DONE + 1) (2 ^ 32 - 1)) ∧
      (s.slotState h (b2n k) = 5 → s.afm.runs.find? (fun e => e.2.job.slots.contains (h.val, b2n k)) = none →
        Does (.releaseDone h k) s fun t => t.slotState h (b2n k) = 0 ∧ t.afm = s.afm)) ∧
    (∀ (w3 : Word) (c : Instr) (ty : Nat), (c, ty) ∈ [(.redecode m w3, 1), (.reframe m w3, 2), (.joint m w3, 3), (.sweep m w3, 4)] →
      ∀ j, j = jobOf (s.mreg m pAFM 0x60).toNat (s.mreg m pAFM 0x64).toNat (s.mreg m pAFM 0x68).toNat w3.toNat →
      (j.typ ≠ ty → exec c s = .next s) ∧
      (j.typ = ty → s.jobCheck j ≠ 0 → exec c s = .next ((s.setMreg m pAFM 0x70 (BitVec.ofNat 32 (2 ^ 31 + s.jobCheck j))).raise pAFM 2)) ∧
      (j.typ = ty → s.jobCheck j = 0 → Does c s fun t => t.mreg m pAFM 0x70 = 0x80000000 ∧
        t.afm.jobs = s.afm.jobs ++ [if j.eqSrc = 0 then j else { j with bank := s.bankWords j.head (j.eqSrc - 1) }] ∧ t.afm.sweeps = s.afm.sweeps ∧
        (∀ x ∈ j.slots, t.slotState x.1 x.2 = 3) ∧ t.mem = s.mem))

/-- With no job waiting, no deep decoder free, or AFM out of use, JOB_DISPATCH changes nothing; else the first sweep, or with no sweep waiting the first firmware job, leaves its queue for the lowest deep decoder that is free, its slots become DEEP and its first try is at the job's offset, or for a sweep at -1 where that fits the retained symbols; a job other than a sweep whose offset does not fit ends GATE_SHORT. DEEP_TRY_END changes nothing on a decoder without a job or one whose job's end is known; a try that the independent checker contradicts raises the decoder's bit of AFM, CH FL1; a try with a good CRC ends the job REFRAMED (a reframe or a sweep) or REDECODED; another job's try ends CRC_FAIL or LDPC_FAIL; a sweep's first stop with no more than THR unsatisfied checks goes on with the same try; a sweep's try that fails ends FRAME_LOST when its tries are used up, and else goes on to an offset of its order that fits or ends FRAME_LOST. DEEP_JOB_END without a known end changes nothing; where no payload is to be written, or BFM accepts it, the decoder becomes free, JOB_DONE is counted, a record goes to the head's ring, and each slot of the job is PINNED, or FREE where it was RELEASING or where the job succeeded with AUTO_RELEASE; where BFM refuses the payload the decoder keeps its job. -/
def Obligations.DeepDecoders : Prop :=
  ∀ (s : State), Sound s →
    (s.afm.sweeps ++ s.afm.jobs = [] ∨ firstBelow 8 s.ddFree = none ∨ s.afmUsable = false → exec .jobDispatch s = .next s) ∧
    (∀ j r d, s.afm.sweeps ++ s.afm.jobs = j :: r → firstBelow 8 s.ddFree = some d → s.afmUsable = true → (∀ x ∈ j.slots, x.1 < 96 ∧ x.2 < 2) →
      Does .jobDispatch s fun t => t.afm.sweeps ++ t.afm.jobs = r ∧ (s.afm.sweeps ≠ [] → t.afm.jobs = s.afm.jobs) ∧
        (∀ x ∈ j.slots, t.slotState x.1 x.2 = 4) ∧
        ∃ run, t.runOf d = some run ∧ run.job = j ∧ run.tries = 0 ∧
          (j.typ ≠ 4 → s.fitsAt j j.ofs = true → run.cur = j.ofs ∧ run.ended = none) ∧
          (j.typ ≠ 4 → s.fitsAt j j.ofs = false → ∃ e, run.ended = some e ∧ e.status = 0xD ∧ e.data = none) ∧
          (j.typ = 4 → s.fitsAt j (-1) = true → run.cur = -1 ∧ run.ended = none)) ∧
    (∀ (d : Fin 8) (r : Decoded) (llr llr2 : List (BitVec 7)),
      (s.runOf d = none → exec (.deepTryEnd d r llr llr2) s = .next s ∧ exec (.deepJobEnd d) s = .next s) ∧
      (∀ run, s.runOf d = some run → run.ended = none →
        exec (.deepJobEnd d) s = .next s ∧
        (r.conv = true → r.checkOk = false →
          exec (.deepTryEnd d r llr llr2) s = .next (s.raiseSub pAFM (16 + d.val) (192 + d.val)) ∧ faultGrade pAFM (16 + d.val) = some (4, 1)) ∧
        (r.conv = true → r.checkOk = true → payloadCrcOk (bits (s.descWord run.job.head run.job.slot 0) 26 26) r.data = true →
          Does (.deepTryEnd d r llr llr2) s fun t => ∃ e, (t.runOf d).bind (·.ended) = some e ∧
            e.status = (if run.job.typ = 2 ∨ run.job.typ = 4 then 2 else 3) ∧ e.ofs = run.cur ∧ e.data.isSome = true ∧ t.mem = s.mem) ∧
        (run.job.typ ≠ 4 → r.conv = true → r.checkOk = true → payloadCrcOk (bits (s.descWord run.job.head run.job.slot 0) 26 26) r.data = false →
          Does (.deepTryEnd d r llr llr2) s fun t => ∃ e, (t.runOf d).bind (·.ended) = some e ∧ e.status = 9 ∧ e.data = none) ∧
        (run.job.typ ≠ 4 → r.conv = false → Does (.deepTryEnd d r llr llr2) s fun t => ∃ e, (t.runOf d).bind (·.ended) = some e ∧ e.status = 8 ∧ e.data = none) ∧
        (run.job.typ = 4 → r.conv = false → run.past = false → s.sweepIter < s.jobIters run.job → r.unsat.toNat ≤ s.get pAFM AFM.SWEEP_CFG_THR →
          Does (.deepTryEnd d r llr llr2) s fun t => ∃ run2, t.runOf d = some run2 ∧ run2.past = true ∧ run2.cur = run.cur ∧ run2.tries = run.tries ∧ run2.ended = none) ∧
        (run.job.typ = 4 →
          (r.conv = true ∧ r.checkOk = true ∧ payloadCrcOk (bits (s.descWord run.job.head run.job.slot 0) 26 26) r.data = false) ∨
            (r.conv = false ∧ ¬(run.past = false ∧ s.sweepIter < s.jobIters run.job ∧ r.unsat.toNat ≤ s.get pAFM AFM.SWEEP_CFG_THR)) →
          Does (.deepTryEnd d r llr llr2) s fun t => ∃ run2, t.runOf d = some run2 ∧ run2.job = run.job ∧ run2.tries = run.tries + 1 ∧
            ((∃ e, run2.ended = some e ∧ e.status = 0xB ∧ e.data = none) ∨
              (run.tries + 1 < s.sweepTries ∧ run2.ended = none ∧ run2.past = false ∧ run2.cur ∈ run.left ∧ s.fitsAt run.job run2.cur = true)))) ∧
      (∀ run e, s.runOf d = some run → run.ended = some e → exec (.deepTryEnd d r llr llr2) s = .next s) ∧
      (∀ run e w, s.runOf d = some run → run.ended = some e → run.job.slots.Nodup → (∀ x ∈ run.job.slots, x.1 < 96 ∧ x.2 < 2) →
        w = (match e.data with
          | none => (s, true)
          | some b =>
            let fmt := bits (s.descWord run.job.head run.job.slot 0) 26 26
            let land := s.descWord run.job.head run.job.slot 6 % 65536
            if run.job.dest ≠ 0 then s.bufWrite (some (ddM d)) run.job.dest (fitBytes (payloadBytes fmt) b)
            else if land ≠ 0xFFFF then s.bufWrite (some (ddM d)) (s.landAddr run.job.head fmt land) (fitBytes (payloadBytes fmt) b)
            else (s, true)) →
        (w.2 = false → exec (.deepJobEnd d) s = .next w.1 ∧ w.1.runOf d = some run) ∧
        (w.2 = true → Does (.deepJobEnd d) s fun t => t.runOf d = none ∧ t.get pAFM AFM.JOB_DONE = min (s.get pAFM AFM.JOB_DONE + 1) (2 ^ 32 - 1) ∧
          (s.powered (pHCH run.job.head) = true → (t.rdOf run.job.head).seq = ((s.rdOf run.job.head).seq + 1) % 65536) ∧
          ∀ x ∈ run.job.slots, t.slotState x.1 x.2 =
            if (e.data.isSome = true ∧ s.on pAFM AFM.AFM_CTRL_AUTO_RELEASE = true) ∨ s.slotState x.1 x.2 = 5 then 0 else 2)))

/-- With no launch of a write gate due WG_OPEN and WG_CLOSE change nothing. A write gate's open that a check of R184 turns away (head channel fenced, actuator fenced, tracker not LOCKED, an inhibit active, latched set invalid; a head channel that is powered and not enabled, cause ABORTED, is the model's choice of log 131) retires with that check's Drill outcome; on a powered head a whole or first fragment is not driven and its sector ends with the cause of the first check that applies, counted in WABORT_CNT where no sector was pending, and a continuation ends the pending sector of its SECTOR_ID with that cause or else counts ORPHAN_CNT; on a head without power nothing else happens. An open that the guards let through retires LAUNCHED: a whole PATTERN gate is driven throughout, a first fragment with PATTERN ends FRAG; a whole or first fragment without a descriptor of its SECTOR_ID at WQ_RD is NO_DATA and consumes none, one whose descriptor is not fetched or whose data is short ends PREFILL with HCH bit 22 (DL FL0), one that does not fit ends SHORT if it is whole, and else is driven with the plan of R171; a continuation of the pending sector with an agreeing set is driven from the first cell at its open, or ends SHORT if it is the last and does not fit, any other is ORPHAN or ends FRAG. A close leaves a sector of more fragments pending with its cells counted, and is without effect on a gate that was dropped or that its sector ends. -/
def Obligations.WriteGates : Prop :=
  (∀ h : Fin 96, faultGrade (pHCH h) 22 = some (2, 0)) ∧
  ∀ (a : Fin 8) (s : State), Sound s →
    (s.dueAction a aWG false = none → exec (.wgOpen a) s = .next s) ∧
    (s.dueAction a aWG true = none → exec (.wgClose a) s = .next s) ∧
    (∀ e h p s1, s.dueAction a aWG false = some e → e.target < 12 → h = 12 * a.val + e.target → p = pHCH h →
      s1 = ((s.settle p e.t.toNat).cutBg h e.t).expireWrite h e.t →
      (∀ cause oc,
        (s1.fenced p = true ∧ cause = 0x12 ∧ oc = 3) ∨
        (s1.fenced p = false ∧ s1.fenced (pACT a) = true ∧ cause = 6 ∧ oc = 3) ∨
        (s1.fenced p = false ∧ s1.fenced (pACT a) = false ∧ s1.trkState ≠ 3 ∧ cause = 0xB ∧ oc = 6) ∨
        (s1.fenced p = false ∧ s1.fenced (pACT a) = false ∧ s1.trkState = 3 ∧ (s1.inhibits h).head? = some cause ∧ oc = 8) ∨
        (s1.fenced p = false ∧ s1.fenced (pACT a) = false ∧ s1.trkState = 3 ∧ s1.inhibits h = [] ∧ s1.running p = false ∧ cause = 0x13 ∧ oc = 0) ∨
        (s1.fenced p = false ∧ s1.fenced (pACT a) = false ∧ s1.trkState = 3 ∧ s1.inhibits h = [] ∧ s1.running p = true ∧
          setValid (s1.activeSet h) = false ∧ cause = 0xC ∧ oc = 0) →
        (s1.powered p = false → exec (.wgOpen a) s = .next (s1.retireOpen a e oc)) ∧
        (s1.powered p = true → bits e.arg 17 16 < 2 →
          ∃ u : State, exec (.wgOpen a) s = .next (u.retireOpen a e oc) ∧ (u.wrOf h).gate = none ∧ (u.wrOf h).sec = none ∧
            u.get p HCH.WR_STAT_LAST_CAUSE = cause ∧
            ((s1.wrOf h).sec = none → u.get p HCH.WABORT_CNT = min (s1.get p HCH.WABORT_CNT + 1) (2 ^ 32 - 1))) ∧
        (s1.powered p = true → 2 ≤ bits e.arg 17 16 →
          (∀ x, (s1.wrOf h).sec = some x → x.sid = e.arg % 65536 →
            ∃ u : State, exec (.wgOpen a) s = .next (u.retireOpen a e oc) ∧ (u.wrOf h).gate = none ∧ (u.wrOf h).sec = none ∧
              (x.alert = false → u.get p HCH.WR_STAT_LAST_CAUSE = cause)) ∧
          ((s1.wrOf h).sec.all (fun x => decide (x.sid ≠ e.arg % 65536)) = true →
            ∃ u : State, exec (.wgOpen a) s = .next (u.retireOpen a e oc) ∧ (u.wrOf h).sec = none ∧
              u.get p HCH.ORPHAN_CNT = min (s1.get p HCH.ORPHAN_CNT + 1) (2 ^ 32 - 1)))) ∧
      (s1.fenced p = false → s1.fenced (pACT a) = false → s1.trkState = 3 → s1.inhibits h = [] → s1.running p = true → setValid (s1.activeSet h) = true →
        (∀ s2, s2 = s1.abortWrite h 0x11 → bits e.arg 17 16 < 2 → bit e.arg 19 = false →
          (s2.headSid h ≠ some (e.arg % 65536) → (∀ d ∈ (s2.wrOf h).descs.head?, d.sid ≠ e.arg % 65536) →
            ∃ u : State, exec (.wgOpen a) s = .next (u.retireOpen a e 0) ∧ (u.wrOf h).gate = none ∧ (u.wrOf h).sec = none ∧
              (u.wrOf h).descs = (s2.wrOf h).descs ∧ u.get p HCH.WR_STAT_LAST_CAUSE = 0xD) ∧
          ((s2.wrOf h).descs = [] → s2.headSid h = some (e.arg % 65536) →
            ∃ u : State, exec (.wgOpen a) s = .next ((u.raise p 22).retireOpen a e 0) ∧ (u.wrOf h).gate = none ∧ (u.wrOf h).sec = none ∧
              u.get p HCH.WR_STAT_LAST_CAUSE = 0xE) ∧
          (∀ d r, (s2.wrOf h).descs = d :: r → d.sid = e.arg % 65536 →
            (d.payload.length < min (max 8 (s2.get p HCH.WR_CTRL_PREFILL) * 64) (streamBytes (zFormat (s1.activeSet h))) →
              ∃ u : State, exec (.wgOpen a) s = .next ((u.raise p 22).retireOpen a e 0) ∧ (u.wrOf h).gate = none ∧ (u.wrOf h).sec = none ∧
                u.get p HCH.WR_STAT_LAST_CAUSE = 0xE) ∧
            (min (max 8 (s2.get p HCH.WR_CTRL_PREFILL) * 64) (streamBytes (zFormat (s1.activeSet h))) ≤ d.payload.length →
              ∀ pl, pl = planOf (s1.activeSet h) true 0 (cellAt (zRate (s1.activeSet h)) e.t e.c) (streamSyms (s1.activeSet h)) →
              (bits e.arg 17 16 = 0 → pl.ends = false →
                ∃ u : State, exec (.wgOpen a) s = .next (u.retireOpen a e 0) ∧ (u.wrOf h).gate = none ∧ (u.wrOf h).sec = none ∧
                  u.get p HCH.WR_STAT_LAST_CAUSE = 0x10) ∧
              (bits e.arg 17 16 = 1 ∨ pl.ends = true →
                ∃ (u : State) (x : WrSector), exec (.wgOpen a) s = .next (u.retireOpen a e 0) ∧
                  (u.wrOf h).gate = some { opened := e.t, closes := e.c, plan := pl } ∧ (u.wrOf h).sec = some x ∧ x.sid = d.sid ∧ x.frags = 1 ∧
                  x.start = e.t ∧ x.set = s1.activeSet h ∧ (u.wrOf h).descs = d :: r)))) ∧
        (bits e.arg 17 16 = 0 → bit e.arg 19 = true →
          ∃ (u : State) (x : WrSector), exec (.wgOpen a) s = .next (u.retireOpen a e 0) ∧ (u.wrOf h).sec = some x ∧ x.pattern = true ∧
            (u.wrOf h).gate = some { opened := e.t, closes := e.c, plan := { first := 0, lead := 0, body := cellAt (zRate (s1.activeSet h)) e.t e.c, pad := 0, ends := true } }) ∧
        (bits e.arg 17 16 = 1 → bit e.arg 19 = true →
          ∃ u : State, exec (.wgOpen a) s = .next (u.retireOpen a e 0) ∧ (u.wrOf h).gate = none ∧ (u.wrOf h).sec = none ∧
            u.get p HCH.WR_STAT_LAST_CAUSE = 0x11) ∧
        (2 ≤ bits e.arg 17 16 →
          ((s1.wrOf h).sec.all (fun x => decide (x.sid ≠ e.arg % 65536)) = true →
            ∃ u : State, exec (.wgOpen a) s = .next (u.retireOpen a e 0) ∧ (u.wrOf h).sec = none ∧
              u.get p HCH.ORPHAN_CNT = min (s1.get p HCH.ORPHAN_CNT + 1) (2 ^ 32 - 1)) ∧
          (∀ x, (s1.wrOf h).sec = some x → x.sid = e.arg % 65536 →
            (8 ≤ x.frags ∨ sameWriteSet x.set (s1.activeSet h) = false ∨ x.pattern = true →
              ∃ u : State, exec (.wgOpen a) s = .next (u.retireOpen a e 0) ∧ (u.wrOf h).gate = none ∧ (u.wrOf h).sec = none ∧
                (x.alert = false → u.get p HCH.WR_STAT_LAST_CAUSE = 0x11)) ∧
            (x.frags < 8 → sameWriteSet x.set (s1.activeSet h) = true → x.pattern = false →
              ∀ c pl, c = cellAt (zRate (s1.activeSet h)) x.start e.t →
              pl = planOf (s1.activeSet h) false c (cellAt (zRate (s1.activeSet h)) x.start e.c - c) (streamSyms (s1.activeSet h) - x.done) →
              (bits e.arg 17 16 = 3 → pl.ends = false →
                ∃ u : State, exec (.wgOpen a) s = .next (u.retireOpen a e 0) ∧ (u.wrOf h).gate = none ∧ (u.wrOf h).sec = none ∧
                  (x.alert = false → u.get p HCH.WR_STAT_LAST_CAUSE = 0x10)) ∧
              (bits e.arg 17 16 = 2 ∨ pl.ends = true →
                ∃ (u : State) (y : WrSector), exec (.wgOpen a) s = .next (u.retireOpen a e 0) ∧
                  (u.wrOf h).gate = some { opened := e.t, closes := e.c, plan := pl } ∧ (u.wrOf h).sec = some y ∧ y.sid = x.sid ∧
                  y.frags = x.frags + 1 ∧ y.start = x.start ∧ y.done = x.done)))))) ∧
    (∀ e h s1, s.dueAction a aWG true = some e → e.target < 12 → h = 12 * a.val + e.target → s1 = s.retireClose a e (s.closeOutcome a e) →
      ((s.wrOf h).gate = none → Does (.wgClose a) s fun t => t.wrh = s1.wrh ∧ t.mem = s1.mem ∧ t.regs = s1.regs) ∧
      (∀ g x, (s.wrOf h).gate = some g → (s.wrOf h).sec = some x →
        (g.opened = e.t → g.plan.ends = false → Does (.wgClose a) s fun t => (t.wrOf h).gate = none ∧
          (t.wrOf h).sec = some { x with done := x.done + g.plan.body, lastClose := e.c.toNat }) ∧
        (g.opened ≠ e.t ∨ g.plan.ends = true → exec (.wgClose a) s = .next s1)))

/-- On a powered head page in no soft reset WQ_WR takes its value modulo the ring, and a running head fetches the next descriptor into its place behind those it holds; a 1 written to FAULT_LATCH clears it. WRITE_FIFO_FILL on a head that is not running changes nothing; on a running one it first fetches a waiting descriptor; then, for the descriptor at WQ_RD, or the next once that payload is complete, the next beat of at most 64 bytes joins its payload where the FIFO has room and its source gives the bytes: buffer memory, in lockstep for a data member of an OPEN write stripe, or STP for a parity member; a full FIFO, a reserved source, a beat that the source refuses or that is not due adds none. UNDERRUN changes nothing with no gate driven or all the payload needed by now at hand; else it ends the sector, counted in UNDERRUN_CNT, with HCH bit 17 set and cause UNDERRUN. WRITE_SECTOR_END before the last pad cell has left the balls changes nothing; then it ends the sector WRITTEN, keeps as its information bytes the payload, its CRC-64 and its ADDR_TAG (none for PATTERN), and consumes the descriptor of one that is not PATTERN. WRITE_FRAGMENT_TIMEOUT ends a pending sector with cause FRAG once 1,048,576 ft have passed since its last close, and otherwise changes nothing. Where an alert of the actuator is unanswered the record of a sector that was driven in it is held. -/
def Obligations.WriteStream : Prop :=
  ∀ (h : Fin 96) (s : State), Sound s → s.present (pHCH h) = true →
    (∀ (m : Master) (v : Word) (s1 : State), s.powered (pHCH h) = true → s.isResetting (pHCH h) = false →
      s1 = s.put (pHCH h) HCH.WQ_WR (v.toNat % s.wqSize h) →
      (s.enabled (pHCH h) = false ∨ min 2 (s1.wqHeld h) ≤ (s.wrOf h).descs.length → exec (.wqWr m h v) s = .next s1) ∧
      (s.enabled (pHCH h) = true → (s.wrOf h).descs.length < min 2 (s1.wqHeld h) →
        (∀ d, (s1.fetchDesc h (s.wrOf h).descs.length).2 = some d → Does (.wqWr m h v) s fun t =>
          (t.wrOf h).descs = (s.wrOf h).descs ++ [d] ∧ t.get (pHCH h) HCH.WQ_WR = v.toNat % s.wqSize h) ∧
        ((s1.fetchDesc h (s.wrOf h).descs.length).2 = none → exec (.wqWr m h v) s = .next (s1.fetchDesc h (s.wrOf h).descs.length).1)) ∧
      exec (.faultLatchClear m h) s = .next (s.put (pHCH h) HCH.WR_INH_FAULT_LATCH 0)) ∧
    (s.running (pHCH h) = false → exec (.writeFifoFill h) s = .next s) ∧
    (∀ s1, s.running (pHCH h) = true → s1 = s.fetchNext h →
      ((s1.wrOf h).descs = [] ∨ (∃ d, (s1.wrOf h).descs = [d] ∧ s1.streamLen h 0 ≤ d.payload.length) ∨
        (∃ d d2 r, (s1.wrOf h).descs = d :: d2 :: r ∧ s1.streamLen h 0 ≤ d.payload.length ∧ s1.streamLen h 1 ≤ d2.payload.length) →
        exec (.writeFifoFill h) s = .next s1) ∧
      (∀ i d n s2, (i = 0 ∧ (s1.wrOf h).descs.head? = some d ∧ d.payload.length < s1.streamLen h 0) ∨
          (i = 1 ∧ (∃ d1 r, (s1.wrOf h).descs = d1 :: d :: r ∧ s1.streamLen h 0 ≤ d1.payload.length) ∧ d.payload.length < s1.streamLen h 1) →
        n = min 64 (s1.streamLen h i - d.payload.length) →
        (16384 < s1.wfifo h + n ∨ 2 ≤ d.src → exec (.writeFifoFill h) s = .next s1) ∧
        (s1.wfifo h + n ≤ 16384 → d.src = 0 → (∀ y ∈ s1.writeStripeOf h d.sid, (s1.stpData y.1).contains y.2 = false) →
          (∀ b, (s1.bufRead (some (headM h)) (d.addr + d.payload.length) n).2 = some b → Does (.writeFifoFill h) s fun t =>
            (t.wrOf h).descs = (s1.wrOf h).descs.mapIdx (fun j e => if j = i then { e with payload := e.payload ++ b } else e) ∧
            (t.wrOf h).sec = (s.wrOf h).sec ∧ (t.wrOf h).gate = (s.wrOf h).gate) ∧
          ((s1.bufRead (some (headM h)) (d.addr + d.payload.length) n).2 = none →
            exec (.writeFifoFill h) s = .next (s1.bufRead (some (headM h)) (d.addr + d.payload.length) n).1)) ∧
        (∀ y, s1.wfifo h + n ≤ 16384 → d.src = 0 → s1.writeStripeOf h d.sid = some y → (s1.stpData y.1).contains y.2 = true →
          s2 = s1.serveEnded y.1 (d.payload.length + n) →
          (s2.lockstep y.1 d.payload.length = false → exec (.writeFifoFill h) s = .next s2) ∧
          (∀ b, s2.lockstep y.1 d.payload.length = true → (s2.bufRead (some (headM h)) (d.addr + d.payload.length) n).2 = some b →
            Does (.writeFifoFill h) s fun t =>
              (t.wrOf h).descs = (s1.wrOf h).descs.mapIdx (fun j e => if j = i then { e with payload := e.payload ++ b } else e) ∧
              (t.wrOf h).sec = (s.wrOf h).sec)) ∧
        (s1.wfifo h + n ≤ 16384 → d.src = 1 →
          (s1.writeStripeOf h d.sid = none → exec (.writeFifoFill h) s = .next s1) ∧
          (∀ y, s1.writeStripeOf h d.sid = some y → s2 = s1.serveEnded y.1 (d.payload.length + n) →
            (s2.parityBeat y.1 y.2 d.payload.length n = none → exec (.writeFifoFill h) s = .next s2) ∧
            (∀ b, s2.parityBeat y.1 y.2 d.payload.length n = some b → Does (.writeFifoFill h) s fun t =>
              (t.wrOf h).descs = (s1.wrOf h).descs.mapIdx (fun j e => if j = i then { e with payload := e.payload ++ b } else e) ∧
              (t.wrOf h).sec = (s.wrOf h).sec))))) ∧
    ((s.wrOf h).gate = none ∨ s.bytesNeeded h ≤ ((s.wrOf h).descs.head?.map (·.payload.length)).getD 0 → exec (.underrun h) s = .next s) ∧
    ((s.wrOf h).gate = none ∨ (s.wrOf h).sec = none → exec (.writeSectorEnd h) s = .next s) ∧
    (∀ g x, (s.wrOf h).gate = some g → (s.wrOf h).sec = some x →
      (((s.wrOf h).descs.head?.map (·.payload.length)).getD 0 < s.bytesNeeded h → Does (.underrun h) s fun t => (t.wrOf h).gate = none ∧ (t.wrOf h).sec = none ∧
        (x.alert = false → t.get (pHCH h) HCH.WR_STAT_LAST_CAUSE = 0xF) ∧
        (x.alert = true → s.alertOf (actOf h) = 1 → (t.wrOf h).held.length = (s.wrOf h).held.length + 1) ∧
        t.get (pHCH h) HCH.UNDERRUN_CNT = min (s.get (pHCH h) HCH.UNDERRUN_CNT + 1) (2 ^ 32 - 1) ∧
        (t.reg (pHCH h) 0x1C).getLsbD 17 = true) ∧
      (g.plan.ends = false ∨ (s.time : Rat) < x.endTime g → exec (.writeSectorEnd h) s = .next s) ∧
      (g.plan.ends = true → x.endTime g ≤ (s.time : Rat) → Does (.writeSectorEnd h) s fun t => (t.wrOf h).gate = none ∧ (t.wrOf h).sec = none ∧
        (x.alert = false → t.get (pHCH h) HCH.WR_STAT_LAST_CAUSE = 0 ∧
          t.get (pHCH h) HCH.WSECT_CNT = min (s.get (pHCH h) HCH.WSECT_CNT + 1) (2 ^ 32 - 1)) ∧
        (x.alert = true → s.alertOf (actOf h) = 1 → (t.wrOf h).held.length = (s.wrOf h).held.length + 1) ∧
        (∀ d r, x.pattern = false → (s.wrOf h).descs = d :: r →
          (t.wrOf h).out = fitBytes (streamBytes x.format) d.payload ++ internalBytes (crc64 (fitBytes (streamBytes x.format) d.payload)) ++ internalBytes d.tag ∧
          (s.wqHeld h ≠ 0 → (t.wrOf h).descs = r)) ∧
        (x.pattern = true → (t.wrOf h).out = [] ∧ (t.wrOf h).descs = (s.wrOf h).descs))) ∧
    ((s.wrOf h).gate.isSome = true ∨ (s.wrOf h).sec = none → exec (.writeFragmentTimeout h) s = .next s) ∧
    (∀ x, (s.wrOf h).gate = none → (s.wrOf h).sec = some x →
      (x.lastClose + 1048576 * 64 ≤ s.time → Does (.writeFragmentTimeout h) s fun t => (t.wrOf h).gate = none ∧ (t.wrOf h).sec = none ∧
        (x.alert = false → t.get (pHCH h) HCH.WR_STAT_LAST_CAUSE = 0x11 ∧
          t.get (pHCH h) HCH.WABORT_CNT = min (s.get (pHCH h) HCH.WABORT_CNT + 1) (2 ^ 32 - 1))) ∧
      (s.time < x.lastClose + 1048576 * 64 → exec (.writeFragmentTimeout h) s = .next s))

/-- Away from a sample instant SHOCK_TRIP and SHOCK_RELEASE change nothing. At one, a comparator sample above the threshold of an enabled sensor that was below it opens the shock inhibit of every actuator present, stops every SHOCK_HOLD that runs and drops every driven gate of the heads present, and any other sample of SHOCK_TRIP only follows the peak; a sample at or below the threshold of an enabled sensor that was above it clears its bit, beside following the peak, and where it is the last one above starts each present actuator's SHOCK_HOLD; any other sample of SHOCK_RELEASE only follows the peak. SHOCK_HOLD after the fall SHOCK_HOLD_END closes the actuator's inhibit, before it nothing changes. WRITE_WINDOW_CLOSE changes nothing without a supply-loss decision, before 14,400 ft after it, or once the window has closed; else the DEVICE inhibit acts on every head and every gate still driven drops. -/
def Obligations.WriteInhibits : Prop :=
  ∀ (s : State), Sound s →
    (∀ (n : Fin 4) (mag : BitVec 10),
      (s.shockSample n = false → exec (.shockTrip n mag) s = .next s ∧ exec (.shockRelease n mag) s = .next s) ∧
      (s.shockSample n = true →
        (bit (s.get pMOT MOT.SHOCK_CFG_EN) n = true → s.get pMOT (MOT.SHOCK_THR n) < mag.toNat → bit (s.get pMOT MOT.SHOCK_STAT_ABOVE) n = false →
          Does (.shockTrip n mag) s fun t => bit (t.get pMOT MOT.SHOCK_STAT_ABOVE) n = true ∧
            (∀ a : Fin 8, s.part.hasAct a = true → t.on (pACT a) ACT.WI_STAT_SHOCK = true ∧ tabGet t.shockEnd a 0 = 0) ∧
            (∀ h : Fin 96, s.part.hasHead h = true → ((s.wrOf h).gate.isSome = true → (s.wrOf h).sec.isSome = true) → (t.wrOf h).gate = none)) ∧
        (bit (s.get pMOT MOT.SHOCK_CFG_EN) n = false ∨ mag.toNat ≤ s.get pMOT (MOT.SHOCK_THR n) ∨ bit (s.get pMOT MOT.SHOCK_STAT_ABOVE) n = true →
          exec (.shockTrip n mag) s = .next (s.putMax pMOT (MOT.SHOCK_PEAK n) mag.toNat)) ∧
        (bit (s.get pMOT MOT.SHOCK_CFG_EN) n = true → bit (s.get pMOT MOT.SHOCK_STAT_ABOVE) n = true → mag.toNat ≤ s.get pMOT (MOT.SHOCK_THR n) →
          (withBit (s.get pMOT MOT.SHOCK_STAT_ABOVE) n false = 0 → Does (.shockRelease n mag) s fun t => t.get pMOT MOT.SHOCK_STAT_ABOVE = 0 ∧
            (∀ a : Fin 8, s.part.hasAct a = true → tabGet t.shockEnd a 0 = s.time + s.get (pACT a) ACT.WI_CFG_SHOCK_HOLD * 256 * 64 + 1)) ∧
          (withBit (s.get pMOT MOT.SHOCK_STAT_ABOVE) n false ≠ 0 →
            exec (.shockRelease n mag) s = .next ((s.putMax pMOT (MOT.SHOCK_PEAK n) mag.toNat).put pMOT MOT.SHOCK_STAT_ABOVE (withBit (s.get pMOT MOT.SHOCK_STAT_ABOVE) n false)))) ∧
        (bit (s.get pMOT MOT.SHOCK_CFG_EN) n = false ∨ bit (s.get pMOT MOT.SHOCK_STAT_ABOVE) n = false ∨ s.get pMOT (MOT.SHOCK_THR n) < mag.toNat →
          exec (.shockRelease n mag) s = .next (s.putMax pMOT (MOT.SHOCK_PEAK n) mag.toNat)))) ∧
    (∀ a : Fin 8, (tabGet s.shockEnd a 0 ≠ 0 → tabGet s.shockEnd a 0 ≤ s.time + 1 → Does (.shockHoldEnd a) s fun t =>
        t.on (pACT a) ACT.WI_STAT_SHOCK = false ∧ tabGet t.shockEnd a 0 = 0 ∧ t.mem = s.mem) ∧
      (tabGet s.shockEnd a 0 = 0 ∨ s.time + 1 < tabGet s.shockEnd a 0 → exec (.shockHoldEnd a) s = .next s)) ∧
    (s.supply = none → exec .writeWindowClose s = .next s) ∧
    (∀ td, s.supply = some td →
      (s.time < td + 14400 * 64 ∨ s.windowClosed = true → exec .writeWindowClose s = .next s) ∧
      (td + 14400 * 64 ≤ s.time → s.windowClosed = false → Does .writeWindowClose s fun t => t.windowClosed = true ∧ t.deviceInh = true ∧
        (∀ h : Fin 96, ((s.wrOf h).gate.isSome = true → (s.wrOf h).sec.isSome = true) → (t.wrOf h).gate = none)))

/-- STP takes the oldest record waiting, and with none waiting nothing changes. A record that matches no OPEN stripe, or that finds STP not running, is counted in UNMATCHED, or dropped where STP has no power; one of a decided member is counted in LATE_REC; one of the other kind than its stripe's decides nothing (the model's reading of log 132); a read record with FINAL = 0 leaves its member waiting for Aftermath, one with FINAL = 1 decides it, with its landing address, or as lost where its STATUS is above 3 or it has no landing slot; a write record decides its member, as lost where it was not WRITTEN or a parity member has not taken its whole stream. The close of an OPEN stripe's window loses every undecided included member with its TMO bit: a write stripe is then DONE, counted in WINC_CNT, and a read stripe is DONE where the losses exceed its geometry or nothing is to be done, else READY; before the close, or outside OPEN, nothing changes. REBUILD_START gives the datapath the oldest READY stripe when it is free and otherwise changes nothing; REBUILD_END leaves a stripe in REBUILD DONE and any other alone; CANCEL leaves an OPEN, READY or REBUILD stripe DONE and every other stripe as it was, and changes nothing for an IDLE or DONE one. -/
def Obligations.Stripes : Prop :=
  ∀ (s : State), Sound s →
    (s.stpIn = [] → exec .stpRecord s = .next s) ∧
    (∀ r rest, s.stpIn = r :: rest →
      (s.running pSTP = false ∨ s.matchStripe r = none →
        exec .stpRecord s = .next (if s.powered pSTP then ({ s with stpIn := rest }.inc pSTP STP.UNMATCHED) else { s with stpIn := rest })) ∧
      (∀ i, s.running pSTP = true → s.matchStripe r = some i →
        (bit (s.stripe i).decided (r.head % 12) = true → exec .stpRecord s = .next ({ s with stpIn := rest }.inc pSTP STP.LATE_REC)) ∧
        (bit (s.stripe i).decided (r.head % 12) = false → r.write ≠ s.stpWrite i → exec .stpRecord s = .next { s with stpIn := rest }) ∧
        (bit (s.stripe i).decided (r.head % 12) = false → r.write = false → s.stpWrite i = false →
          (r.final = false → Does .stpRecord s fun t => t.stpIn = rest ∧
            bit (t.stripe i).waiting (r.head % 12) = true ∧ (t.stripe i).decided = (s.stripe i).decided ∧ t.regs = s.regs) ∧
          (r.final = true → r.status ≤ 3 → r.land ≠ 0xFFFF → Does .stpRecord s fun t => t.stpIn = rest ∧
            bit (t.stripe i).decided (r.head % 12) = true ∧ (t.stripe i).lost = (s.stripe i).lost ∧
            (t.stripe i).addrs = (s.stripe i).addrs ++ [(r.head % 12, s.landAddr r.head (s.stpFormat i) r.land)]) ∧
          (r.final = true → 3 < r.status ∨ r.land = 0xFFFF → Does .stpRecord s fun t => t.stpIn = rest ∧
            bit (t.stripe i).decided (r.head % 12) = true ∧ bit (t.stripe i).lost (r.head % 12) = true)) ∧
        (bit (s.stripe i).decided (r.head % 12) = false → r.write = true → s.stpWrite i = true →
          (r.status = 1 → ((s.stpParity i).contains (r.head % 12) = true → streamBytes (s.stpFormat i) ≤ tabGet (s.stripe i).took (r.head % 12) 0) →
            Does .stpRecord s fun t => t.stpIn = rest ∧ bit (t.stripe i).decided (r.head % 12) = true ∧ (t.stripe i).lost = (s.stripe i).lost) ∧
          (r.status ≠ 1 ∨ ((s.stpParity i).contains (r.head % 12) = true ∧ tabGet (s.stripe i).took (r.head % 12) 0 < streamBytes (s.stpFormat i)) →
            Does .stpRecord s fun t => t.stpIn = rest ∧ bit (t.stripe i).decided (r.head % 12) = true ∧ bit (t.stripe i).lost (r.head % 12) = true)))) ∧
    (∀ i : Fin 64,
      (s.stripeState i = 1 → s.inStripeWindow i = false →
        (Does (.stripeTimeout i) s fun t => ∀ k ∈ s.stpIncluded i, bit (t.stripe i).decided k = true ∧
          (bit (s.stripe i).decided k = false → bit (t.stripe i).lost k = true ∧ bit (t.stripe i).tmo k = true)) ∧
        (s.stpWrite i = true → Does (.stripeTimeout i) s fun t => t.stripeState i = 4 ∧
          ((s.stpIncluded i).any (fun k => !bit (s.stripe i).decided k) = true →
            t.get pSTP STP.WINC_CNT = min (s.get pSTP STP.WINC_CNT + 1) (2 ^ 32 - 1))) ∧
        (s.stpWrite i = false → Does (.stripeTimeout i) s fun t => t.stripeState i =
          if geomLosses (s.stpGeom i) < (maskList (t.stripe i).lost).length ∨ ((t.stripe i).lost = 0 ∧ s.stpVerify i = false) then 4 else 2)) ∧
      (s.stripeState i ≠ 1 ∨ s.inStripeWindow i = true → exec (.stripeTimeout i) s = .next s) ∧
      (∀ r, s.stpReady = i.val :: r → s.get pSTP STP.Q_STAT_BUSY = 0 → Does .rebuildStart s fun t => t.stripeState i = 3 ∧ t.stpReady = r ∧ t.mem = s.mem) ∧
      (s.stripeState i = 3 → Does (.rebuildEnd i) s fun t => t.stripeState i = 4) ∧
      (s.stripeState i ≠ 3 → exec (.rebuildEnd i) s = .next s)) ∧
    (s.stpReady = [] ∨ s.get pSTP STP.Q_STAT_BUSY ≠ 0 → exec .rebuildStart s = .next s) ∧
    (∀ (m : Master) (i : BitVec 6), s.present pSTP = true → s.powered pSTP = true → s.isResetting pSTP = false →
      (s.stripeState i.toNat = 1 ∨ s.stripeState i.toNat = 2 ∨ s.stripeState i.toNat = 3 → Does (.cancel m i) s fun t =>
        t.stripeState i.toNat = 4 ∧ (∀ j : Fin 64, j.val ≠ i.toNat → t.stripeState j = s.stripeState j)) ∧
      (s.stripeState i.toNat ≠ 1 → s.stripeState i.toNat ≠ 2 → s.stripeState i.toNat ≠ 3 → exec (.cancel m i) s = .next s))

/-- Where every data member of a stripe has the same length and its own data index below 12, the rebuild of R202 gives back a lost member from P, or from Q, and any two lost members from P and Q, byte for byte. -/
def Obligations.ParityRebuilds : Prop :=
  ∀ (n : Nat) (ds : List (Nat × List Byte)), (ds.map (·.1)).Nodup → (∀ d ∈ ds, d.1 < 12 ∧ d.2.length = n) →
    (∀ x u, (x, u) ∈ ds →
      solveData n (ds.filter (fun d => decide (d.1 ≠ x))) [x] (some (parityP n ds)) none = [(x, u)] ∧
      solveData n (ds.filter (fun d => decide (d.1 ≠ x))) [x] none (some (parityQ n ds)) = [(x, u)]) ∧
    (∀ x u y v, (x, u) ∈ ds → (y, v) ∈ ds → x ≠ y →
      solveData n (ds.filter (fun d => decide (d.1 ≠ x) && decide (d.1 ≠ y))) [x, y] (some (parityP n ds)) (some (parityQ n ds)) = [(x, u), (y, v)])

/-- On a sequencer that is not about to execute a word an ALU, MUL or NOP command changes nothing, nor does one of another class or function than the word's. For a word ready to execute, each ALU and MUL function writes its result of R214 and R215 to G[RD] where WB is set (never to G0), sets Z, N, C and V from it where SETF is set and no flag otherwise, keeps E, every other G register, data memory, buffer memory and the Drill queues, and NOP keeps all of these; SHL, SHR and SAR by a count other than 0 put the last bit shifted out in C; INS and EXT work on the field FPOS to FPOS + FWM1; WADD reduces modulo the number of wedges; a reserved class or function is BAD_WORD. With CONT the PC goes on to the next address, except past 0x1FFF, and without it the PC stands. The result of INS and EXT on a field past bit 31 and C after a shift by 0 are the free value of log 3. -/
def Obligations.DillArithmetic : Prop :=
  ∀ (a : Fin 8) (s : State) (c : DilCtx) (x y : Word), Sound s → c = s.dilCtx a → x = s.opA c → y = s.opB c →
    (∀ i ∈ ([.nop a, .add a, .sub a, .and a, .or a, .xor a, .shl a, .shr a, .sar a, .min a, .max a, .ins a, .ext a, .wadd a, .mul a, .mulhs a, .mulhu a] : List Instr),
      (s.dilReady a = false → exec i s = .next s) ∧
      (s.dilReady a = true → dilReserved c.n = true → exec i s = .next (s.dilFault c 2))) ∧
    (s.dilReady a = true → dilReserved c.n = false → ∀ (i : Instr) (opc fn : Nat) (r : Word) (carry ovf : Bool), (i, opc, fn, r, carry, ovf) ∈ [
        (.add a, 1, 0, x + y, decide (2 ^ 32 ≤ x.toNat + y.toNat), decide (x.msb = y.msb ∧ (x + y).msb ≠ x.msb)),
        (.sub a, 1, 1, x - y, decide (x.toNat < y.toNat), decide (x.msb ≠ y.msb ∧ (x - y).msb ≠ x.msb)),
        (.and a, 1, 2, x &&& y, false, false), (.or a, 1, 3, x ||| y, false, false), (.xor a, 1, 4, x ^^^ y, false, false),
        (.shl a, 1, 5, x <<< (y.toNat % 32), if y.toNat % 32 = 0 then bit s.freeVal 0 else x.getLsbD (32 - y.toNat % 32), false),
        (.shr a, 1, 6, x >>> (y.toNat % 32), if y.toNat % 32 = 0 then bit s.freeVal 0 else x.getLsbD (y.toNat % 32 - 1), false),
        (.sar a, 1, 7, x.sshiftRight (y.toNat % 32), if y.toNat % 32 = 0 then bit s.freeVal 0 else x.getLsbD (y.toNat % 32 - 1), false),
        (.min a, 1, 8, if x.toInt < y.toInt then x else y, false, false), (.max a, 1, 9, if x.toInt < y.toInt then y else x, false, false),
        (.ins a, 1, 0xA, if fieldOk c then x &&& ~~~ (BitVec.ofNat 32 (fieldMask c)) ||| ((y <<< nFpos c.n) &&& BitVec.ofNat 32 (fieldMask c)) else BitVec.ofNat 32 s.freeVal, false, false),
        (.ext a, 1, 0xB, if fieldOk c then BitVec.ofNat 32 (bits x.toNat (nFpos c.n + nFwm1 c.n) (nFpos c.n)) else BitVec.ofNat 32 s.freeVal, false, false),
        (.wadd a, 1, 0xC, BitVec.ofInt 32 ((x.toNat + y.toInt) % s.wedgesN), decide (x.toNat + y.toInt < 0 ∨ (s.wedgesN : Int) ≤ x.toNat + y.toInt), false),
        (.mul a, 2, 0, x * y, false, false), (.mulhs a, 2, 1, BitVec.ofInt 32 (x.toInt * y.toInt / 2 ^ 32), false, false),
        (.mulhu a, 2, 2, BitVec.ofNat 32 (x.toNat * y.toNat / 2 ^ 32), false, false)] →
      (nOpc c.n ≠ opc ∨ nFn c.n ≠ fn → exec i s = .next s) ∧
      (nOpc c.n = opc → nFn c.n = fn → Does i s fun t =>
        (∀ k, k < 32 → t.g a k = if nWb c.n = true ∧ k = mRd c.w ∧ k ≠ 0 then r else s.g a k) ∧
        (nSetf c.n = true → t.flag a fZ = decide (r = 0) ∧ t.flag a fN = r.msb ∧ t.flag a fC = carry ∧ t.flag a fV = ovf) ∧
        (nSetf c.n = false → (t.dilOf a).flags = (s.dilOf a).flags) ∧ t.flag a fE = s.flag a fE ∧
        t.dilPc a = (if mNxt c.w = 0 ∧ c.p < 0x1FFF then c.p + 1 else c.p) ∧
        (t.dilOf a).dmem = (s.dilOf a).dmem ∧ t.mem = s.mem ∧ t.drl = s.drl)) ∧
    (s.dilReady a = true → dilReserved c.n = false → nOpc c.n ≠ 0 → exec (.nop a) s = .next s) ∧
    (s.dilReady a = true → nOpc c.n = 0 → Does (.nop a) s fun t => (∀ k, t.g a k = s.g a k) ∧ (t.dilOf a).flags = (s.dilOf a).flags ∧
      t.dilPc a = (if mNxt c.w = 0 ∧ c.p < 0x1FFF then c.p + 1 else c.p) ∧ (t.dilOf a).dmem = (s.dilOf a).dmem ∧ t.mem = s.mem ∧ t.drl = s.drl)

/-- A command of another class or function than the word's changes nothing. For a word ready to execute on a present, powered page whose CONT, if it has one, has an address to go on to with no stop requested: DRD and DWR reach data memory up to 0x1FFF and are BAD_WORD beyond (a DWR from the Allotment below 0x400 is VENDOR_DMEM); XRD writes the word of buffer memory, of DRAM through the metadata cache or of a register at XBASE + A + immediate, an error response is XRD_ERR, a read of the NOR window waits for its response, and one of a line that the cache does not hold waits while DRAM is in self-refresh; PRD gives the register that its page reads and PWR writes it, a PRD or PWR that R228 denies gives 0 or is dropped and sets DIL bit 11, and a reserved PAGE is BAD_WORD; STW and STG add to a staging of 8 writes and 16 entries whose next one is STG_OVF, and a RA of an ENQ or STG that passes 31 is BAD_WORD; ENQ puts its result in ESTAT and E, with the queue as the enqueue leaves it where no core waits behind it; COMMIT empties the staging, with no entries lands the staged writes with E at 0, and otherwise puts the batch's result in ESTAT and E, landing the writes only where it is admitted; DISCARD empties the staging with E at 0; TIME.NOW is Furrow time, the other TIME functions answer 0 with Z while the angle is invalid and their values of R230 with Z at 0 while it is valid; OUT, IRQ, EMASK, ECLR and ESET change their one register. -/
def Obligations.DillMemoryPagesAndQueue : Prop :=
  ∀ (a : Fin 8) (s : State) (c : DilCtx) (p : Nat), Sound s → s.dilReady a = true → c = s.dilCtx a → p = pDIL a → dilReserved c.n = false →
      s.present p = true → s.powered p = true → (mNxt c.w = 0 → c.p < 0x1FFF ∧ (s.dilOf a).stopReq = none) →
    (∀ i ∈ ([(.drd a, 3), (.dwr a, 4), (.xrd a, 5), (.prd a, 6), (.pwr a, 7), (.enq a, 8), (.stg a, 9), (.stw a, 0xA)] : List (Instr × Nat)),
      nOpc c.n ≠ i.2 → exec i.1 s = .next s) ∧
    (∀ i ∈ ([(.commit a, 0xB, 0), (.discard a, 0xB, 1), (.timeNow a, 0xC, 0), (.timeAngle a, 0xC, 1), (.timeRev a, 0xC, 2), (.timePred a, 0xC, 3),
        (.out a, 0xD, 0), (.irq a, 0xD, 1), (.emask a, 0xD, 2), (.eclr a, 0xD, 3), (.eset a, 0xD, 4)] : List (Instr × Nat × Nat)),
      nOpc c.n ≠ i.2.1 ∨ nFn c.n ≠ i.2.2 → exec i.1 s = .next s) ∧
    (nOpc c.n = 3 →
      (0x1FFF < s.dmemAddr c → exec (.drd a) s = .next (s.dilFault c 2)) ∧
      (s.dmemAddr c ≤ 0x1FFF → Does (.drd a) s fun t =>
        (∀ k, k < 32 → t.g a k = if nWb c.n = true ∧ k = mRd c.w ∧ k ≠ 0 then BitVec.ofNat 32 (tabGet (s.dilOf a).dmem (s.dmemAddr c) 0) else s.g a k) ∧
        (t.dilOf a).dmem = (s.dilOf a).dmem ∧ t.mem = s.mem)) ∧
    (nOpc c.n = 4 →
      (0x1FFF < s.dmemAddr c → exec (.dwr a) s = .next (s.dilFault c 2)) ∧
      (s.dmemAddr c < 0x400 → 0x800 ≤ c.p → exec (.dwr a) s = .next (s.dilFault c 4)) ∧
      (s.dmemAddr c ≤ 0x1FFF → 0x400 ≤ s.dmemAddr c ∨ c.p < 0x800 → tabSorted (s.dilOf a).dmem = true → Does (.dwr a) s fun t =>
        tabGet (t.dilOf a).dmem (s.dmemAddr c) 0 = (s.g a (mRb c.w)).toNat ∧
        (∀ d, d ≠ s.dmemAddr c → tabGet (t.dilOf a).dmem d 0 = tabGet (s.dilOf a).dmem d 0) ∧ (∀ k, t.g a k = s.g a k) ∧ t.mem = s.mem)) ∧
    (nOpc c.n = 5 → ∀ ad, ad = ((((s.addr48 p (DIL.XBASE_LO (nXb c.n)) (DIL.XBASE_HI (nXb c.n)) + (s.opA c).toNat : Nat) : Int) + (dilImm c.w c.n).toInt) % 2 ^ 48).toNat / 4 * 4 →
      (s.xrdHeld a ad = true → exec (.xrd a) s = .next s) ∧
      (ad < norWindow ∨ norWindow + 2 ^ 30 ≤ ad → s.xrdHeld a ad = false →
        (∀ s1, regBase ≤ ad → ad < regEnd → s1 = s.regAccess (dilMaster a) false 4 ad 0 → s1.resp.err = false →
          Does (.xrd a) s fun t => nWb c.n = true → mRd c.w ≠ 0 → t.g a (mRd c.w) = BitVec.ofNat 32 s1.resp.value) ∧
        (∀ s1, ¬(regBase ≤ ad ∧ ad < regEnd) → viaMdc (dilMaster a) ad = true → s1 = s.xrdDram (mdcReqOf (dilMaster a) false ad 4 []) →
          (s1.resp.err = true → exec (.xrd a) s = .next (s1.dilFault c 6)) ∧
          (s1.resp.err = false → Does (.xrd a) s fun t => nWb c.n = true → mRd c.w ≠ 0 → t.g a (mRd c.w) = BitVec.ofNat 32 s1.resp.value)) ∧
        (¬(regBase ≤ ad ∧ ad < regEnd) → viaMdc (dilMaster a) ad = false →
          (∀ b, (s.bufRead (some (dilMaster a)) ad 4).2 = some b → Does (.xrd a) s fun t =>
            nWb c.n = true → mRd c.w ≠ 0 → t.g a (mRd c.w) = BitVec.ofNat 32 (leNat b)) ∧
          ((s.bufRead (some (dilMaster a)) ad 4).2 = none → exec (.xrd a) s = .next ((s.bufRead (some (dilMaster a)) ad 4).1.dilFault c 6)))) ∧
      (norWindow ≤ ad → ad < norWindow + 2 ^ 30 →
        (s.nvs.reads.any (fun r => decide (r.master = dilMaster a)) = true → exec (.xrd a) s = .next s) ∧
        (s.nvs.reads.any (fun r => decide (r.master = dilMaster a)) = false → (s.dilOf a).xrd = true →
          (tabGet s.mresp (dilMaster a).code {}).err = false → Does (.xrd a) s fun t => (t.dilOf a).xrd = false ∧
            (nWb c.n = true → mRd c.w ≠ 0 → t.g a (mRd c.w) = BitVec.ofNat 32 (tabGet s.mresp (dilMaster a).code {}).value)) ∧
        (∀ u, s.nvs.reads.any (fun r => decide (r.master = dilMaster a)) = false → (s.dilOf a).xrd = false →
          exec (.norRead (dilMaster a) false (BitVec.ofNat 48 ad) 4) s = .next u → u.nvs.reads.any (fun r => decide (r.master = dilMaster a)) = true →
          Does (.xrd a) s fun t => (t.dilOf a).xrd = true ∧ t.nvs = u.nvs))) ∧
    (dilPagePos a (s.dilPage c) = none →
      ∀ i ∈ ([(.prd a, 6), (.pwr a, 7), (.stw a, 0xA)] : List (Instr × Nat)), nOpc c.n = i.2 → exec i.1 s = .next (s.dilFault c 2)) ∧
    (∀ q, dilPagePos a (s.dilPage c) = some q →
      (nOpc c.n = 6 → prdAllowed (s.dilPage c) (dilOfs c) = true → Does (.prd a) s fun t => nWb c.n = true → mRd c.w ≠ 0 →
        t.g a (mRd c.w) = BitVec.ofNat 32 (s.readReg (dilMaster a) q (dilOfs c)).resp.value) ∧
      (nOpc c.n = 6 → prdAllowed (s.dilPage c) (dilOfs c) = false → Does (.prd a) s fun t =>
        (nWb c.n = true → mRd c.w ≠ 0 → t.g a (mRd c.w) = 0) ∧ (t.reg p 0x1C).getLsbD 11 = true) ∧
      (nOpc c.n = 7 → pwrAllowed (s.dilPage c) (dilOfs c) = true → ∀ u, u = s.writeReg (dilMaster a) q (dilOfs c) (s.opA c) →
        exec (.pwr a) s = .next (if u.dilState a = 2 ∨ u.dilState a = 3 then u.dilOpEnd c else u)) ∧
      (nOpc c.n = 0xA → pwrAllowed (s.dilPage c) (dilOfs c) = true →
        ((s.dilOf a).writes.length < 8 → Does (.stw a) s fun t => (t.dilOf a).writes = (s.dilOf a).writes ++ [(q, dilOfs c, s.opA c)] ∧ (t.dilOf a).entries = (s.dilOf a).entries) ∧
        (8 ≤ (s.dilOf a).writes.length → exec (.stw a) s = .next (s.dilFault c 5))) ∧
      (∀ i ∈ ([(.pwr a, 7), (.stw a, 0xA)] : List (Instr × Nat)), nOpc c.n = i.2 → pwrAllowed (s.dilPage c) (dilOfs c) = false → Does i.1 s fun t =>
        (t.reg p 0x1C).getLsbD 11 = true ∧ (t.dilOf a).writes = (s.dilOf a).writes ∧ t.mem = s.mem)) ∧
    (s.assemble c = none → (nOpc c.n = 8 → exec (.enq a) s = .next (s.dilFault c 2)) ∧ (nOpc c.n = 9 → exec (.stg a) s = .next (s.dilFault c 2))) ∧
    (∀ w0 w1 w2 w3, s.assemble c = some (w0, w1, w2, w3) →
      (∀ y u r, nOpc c.n = 8 → y = s.makeWay a 0 →
        u = (((y.1.setMreg (dilMaster a) (drlPage a) 0x40 w0).setMreg (dilMaster a) (drlPage a) 0x44 w1).setMreg (dilMaster a) (drlPage a) 0x48 w2).setMreg (dilMaster a) (drlPage a) 0x4C w3 →
        r = u.enqueueOne a w0 w1 w2 w3 u.time (48 * 64) →
        Does (.enq a) s fun t => t.flag a fE = decide (r.2.1.result ≠ 0) ∧ t.get p DIL.ESTAT_RESULT = r.2.1.result % 16 ∧
          (y.2 = [] → t.drl = r.1.drl) ∧ (nWb c.n = true → mRd c.w ≠ 0 → t.g a (mRd c.w) = BitVec.ofNat 32 r.2.1.result)) ∧
      (nOpc c.n = 9 → (s.dilOf a).entries.length < 16 → Does (.stg a) s fun t => (t.dilOf a).entries = (s.dilOf a).entries ++ [(w0, w1, w2, w3)] ∧
        (t.dilOf a).writes = (s.dilOf a).writes ∧ t.drl = s.drl) ∧
      (nOpc c.n = 9 → 16 ≤ (s.dilOf a).entries.length → exec (.stg a) s = .next (s.dilFault c 5))) ∧
    (nOpc c.n = 0xB → nFn c.n = 0 →
      ((s.dilOf a).entries = [] →
        ((s.dilOf a).writes = [] → Does (.commit a) s fun t => t.flag a fE = false ∧ t.drl = s.drl ∧ t.mem = s.mem ∧ (∀ k, t.g a k = s.g a k)) ∧
        (∀ u, u = ((s.dropStaging a).setFlag a fE false).landWrites a (s.dilOf a).writes →
          exec (.commit a) s = .next (if u.dilState a = 2 ∨ u.dilState a = 3 then u.dilOpEnd c else u))) ∧
      (∀ y r u, (s.dilOf a).entries ≠ [] → y = (s.dropStaging a).makeWay a 0 →
        r = y.1.admitBatch a ((s.dilOf a).entries.map (fun w => y.1.makeEntry a w.1 w.2.1 w.2.2.1 w.2.2.2 y.1.time (240 * 64))) y.1.time (240 * 64) →
        u = (r.1.each y.2 (fun s q => s.putBack a q)).dilVerdict a true r.2.1 r.2.2 →
        u.flag a fE = decide (r.2.1.result ≠ 0) ∧ (u.dilOf a).entries = [] ∧ (u.dilOf a).writes = [] ∧
        u.get p DIL.ESTAT_RESULT = r.2.1.result % 16 ∧ (y.2 = [] → u.drl = r.1.drl) ∧
        (r.2.1.result ≠ 0 → exec (.commit a) s = .next (if u.dilState a = 2 ∨ u.dilState a = 3 then u.dilOpEnd c else u)) ∧
        (∀ v, r.2.1.result = 0 → v = u.landWrites a (s.dilOf a).writes →
          exec (.commit a) s = .next (if v.dilState a = 2 ∨ v.dilState a = 3 then v.dilOpEnd c else v)))) ∧
    (nOpc c.n = 0xB → nFn c.n = 1 → Does (.discard a) s fun t => t.flag a fE = false ∧ (t.dilOf a).entries = [] ∧ (t.dilOf a).writes = [] ∧ t.drl = s.drl ∧ (∀ k, t.g a k = s.g a k)) ∧
    (nOpc c.n = 0xC →
      (nFn c.n = 0 → Does (.timeNow a) s fun t => (nWb c.n = true → mRd c.w ≠ 0 → t.g a (mRd c.w) = BitVec.ofNat 32 s.time) ∧ (t.dilOf a).flags = (s.dilOf a).flags) ∧
      (∀ i ∈ ([(.timeAngle a, 1), (.timeRev a, 2), (.timePred a, 3)] : List (Instr × Nat)), nFn c.n = i.2 → s.angleOk = false → Does i.1 s fun t =>
        (nWb c.n = true → mRd c.w ≠ 0 → t.g a (mRd c.w) = 0) ∧ t.flag a fZ = true) ∧
      (s.angleOk = true → nFn c.n = 1 → Does (.timeAngle a) s fun t => t.flag a fZ = false ∧ (nWb c.n = true → mRd c.w ≠ 0 →
        t.g a (mRd c.w) = BitVec.ofNat 32 (2 ^ 31 + fromP0 s.wedgesN (a / 2) (s.angIndex s.time) * 2 ^ 16 + s.angFrac s.time))) ∧
      (s.angleOk = true → nFn c.n = 2 → Does (.timeRev a) s fun t => t.flag a fZ = false ∧ (nWb c.n = true → mRd c.w ≠ 0 →
        t.g a (mRd c.w) = BitVec.ofNat 32 (s.angRev s.time))) ∧
      (s.angleOk = true → nFn c.n = 3 → Does (.timePred a) s fun t => t.flag a fZ = false ∧ (nWb c.n = true → mRd c.w ≠ 0 →
        t.g a (mRd c.w) = if (s.opA c).toNat < s.wedgesN
          then BitVec.ofInt 32 (s.firstAt (s.wedgeTime (toP0 s.wedgesN (a / 2) (s.opA c).toNat) + (s.pivotTrim a : Rat)) s.time)
          else BitVec.ofNat 32 s.freeVal))) ∧
    (nOpc c.n = 0xD →
      (nFn c.n = 0 → Does (.out a) s fun t => t.reg p (0x100 + 4 * bits c.w 2 0) = s.opA c ∧ (∀ k, t.g a k = s.g a k)) ∧
      (nFn c.n = 1 → Does (.irq a) s fun t => (t.reg p 0x18).getLsbD 1 = true ∧ (∀ k, t.g a k = s.g a k)) ∧
      (nFn c.n = 2 → Does (.emask a) s fun t => t.get p DIL.EVT_MASK = (s.opA c).toNat % 65536 ∧ (∀ k, t.g a k = s.g a k)) ∧
      (nFn c.n = 3 → Does (.eclr a) s fun t => t.reg p 0x70 = s.reg p 0x70 &&& ~~~ (s.opA c) ∧ (∀ k, t.g a k = s.g a k)) ∧
      (nFn c.n = 4 → Does (.eset a) s fun t => t.reg p 0x70 = s.reg p 0x70 ||| BitVec.ofNat 32 ((s.opA c).toNat % 65536) ∧ (∀ k, t.g a k = s.g a k)))

/-- With its operation done, a word of another NXT than the command's changes nothing; its own goes on at the address of R217: at p + 1 where the condition does not hold (BAD_WORD at the store's last address), JMP and DISP at their targets, CALL with the return address pushed, RET at the address popped, LOOP with G31 counted down, WAIT waiting at its own address until its condition holds; a DISP beyond 0x1FFF is BAD_WORD, a JMP, CALL or DISP from the Allotment to a vendor address that is no entry BAD_ENTRY, a CALL on a full stack, a RET on an empty one or on an event frame and a RESUME without one STACK, a reserved SYS subcode and ABANDON outside a handler BAD_WORD. END, FAIL and ABANDON end the routine with their status, END_INFO and an empty staging, one that END or FAIL leaves filled setting DIL bit 12; RESUME goes back to the interrupted address with its flags. A stop requested during the word ends the routine at the next address with the status asked for. The lowest pending enabled event is taken before a word without HOLD or at a waiting WAIT with its frame pushed, and otherwise nothing changes; the 65th HOLD word is HOLD_RUN, an earlier one no event. START on a present, powered page in no soft reset copies the arguments and runs from its entry or is refused with reason 1, 2 or 3 and DIL bit 9; KILL ends a routine KILLED, at once or at the end of the word in progress, and changes nothing without a routine; STOP, EVT_SET and EVT_CLR change the pending events; LD_ADDR clears the load state; a part that completes a word writes it and advances the address, another part is kept, and a part refused BUSY or DENIED stores nothing and sets DIL bit 10. -/
def Obligations.DillFlow : Prop :=
  (∀ (a : Fin 8) (s : State) (c : DilCtx) (p : Nat) (b : Bool), Sound s → s.running (pDIL a) = true → c = s.dilCtx a → p = pDIL a →
      b = s.dilCond a (mCond c.w) →
    ((s.dilOf a).opDone = true → s.on p DIL.RUN_STAT_WAITING = false →
      (∀ i ∈ ([(.jmp a, 1), (.call a, 2), (.ret a, 3), (.loop a, 4), (.wait a, 5), (.disp a, 6), (.endOp a, 7), (.resume a, 7), (.abandon a, 7), (.fail a, 7)] : List (Instr × Nat)),
        mNxt c.w ≠ i.2 → exec i.1 s = .next s) ∧
      (∀ i ∈ ([(.jmp a, 1, 0), (.call a, 2, 0), (.ret a, 3, 0), (.disp a, 6, 0), (.endOp a, 7, 0), (.resume a, 7, 1), (.abandon a, 7, 2), (.fail a, 7, 3)] : List (Instr × Nat × Nat)),
        mNxt c.w = i.2.1 → b = false → i.2.2 = 0 ∨ mTarget c.w % 8 = i.2.2 →
        (c.p = 0x1FFF → exec i.1 s = .next (s.dilFault c 2)) ∧
        (c.p < 0x1FFF → (s.dilOf a).stopReq = none → Does i.1 s fun t =>
          t.dilPc a = c.p + 1 ∧ (t.dilOf a).opDone = false ∧ t.dilState a = s.dilState a ∧ (∀ k, t.g a k = s.g a k) ∧ t.mem = s.mem) ∧
        (∀ st, c.p < 0x1FFF → (s.dilOf a).stopReq = some st → st < 8 → Does i.1 s fun t =>
          t.dilState a = (if st = 5 then 4 else 1) ∧ t.get p DIL.RUN_STAT_STATUS = st ∧ t.get p DIL.END_INFO_PC_AT = c.p + 1)) ∧
      (∀ i ∈ ([.endOp a, .resume a, .abandon a, .fail a] : List Instr), mNxt c.w = 7 → b = true → 4 ≤ mTarget c.w % 8 → exec i s = .next (s.dilFault c 2)) ∧
      ((s.dilOf a).stopReq = none →
        (mNxt c.w = 1 → b = true →
          (transferOk c.p (mTarget c.w) true = true → Does (.jmp a) s fun t => t.dilPc a = mTarget c.w ∧ (t.dilOf a).opDone = false ∧ t.dilState a = s.dilState a) ∧
          (transferOk c.p (mTarget c.w) true = false → exec (.jmp a) s = .next (s.dilFault c 3))) ∧
        (mNxt c.w = 2 → b = true →
          ((if s.dilState a = 3 then 8 else 7) ≤ s.dilStack a → exec (.call a) s = .next (s.dilFault c 0)) ∧
          (c.p < 0x1FFF → s.dilStack a < (if s.dilState a = 3 then 8 else 7) → transferOk c.p (mTarget c.w) true = true → Does (.call a) s fun t =>
            t.dilPc a = mTarget c.w ∧ t.dilStack a = s.dilStack a + 1 ∧ t.dilTop a = some (c.p + 1)) ∧
          (s.dilStack a < (if s.dilState a = 3 then 8 else 7) → transferOk c.p (mTarget c.w) true = false →
            exec (.call a) s = .next ((s.dilPush a ((c.p + 1) % 8192)).dilFault c 3))) ∧
        (mNxt c.w = 3 → b = true →
          (s.dilStack a = 0 → exec (.ret a) s = .next (s.dilFault c 0)) ∧
          (∀ v, s.dilTop a = some v → bit v 16 = true → exec (.ret a) s = .next (s.dilFault c 0)) ∧
          (∀ v, s.dilTop a = some v → bit v 16 = false → transferOk c.p (bits v 12 0) false = true → Does (.ret a) s fun t => t.dilPc a = bits v 12 0 ∧ t.dilStack a + 1 = s.dilStack a)) ∧
        (mNxt c.w = 4 → transferOk c.p (mTarget c.w) false = true → c.p < 0x1FFF → Does (.loop a) s fun t => t.g a 31 = s.g a 31 - 1 ∧
          t.dilPc a = if s.g a 31 - 1 ≠ 0 ∧ b = true then mTarget c.w else c.p + 1) ∧
        (mNxt c.w = 5 → b = true → c.p < 0x1FFF → Does (.wait a) s fun t => t.dilPc a = c.p + 1 ∧ (t.dilOf a).opDone = false) ∧
        (mNxt c.w = 5 → b = false → exec (.wait a) s = .next (s.put p DIL.RUN_STAT_WAITING 1)) ∧
        (mNxt c.w = 6 → b = true →
          (0x1FFF < mTarget c.w + (s.opA c).toNat % 16 → exec (.disp a) s = .next (s.dilFault c 2)) ∧
          (transferOk c.p (mTarget c.w + (s.opA c).toNat % 16) true = true → Does (.disp a) s fun t => t.dilPc a = mTarget c.w + (s.opA c).toNat % 16) ∧
          (mTarget c.w + (s.opA c).toNat % 16 ≤ 0x1FFF → transferOk c.p (mTarget c.w + (s.opA c).toNat % 16) true = false →
            exec (.disp a) s = .next (s.dilFault c 3))) ∧
        (mNxt c.w = 7 → b = true →
          (mTarget c.w % 8 = 0 → Does (.endOp a) s fun t => t.dilState a = 1 ∧ t.get p DIL.RUN_STAT_STATUS = 1 ∧ t.dilStack a = 0 ∧ (t.reg p 0x18).getLsbD 0 = true ∧
            (t.dilOf a).entries = [] ∧ (t.dilOf a).writes = [] ∧ ((s.dilOf a).entries ≠ [] ∨ (s.dilOf a).writes ≠ [] → (t.reg p 0x1C).getLsbD 12 = true)) ∧
          (mTarget c.w % 8 = 1 → ∀ v, s.dilTop a = some v → bit v 16 = true → transferOk c.p (bits v 12 0) false = true → Does (.resume a) s fun t =>
            t.dilState a = 2 ∧ t.dilPc a = bits v 12 0 ∧ (t.dilOf a).flags = bits v 28 24 ∧ t.dilStack a + 1 = s.dilStack a ∧ (t.dilOf a).noEvent = true) ∧
          (mTarget c.w % 8 = 1 → (s.dilTop a).all (fun v => !bit v 16) = true → exec (.resume a) s = .next (s.dilFault c 0)) ∧
          (mTarget c.w % 8 = 2 → s.dilState a ≠ 3 → exec (.abandon a) s = .next (s.dilFault c 2)) ∧
          (mTarget c.w % 8 = 2 → s.dilState a = 3 → ∀ v, s.dilTop a = some v → bit v 16 = true → Does (.abandon a) s fun t =>
            t.dilState a = 1 ∧ t.get p DIL.RUN_STAT_STATUS = 3 ∧ t.get p DIL.END_INFO_CODE = bits v 23 20 ∧ t.get p DIL.END_INFO_PC_AT = bits v 12 0 ∧
            (t.dilOf a).entries = [] ∧ (t.dilOf a).writes = []) ∧
          (mTarget c.w % 8 = 3 → Does (.fail a) s fun t => t.dilState a = 1 ∧ t.get p DIL.RUN_STAT_STATUS = 2 ∧
            t.get p DIL.END_INFO_CODE = (s.opA c).toNat % 65536 ∧ t.get p DIL.END_INFO_PC_AT = c.p ∧
            (t.dilOf a).entries = [] ∧ (t.dilOf a).writes = [] ∧ ((s.dilOf a).entries ≠ [] ∨ (s.dilOf a).writes ≠ [] → (t.reg p 0x1C).getLsbD 12 = true))))) ∧
    (s.on p DIL.RUN_STAT_WAITING = true → b = true → (s.dilOf a).stopReq = none → c.p < 0x1FFF → Does (.waitRelease a) s fun t =>
      t.dilPc a = c.p + 1 ∧ t.on p DIL.RUN_STAT_WAITING = false) ∧
    (b = false ∨ s.on p DIL.RUN_STAT_WAITING = false → exec (.waitRelease a) s = .next s) ∧
    (∀ open_, open_ = (s.on p DIL.RUN_STAT_WAITING || (!(s.dilOf a).opDone && !(s.dilOf a).xrd && !(s.dilOf a).noEvent && (!mHold c.w || decide (mNxt c.w = 5)))) →
      (s.dilEvent a = none ∨ s.dilState a ≠ 2 ∨ open_ = false → exec (.eventTaken a) s = .next s) ∧
      (∀ e, s.dilEvent a = some e → s.dilState a = 2 → open_ = true → (s.dilOf a).stopReq = none → s.dilStack a < 8 →
        transferOk c.p (s.get p (DIL.EVT_VEC_ADDR e)) true = true → Does (.eventTaken a) s fun t =>
          t.dilState a = 3 ∧ t.dilPc a = s.get p (DIL.EVT_VEC_ADDR e) ∧ (t.reg p 0x70).getLsbD e = false ∧ t.dilStack a = s.dilStack a + 1 ∧
          ∃ v, t.dilTop a = some v ∧ bits v 12 0 = c.p ∧ bit v 16 = true ∧ bits v 23 20 = e)) ∧
    ((s.dilState a = 2 ∨ s.dilState a = 3) → (s.dilOf a).opDone = false → mHold c.w = true → mNxt c.w ≠ 5 → 64 ≤ (s.dilOf a).holdRun →
      exec (.holdRun a) s = .next (s.dilFault c 1)) ∧
    ((s.dilState a ≠ 2 ∧ s.dilState a ≠ 3) ∨ (s.dilOf a).opDone = true ∨ mHold c.w = false ∨ mNxt c.w = 5 ∨ (s.dilOf a).holdRun < 64 →
      exec (.holdRun a) s = .next s)) ∧
  (∀ (a : Fin 8) (s : State) (p : Nat), Sound s → p = pDIL a → s.present p = true → s.powered p = true → s.isResetting p = false → ∀ m : Master,
    (∀ entry : BitVec 13,
      (s.dilState a = 1 → s.enabled p = true → 0x800 ≤ entry.toNat ∨ entry.toNat < 0x40 → Does (.dilStart m a entry) s fun t => t.dilState a = 2 ∧ t.dilPc a = entry.toNat ∧
        t.dilStack a = 0 ∧ (∀ k, k < 8 → t.g a (k + 1) = s.reg p (0x50 + 4 * k)) ∧ t.g a 31 = 0 ∧ (t.dilOf a).flags = 0 ∧ (∀ k, 9 ≤ k → k < 31 → t.g a k = s.g a k)) ∧
      (∀ r, (r = 1 ∧ (s.dilState a = 2 ∨ s.dilState a = 3)) ∨ (r = 2 ∧ s.dilState a ≠ 2 ∧ s.dilState a ≠ 3 ∧ (s.enabled p = false ∨ s.dilState a ≠ 1)) ∨
          (r = 3 ∧ s.dilState a = 1 ∧ s.enabled p = true ∧ 0x40 ≤ entry.toNat ∧ entry.toNat < 0x800) →
        Does (.dilStart m a entry) s fun t => t.get p DIL.RUN_STAT_REFUSE = r ∧ t.dilState a = s.dilState a ∧ t.dilPc a = s.dilPc a ∧ (t.reg p 0x1C).getLsbD 9 = true)) ∧
    (s.dilState a = 2 ∨ s.dilState a = 3 →
      (((s.dilOf a).opDone = false ∧ (s.dilOf a).xrd = false) ∨ s.on p DIL.RUN_STAT_WAITING = true → Does (.kill m a) s fun t => t.dilState a = 1 ∧
        t.get p DIL.RUN_STAT_STATUS = 4 ∧ t.get p DIL.END_INFO_PC_AT = s.dilPc a) ∧
      ((s.dilOf a).opDone = true ∨ (s.dilOf a).xrd = true → s.on p DIL.RUN_STAT_WAITING = false → (s.dilOf a).stopReq = none → Does (.kill m a) s fun t =>
        (t.dilOf a).stopReq = some 4 ∧ t.dilState a = s.dilState a ∧ t.regs = s.regs)) ∧
    (s.dilState a ≠ 2 → s.dilState a ≠ 3 → exec (.kill m a) s = .next s) ∧
    exec (.dilStop m a) s = .next (s.setReg p 0x70 (s.reg p 0x70 ||| 0x8000)) ∧
    (∀ mask : BitVec 16, exec (.evtSet m a mask) s = .next (s.setReg p 0x70 (s.reg p 0x70 ||| mask.setWidth 32)) ∧
      exec (.evtClr m a mask) s = .next (s.setReg p 0x70 (s.reg p 0x70 &&& ~~~ (mask.setWidth 32)))) ∧
    (∀ (sp : BitVec 2) (ad : BitVec 13), Does (.ldAddr m a sp ad) s fun t => t.get p DIL.LD_ADDR_SPACE = sp.toNat ∧ t.get p DIL.LD_ADDR_ADDR = ad.toNat ∧
      t.reg p 0xF4 = 0 ∧ t.reg p 0xF8 = 0 ∧ (t.dilOf a).part = 0) ∧
    (∀ (v : Word) (sp ad k w : Nat), sp = s.get p DIL.LD_ADDR_SPACE → ad = s.get p DIL.LD_ADDR_ADDR → k = s.get p DIL.LD_STAT_PART →
      w = (s.dilOf a).part + v.toNat * 2 ^ (32 * k) →
      (s.loadRefusal m a sp ad = 0 → k + 1 = spaceParts sp → Does (.ldData m a v) s fun t => t.dilOf a = { (s.dilOf a).store sp ad w with part := 0 } ∧
        t.get p DIL.LD_STAT_PART = 0 ∧ (ad < 8191 → t.get p DIL.LD_ADDR_ADDR = ad + 1)) ∧
      (s.loadRefusal m a sp ad = 0 → k + 1 < spaceParts sp → Does (.ldData m a v) s fun t => t.dilOf a = { s.dilOf a with part := w } ∧
        t.get p DIL.LD_STAT_PART = k + 1 ∧ t.get p DIL.LD_ADDR_ADDR = ad) ∧
      (s.loadRefusal m a sp ad = 1 → Does (.ldData m a v) s fun t => t.on p DIL.LD_STAT_BUSY = true ∧ t.dil = s.dil ∧ (t.reg p 0x1C).getLsbD 10 = true) ∧
      (s.loadRefusal m a sp ad = 2 → Does (.ldData m a v) s fun t => t.on p DIL.LD_STAT_DENIED = true ∧ t.dil = s.dil ∧ (t.reg p 0x1C).getLsbD 10 = true)))

/-- With SRVa not running, or with the window free and no SAM accepted at a head, a servo sample changes nothing. Otherwise it counts one sample, gives every head that HEAD_EN disables or whose head channel is unpowered the quality OFF, every other head for which no SAM is accepted the quality NO_SAM, and every head with an accepted SAM its SAM_TIME and the wedge of its ID in PES; where the N burst is 0, the Q burst is not and no prediction exists, POS is the Gray track with fraction 0, and PES that position less the target's, less 4 RRO where enabled, saturated to ±32,767 with SAT. PES saturates so for every position, and without a prediction a position lies within half a track of the Gray track. (A prediction exists in a gated window after a good sample: log entry 57.) -/
def Obligations.ServoSamples : Prop :=
  ∀ (a : Fin 8) (rdA rdB : List ServoHead) (s : State) (p : Nat) (x : Nat → ServoHead) (acc : Nat → Bool), Sound s → p = pSRV a →
    (∀ k, x k = s.servoInput a k rdA rdB) →
    (∀ k, acc k = (bit (s.get p SRV.HEAD_EN_EN) k && s.powered (pHCH (12 * a + k)) && (s.samEnd a k (x k)).isSome)) →
    (s.running p = false ∨ (s.gated = false ∧ ∀ k, k < 12 → acc k = false) → exec (.servoSample a rdA rdB) s = .next s) ∧
    (s.running p = true → (s.gated = true ∨ ∃ k, k < 12 ∧ acc k = true) → Does (.servoSample a rdA rdB) s fun t =>
      (t.srvOf a).n = (s.srvOf a).n + 1 ∧
      ∀ k, k < 12 →
        (bit (s.get p SRV.HEAD_EN_EN) k = false ∨ s.powered (pHCH (12 * a + k)) = false → t.get p (SRV.PES_QUAL k) = 5) ∧
        (bit (s.get p SRV.HEAD_EN_EN) k = true → s.powered (pHCH (12 * a + k)) = true → acc k = false → t.get p (SRV.PES_QUAL k) = 1) ∧
        (acc k = true →
          (∀ e, s.samEnd a k (x k) = some e → t.get p (SRV.SAM_TIME k) = enc 32 e) ∧ t.get p (SRV.PES_WEDGE k) = (x k).wedge.toNat ∧
          ((x k).aN.toInt = 0 → (x k).aQ.toInt ≠ 0 → s.predicted (12 * a + k) = none → ∀ raw : Int,
            raw = (grayTrack (x k).gray : Int) * 4096 - s.get p (SRV.TGT_TRACK k) * 4096 - (if s.on p SRV.SRV_CFG_RRO_EN = true then 4 * (x k).rro.toInt else 0) →
            t.get p (SRV.POS k) = enc 32 ((grayTrack (x k).gray : Int) * 256) ∧ t.get p (SRV.PES_PES k) = enc 16 (max (-32767) (min raw 32767)) ∧
            t.on p (SRV.PES_SAT k) = decide (32767 < raw.natAbs)))) ∧
    (∀ k, k < 12 → acc k = true → ∀ o raw, o = (s.demodulate a k (x k)).2 →
      raw = o.pos - s.get p (SRV.TGT_TRACK k) * 4096 - (if s.on p SRV.SRV_CFG_RRO_EN = true then 4 * (x k).rro.toInt else 0) →
      o.pes = max (-32767) (min raw 32767) ∧ o.sat = decide (32767 < raw.natAbs) ∧
      (s.predicted (12 * a + k) = none → o.pos - grayTrack (x k).gray * 4096 ≤ 2048 ∧ -2048 ≤ o.pos - grayTrack (x k).gray * 4096))

/-- A Tiller that is fenced or not running, or a loop that has had its sample, computes nothing; a fenced loop is passed over. An open loop's result is OPEN_OUT clamped; a closed loop whose error R249 gives takes the states and the clamped, rounded output of the law of R250, feed-forward added, and a miss count of 0; without an error it counts a miss and keeps its states, and a closed microactuator loop in SEEK computes nothing. A pending OPEN_SET opens the loop; a pending CLOSE_SET closes it on the states of R255, stays pending where no error is given, is refused with CLOSE_REFUSED and FLT_STAT bit 10 where R255's limit says so, and is dropped at a closed loop; a pending hand-over takes the new mode with the states of R257, misses or waits where an error is missing, and is refused with HO_REFUSED and bit 2 in its old mode; one to the present mode is dropped, ending the seek where it is firmware's to the VCM. MISS_LIMIT consecutive misses set bit 6 of a microactuator's loop, bit 7 of the VCM's, and OVERRUN_LIMIT overruns bit 5, each once, and below the limit nothing happens. The frame of an enabled Tiller leaves once a sample, and of a fenced one always: it carries each loop's result, OPEN_OUT of a fenced loop, the previous output of a loop that overran or has none. MOT applies it in LOADED alone, the d2d link being there, from the first frame after a load on. OPEN_SET, CLOSE_SET and HANDOVER mark the loops named, a hand-over of an open loop changes its mode at once and mode 3 does nothing; a write of MA_REF adds to the sum with saturation, but not at the VCM's loop. -/
def Obligations.Tillers : Prop :=
  ∀ (a : Fin 8) (s : State) (p n : Nat), Sound s → p = pTIL a → n = (s.srvOf a).n →
    (∀ (j : Fin 13) (corr : BitVec 6) (s0 : State) (m : Nat) (out : Int), s0 = (if corr = 0 then s else s.raise p 9) → m = s.loopMode a j →
        out = s.clampOut a j (sgn 16 (s.get p (LOOP.OPEN_OUT j))) →
      (s.running p = false ∨ s.fenced p = true ∨ n ≤ (s.loopOf a j).stamp → exec (.tillerCompute a j corr) s = .next s) ∧
      (s.running p = true → s.fenced p = false → (s.loopOf a j).stamp < n →
        (s.on p (LOOP.LSTAT_FENCED j) = true → exec (.tillerCompute a j corr) s = .next (s0.stampLoop a j)) ∧
        (s.on p (LOOP.LSTAT_FENCED j) = false → ∀ (res : Int → Option Int) (ends : Bool), res = (fun u => if (s.tilOf a).frameN = n then none else some u) →
          ends = ((s.loopOf a j).fw && decide (j.val = 12 ∧ s.seekState a ≠ 0)) →
          (s.pend a j 0 = true → Does (.tillerCompute a j corr) s fun t => (t.loopOf a j).stamp = n ∧ t.loopClosed a j = false ∧ t.pend a j 0 = false ∧
            t.pend a j 1 = false ∧ (t.loopOf a j).res = res out) ∧
          (s.loopClosed a j = false → s.pend a j 0 = false → (s.pend a j 1 = false ∨ n < (s.loopOf a j).clFrom ∨ (s.loopErr a j m = none ∧ ¬ (j.val < 12 ∧ m = 0))) →
            Does (.tillerCompute a j corr) s fun t => (t.loopOf a j).stamp = n ∧ t.loopClosed a j = false ∧ t.pend a j 1 = s.pend a j 1 ∧
              (t.loopOf a j).res = res out ∧ t.loopI a j = s.loopI a j ∧ t.mem = s.mem) ∧
          (s.loopClosed a j = false → s.pend a j 0 = false → s.pend a j 1 = true → (s.loopOf a j).clFrom ≤ n →
            (j.val < 12 → m = 0 → Does (.tillerCompute a j corr) s fun t => t.loopClosed a j = true ∧ t.pend a j 1 = false ∧ (t.loopOf a j).stamp = n ∧ (t.loopOf a j).res = res out) ∧
            (∀ e, s.loopErr a j m = some e → e = sgn 32 (enc 32 e) →
              (∀ o, s.closeLaw a j m (sgn 16 (s.get p (LOOP.OPEN_OUT j))) e = some o → Does (.tillerCompute a j corr) s fun t =>
                t.loopClosed a j = true ∧ t.pend a j 1 = false ∧ (t.loopOf a j).stamp = n ∧ t.loopI a j = o.i ∧ (t.loopOf a j).d = 0 ∧ (t.loopOf a j).ns = o.ns ∧ t.loopE a j = e) ∧
              (s.closeLaw a j m (sgn 16 (s.get p (LOOP.OPEN_OUT j))) e = none → Does (.tillerCompute a j corr) s fun t =>
                t.loopClosed a j = false ∧ t.pend a j 1 = false ∧ t.get p (LOOP.FLAGS_CLOSE_REFUSED j) = 1 ∧ (t.reg p 0x1C).getLsbD 10 = true ∧
                (t.loopOf a j).stamp = n ∧ (t.loopOf a j).res = res out))) ∧
          (s.loopClosed a j = true → s.pend a j 0 = false → s.pend a j 1 = false → (s.pend a j 2 = false ∨ n < (s.loopOf a j).hoFrom ∨ ((s.loopOf a j).hoMode = m ∧ ends = false)) →
            (j.val < 12 → m = 0 → Does (.tillerCompute a j corr) s fun t => (t.loopOf a j).stamp = n ∧ (t.loopOf a j).res = (s.loopOf a j).res ∧ t.loopI a j = s.loopI a j ∧
              t.get p (LOOP.OUTPUT j) = s.get p (LOOP.OUTPUT j) ∧ t.loopMode a j = 0 ∧ t.pend a j 2 = (s.pend a j 2 && decide (n < (s.loopOf a j).hoFrom))) ∧
            (∀ e o x, s.loopErr a j m = some e → e = sgn 32 (enc 32 e) → o = s.normalLaw a j m e → x = o.y + s.loopFf a j m * 2 ^ 16 →
              Does (.tillerCompute a j corr) s fun t =>
                (t.loopOf a j).stamp = n ∧ (t.loopOf a j).res = res (s.clampOut a j (divAway (wrap64 x) 16)) ∧ t.loopI a j = o.i ∧ t.loopE a j = e ∧ (t.loopOf a j).d = o.d ∧
                (t.loopOf a j).ns = o.ns ∧ t.get p (LOOP.LSTAT_MISS j) = 0 ∧ t.loopMode a j = m ∧ t.loopClosed a j = true ∧ t.mem = s.mem ∧
                (s.pend a j 2 = true → (s.loopOf a j).hoFrom ≤ n → t.pend a j 2 = false)) ∧
            (s.loopErr a j m = none → ¬ (j.val < 12 ∧ m = 0) → Does (.tillerCompute a j corr) s fun t => (t.loopOf a j).stamp = n ∧ (t.loopOf a j).d = (s.loopOf a j).d ∧
              (t.loopOf a j).ns = (s.loopOf a j).ns ∧ t.loopI a j = s.loopI a j ∧ t.loopE a j = s.loopE a j ∧ t.get p (LOOP.LSTAT_MISS j) = min (s.get p (LOOP.LSTAT_MISS j) + 1) 15 ∧
              t.get p TIL.MISS_CNT = min (s.get p TIL.MISS_CNT + 1) (2 ^ 32 - 1))) ∧
          (s.loopClosed a j = true → s.pend a j 0 = false → s.pend a j 1 = true → Does (.tillerCompute a j corr) s fun t => t.pend a j 1 = false ∧ t.loopClosed a j = true ∧ (t.loopOf a j).stamp = n) ∧
          (s.loopClosed a j = true → s.pend a j 0 = false → s.pend a j 1 = false → s.pend a j 2 = true → (s.loopOf a j).hoFrom ≤ n → (s.loopOf a j).hoMode = m → ends = true →
            Does (.tillerCompute a j corr) s fun t => t.pend a j 2 = false ∧ t.seekState a = 0 ∧ (t.loopOf a j).stamp = n) ∧
          (∀ m', s.loopClosed a j = true → s.pend a j 0 = false → s.pend a j 1 = false → s.pend a j 2 = true → (s.loopOf a j).hoFrom ≤ n → m' = (s.loopOf a j).hoMode → m' ≠ m → m' < 3 →
            (¬ (j.val < 12 ∧ (m = 0 ∨ m' = 0)) → ∀ e e', s.loopErr a j m = some e → s.loopErr a j m' = some e' → e = sgn 32 (enc 32 e) → e' = sgn 32 (enc 32 e') →
              (∀ o, s.handLaw a j m m' e e' = some o → Does (.tillerCompute a j corr) s fun t => t.loopMode a j = m' ∧ t.pend a j 2 = false ∧ (t.loopOf a j).stamp = n ∧
                t.loopI a j = o.i ∧ (t.loopOf a j).d = o.d ∧ (t.loopOf a j).ns = o.ns ∧ t.loopE a j = e' ∧ bit (t.get p TIL.HO_STAT_DONE) j = true) ∧
              (s.handLaw a j m m' e e' = none → Does (.tillerCompute a j corr) s fun t => t.loopMode a j = m ∧ t.pend a j 2 = false ∧ (t.loopOf a j).stamp = n ∧
                t.get p (LOOP.FLAGS_HO_REFUSED j) = 1 ∧ (t.reg p 0x1C).getLsbD 2 = true ∧ bit (t.get p TIL.HO_STAT_REFUSED) j = true)) ∧
            (¬ (j.val < 12 ∧ m = 0) → s.loopErr a j m = none → exec (.tillerCompute a j corr) s = .next ((s0.missLoop a j).seekCheck a)) ∧
            (¬ (j.val < 12 ∧ (m = 0 ∨ m' = 0)) → ∀ e, s.loopErr a j m = some e → s.loopErr a j m' = none → exec (.tillerCompute a j corr) s = .next ((s0.sampleClosed a j corr.toNat).seekCheck a)) ∧
            (j.val < 12 → m' = 0 → ∀ e, s.loopErr a j m = some e → Does (.tillerCompute a j corr) s fun t => t.loopMode a j = 0 ∧ t.pend a j 2 = false ∧ (t.loopOf a j).stamp = n) ∧
            (j.val < 12 → m = 0 → s.loopErr a j m' = none → exec (.tillerCompute a j corr) s = .next ((s0.stampLoop a j).seekCheck a)) ∧
            (j.val < 12 → m = 0 → ∀ e o, s.loopErr a j m' = some e → s.closeLaw a j m' (s.outCode a j) e = some o →
              Does (.tillerCompute a j corr) s fun t => t.loopMode a j = m' ∧ t.pend a j 2 = false ∧ (t.loopOf a j).stamp = n ∧
                t.loopI a j = o.i ∧ (t.loopOf a j).d = 0 ∧ (t.loopOf a j).ns = o.ns))))) ∧
    (∀ j, j < 12 → ∀ m, m ≠ 0 → s.pesOk a j = true → s.loopErr a j m = some (s.maRef a j - s.pesOf a j)) ∧
    (∀ j : Fin 13, s.present p = true →
      (max 1 (s.get p TIL.TIL_CFG_MISS_LIMIT) ≤ s.get p (LOOP.LSTAT_MISS j) → (s.loopOf a j).missTold = false → Does (.missLimit a j) s fun t =>
        (t.loopOf a j).missTold = true ∧ (t.reg p 0x1C).getLsbD (if j.val < 12 then 6 else 7) = true ∧ t.mem = s.mem) ∧
      (max 1 (s.get p TIL.TIL_CFG_OVERRUN_LIMIT) ≤ s.get p (LOOP.LSTAT_OVR j) → (s.tilOf a).limTold = false → Does (.overrunLimit a) s fun t =>
        (t.tilOf a).limTold = true ∧ (t.reg p 0x1C).getLsbD 5 = true)) ∧
    (∀ j : Fin 13, s.get p (LOOP.LSTAT_MISS j) < max 1 (s.get p TIL.TIL_CFG_MISS_LIMIT) ∨ (s.loopOf a j).missTold = true → exec (.missLimit a j) s = .next s) ∧
    ((∀ j, j < 13 → s.get p (LOOP.LSTAT_OVR j) < max 1 (s.get p TIL.TIL_CFG_OVERRUN_LIMIT)) ∨ (s.tilOf a).limTold = true → exec (.overrunLimit a) s = .next s) ∧
    (s.present p = true → s.powered p = true → (s.enabled p = true ∧ (s.tilOf a).frameN < n) ∨ s.fenced p = true → Does (.outputFrame a) s fun t =>
      (t.tilOf a).frameN = n ∧ (t.tilOf a).frame = some ((List.range 13).map (t.outCode a)) ∧
      (∀ j, j < 13 →
        (s.loopFenced a j = true → t.get p (LOOP.OUTPUT j) = enc 16 (s.clampOut a j (sgn 16 (s.get p (LOOP.OPEN_OUT j))))) ∧
        (s.loopFenced a j = false → s.overruns a j = true → t.get p (LOOP.OUTPUT j) = s.get p (LOOP.OUTPUT j) ∧ t.get p (LOOP.FLAGS_OVERRUN j) = 1 ∧
          t.get p (LOOP.LSTAT_OVR j) = min (s.get p (LOOP.LSTAT_OVR j) + 1) 15) ∧
        (s.loopFenced a j = false → s.overruns a j = false → t.get p (LOOP.LSTAT_OVR j) = 0 ∧
          t.get p (LOOP.OUTPUT j) = match (s.loopOf a j).res with | some u => enc 16 u | none => s.get p (LOOP.OUTPUT j)))) ∧
    (s.present p = false ∨ s.powered p = false ∨ (s.fenced p = false ∧ (s.enabled p = false ∨ n ≤ (s.tilOf a).frameN)) → exec (.outputFrame a) s = .next s) ∧
    ((s.tilOf a).frame = none → exec (.outputApply a) s = .next s) ∧
    (∀ f, (s.tilOf a).frame = some f → Does (.outputApply a) s fun t => (t.tilOf a).frame = none ∧ t.regs = s.regs ∧
      t.mactOf a = if s.d2dLost = false ∧ s.rampState a = 3 ∧ (s.mactOf a).from_ ≤ (s.tilOf a).frameN then { s.mactOf a with vcm := f[12]?.getD 0, ma := f.take 12 } else s.mactOf a) ∧
    (s.present p = true → s.powered p = true → s.isResetting p = false → ∀ (m : Master) (mask : BitVec 13),
      (Does (.openSet m a mask) s fun t => ∀ j, j < 13 → t.pend a j 0 = (mask.getLsbD j || s.pend a j 0) ∧ t.pend a j 1 = s.pend a j 1 ∧ t.pend a j 2 = s.pend a j 2) ∧
      (Does (.closeSet m a mask) s fun t => ∀ j, j < 13 → t.pend a j 1 = (mask.getLsbD j || s.pend a j 1) ∧ t.pend a j 0 = s.pend a j 0 ∧ t.pend a j 2 = s.pend a j 2) ∧
      exec (.handover m a 3 mask) s = .next s ∧
      (∀ mode : BitVec 2, mode ≠ 3 → Does (.handover m a mode mask) s fun t => ∀ j, j < 13 →
        (mask.getLsbD j = true → s.loopClosed a j = true → t.pend a j 2 = true ∧ (t.loopOf a j).hoMode = mode.toNat ∧ t.loopMode a j = s.loopMode a j) ∧
        (mask.getLsbD j = true → s.loopClosed a j = false → t.loopMode a j = mode.toNat) ∧
        (mask.getLsbD j = false → t.get p (LOOP.LSTAT j) = s.get p (LOOP.LSTAT j))) ∧
      (∀ (j : Fin 13) (v : BitVec 16),
        (j.val = 12 → exec (.maRef m a j v) s = .next s) ∧
        (j.val < 12 → (s.loopOf a j).maCycle ≠ s.time / fclkSub + 1 → Does (.maRef m a j v) s fun t => t.maRef a j = satS 16 (s.maRef a j + v.toInt)) ∧
        (j.val < 12 → exec (.maRef m a j v) s = .next (s.addRef a j [v.toInt] []))))

/-- With no launch waiting, PRF not running or no sample since the launch, nothing starts. At the first sample after a launch the first failing check of R270 refuses the seek with its LAST, FLT_STAT bit 0 and no other effect on the seek, the loops or TGTk; a reference head that is not PES_OK is waited for over 3 more samples and then refused 0x9; a VCM whose hand-over to SEEK R258 refuses refuses it 0xA with HO_REFUSED; otherwise the seek starts at that sample: x0, the plan over abs(D), N at 0, STATE MOVE (SETTLE_WAIT with an empty profile), SEEK asked of the VCM and of every HEADS loop that is not fenced, and with LOAD_TGT the targets. At each later sample of a seek N counts, the reference lies within 1 PES LSB of the exact profile and is TARGET from the profile's end, STATE MOVE goes over to SETTLE_WAIT at sample ⌈Ttot⌉; SETTLE_WAIT counts consecutive samples in the settle window, SET_CNT of them ask for SETTLE, FOL_CNT in the follow window for FOLLOW, all loops in FOLLOW end the seek FOLLOWING, count it and set the event EVT in a powered sequencer; TMO samples after N end it TIMEOUT; ABORT turns MOVE into STOPPING and ends SETTLE_WAIT and SETTLING ABORTED at the next sample, the stop's end ends it ABORTED. Outside these conditions each of these commands changes nothing. (Which value within 1 LSB the reference takes is open: log entry 3.) -/
def Obligations.Seeks : Prop :=
  ∀ (a : Fin 8) (s : State) (p n : Nat) (f : Prf), Sound s → p = pPRF a → n = (s.srvOf a).n → f = s.prfOf a →
    (f.starts = [] ∨ s.running p = false → exec (.seekStart a) s = .next s) ∧
    (∀ k ws n0 r, f.starts = (k, ws, n0) :: r → n ≤ n0 + f.waited → exec (.seekStart a) s = .next s) ∧
    (∀ k ws n0 r, f.starts = (k, ws, n0) :: r → s.running p = true → n0 + f.waited < n →
      (∀ c, f.waited = 0 → s.seekCheck1 a ws = some c → Does (.seekStart a) s fun t => (t.prfOf a).starts = r ∧ t.get p PRF.PRF_STAT_LAST = c % 16 ∧
        t.seekState a = s.seekState a ∧ (t.reg p 0x1C).getLsbD 0 = true ∧ t.loops = s.loops ∧ t.mem = s.mem ∧ ∀ j, j < 12 → t.get (pSRV a) (SRV.TGT_TRACK j) = s.get (pSRV a) (SRV.TGT_TRACK j)) ∧
      ((f.waited = 0 → s.seekCheck1 a ws = none) → s.headPos a (slotRefK ws) = none →
        (3 ≤ f.waited → Does (.seekStart a) s fun t => (t.prfOf a).starts = r ∧ t.get p PRF.PRF_STAT_LAST = 9 ∧ (t.reg p 0x1C).getLsbD 0 = true ∧ t.loops = s.loops) ∧
        (f.waited < 3 → Does (.seekStart a) s fun t => (t.prfOf a).starts.length = f.starts.length ∧ (t.prfOf a).waited = f.waited + 1 ∧ t.regs = s.regs ∧ t.loops = s.loops)) ∧
      (∀ x0 : Int, (f.waited = 0 → s.seekCheck1 a ws = none) → s.headPos a (slotRefK ws) = some x0 →
        ((s.setPrf a { f with refK := slotRefK ws, ref := x0 }).vcmRefuses a = true → Does (.seekStart a) s fun t => (t.prfOf a).starts = r ∧
          t.get p PRF.PRF_STAT_LAST = 0xA ∧ (t.reg p 0x1C).getLsbD 0 = true ∧ t.get (pTIL a) (LOOP.FLAGS_HO_REFUSED 12) = 1 ∧ t.seekState a = s.seekState a ∧
          ∀ j, j < 13 → t.loopMode a j = s.loopMode a j) ∧
        ((s.setPrf a { f with refK := slotRefK ws, ref := x0 }).vcmRefuses a = false →
        ∀ plan, plan = mkPlan ws ((((slotTarget ws : Int) * 4096 - x0).natAbs : Nat) / 4096) → Does (.seekStart a) s fun t =>
          (t.prfOf a).starts = r ∧ (t.prfOf a).words = ws ∧ (t.prfOf a).x0 = x0 ∧ (t.prfOf a).tgt = (slotTarget ws : Int) * 4096 ∧ (t.prfOf a).plan = plan ∧
          (t.prfOf a).n = 0 ∧ (t.prfOf a).ref = x0 ∧ (t.prfOf a).ff = 0 ∧ t.get p PRF.PRF_STAT_N = 0 ∧ t.get p PRF.PRF_STAT_SLOT = k % 16 ∧
          t.seekState a = (if plan.samples = 0 then 2 else 1) ∧ (plan.samples < 65536 → t.get p PRF.PLAN_T = plan.samples) ∧ t.mem = s.mem ∧
          (∀ j, j < 13 → j = 12 ∨ (bit (slotHeads ws) j = true ∧ s.loopFenced a j = false) →
            if s.loopClosed a j = true then t.pend a j 2 = true ∧ (t.loopOf a j).hoMode = 0 ∧ (t.loopOf a j).hoFrom = n else t.loopMode a j = 0) ∧
          (∀ j, j < 12 → t.get (pSRV a) (SRV.TGT_TRACK j) =
            if slotLoadTgt ws = true ∧ bit (slotHeads ws) j = true then (s.deltaTgt a ws j).toNat % 2 ^ 24 else s.get (pSRV a) (SRV.TGT_TRACK j))))) ∧
    (s.running p = false ∨ s.seekState a = 0 ∨ n ≤ f.last → exec (.profileSample a) s = .next s) ∧
    (s.running p = true → f.last < n → s.seekState a ≠ 0 →
      (f.abort = true → s.seekState a = 2 ∨ s.seekState a = 3 → Does (.profileSample a) s fun t => t.seekState a = 0 ∧ t.get p PRF.PRF_STAT_LAST = 2 ∧ (t.prfOf a).hold = f.ref ∧
        ∀ j, j < 13 → t.loopMode a j = s.loopMode a j) ∧
      (f.abort = true → s.seekState a = 1 → Does (.profileSample a) s fun t => t.seekState a = 4 ∧ (t.prfOf a).n = f.n + 1 ∧
        (t.prfOf a).stop = some (mkStop f.words (f.n + 1) (f.plan.at_ ((f.n + 1 : Nat) : Rat)))) ∧
      (∀ sp, ¬ (f.abort = true ∧ s.seekState a ≤ 3) → f.stop = some sp → Does (.profileSample a) s fun t => t.seekState a = 4 ∧ (t.prfOf a).n = f.n + 1 ∧ (t.prfOf a).stop = some sp ∧
        ∀ x : Rat, x = (f.x0 : Rat) + f.dir * (sp.at_ (slotJ f.words) ((f.n + 1 - sp.n0 : Nat) : Rat)).1 * 4096 → x - 1 ≤ ((t.prfOf a).ref : Rat) ∧ ((t.prfOf a).ref : Rat) ≤ x + 1) ∧
      (¬ (f.abort = true ∧ s.seekState a ≤ 3) → f.stop = none → Does (.profileSample a) s fun t =>
        (t.prfOf a).n = f.n + 1 ∧ t.get p PRF.PRF_STAT_N = min (f.n + 1) 65535 ∧ t.mem = s.mem ∧
        (f.plan.total ≤ ((f.n + 1 : Nat) : Rat) → (t.prfOf a).ref = f.tgt) ∧
        (((f.n + 1 : Nat) : Rat) < f.plan.total → ∀ x : Rat, x = (f.x0 : Rat) + f.dir * (f.plan.at_ ((f.n + 1 : Nat) : Rat)).1 * 4096 →
          x - 1 ≤ ((t.prfOf a).ref : Rat) ∧ ((t.prfOf a).ref : Rat) ≤ x + 1) ∧
        (t.prfOf a).ff = roundAway (f.dir * (f.plan.at_ ((f.n + 1 : Nat) : Rat)).2.2 * slotKff f.words) ∧
        t.seekState a = (if s.seekState a = 1 ∧ f.plan.samples ≤ f.n + 1 then 2 else s.seekState a) ∧
        (t.seekState a = 2 → (t.prfOf a).cnt = if t.inSettle a = true then f.cnt + 1 else 0))) ∧
    (s.seekState a = 2 → slotSetCnt f.words ≤ f.cnt → Does (.settleRequest a) s fun t => t.seekState a = 3 ∧ (t.reg p 0x18).getLsbD 3 = true ∧ (t.prfOf a).cnt = 0 ∧ (t.prfOf a).want = 1 ∧
      ∀ j, j ∈ s.seekLoops a → if s.loopClosed a j = true then t.pend a j 2 = true ∧ (t.loopOf a j).hoMode = 1 ∧ (t.loopOf a j).hoFrom = n + 1 else t.loopMode a j = 1) ∧
    (s.seekState a ≠ 2 ∨ f.cnt < slotSetCnt f.words → exec (.settleRequest a) s = .next s) ∧
    (s.seekState a = 3 → f.want = 1 → slotFolCnt f.words ≤ f.cnt → (∃ j, j ∈ s.seekLoops a ∧ s.loopClosed a j = true ∧ s.loopMode a j ≠ 2) →
      Does (.followRequest a) s fun t => t.seekState a = 3 ∧ (t.prfOf a).want = 2 ∧
        ∀ j, j ∈ s.seekLoops a → if s.loopClosed a j = true then t.pend a j 2 = true ∧ (t.loopOf a j).hoMode = 2 ∧ (t.loopOf a j).hoFrom = n + 1 else t.loopMode a j = 2) ∧
    (s.seekState a = 3 →
      ((f.want = 1 ∧ slotFolCnt f.words ≤ f.cnt ∧ ∀ j, j ∈ s.seekLoops a → s.loopClosed a j = true → s.loopMode a j = 2) ∨ (f.want = 2 ∧ ∀ j, j ∈ s.seekLoops a → s.loopMode a j = 2)) →
      Does (.followRequest a) s fun t => t.seekState a = 0 ∧ t.get p PRF.PRF_STAT_LAST = 1 ∧
      (t.reg p 0x18).getLsbD 0 = true ∧ (t.reg p 0x18).getLsbD 1 = true ∧ t.get p PRF.SEEK_CNT = min (s.get p PRF.SEEK_CNT + 1) (2 ^ 32 - 1) ∧
      (s.powered (pDIL a) = true → ∀ e, e = bits (slotW f.words 7) 31 28 → e ≠ 15 → (t.reg (pDIL a) 0x70).getLsbD e = true)) ∧
    (s.seekState a ≠ 3 ∨ (f.want ≠ 1 ∧ f.want ≠ 2) ∨ (f.want = 1 ∧ f.cnt < slotFolCnt f.words) ∨ (f.want = 2 ∧ ∃ j, j ∈ s.seekLoops a ∧ s.loopMode a j ≠ 2) →
      exec (.followRequest a) s = .next s) ∧
    (s.seekState a = 2 ∨ s.seekState a = 3 → f.plan.samples + slotTmo f.words ≤ f.n → n ≤ (s.loopOf a 12).stamp → Does (.seekTimeout a) s fun t =>
      t.seekState a = 0 ∧ t.get p PRF.PRF_STAT_LAST = 3 ∧ t.get p PRF.TMO_CNT = min (s.get p PRF.TMO_CNT + 1) (2 ^ 32 - 1) ∧ t.reg p 0x1C = s.reg p 0x1C ∧
      ∀ j, j < 13 → t.loopMode a j = s.loopMode a j) ∧
    ((s.seekState a ≠ 2 ∧ s.seekState a ≠ 3) ∨ f.n < f.plan.samples + slotTmo f.words ∨ (s.loopOf a 12).stamp < n → exec (.seekTimeout a) s = .next s) ∧
    (s.present p = true → s.powered p = true → s.isResetting p = false → ∀ m : Master,
      exec (.abort m a) s = .next (if s.seekState a = 0 ∨ s.seekState a = 4 then s else s.setPrf a { f with abort := true })) ∧
    (∀ sp, f.stop = some sp → s.seekState a = 4 →
      (sp.total ≤ ((f.n - sp.n0 : Nat) : Rat) → Does (.stopComplete a) s fun t => t.seekState a = 0 ∧ t.get p PRF.PRF_STAT_LAST = 2 ∧ (t.prfOf a).hold = f.ref ∧ (t.prfOf a).stop = none) ∧
      (((f.n - sp.n0 : Nat) : Rat) < sp.total → exec (.stopComplete a) s = .next s)) ∧
    (f.stop = none ∨ s.seekState a ≠ 4 → exec (.stopComplete a) s = .next s)

/-- With the d2d link lost or the actuator absent LOAD and UNLOAD change nothing. LOAD is accepted in PARKED with the bridge enabled and VM good, UNLOAD in LOADING, STOPPING, LOADED and PARK_FAILED, where a running seek ends ABORTED, UNLOAD has no effect in UNLOADING, PUSHING and PARKED, and all else is refused; four TIME_OK samples find servo, eight slow samples, not before the eighth microsecond of STOPPING, enter LOADED with HOLD_CODE in OPEN_OUT and a close of loop 12 in SEEK asked for, 200 slow samples end the outward drive in PUSHING, PUSH_T ends that in PARKED, RAMP_TMO turns LOADING into UNLOADING with FLT_STAT bit 0 and UNLOADING into PARK_FAILED with bit 1; the UNLOAD of a fencing moves LOADING, STOPPING and LOADED alone; a retract logs its cause, turns the boost off, ends every seek FENCED and takes every actuator outside PARKED to RETRACT, phase 1 ends on velocity or after T1, phase 2 after T2 in PARKED, the last actuator short-braking a spindle in HOLDUP with CAUSE 4; BOOST_EN, BOOST_OK and its loss; a bridge over-current turns the bridge off and leaves PARK_FAILED. Outside these conditions each of these commands changes nothing but the coil and VHOLD measurements it brings. -/
def Obligations.RampsAndRetract : Prop :=
  (∀ (a : Fin 8) (s : State) (m : Master), s.d2dLost = true ∨ s.part.hasAct a = false → s.present pMOT = true → s.powered pMOT = true → s.isResetting pMOT = false →
    exec (.load m a) s = .next s ∧ exec (.unload m a) s = .next s) ∧
  (∀ (a : Fin 8) (s : State), s.part.hasAct a = false → exec (.vcmFault a) s = .next s) ∧
  ∀ (a : Fin 8) (s : State), Sound s → s.part.hasAct a = true →
    (s.present pMOT = true → s.powered pMOT = true → s.isResetting pMOT = false → s.d2dLost = true → ∀ (m : Master) (en : Bool), exec (.boostEn m en) s = .next s) ∧
    (s.present pMOT = true → s.powered pMOT = true → s.isResetting pMOT = false → s.d2dLost = false → ∀ m : Master,
      (s.rampState a = 0 → s.on pMOT (MOTA.VCM_CFG_BRIDGE_EN a) = true → s.vmGood = true → Does (.load m a) s fun t =>
        t.rampState a = 1 ∧ t.get pMOT (MOTA.RAMP_STAT_REFUSED a) = 0 ∧ (t.mactOf a).since = s.time ∧ ∀ b : Nat, b < 8 → b ≠ a → t.rampState b = s.rampState b) ∧
      (s.rampState a ≠ 0 ∨ s.on pMOT (MOTA.VCM_CFG_BRIDGE_EN a) = false ∨ s.vmGood = false → exec (.load m a) s = .next (s.rampRefuse a)) ∧
      (s.rampState a = 1 ∨ s.rampState a = 2 ∨ s.rampState a = 3 ∨ s.rampState a = 7 → Does (.unload m a) s fun t =>
        t.rampState a = 4 ∧ t.get pMOT (MOTA.RAMP_STAT_REFUSED a) = 0 ∧ (t.mactOf a).since = s.time ∧ t.seekState a = 0 ∧
        (s.seekState a ≠ 0 → t.get (pPRF a) PRF.PRF_STAT_LAST = 2 ∧ (t.prfOf a).hold = (s.prfOf a).ref)) ∧
      (s.rampState a = 0 ∨ s.rampState a = 4 ∨ s.rampState a = 5 → exec (.unload m a) s = .next s) ∧
      (s.rampState a = 6 → exec (.unload m a) s = .next (s.rampRefuse a)) ∧
      ((s.rampRefuse a).rampState a = s.rampState a ∧ (s.rampRefuse a).get pMOT (MOTA.RAMP_STAT_REFUSED a) = 1 ∧ ((s.rampRefuse a).reg pMOT 0x18).getLsbD 1 = true) ∧
      (∀ en : Bool, Does (.boostEn m en) s fun t => t.on pMOT MOT.MA_CTRL_BOOST_EN = en ∧ (en = false → t.on pMOT MOT.MA_STAT_BOOST_OK = false) ∧ t.macts = s.macts)) ∧
    (s.rampState a = 1 → 4 ≤ (s.srvOf a).run → Does (.servoFound a) s fun t => t.rampState a = 2 ∧ t.mem = s.mem) ∧
    (s.rampState a ≠ 1 ∨ (s.srvOf a).run < 4 → exec (.servoFound a) s = .next s) ∧
    (∀ (code : BitVec 16) (xs : List CoilSample) (slow : Bool), slow = (decide (8 ≤ xs.length) && xs.all (s.slow a) && decide ((s.mactOf a).since + 7 * usSub ≤ s.time)) →
      (s.rampState a = 2 → slow = true → Does (.stopAchieved a code xs) s fun t =>
        t.rampState a = 3 ∧ (t.reg pMOT 0x18).getLsbD 0 = true ∧ t.get pMOT (MOTA.RAMP_STAT_HOLD_CODE a) = code.toNat ∧ t.get (pTIL a) (LOOP.OPEN_OUT 12) = code.toNat ∧
        t.loopMode a 12 = 0 ∧ t.pend a 12 1 = true ∧ (t.loopOf a 12).clFrom = (s.srvOf a).n + 1 ∧ (t.mactOf a).vcm = code.toInt ∧
        (t.prfOf a).hold = (s.srvHead (12 * a + s.get pMOT (MOTA.VCM_CFG_REF_K a))).pos) ∧
      (s.rampState a ≠ 2 ∨ slow = false → exec (.stopAchieved a code xs) s = .next (s.noteCoil a xs))) ∧
    (∀ xs : List CoilSample,
      (s.rampState a = 4 → s.slowFor a xs = true → Does (.rampStop a xs) s fun t => t.rampState a = 5 ∧ (t.mactOf a).since = s.time) ∧
      (s.rampState a ≠ 4 ∨ s.slowFor a xs = false → exec (.rampStop a xs) s = .next (s.noteCoil a xs))) ∧
    (s.rampState a = 5 → (s.mactOf a).since + s.get pMOT (MOTA.RAMP_TIME_PUSH_T a) * msSub ≤ s.time → Does (.pushDone a) s fun t => t.rampState a = 0 ∧ (t.reg pMOT 0x18).getLsbD 0 = true) ∧
    (s.rampState a ≠ 5 ∨ s.time < (s.mactOf a).since + s.get pMOT (MOTA.RAMP_TIME_PUSH_T a) * msSub → exec (.pushDone a) s = .next s) ∧
    ((s.mactOf a).since + s.get pMOT (MOTA.RAMP_TIME_RAMP_TMO a) * msSub ≤ s.time →
      (s.rampState a = 1 → Does (.rampTimeout a) s fun t => t.rampState a = 4 ∧ (s.present pMOT = true → (t.reg pMOT 0x1C).getLsbD 0 = true)) ∧
      (s.rampState a = 4 → Does (.rampTimeout a) s fun t => t.rampState a = 7 ∧ (s.present pMOT = true → (t.reg pMOT 0x1C).getLsbD 1 = true))) ∧
    (s.time < (s.mactOf a).since + s.get pMOT (MOTA.RAMP_TIME_RAMP_TMO a) * msSub ∨ (s.rampState a ≠ 1 ∧ s.rampState a ≠ 4) → exec (.rampTimeout a) s = .next s) ∧
    (s.mot.unloadReq.contains a.val = true → s.d2dLost = false → Does (.fenceUnload a) s fun t => t.mot.unloadReq.contains a.val = false ∧
      t.rampState a = if s.rampState a = 1 ∨ s.rampState a = 2 ∨ s.rampState a = 3 then 4 else s.rampState a) ∧
    (s.mot.unloadReq.contains a.val = false ∨ s.d2dLost = true → exec (.fenceUnload a) s = .next s) ∧
    (∀ (c : Nat) (vhold : BitVec 16), s.mot.retractReq = some c → c < 16 → Does (.retractStart vhold) s fun t =>
      t.mot.retractReq = none ∧ t.boostOk = false ∧ t.get pMOT MOT.RET_LOG_CAUSE = c ∧ t.get pMOT MOT.RET_LOG_STOP_SEEN = 0 ∧ t.get pMOT MOT.RET_LOG_VHOLD_MIN = vhold.toNat ∧
      ∀ b, b < 8 → s.part.hasAct b = true → t.rampState b = (if s.rampState b = 0 then 0 else 6) ∧ t.seekState b = 0 ∧ (s.seekState b ≠ 0 → t.get (pPRF b) PRF.PRF_STAT_LAST = 0xB)) ∧
    (∀ vhold : BitVec 16, s.mot.retractReq = none → exec (.retractStart vhold) s = .next s) ∧
    (∀ (xs : List CoilSample) (vhold : BitVec 16) (t1 : Bool), t1 = decide ((s.mactOf a).since + s.get pMOT MOT.RET_TIME_T1 * 10 * usSub ≤ s.time) →
      (s.rampState a = 6 → (s.mactOf a).ph2 = none → s.slowFor a xs = true ∨ t1 = true → Does (.retractPhase1End a xs vhold) s fun t =>
        (t.mactOf a).ph2 = some s.time ∧ t.rampState a = 6 ∧ bit (t.get pMOT MOT.RET_LOG_STOP_SEEN) a = (s.slowFor a xs || bit (s.get pMOT MOT.RET_LOG_STOP_SEEN) a)) ∧
      (s.rampState a ≠ 6 ∨ (s.mactOf a).ph2 ≠ none ∨ (s.slowFor a xs = false ∧ t1 = false) →
        exec (.retractPhase1End a xs vhold) s = .next ((s.noteCoil a xs).noteVhold vhold.toNat))) ∧
    (∀ (t0 : Nat) (vhold : BitVec 16), (s.mactOf a).ph2 = some t0 →
      (s.rampState a = 6 → t0 + s.get pMOT MOT.RET_TIME_T2 * 10 * usSub ≤ s.time → s.motionDue = false → s.mot.emergReq = false →
        Does (.retractEnd a vhold) s fun t => t.rampState a = 0 ∧
        ((∃ b, b < 8 ∧ s.part.hasAct b = true ∧ b ≠ a ∧ s.rampState b = 6) → t.spnState = s.spnState) ∧
        ((∀ b, b < 8 → s.part.hasAct b = true → b ≠ a → s.rampState b ≠ 6) → s.spnState = 10 → t.spnState = 8 ∧ t.get pSPN SPN.BRAKE_LOG_CAUSE = 4)) ∧
      (s.rampState a = 6 → t0 + s.get pMOT MOT.RET_TIME_T2 * 10 * usSub ≤ s.time → ∃ t, exec (.retractEnd a vhold) s = .next t) ∧
      (s.rampState a ≠ 6 ∨ s.time < t0 + s.get pMOT MOT.RET_TIME_T2 * 10 * usSub → exec (.retractEnd a vhold) s = .next (s.noteVhold vhold.toNat))) ∧
    (∀ vhold : BitVec 16, (s.mactOf a).ph2 = none → exec (.retractEnd a vhold) s = .next (s.noteVhold vhold.toNat)) ∧
    (s.on pMOT MOT.MA_CTRL_BOOST_EN = true → s.mot.boostOff = false → exec .boostReady s = .next (s.put pMOT MOT.MA_STAT_BOOST_OK 1)) ∧
    (s.on pMOT MOT.MA_CTRL_BOOST_EN = false ∨ s.mot.boostOff = true → exec .boostReady s = .next s) ∧
    (s.boostOk = true → Does .boostFail s fun t => t.boostOk = false ∧ (s.present pMOT = true → (t.reg pMOT 0x1C).getLsbD 2 = true)) ∧
    (s.boostOk = false → exec .boostFail s = .next s ∧ ∀ k, k < 12 → s.maDrive a k = 0) ∧
    (Does (.vcmFault a) s fun t => t.on pMOT (MOTA.VCM_CFG_BRIDGE_EN a) = false ∧ t.rampState a = 7 ∧
      (s.present pMOT = true → (t.reg pMOT 0x1C).getLsbD 3 = true ∧ (t.reg pMOT 0x1C).getLsbD 1 = true))

/-- With the d2d link lost the spindle commands change nothing; else START, STOP, BRAKE and COAST are refused DISABLED, NOT_PARKED, BUSY (START also CFG_MISMATCH) with REFUSE, IRQ_RAW bit 3 and FLT_STAT bit 7 and no change of state, and otherwise enter SENSE, DECEL or SHORT_BRAKE, SHORT_BRAKE, and COAST, a start then ABORTED; 20 ms of SENSE end in ALIGN, ACCEL or PREBRAKE by what was seen, with OUTCOME; PREBRAKE below STOP_BEMF ends in ALIGN, ALIGN_T in RAMP with a first step of 40 ms, each ramp step is 0.97 of the one before it until ACCEL at the HANDOFF speed, RAMP_TMO ends in COAST with OUTCOME 6 and FLT_STAT bit 1; the speed below REGEN_END ends DECEL in SHORT_BRAKE with CAUSE 1, 100 ms below STOP_BEMF end in STOPPED; an emergency ends the overrides and takes every state but STOPPED to HOLDUP; a bridge over-current sets FLT_STAT bit 5, turns the bridge off, and in the short brake of an emergency the spindle coasts; the loss of the die-to-die link sets PWR's FLT_STAT bit 6 and drops the write gates, and the motion die asks for the retract with CAUSE 4 and the stop. Outside these conditions each of these commands changes nothing. -/
def Obligations.SpindleCommandsAndStarts : Prop :=
  ∀ s : State, Sound s →
    (s.d2dLost = true → ∀ m : Master, exec (.spnStart m) s = .next s ∧ exec (.spnStop m) s = .next s ∧ exec (.brake m) s = .next s ∧ exec (.coast m) s = .next s) ∧
    (s.present pSPN = true → s.powered pSPN = true → s.isResetting pSPN = false → s.d2dLost = false → ∀ m : Master,
      (∀ r, s.spnGuard (decide (s.spnState = 0) || decide (s.spnState = 9) || decide (s.spnState = 7) || (decide (s.spnState = 8) && !s.spn.emerg)) = some r → exec (.spnStart m) s = .next (s.spnRefuse r)) ∧
      (∀ r, s.spnGuard (decide (1 ≤ s.spnState) && decide (s.spnState ≤ 6)) = some r → exec (.spnStop m) s = .next (s.spnRefuse r)) ∧
      (∀ r, s.spnGuard ((decide (1 ≤ s.spnState) && decide (s.spnState ≤ 7)) || decide (s.spnState = 9)) = some r → exec (.brake m) s = .next (s.spnRefuse r)) ∧
      (∀ r, s.spnGuard (decide (1 ≤ s.spnState) && decide (s.spnState ≤ 8)) = some r → exec (.coast m) s = .next (s.spnRefuse r)) ∧
      (∀ r, r < 8 → (s.spnRefuse r).spnState = s.spnState ∧ (s.spnRefuse r).get pSPN SPN.SPN_STAT_REFUSE = r ∧ ((s.spnRefuse r).reg pSPN 0x18).getLsbD 3 = true ∧ ((s.spnRefuse r).reg pSPN 0x1C).getLsbD 7 = true) ∧
      (∀ ok, s.enabled pSPN = false ∨ s.fenced pSPN = true → s.spnGuard ok = some 3) ∧
      (s.enabled pSPN = true → s.fenced pSPN = false →
        (s.allParked = false → ∀ ok, s.spnGuard ok = some 1) ∧ (s.allParked = true → s.mot.emergReq = true → ∀ ok, s.spnGuard ok = some 2) ∧
        (s.allParked = true → s.spnGuard false = some 2) ∧
        (s.allParked = true → s.mot.emergReq = false →
          (s.spnState = 0 ∨ s.spnState = 7 ∨ s.spnState = 9 ∨ (s.spnState = 8 ∧ s.spn.emerg = false) →
            (s.nomMismatch = true → exec (.spnStart m) s = .next (s.spnRefuse 5)) ∧
            (s.nomMismatch = false → Does (.spnStart m) s fun t => t.spnState = 1 ∧ t.spn.since = s.time ∧ t.get pSPN SPN.TQ = 0 ∧ (t.reg pSPN 0x18).getLsbD 1 = true)) ∧
          (s.spnState = 5 ∨ s.spnState = 6 → Does (.spnStop m) s fun t => t.spnState = 7 ∧ t.spn.brakeLim = (s.get pSPN SPN.TQ_LIM_BRAKE_I : Nat) ∧
            t.get pSPN SPN.TQ = enc 16 (-(s.get pSPN SPN.TQ_LIM_BRAKE_I : Int)) ∧ (s.spnState = 6 → t.on pSPN SPN.SPN_STAT_AT_SPEED = false)) ∧
          (1 ≤ s.spnState → s.spnState ≤ 4 → Does (.spnStop m) s fun t => t.spnState = 8 ∧ t.get pSPN SPN.START_STAT_OUTCOME = 7 ∧ t.get pSPN SPN.BRAKE_LOG_CAUSE = 1) ∧
          ((1 ≤ s.spnState ∧ s.spnState ≤ 7) ∨ s.spnState = 9 → Does (.brake m) s fun t => t.spnState = 8 ∧ t.get pSPN SPN.BRAKE_LOG_CAUSE = 2 ∧
            t.get pSPN SPN.START_STAT_OUTCOME = if s.spnState ≤ 4 then 7 else s.get pSPN SPN.START_STAT_OUTCOME) ∧
          (1 ≤ s.spnState ∧ s.spnState ≤ 8 → Does (.coast m) s fun t => t.spnState = 9 ∧ t.get pSPN SPN.START_STAT_OUTCOME = if s.spnState ≤ 4 then 7 else s.get pSPN SPN.START_STAT_OUTCOME)))) ∧
    (∀ (amp : BitVec 16) (cr : BitVec 8) (fwd : Bool) (per next : Word) (step : Fin 6), s.spnState = 1 → s.spn.since + 48000000 * 64 ≤ s.time →
      (amp.toNat < s.get pSPN SPN.CATCH_CFG_STOP_BEMF → Does (.senseEnd amp cr fwd per next step) s fun t => t.spnState = 3 ∧ t.get pSPN SPN.START_STAT_OUTCOME = 1 ∧ t.get pSPN SPN.START_STAT_DIR_SEEN = 0 ∧ t.spn.alignAt = some s.time) ∧
      (s.get pSPN SPN.CATCH_CFG_STOP_BEMF ≤ amp.toNat →
        (cr.toNat < 3 → Does (.senseEnd amp cr fwd per next step) s fun t => t.spnState = 2 ∧ t.get pSPN SPN.START_STAT_OUTCOME = 5 ∧ t.get pSPN SPN.BRAKE_LOG_CAUSE = 3) ∧
        (3 ≤ cr.toNat → fwd = false → Does (.senseEnd amp cr fwd per next step) s fun t => t.spnState = 2 ∧ t.get pSPN SPN.START_STAT_OUTCOME = 4 ∧ t.get pSPN SPN.START_STAT_DIR_SEEN = 2) ∧
        (3 ≤ cr.toNat → fwd = true → ∀ slow : Bool, slow = decide (100 * s.targetPer < (clampTo 5 90 (s.get pSPN SPN.CATCH_CFG_CATCH_PCT) : Rat) * ((per.toNat * 64 : Nat) : Rat)) →
          (slow = true → Does (.senseEnd amp cr fwd per next step) s fun t => t.spnState = 2 ∧ t.get pSPN SPN.START_STAT_OUTCOME = 3) ∧
          (slow = false → Does (.senseEnd amp cr fwd per next step) s fun t => t.spnState = 5 ∧ t.get pSPN SPN.START_STAT_OUTCOME = 2 ∧ t.get pSPN SPN.SPN_STAT_STEP = step.val ∧ t.spn.tqI = 0)))) ∧
    (∀ (amp : BitVec 16) (cr : BitVec 8) (fwd : Bool) (per next : Word) (step : Fin 6), s.spnState ≠ 1 ∨ s.time < s.spn.since + 48000000 * 64 →
      exec (.senseEnd amp cr fwd per next step) s = .next s) ∧
    (∀ amp : BitVec 16, s.spnState ≠ 2 ∨ s.get pSPN SPN.CATCH_CFG_STOP_BEMF ≤ amp.toNat → exec (.prebrakeEnd amp) s = .next s) ∧
    (s.spnState ≠ 3 ∨ s.time < s.spn.since + s.get pSPN SPN.START_CFG_ALIGN_T * 10 * msSub → exec .alignEnd s = .next s) ∧
    (s.spn.comm = [] ∨ s.spnState ≠ 4 → exec .rampStep s = .next s) ∧
    (∀ (c : Int) (r : List Int), s.spn.comm = c :: r → (s.time : Int) < mclkAfter ((c : Rat) + s.spn.stepLen) → exec .rampStep s = .next s) ∧
    (s.spn.alignAt = none ∨ (s.spnState ≠ 3 ∧ s.spnState ≠ 4 ∧ s.spnState ≠ 5) → exec .startTimeout s = .next s) ∧
    (∀ t0 : Nat, s.spn.alignAt = some t0 → s.time < t0 + s.get pSPN SPN.START_CFG_RAMP_TMO * 1000 * msSub → exec .startTimeout s = .next s) ∧
    (s.spnState ≠ 7 ∨ (s.get pSPN SPN.CHOP_CFG_REGEN_END : Rat) * s.elecPer ≤ 100 * s.targetPer → exec .regenEnd s = .next s) ∧
    (∀ amp : BitVec 16, s.spnState ≠ 8 ∨ s.time < s.spn.since + 100 * msSub ∨ s.get pSPN SPN.CATCH_CFG_STOP_BEMF ≤ amp.toNat → exec (.spinStopped amp) s = .next s) ∧
    (∀ amp : BitVec 16, s.spnState = 2 → amp.toNat < s.get pSPN SPN.CATCH_CFG_STOP_BEMF → Does (.prebrakeEnd amp) s fun t => t.spnState = 3 ∧ t.get pSPN SPN.SPN_STAT_STEP = 0) ∧
    (s.spnState = 3 → s.spn.since + s.get pSPN SPN.START_CFG_ALIGN_T * 10 * msSub ≤ s.time → Does .alignEnd s fun t => t.spnState = 4 ∧ t.spn.stepLen = ((40 * msSub : Nat) : Rat)) ∧
    (∀ (c : Int) (r : List Int), s.spn.comm = c :: r → s.spnState = 4 → mclkAfter ((c : Rat) + s.spn.stepLen) ≤ (s.time : Int) → Does .rampStep s fun t =>
      t.spn.stepLen = s.spn.stepLen * 97 / 100 ∧ t.get pSPN SPN.SPN_STAT_STEP = (s.get pSPN SPN.SPN_STAT_STEP + 1) % 6 ∧
      t.spnState = if s.spn.stepLen * 97 / 100 * s.get pSPN SPN.START_CFG_HANDOFF ≤ 1000 * (s.targetPer / 6) then 5 else 4) ∧
    (∀ t0 : Nat, s.spn.alignAt = some t0 → s.spnState = 3 ∨ s.spnState = 4 ∨ s.spnState = 5 → t0 + s.get pSPN SPN.START_CFG_RAMP_TMO * 1000 * msSub ≤ s.time → Does .startTimeout s fun t =>
      t.spnState = 9 ∧ t.get pSPN SPN.START_STAT_OUTCOME = 6 ∧ (t.reg pSPN 0x1C).getLsbD 1 = true) ∧
    (s.spnState = 7 → 100 * s.targetPer < (s.get pSPN SPN.CHOP_CFG_REGEN_END : Rat) * s.elecPer → Does .regenEnd s fun t => t.spnState = 8 ∧ t.get pSPN SPN.BRAKE_LOG_CAUSE = 1 ∧ t.on pSPN SPN.SPN_STAT_CHOP_ON = false) ∧
    (∀ amp : BitVec 16, s.spnState = 8 → s.spn.since + 100 * msSub ≤ s.time → amp.toNat < s.get pSPN SPN.CATCH_CFG_STOP_BEMF → Does (.spinStopped amp) s fun t => t.spnState = 0 ∧ t.spn.emerg = false) ∧
    (s.mot.emergReq = true → Does .emergencyStop s fun t => t.mot.emergReq = false ∧ t.spn.ovr = [] ∧ t.spn.quiet = [] ∧ t.spn.holdUntil = 0 ∧ t.spnState = (if s.spnState = 0 then 0 else 10) ∧
      (1 ≤ s.spnState ∧ s.spnState ≤ 4 → t.get pSPN SPN.START_STAT_OUTCOME = 7)) ∧
    (s.mot.emergReq = false → exec .emergencyStop s = .next s) ∧
    (Does .bridgeOc s fun t => (t.reg pSPN 0x1C).getLsbD 5 = true ∧ t.spn.bridgeOff = true ∧ t.get pSPN SPN.TQ = 0 ∧
      (s.spnState = 8 → s.spn.emerg = true → t.spnState = 9 ∧ t.get pSPN SPN.BRAKE_LOG_CAUSE = 4)) ∧
    (s.d2dLost = false → Does .d2dLoss s fun t => t.d2dLost = true ∧ (t.reg pPWR 0x1C).getLsbD 6 = true ∧ ∀ h, (s.wrOf h).gate ≠ none → (s.wrOf h).sec ≠ none → (t.wrOf h).gate = none) ∧
    (s.d2dLost = true → exec .d2dLoss s = .next s) ∧
    (Does .motionEmergency s fun t => t.mot.emergReq = true ∧ (t.mot.retractReq.isSome = true ∨ ∃ b, b < 8 ∧ s.rampState b = 6) ∧ (s.mot.retractReq = none → (∀ b, b < 8 → s.rampState b ≠ 6) → t.mot.retractReq = some 4))

/-- A crossing accepted in a sense window is recorded in ZC_TIME and ends the run of misses; (30° − ADV) of the predicted period later, outside QUIET, the bridge takes the next step; a window without a crossing is counted, commutates at the predicted time, and the SYNC_MISS-th in a row sets FLT_STAT bit 2, the third of a catch falls back to PREBRAKE with BRAKED_FWD; the first wedge at speed and in LOCKED sets FINE; four good revolutions set AT_SPEED and enter RUN from ACCEL, a bad one clears AT_SPEED and FINE, leaves the tracker idle and sets FLT_STAT bit 3; an override is applied in ACCEL and RUN alone, a reserved OP is ignored, counted and sets FLT_STAT bit 6; VM is measured, and in DECEL the braking limit moves by BRAKE_I/64 between its floor and BRAKE_I; the chopper turns on above VM_CHOP_ON and off below VM_CHOP_OFF in DECEL alone, and its failure ends in SHORT_BRAKE with CAUSE 5 or 6 and FLT_STAT bit 4. Outside these conditions each of these commands changes nothing but the measurement it brings. -/
def Obligations.SpindleDrive : Prop :=
  ∀ s : State, Sound s →
    (∀ (xs : List BemfSample) (z : Rat), s.commutating = true → s.spn.zcNew = false → crossingOf s.time (xs.filter (fun x => s.inSense x && !(s.sampleShift x).2)) = some z →
      Does (.zeroCrossing xs) s fun t => t.spn.zcNew = true ∧ t.spn.miss = 0 ∧ t.spnState = s.spnState ∧
        z - mclkSub < t.spn.zc ∧ t.spn.zc < z + mclkSub ∧ ∃ k : Int, t.spn.zc = ((k * mclkSub : Int) : Rat) ∧ t.get pSPN SPN.ZC_TIME = enc 32 (k * mclkSub)) ∧
    (∀ xs : List BemfSample, s.commutating = true → s.spn.zcNew = true → s.commTime s.spn.zc ≤ (s.time : Int) → Does (.commutation xs) s fun t =>
      t.get pSPN SPN.SPN_STAT_STEP = (s.get pSPN SPN.SPN_STAT_STEP + 1) % 6 ∧ t.spn.zcNew = false ∧ t.spn.comm.head? = some (s.commTime s.spn.zc) ∧ t.spnState = s.spnState) ∧
    (∀ xs : List BemfSample, s.commutating = true → s.spn.zcNew = false → s.senseWindow.2 ≤ (s.time : Rat) →
      (s.spn.catching ≠ some 2 → Does (.zcMiss xs) s fun t => t.spnState = s.spnState ∧ t.spn.miss = s.spn.miss + 1 ∧ t.get pSPN SPN.ZC_MISS_CNT = min (s.get pSPN SPN.ZC_MISS_CNT + 1) (2 ^ 32 - 1) ∧
        t.get pSPN SPN.SPN_STAT_STEP = (s.get pSPN SPN.SPN_STAT_STEP + 1) % 6 ∧ t.spn.comm.head? = some (s.commTime s.nextZc) ∧
        ((s.spnState = 5 ∨ s.spnState = 6) → s.spn.miss + 1 = max 2 (min (s.get pSPN SPN.PWM_CFG_SYNC_MISS) 15) → (t.reg pSPN 0x1C).getLsbD 2 = true)) ∧
      (s.spn.catching = some 2 → Does (.zcMiss xs) s fun t => t.spnState = 2 ∧ t.get pSPN SPN.START_STAT_OUTCOME = 3)) ∧
    (∀ w, s.spnWedge = some w → s.on pSPN SPN.SPN_STAT_AT_SPEED = true → s.trkState = 3 → s.d2dLost = false → Does .wedgeTimeToSpn s fun t => t.spnWedge = none ∧ t.on pSPN SPN.SPN_STAT_FINE = true ∧
      (s.on pSPN SPN.SPN_STAT_FINE = false → t.spn.gridT = w.1 ∧ t.spn.gridW = w.2 ∧ t.spn.gridRem = 0)) ∧
    (s.spnWedge = none → exec .wedgeTimeToSpn s = .next s) ∧
    (s.on pSPN SPN.SPN_STAT_AT_SPEED = false ∨ s.trkState ≠ 3 ∨ s.d2dLost = true → exec .wedgeTimeToSpn s = .next { s with spnWedge := none }) ∧
    (∀ xs : List BemfSample,
      (s.commutating = false ∨ s.spn.zcNew = true ∨ crossingOf s.time (xs.filter (fun x => s.inSense x && !(s.sampleShift x).2)) = none → exec (.zeroCrossing xs) s = .next s) ∧
      (s.commutating = false ∨ s.spn.zcNew = false ∨ (s.time : Int) < s.commTime s.spn.zc → exec (.commutation xs) s = .next s) ∧
      (s.commutating = false ∨ s.spn.zcNew = true ∨ (s.time : Rat) < s.senseWindow.2 → exec (.zcMiss xs) s = .next s)) ∧
    ((s.spnState ≠ 5 ∧ s.spnState ≠ 6) ∨ s.on pSPN SPN.SPN_STAT_AT_SPEED = true ∨ s.spn.good < 4 → exec .atSpeedSet s = .next s) ∧
    (s.on pSPN SPN.SPN_STAT_AT_SPEED = false ∨ s.spn.revBad = false → exec .speedLoss s = .next s) ∧
    ((∀ o ∈ s.spn.ovr.head?, s.time < o.1) → exec .ovrApply s = .next s) ∧
    (s.on pSPN SPN.SPN_STAT_CHOP_ON = true ∨ s.get pSPN SPN.VM_MEAS ≤ s.get pSPN SPN.VM_LIM1_VM_CHOP_ON → exec .chopperOn s = .next s) ∧
    (s.on pSPN SPN.SPN_STAT_CHOP_ON = false ∨ s.get pSPN SPN.VM_LIM2_VM_CHOP_OFF ≤ s.get pSPN SPN.VM_MEAS → exec .chopperOff s = .next s) ∧
    (∀ sense : BitVec 16, s.spnState ≠ 7 ∨ (s.get pSPN SPN.VM_MEAS ≤ s.get pSPN SPN.VM_LIM2_VM_ABS ∧
        (s.on pSPN SPN.SPN_STAT_CHOP_ON = false ∨ s.get pSPN SPN.CHOP_CFG_CHOP_I_MIN ≤ sense.toNat ∨ s.time < s.spn.chopSince + 120000 * 64)) →
      exec (.chopFail sense) s = .next (s.put pSPN SPN.CHOP_MEAS sense.toNat)) ∧
    ((s.spnState = 5 ∨ s.spnState = 6) → s.on pSPN SPN.SPN_STAT_AT_SPEED = false → 4 ≤ s.spn.good → Does .atSpeedSet s fun t =>
      t.on pSPN SPN.SPN_STAT_AT_SPEED = true ∧ t.spnState = 6 ∧ (t.reg pSPN 0x18).getLsbD 0 = true) ∧
    (s.on pSPN SPN.SPN_STAT_AT_SPEED = true → s.spn.revBad = true → Does .speedLoss s fun t => t.on pSPN SPN.SPN_STAT_AT_SPEED = false ∧ t.on pSPN SPN.SPN_STAT_FINE = false ∧ t.trkState = 0 ∧
      t.spnState = s.spnState ∧ (t.reg pSPN 0x1C).getLsbD 3 = true ∧ (t.reg pSPN 0x18).getLsbD 4 = true) ∧
    (∀ a op len r, s.spn.ovr = (a, op, len) :: r → a ≤ s.time →
      (op ≠ 1 → op ≠ 2 → Does .ovrApply s fun t => t.spn.ovr = r ∧ t.get pSPN SPN.OVR_IGN = min (s.get pSPN SPN.OVR_IGN + 1) (2 ^ 32 - 1) ∧ (t.reg pSPN 0x1C).getLsbD 6 = true ∧ t.spn.quiet = s.spn.quiet) ∧
      (op = 1 ∨ op = 2 → s.spnState ≠ 5 → s.spnState ≠ 6 → Does .ovrApply s fun t => t.spn.ovr = r ∧ t.get pSPN SPN.OVR_IGN = min (s.get pSPN SPN.OVR_IGN + 1) (2 ^ 32 - 1) ∧ t.spn.quiet = s.spn.quiet ∧
        t.spn.holdUntil = s.spn.holdUntil) ∧
      ((s.spnState = 5 ∨ s.spnState = 6) →
        (op = 1 → Does .ovrApply s fun t => t.spn.ovr = r ∧ (a, a + len * mclkSub) ∈ t.spn.quiet ∧ t.get pSPN SPN.OVR_STAT_LAST_OP = 1 ∧ t.get pSPN SPN.OVR_STAT_APPLIED = min (s.get pSPN SPN.OVR_STAT_APPLIED + 1) 65535) ∧
        (op = 2 → Does .ovrApply s fun t => t.spn.ovr = r ∧ t.spn.holdUntil = max s.spn.holdUntil (a + len * pwmSub) ∧ t.get pSPN SPN.OVR_STAT_LAST_OP = 2))) ∧
    (∀ vm : BitVec 13, Does (.vmSample vm) s fun t => t.get pSPN SPN.VM_MEAS = min (vm.toNat * 10) 65535 ∧ t.get pSPN SPN.VM_PEAK = max (s.get pSPN SPN.VM_PEAK) (min (vm.toNat * 10) 65535) ∧ t.spnState = s.spnState ∧
      (s.spnState ≠ 7 → t.spn = s.spn) ∧
      (s.spnState = 7 → ∀ b : Rat, b = (s.get pSPN SPN.TQ_LIM_BRAKE_I : Nat) → t.spn.brakeLim = (if s.get pSPN SPN.VM_LIM1_VM_REGEN_LIMIT < min (vm.toNat * 10) 65535 then
          max (b * (s.get pSPN SPN.CHOP_CFG_REGEN_MIN : Rat) / 100) (s.spn.brakeLim - b / 64) else min b (s.spn.brakeLim + b / 64)) ∧
        t.on pSPN SPN.SPN_STAT_REGEN_RED = decide (t.spn.brakeLim < b))) ∧
    (s.spnState = 7 → s.on pSPN SPN.SPN_STAT_CHOP_ON = false → s.get pSPN SPN.VM_LIM1_VM_CHOP_ON < s.get pSPN SPN.VM_MEAS → Does .chopperOn s fun t => t.on pSPN SPN.SPN_STAT_CHOP_ON = true ∧ t.spn.chopSince = s.time ∧
      (t.reg pSPN 0x18).getLsbD 5 = true) ∧
    (s.spnState = 7 → s.on pSPN SPN.SPN_STAT_CHOP_ON = true → s.get pSPN SPN.VM_MEAS < s.get pSPN SPN.VM_LIM2_VM_CHOP_OFF → exec .chopperOff s = .next (s.put pSPN SPN.SPN_STAT_CHOP_ON 0)) ∧
    (s.spnState ≠ 7 → exec .chopperOn s = .next s ∧ exec .chopperOff s = .next s ∧ exec .regenEnd s = .next s) ∧
    (∀ sense : BitVec 16, s.spnState = 7 →
      (s.get pSPN SPN.VM_LIM2_VM_ABS < s.get pSPN SPN.VM_MEAS → Does (.chopFail sense) s fun t => t.spnState = 8 ∧ t.get pSPN SPN.BRAKE_LOG_CAUSE = 6 ∧ t.on pSPN SPN.SPN_STAT_CHOP_ON = false ∧ (t.reg pSPN 0x1C).getLsbD 4 = true) ∧
      (s.get pSPN SPN.VM_MEAS ≤ s.get pSPN SPN.VM_LIM2_VM_ABS → s.on pSPN SPN.SPN_STAT_CHOP_ON = true → sense.toNat < s.get pSPN SPN.CHOP_CFG_CHOP_I_MIN → s.spn.chopSince + 120000 * 64 ≤ s.time →
        Does (.chopFail sense) s fun t => t.spnState = 8 ∧ t.get pSPN SPN.BRAKE_LOG_CAUSE = 5 ∧ t.get pSPN SPN.CHOP_MEAS = sense.toNat ∧ (t.reg pSPN 0x1C).getLsbD 4 = true))

/-- DRAM_EN with a configuration of R324 and every channel of CH_MASK powered and enabled enters TRAINING and reports M and USABLE, any other sets BFM's FLT_STAT bit 0 and leaves DRAM_EN at 0, DRAM_EN written again changes nothing, clearing it enters OFF and discards every DRAM byte; training passed enters FILL, failed sets FLT_STAT bit 0 of each failed channel and enters FAILED; the fill leaves every DRAM byte 0 and enters READY; SR_REQ, self-refresh entered and left, while neither it nor its request lets DRAM grant; a request to the boot ROM, the NOR window or the registers is not the buffer's, any other joins its resource's queue or is refused with an error response; a slot goes to the lowest class waiting, in a fallow slot with class 5 after classes 0 and 1, rotating within the class, and what it grants is done: a read answers the bytes that lie there, a write stores its data there and changes no other byte; an access refused, a read of a line with an uncorrectable error and a write of a part of one are answered with an error. MR4 is reported, above the device's limit with FLT_STAT bit 5, a refresh management request is counted, a PHY fault is reported on a powered channel. Outside their states these commands change nothing. -/
def Obligations.BufferMemory : Prop :=
  ∀ s : State, Sound s →
    (s.present pBFM = true → s.powered pBFM = true → s.isResetting pBFM = false → ∀ m : Master,
      (s.on pBFM BFM.DRAM_CTRL_DRAM_EN = false →
        (s.dramCfgOk = true → (∀ c ∈ s.channels, s.powered (pDMC c) = true ∧ s.enabled (pDMC c) = true) → Does (.dramEn m true) s fun t => t.dramState = 1 ∧ t.on pBFM BFM.DRAM_CTRL_DRAM_EN = true ∧
          t.get pBFM BFM.DRAM_STAT_M = s.channels.length ∧ t.get pBFM BFM.DRAM_STAT_USABLE = s.channels.length * s.densityMiB * 7 / 8 ∧ t.mem = s.mem) ∧
        (s.dramCfgOk = false ∨ (∃ c ∈ s.channels, s.powered (pDMC c) = false ∨ s.enabled (pDMC c) = false) → exec (.dramEn m true) s = .next (s.raise pBFM 0))) ∧
      (s.on pBFM BFM.DRAM_CTRL_DRAM_EN = true → exec (.dramEn m true) s = .next s) ∧
      (Does (.dramEn m false) s fun t => t.dramState = 0 ∧ t.on pBFM BFM.DRAM_CTRL_DRAM_EN = false ∧ ∀ a, t.byte a = if dramBase ≤ a ∧ a < dramEnd then 0 else s.byte a) ∧
      (∀ on_ : Bool, exec (.srReq m on_) s = .next (s.putB pBFM BFM.DRAM_CTRL_SR_REQ on_))) ∧
    (∀ (fails : BitVec 12) (eyes : List (BitVec 24)), s.dramState = 1 →
      ((∀ c ∈ s.channels, fails.getLsbD c = false) → Does (.trainingDone fails eyes) s fun t => t.dramState = 2 ∧ ∀ c ∈ s.channels, t.get (pDMC c) DMC.DMC_STAT_TRAIN = 1) ∧
      ((∃ c ∈ s.channels, fails.getLsbD c = true) → Does (.trainingDone fails eyes) s fun t => t.dramState = 5 ∧ (t.reg pBFM 0x18).getLsbD 1 = true ∧
        ∀ c ∈ s.channels, t.get (pDMC c) DMC.DMC_STAT_TRAIN = (if fails.getLsbD c = true then 2 else 1) ∧ (fails.getLsbD c = true → (t.reg (pDMC c) 0x1C).getLsbD 0 = true))) ∧
    (∀ (fails : BitVec 12) (eyes : List (BitVec 24)), s.dramState ≠ 1 → exec (.trainingDone fails eyes) s = .next s) ∧
    (s.dramState ≠ 2 → exec .dramFillDone s = .next s) ∧
    (s.dramState ≠ 3 ∨ s.on pBFM BFM.DRAM_CTRL_SR_REQ = false → exec .selfRefreshEntered s = .next s) ∧
    (s.dramState ≠ 4 ∨ s.on pBFM BFM.DRAM_CTRL_SR_REQ = true → exec .selfRefreshExited s = .next s) ∧
    (∀ (r : Fin 28) (e : WordErr), r.val < 12 → s.dramState = 4 → exec (.arbiterGrant r e) s = .next s) ∧
    (s.dramState = 2 → Does .dramFillDone s fun t => t.dramState = 3 ∧ (t.reg pBFM 0x18).getLsbD 0 = true ∧ ∀ a, t.byte a = if dramBase ≤ a ∧ a < dramEnd then 0 else s.byte a) ∧
    (s.dramState = 3 → s.on pBFM BFM.DRAM_CTRL_SR_REQ = true → (Does .selfRefreshEntered s fun t => t.dramState = 4 ∧ t.mem = s.mem ∧ ∀ c ∈ s.channels, t.get (pDMC c) DMC.DMC_STAT_SR = 1) ∧
      ∀ (r : Fin 28) (e : WordErr), r.val < 12 → exec (.arbiterGrant r e) s = .next s) ∧
    (s.dramState = 4 → s.on pBFM BFM.DRAM_CTRL_SR_REQ = false → Does .selfRefreshExited s fun t => t.dramState = 3 ∧ t.mem = s.mem ∧ ∀ c ∈ s.channels, t.get (pDMC c) DMC.DMC_STAT_SR = 0) ∧
    (∀ (m : Master) (w : Bool) (addr : BitVec 48) (len : BitVec 7) (data : List Byte) (n : Nat), n = max 1 (min len.toNat (64 - addr.toNat % 64)) →
      (elsewhere m addr.toNat = true → exec (.bufferRequest m w addr len data) s = .next s) ∧
      (elsewhere m addr.toNat = false → s.spanRefusal (some m) w addr.toNat n = none → ∀ r, r = s.resourceOf addr.toNat → exec (.bufferRequest m w addr len data) s = .next (s.setBufq r (s.bufqOf r ++
        [{ master := m, cls := bufClass m w, write := w, addr := addr.toNat, len := n, data := fitBytes n data, slot := s.slotOf r }]))) ∧
      (∀ x, elsewhere m addr.toNat = false → s.spanRefusal (some m) w addr.toNat n = some x → Does (.bufferRequest m w addr len data) s fun t => t.resp.err = true ∧ t.bufq = s.bufq ∧ t.mem = s.mem)) ∧
    (∀ (r n : Nat) (x : BufReq), s.winner r n = some x → x ∈ s.bufqOf r ∧
      (fallow (s.fallowD r) n = false → ∀ y ∈ s.bufqOf r, x.cls ≤ y.cls) ∧
      (fallow (s.fallowD r) n = true → ∀ y ∈ s.bufqOf r, (x.cls = 5 → y.cls ≠ 0 ∧ y.cls ≠ 1) ∧ (2 ≤ x.cls ∧ x.cls ≤ 4 → y.cls ≠ 5) ∧ (x.cls ≠ 5 → x.cls ≤ y.cls)) ∧
      (∀ y ∈ s.bufqOf r, y.cls = x.cls → tabGet s.lastGrant (16 * r + x.cls) 0 < y.master.code → tabGet s.lastGrant (16 * r + x.cls) 0 < x.master.code ∧ x.master.code ≤ y.master.code)) ∧
    (∀ (r : Fin 28) (e : WordErr), s.grantsHeld r = false → s.winner r (s.slotOf r) = none → Does (.arbiterGrant r e) s fun t => t.slotOf r = s.slotOf r + 1 ∧ t.resp = s.resp ∧
      t.mem = s.mem ∧ t.regs = s.regs) ∧
    (∀ (r : Fin 28) (x : BufReq), s.grantsHeld r = false → s.winner r (s.slotOf r) = some x → 0 < x.len →
      (∀ e, errVerdict e = .ue → x.write = false → Does (.arbiterGrant r e) s fun t => t.resp.err = true ∧ t.bufqOf r = (s.bufqOf r).erase x) ∧
      (x.write = false → (s.spanRefusal (some x.master) false x.addr x.len ≠ none ∨ ∃ l ∈ s.badLines, (lineSpan x.addr x.len).contains l = true) →
        Does (.arbiterGrant r {}) s fun t => t.resp.err = true ∧ t.bufqOf r = (s.bufqOf r).erase x ∧ t.slotOf r = s.slotOf r + 1) ∧
      (x.write = true → (s.spanRefusal (some x.master) true x.addr x.data.length ≠ none ∨
          ∃ l ∈ s.badLines, (lineSpan x.addr x.data.length).contains l = true ∧ coversLine x.addr x.data.length l = false) →
        Does (.arbiterGrant r {}) s fun t => t.resp.err = true ∧ t.bufqOf r = (s.bufqOf r).erase x ∧ t.slotOf r = s.slotOf r + 1) ∧
      (x.write = false → s.spanRefusal (some x.master) false x.addr x.len = none → (∀ l ∈ s.badLines, (lineSpan x.addr x.len).contains l = false) → Does (.arbiterGrant r {}) s fun t => t.resp = { value := leNat (s.bytesAt x.addr x.len), err := false } ∧
        t.mem = s.mem ∧ t.bufqOf r = (s.bufqOf r).erase x ∧ t.slotOf r = s.slotOf r + 1) ∧
      (x.write = true → s.spanRefusal (some x.master) true x.addr x.data.length = none →
        (∀ l ∈ s.badLines, (lineSpan x.addr x.data.length).contains l = true → coversLine x.addr x.data.length l = true) → Does (.arbiterGrant r {}) s fun t => t.resp.err = false ∧ t.bufqOf r = (s.bufqOf r).erase x ∧
        (∀ i, i < x.data.length → t.byte (x.addr + i) = x.data[i]?.getD 0) ∧ ∀ a, a < x.addr ∨ x.addr + x.data.length ≤ a → t.byte a = s.byte a)) ∧
    (∀ c : Fin 12,
      (s.chanInUse c = true → (∀ (code : BitVec 3) (hot : Bool), Does (.mr4Poll c code hot) s fun t => t.get (pDMC c) DMC.DMC_STAT_MR4 = code.toNat ∧ (hot = true → (t.reg (pDMC c) 0x1C).getLsbD 5 = true)) ∧
        exec (.rfmRequest c) s = .next (s.inc (pDMC c) DMC.RFM_CNT)) ∧
      (s.chanInUse c = false → (∀ (code : BitVec 3) (hot : Bool), exec (.mr4Poll c code hot) s = .next s) ∧ exec (.rfmRequest c) s = .next s) ∧
      (s.powered (pDMC c) = false → exec (.dramPhyFault c) s = .next s) ∧
      (s.powered (pDMC c) = true → exec (.dramPhyFault c) s = .next (s.raise (pDMC c) 1)))

/-- A key written to SRT_KEY_HI by a master without lookup registers changes nothing; by any other it clears the master's DONE and starts its lookup where none runs or waits and FREEZE is 0, joins the queue behind another master's or under FREEZE, counted in HELD under FREEZE, and replaces the master's own key that runs or waits; on a valid table the lookup ends with HIT, INDEX, OFS, PSECT and the entry where an entry covers the key, else with MISS and the entry before, or 0xFFFF; a corrupt entry, a bad one and a fenced engine end it CORRUPT with FLT_STAT bit 3, ERROR with bit 1, and FENCED, their INDEX left open (log entry 139); FREEZE holds the queue and its release starts its head; a shift is refused as R340 lists with FLT_STAT bit 4, and otherwise moves the entries up or down by one, the entry at INDEX kept, SRT_COUNT changed by 1, entries below INDEX unchanged; CHECK ends with OK or the first failing entry and its reason. With no lookup, shift or check in progress the end of one changes nothing. -/
def Obligations.RemapTable : Prop :=
  ∀ s : State, Sound s →
    (s.present pBFM = true → s.powered pBFM = true → s.isResetting pBFM = false → ∀ m : Master,
      (∀ hi : BitVec 16, ownsSrt m = false → exec (.srtLookup m hi) s = .next s) ∧
      (∀ (hi : BitVec 16) (k : Nat), ownsSrt m = true → k = (s.mreg m pBFM 0x114).toNat + 2 ^ 32 * hi.toNat → (∃ e ∈ s.srt.queue, e.1 = m) →
        s.on pBFM BFM.SRT_CTRL_FREEZE = true ∨ (∃ m' k', s.srt.run = some (m', k')) → (∀ k', s.srt.run ≠ some (m, k')) → Does (.srtLookup m hi) s fun t => t.srt.run = s.srt.run ∧
          t.mreg m pBFM 0x11C = 0 ∧ t.srt.queue = s.srt.queue.map (fun e => if e.1 = m then (m, k) else e)) ∧
      (∀ (hi : BitVec 16) (k : Nat), ownsSrt m = true → k = (s.mreg m pBFM 0x114).toNat + 2 ^ 32 * hi.toNat → (∀ e ∈ s.srt.queue, e.1 ≠ m) →
        (s.srt.run = none → s.srt.queue = [] → s.on pBFM BFM.SRT_CTRL_FREEZE = false → Does (.srtLookup m hi) s fun t => t.srt.run = some (m, k) ∧ t.srt.queue = [] ∧ t.mreg m pBFM 0x11C = 0 ∧
          t.on pBFM BFM.SRT_STAT_BUSY = true) ∧
        (s.srt.run = none → s.on pBFM BFM.SRT_CTRL_FREEZE = true → Does (.srtLookup m hi) s fun t => t.srt.run = none ∧ t.srt.queue = s.srt.queue ++ [(m, k)] ∧ t.mreg m pBFM 0x11C = 0 ∧
          t.get pBFM BFM.SRT_STAT_HELD = min 31 (s.srt.queue.length + 1)) ∧
        (∀ m' k', s.srt.run = some (m', k') → m' ≠ m → Does (.srtLookup m hi) s fun t => t.srt.run = some (m', k') ∧ t.srt.queue = s.srt.queue ++ [(m, k)] ∧ t.mreg m pBFM 0x11C = 0 ∧
          t.get pBFM BFM.SRT_STAT_HELD = if s.on pBFM BFM.SRT_CTRL_FREEZE = true then min 31 (s.srt.queue.length + 1) else 0) ∧
        (∀ k', s.srt.run = some (m, k') → Does (.srtLookup m hi) s fun t => t.srt.run = some (m, k) ∧ t.srt.queue = s.srt.queue ∧ t.mreg m pBFM 0x11C = 0)) ∧
      (Does (.freeze m true) s fun t => t.on pBFM BFM.SRT_CTRL_FREEZE = true ∧ t.srt = s.srt ∧ t.mem = s.mem) ∧
      (s.srt.run ≠ none → Does (.freeze m false) s fun t => t.on pBFM BFM.SRT_CTRL_FREEZE = false ∧ t.srt = s.srt ∧ t.mem = s.mem) ∧
      (s.srt.run = none → Does (.freeze m false) s fun t => t.on pBFM BFM.SRT_CTRL_FREEZE = false ∧ t.srt.run = s.srt.queue.head? ∧ t.srt.queue = s.srt.queue.drop 1 ∧ t.get pBFM BFM.SRT_STAT_HELD = 0) ∧
      (∀ (index : BitVec 16) (dir : Bool) (n : Nat), n = s.srtCount →
        (s.on pBFM BFM.SRT_CTRL_FREEZE = false ∨ s.on pBFM BFM.SRT_STAT_BUSY = true ∨ n < index.toNat ∨ (dir = false ∧ n = 65536) ∨ (dir = true ∧ n ≤ index.toNat) →
          Does (.srtShift m index dir) s fun t => t.on pBFM BFM.SRT_STAT_SHIFT_REFUSED = true ∧ (t.reg pBFM 0x1C).getLsbD 4 = true ∧ t.mem = s.mem ∧ t.srt = s.srt) ∧
        (s.on pBFM BFM.SRT_CTRL_FREEZE = true → s.on pBFM BFM.SRT_STAT_BUSY = false → index.toNat ≤ n → (dir = false → n < 65536) → (dir = true → index.toNat < n) →
          Does (.srtShift m index dir) s fun t => t.srt.shift = some (index.toNat, dir) ∧ t.on pBFM BFM.SRT_STAT_SHIFT_REFUSED = false ∧ t.on pBFM BFM.SRT_STAT_BUSY = true ∧ t.mem = s.mem)) ∧
      (Does (.check m) s fun t => t.srt.check = true ∧ t.reg pBFM 0x110 = 0 ∧ t.mem = s.mem)) ∧
    (s.srt.run = none → exec .srtLookupEnd s = .next s) ∧ (s.srt.shift = none → exec .shiftDone s = .next s) ∧ (s.srt.check = false → exec .checkDone s = .next s) ∧
    (∀ m k, s.srt.run = some (m, k) →
      (s.on pBFM BFM.SRT_STAT_FENCED = true → Does .srtLookupEnd s fun t => (t.mreg m pBFM 0x11C).toNat / 65536 = 0x8400) ∧
      (s.on pBFM BFM.SRT_STAT_FENCED = false →
        (s.srtSearch 17 0 s.srtCount k = .corrupt → Does .srtLookupEnd s fun t => (t.mreg m pBFM 0x11C).toNat / 65536 = 0x8200 ∧ (t.reg pBFM 0x1C).getLsbD 3 = true) ∧
        (s.srtSearch 17 0 s.srtCount k = .error → Does .srtLookupEnd s fun t => (t.mreg m pBFM 0x11C).toNat / 65536 = 0x8300 ∧ (t.reg pBFM 0x1C).getLsbD 1 = true) ∧
        ((∀ i, i < s.srtCount → s.srtBad i = false ∧ srtValid (s.srtEntry i) = true) → (∀ i, i + 1 < s.srtCount → srtStart (s.srtEntry i) + srtLen (s.srtEntry i) ≤ srtStart (s.srtEntry (i + 1))) →
          (∀ i e, i < s.srtCount → e = s.srtEntry i → srtStart e ≤ k → k < srtStart e + srtLen e → Does .srtLookupEnd s fun t => t.mem = s.mem ∧
            (t.mreg m pBFM 0x11C).toNat = 2 ^ 31 + i ∧ (t.mreg m pBFM 0x120).toNat = k - srtStart e + 65536 * (if srtType e = 1 ∨ srtType e = 2 then (srtSector e + (k - srtStart e)) % 65536 else 0) ∧
            ∀ w, w < 4 → (t.mreg m pBFM (0x124 + 4 * w)).toNat = e / 2 ^ (32 * w) % 2 ^ 32) ∧
          (∀ i, i < s.srtCount → srtStart (s.srtEntry i) + srtLen (s.srtEntry i) ≤ k → (i + 1 < s.srtCount → k < srtStart (s.srtEntry (i + 1))) → Does .srtLookupEnd s fun t =>
            (t.mreg m pBFM 0x11C).toNat = 2 ^ 31 + 2 ^ 24 + i) ∧
          ((0 < s.srtCount → k < srtStart (s.srtEntry 0)) → Does .srtLookupEnd s fun t => (t.mreg m pBFM 0x11C).toNat = 2 ^ 31 + 2 ^ 24 + 0xFFFF)))) ∧
    (∀ i n, n = s.srtCount →
      (s.srt.shift = some (i, false) → i ≤ n → n < 65536 → Does .shiftDone s fun t => t.srt.shift = none ∧ t.srtCount = n + 1 ∧ (∀ j, j ≤ i → j < n → t.srtEntry j = s.srtEntry j) ∧
        (∀ j, i ≤ j → j < n → t.srtEntry (j + 1) = s.srtEntry j) ∧ ∀ a, a < srtBase + 16 * i ∨ srtBase + 16 * (n + 1) ≤ a → t.byte a = s.byte a) ∧
      (s.srt.shift = some (i, true) → i < n → Does .shiftDone s fun t => t.srt.shift = none ∧ t.srtCount = n - 1 ∧ (∀ j, j < i → t.srtEntry j = s.srtEntry j) ∧
        (∀ j, i ≤ j → j + 1 < n → t.srtEntry j = s.srtEntry (j + 1)) ∧ ∀ a, a < srtBase + 16 * i ∨ srtBase + 16 * n ≤ a → t.byte a = s.byte a)) ∧
    (s.srt.check = true →
      ((∀ i, i < s.srtCount → s.srtFault i = none) → Does .checkDone s fun t => t.reg pBFM 0x110 = 0xC0000000 ∧ (t.reg pBFM 0x18).getLsbD 3 = true ∧ t.srt.check = false) ∧
      (∀ i c, i < s.srtCount → s.srtFault i = some c → (∀ j, j < i → s.srtFault j = none) → Does .checkDone s fun t => (t.reg pBFM 0x110).toNat = 2 ^ 31 + c * 65536 + i ∧ (t.reg pBFM 0x18).getLsbD 3 = true))

/-- ST_RERUN runs on a powered page that is not enabled and is otherwise REFUSED; a beat outside the MDC's arrays changes no byte of buffer memory; with no lap under way it begins one, without a slot it does nothing, one that finds nothing moves its lap on by one line, a corrected error counts and its write-back is cancelled where another write was granted, an uncorrectable one counts and marks the line; a lap's end records its duration and begins the next, a late lap sets its FLT_STAT bit once, and neither happens at another time. A request that the cache does not serve goes to BFM; one waits while the cache is cleaning. A hit answers from the entry, counted, and changes no DRAM byte unless it is a write-through write; a write of an RO region is refused, a data error in the entry answers an error and disables it; a miss in an uncached region or in bypass goes to BFM, in a caching region without PF it starts one fill in the least recently used entry; a returned fill is kept and serves the read that waited, one with an uncorrectable error answers it with an error and is not kept; a victim's line answers a read; its write-back lands and frees its place; both wait while DRAM is in self-refresh; INV drops without a write, CLEAN writes a dirty line back and keeps it, CLEAN_INV does both, for the one line or for all, a line not held is left alone, an address outside DRAM is REFUSED, operations of several masters run one at a time, DONE at the end with RESULT; BYPASS_REQ cleans and drops every entry, and bypass is entered with FLT_STAT bit 7 once no fill and no victim is left. -/
def Obligations.GleanerAndMetadataCache : Prop :=
  ∀ s : State, Sound s →
    (s.present pGLN = true → s.powered pGLN = true → s.isResetting pGLN = false → ∀ (m : Master) (page : BitVec 9) (fails : List (BitVec 8)) (p : Nat), p = page.toNat →
      (s.present p = true → s.powered p = true → s.enabled p = false → Does (.stRerun m page fails) s fun t => t.get pGLN GLN.ST_STAT_FAILS = min 65535 fails.length ∧ t.on pGLN GLN.ST_STAT_DONE = true ∧
        t.on pGLN GLN.ST_STAT_PASS = decide (fails = []) ∧ (t.reg pGLN 0x18).getLsbD 3 = true ∧ (fails ≠ [] → (t.reg pGLN 0x1C).getLsbD 2 = true)) ∧
      (s.present p = false ∨ s.powered p = false ∨ s.enabled p = true → exec (.stRerun m page fails) s = .next (s.put pGLN GLN.ST_STAT_REFUSED 1))) ∧
    (∀ (dram raced : Bool) (spot : Option GlnSpot) (e : WordErr), Does (.gleanerBeat dram e raced spot) s fun t => (∀ sp, spot = some sp → sp.page.val ≠ pMDC) → t.mem = s.mem) ∧
    (∀ (raced : Bool) (spot : Option GlnSpot) (e : WordErr),
      (s.glnDram = false → exec (.gleanerBeat true e raced spot) s = .next s) ∧ (s.glnRuns = false → exec (.gleanerBeat false e raced spot) s = .next s) ∧
      (s.glnDram = true → s.gln.dramOn = false → exec (.gleanerBeat true e raced spot) s = exec (.gleanerBeat true e raced spot) s.dramLapStart) ∧
      (s.glnRuns = true → s.gln.sramOn = false → exec (.gleanerBeat false e raced spot) s = exec (.gleanerBeat false e raced spot) s.sramLapStart) ∧
      (s.gln.dramOn = true → s.usable ≤ s.dramPos ∨ s.glnSlot (s.chanOf (dramBase + s.dramPos)) (dramBase + s.dramPos) = none → exec (.gleanerBeat true e raced spot) s = .next s) ∧
      (s.gln.sramOn = true → s.sramInternal = false → ∀ a r, s.glnNext (afmBase + s.sramPos) = some (a, r) → s.glnSlot (s.resourceOf a) a = none → exec (.gleanerBeat false e raced spot) s = .next s)) ∧
    (∀ (raced : Bool) (spot : Option GlnSpot) (e : WordErr), s.glnDram = true → s.gln.dramOn = true → ∀ o s1, o = s.dramPos → o < s.usable → s.glnSlot (s.chanOf (dramBase + o)) (dramBase + o) = some s1 →
      (s.badLines.contains (dramBase + o) = false → errVerdict e = .good → exec (.gleanerBeat true e raced spot) s = .next (s1.setDramPos (o + 64))) ∧
      (s.badLines.contains (dramBase + o) = false → errVerdict e = .ce → Does (.gleanerBeat true e raced spot) s fun t => t.mem = s.mem ∧ t.get pGLN GLN.CE_CNT = min (s.get pGLN GLN.CE_CNT + 1) (2 ^ 32 - 1) ∧ (t.reg pGLN 0x18).getLsbD 2 = true ∧
        t.get pGLN GLN.WB_CANCEL = if raced = true then min (s.get pGLN GLN.WB_CANCEL + 1) (2 ^ 32 - 1) else s.get pGLN GLN.WB_CANCEL) ∧
      (s.badLines.contains (dramBase + o) = true ∨ errVerdict e = .ue → Does (.gleanerBeat true e raced spot) s fun t => t.mem = s.mem ∧ t.get pGLN GLN.UE_CNT = min (s.get pGLN GLN.UE_CNT + 1) (2 ^ 32 - 1) ∧ t.badLines.contains (dramBase + o) = true)) ∧
    (∀ (raced : Bool) (spot : Option GlnSpot) (e : WordErr), s.glnRuns = true → s.gln.sramOn = true → s.sramInternal = false → ∀ a r s1, s.glnNext (afmBase + s.sramPos) = some (a, r) → s.glnSlot (s.resourceOf a) a = some s1 →
      Does (.gleanerBeat false e raced spot) s fun t => (s.badLines.contains a = false → errVerdict e = .ce → t.get pGLN GLN.CE_CNT = min (s.get pGLN GLN.CE_CNT + 1) (2 ^ 32 - 1)) ∧
        (s.badLines.contains a = true ∨ errVerdict e = .ue → t.get pGLN GLN.UE_CNT = min (s.get pGLN GLN.UE_CNT + 1) (2 ^ 32 - 1) ∧ t.badLines.contains a = true) ∧ (t.reg pGLN 0x6C).toNat = (match s1.glnNext (a + 64) with | some (b, _) => (b - afmBase) % 2 ^ 32 | none => 2 ^ 31)) ∧
    (s.glnDram = true → s.gln.dramOn = true → s.usable ≤ s.dramPos → Does (.lapEnd true) s fun t => t.get pGLN GLN.DRAM_LAPS = (s.get pGLN GLN.DRAM_LAPS + 1) % 2 ^ 32 ∧ t.gln.dramStart = s.time ∧ t.dramPos = 0 ∧
      t.get pGLN GLN.DRAM_LAP_LAST = min ((s.time - s.gln.dramStart) / msSub) (2 ^ 32 - 1) ∧ (t.reg pGLN 0x18).getLsbD 1 = true) ∧
    (s.glnRuns = true → s.gln.sramOn = true → s.glnNext (afmBase + s.sramPos) = none → Does (.lapEnd false) s fun t => t.get pGLN GLN.SRAM_LAPS = (s.get pGLN GLN.SRAM_LAPS + 1) % 2 ^ 32 ∧ t.gln.sramStart = s.time ∧
      t.get pGLN GLN.SRAM_LAP_LAST = min ((s.time - s.gln.sramStart) / usSub) (2 ^ 32 - 1) ∧ t.reg pGLN 0x6C = 0 ∧ (t.reg pGLN 0x18).getLsbD 0 = true) ∧
    (s.glnRuns = true →
      (s.gln.dramOn = true → s.gln.dramLate = false → s.gln.dramStart + s.get pGLN GLN.LAP_TGT_DRAM_TGT * 1000 * msSub ≤ s.time → Does (.lapLate true) s fun t => t.gln.dramLate = true ∧ (t.reg pGLN 0x1C).getLsbD 1 = true) ∧
      (s.gln.sramOn = true → s.gln.sramLate = false → s.gln.sramStart + s.get pGLN GLN.LAP_TGT_SRAM_TGT * msSub ≤ s.time → Does (.lapLate false) s fun t => t.gln.sramLate = true ∧ (t.reg pGLN 0x1C).getLsbD 0 = true)) ∧
    (s.glnDram = false ∨ s.gln.dramOn = false ∨ s.dramPos < s.usable → exec (.lapEnd true) s = .next s) ∧
    (s.glnRuns = false ∨ s.gln.sramOn = false ∨ (s.sramInternal = false ∧ s.glnNext (afmBase + s.sramPos) ≠ none) → exec (.lapEnd false) s = .next s) ∧
    (s.glnRuns = false ∨ s.gln.dramOn = false ∨ s.gln.dramLate = true ∨ s.time < s.gln.dramStart + s.get pGLN GLN.LAP_TGT_DRAM_TGT * 1000 * msSub → exec (.lapLate true) s = .next s) ∧
    (s.glnRuns = false ∨ s.gln.sramOn = false ∨ s.gln.sramLate = true ∨ s.time < s.gln.sramStart + s.get pGLN GLN.LAP_TGT_SRAM_TGT * msSub → exec (.lapLate false) s = .next s) ∧
    (∀ (m : Master) (w : Bool) (addr : BitVec 48) (len : BitVec 7) (data : List Byte) (find : MdcFind) (r : MdcReq), r = mdcReqOf m w addr.toNat len.toNat data →
      (viaMdc m r.addr = false → exec (.mdcRequest m w addr len data find) s = .next (s.mdcDirect r)) ∧
      (viaMdc m r.addr = true → s.on pMDC MDC.MDC_STAT_CLEANING = true → Does (.mdcRequest m w addr len data .clean) s fun t => t.mdc.waits = s.mdc.waits ++ [r] ∧ t.mem = s.mem) ∧
      (∀ e, viaMdc m r.addr = true → s.mdcFind (mdcLine r.addr) = some e → s.mdcDis e = false → (s.mdcEnt e).dirty = false → Does (.mdcRequest m w addr len data .dataUe) s fun t => t.resp.err = true ∧
        t.mdcDis e = true ∧ (t.mdcEnt e).line = none)) ∧
    (∀ (i : Fin 8) (beat : Fin 4) (e : WordErr), s.mdc.fills[i.val]? = none ∨ (∃ f, s.mdc.fills[i.val]? = some f ∧ s.dramHeld f.line = true) → exec (.mdcFillReturn i beat e) s = .next s) ∧
    (∀ i : Fin 4, s.mdc.victims[i.val]? = none ∨ (∃ v, s.mdc.victims[i.val]? = some v ∧ s.dramHeld v.1 = true) → exec (.victimWritebackDone i) s = .next s) ∧
    (∀ m op a res rest, s.mdc.maint = (m, op, a, res) :: rest → (s.maintWaits op a = true → exec .maintDone s = .next s) ∧
      (s.maintWaits op a = false → res < 16 → Does .maintDone s fun t => t.mdc.maint.length = rest.length ∧ (t.mreg m pMDC 0x54).toNat = 2 ^ 31 + res ∧ (t.reg pMDC 0x18).getLsbD 2 = true)) ∧
    (s.mdc.maint = [] → exec .maintDone s = .next s) ∧
    (s.on pMDC MDC.MDC_STAT_CLEANING = false ∨ s.mdc.fills ≠ [] ∨ s.mdc.victims ≠ [] → exec .bypassEntered s = .next s) ∧
    (s.present pMDC = true → s.powered pMDC = true → s.isResetting pMDC = false → ∀ (m : Master) (on_ : Bool), Does (.bypassReq m on_) s fun t => t.on pMDC MDC.MDC_CTRL_BYPASS_REQ = on_) ∧
    (8 ≤ s.mdcEnabled.length → s.on pMDC MDC.MDC_CTRL_BYPASS_REQ = false → s.on pMDC MDC.MDC_STAT_CLEANING = false →
      (∀ (m : Master) (w : Bool) (addr : BitVec 48) (len : BitVec 7) (data : List Byte) (r : MdcReq) (l : Nat), r = mdcReqOf m w addr.toNat len.toNat data → l = mdcLine r.addr → viaMdc m r.addr = true → s.mdc.waits = [] →
        (w = true → s.mdcRo r.addr = true → Does (.mdcRequest m w addr len data .clean) s fun t => t.resp.err = true ∧ t.mem = s.mem ∧ t.mdc = s.mdc ∧ (t.reg pMDC 0x1C).getLsbD 5 = true) ∧
        ((w = true → s.mdcRo r.addr = false) → (∀ f ∈ s.mdc.fills, f.line ≠ l) →
          (∀ e v, s.mdcFind l = some e → v = s.mdcEnt e →
            (w = false → Does (.mdcRequest m w addr len data .clean) s fun t => t.resp = { value := lineRead v.data r, err := false } ∧ t.mem = s.mem ∧ (t.mdcEnt e).data = v.data ∧ (t.mdcEnt e).dirty = v.dirty ∧
              t.get pMDC MDC.HIT_CNT = min (s.get pMDC MDC.HIT_CNT + 1) (2 ^ 32 - 1)) ∧
            (w = true → s.mdcMode r.addr ≠ 1 → Does (.mdcRequest m w addr len data .clean) s fun t => t.resp.err = false ∧ t.mem = s.mem ∧ (t.mdcEnt e).data = lineWrite v.data r ∧ (t.mdcEnt e).dirty = true) ∧
            (w = true → s.mdcMode r.addr = 1 → Does (.mdcRequest m w addr len data .clean) s fun t => t.mem = (s.mdcDirect r).mem ∧ (t.mdcEnt e).data = lineWrite v.data r ∧ (t.mdcEnt e).dirty = v.dirty)) ∧
          (w = false → ∀ d, s.mdcFind l = none → s.mdc.victims.find? (fun v => decide (v.1 = l)) = some (l, d) → Does (.mdcRequest m w addr len data .clean) s fun t =>
            t.resp = { value := lineRead d r, err := false } ∧ t.mem = s.mem ∧ t.mdc.victims = s.mdc.victims) ∧
          (s.mdcFind l = none → (∀ v ∈ s.mdc.victims, v.1 ≠ l) →
            (s.mdcThrough = true ∨ s.mdcMode r.addr = 0 → exec (.mdcRequest m w addr len data .clean) s = .next ((s.mdcDirect r).noteMdc)) ∧
            (∀ e n, s.mdcThrough = false → s.mdcMode r.addr = 2 ∨ (s.mdcMode r.addr = 1 ∧ w = false) → s.mdcMaintAll = false → s.mdcLru = some e → s.mdc.fills.length < 8 → s.mdc.victims.length < 4 → s.mdcRegion r.addr = some n →
              s.on pMDC (MDC.ATTR_PF n) = false → Does (.mdcRequest m w addr len data .clean) s fun t => t.mdc.fills = s.mdc.fills ++ [{ line := l, entry := e, reqs := [r], pf := false }] ∧ t.mem = s.mem ∧
                t.get pMDC MDC.MISS_CNT = min (s.get pMDC MDC.MISS_CNT + 1) (2 ^ 32 - 1) ∧ (t.mdcEnt e).line = none)))) ∧
      (∀ (i : Fin 8) (beat : Fin 4) (f : MdcFill), s.mdc.fills[i.val]? = some f → f.reqs = [] → s.mdc.waits = [] → s.dramHeld f.line = false → ∀ er, errVerdict er = .ue → s.mdcFind f.line = none →
        Does (.mdcFillReturn i beat er) s fun t => t.mdc.fills = s.mdc.fills.erase f ∧ t.mem = s.mem ∧ t.mdcFind f.line = none ∧ (t.reg pMDC 0x1C).getLsbD 6 = true) ∧
      (∀ (i : Fin 8) (beat : Fin 4) (f : MdcFill) (r : MdcReq), s.mdc.fills[i.val]? = some f → f.reqs = [r] → r.write = false → s.mdc.waits = [] → s.dramHeld f.line = false →
        (∀ k, k < 4 → s.spanRefusal (some r.master) false (f.line + 64 * k) 64 = none) →
        (∀ er, errVerdict er = .ue → Does (.mdcFillReturn i beat er) s fun t => t.resp.err = true ∧ t.mem = s.mem ∧ t.mdc.fills = s.mdc.fills.erase f) ∧
        ((∀ l ∈ s.badLines, (lineSpan f.line 256).contains l = false) → Does (.mdcFillReturn i beat {}) s fun t => t.resp = { value := lineRead (s.bytesAt f.line 256) r, err := false } ∧
          t.mem = s.mem ∧ t.mdc.fills = s.mdc.fills.erase f ∧ (f.alloc = true → s.mdcDis f.entry = false → s.mdcThrough = false → (t.mdcEnt f.entry).line = some f.line ∧ (t.mdcEnt f.entry).data = s.bytesAt f.line 256))) ∧
      (∀ (i : Fin 8) (beat : Fin 4) (f : MdcFill), s.mdc.fills[i.val]? = some f → f.alloc = true → f.reqs = [] → s.mdcDis f.entry = false → s.mdcThrough = false → s.mdc.waits = [] →
        s.dramHeld f.line = false → (∀ l ∈ s.badLines, (lineSpan f.line 256).contains l = false) → (∀ k, k < 4 → s.spanRefusal none false (f.line + 64 * k) 64 = none) → Does (.mdcFillReturn i beat {}) s fun t => (t.mdcEnt f.entry).line = some f.line ∧ (t.mdcEnt f.entry).data = s.bytesAt f.line 256 ∧
          (t.mdcEnt f.entry).dirty = false ∧ t.mem = s.mem ∧ t.mdc.fills = s.mdc.fills.erase f) ∧
      (∀ (i : Fin 4) (l : Nat) (d : List Byte), s.mdc.victims[i.val]? = some (l, d) → l % 256 = 0 → s.dramHeld l = false → s.mdc.waits = [] → d.length = 256 → (∀ k, k < 4 → s.spanRefusal none true (l + 64 * k) 64 = none) →
        Does (.victimWritebackDone i) s fun t => t.mdc.victims = s.mdc.victims.erase (l, d) ∧ (∀ k, k < 256 → t.byte (l + k) = d[k]?.getD 0) ∧ ∀ a, a < l ∨ l + 256 ≤ a → t.byte a = s.byte a) ∧
      (s.present pMDC = true → s.powered pMDC = true → s.isResetting pMDC = false → ∀ (m : Master) (a l : Nat), a = (s.mreg m pMDC 0x48).toNat + 2 ^ 32 * ((s.mreg m pMDC 0x4C).toNat % 65536) → l = mdcLine a →
        (a < dramBase ∨ dramEnd ≤ a → ∀ c : Instr, c = .invAddr m ∨ c = .cleanAddr m ∨ c = .cleanInvAddr m → Does c s fun t => t.mreg m pMDC 0x54 = 0x80000001 ∧ t.mdc = s.mdc ∧ t.mem = s.mem) ∧
        (s.mdc.maint ≠ [] → ∀ (c : Instr) (op : Nat), (op ≤ 3 → dramBase ≤ a ∧ a < dramEnd) → (c = .invAddr m ∧ op = 1) ∨ (c = .cleanAddr m ∧ op = 2) ∨ (c = .cleanInvAddr m ∧ op = 3) ∨ (c = .invAll m ∧ op = 4) ∨ (c = .cleanAll m ∧ op = 5) ∨ (c = .cleanInvAll m ∧ op = 6) →
          Does c s fun t => t.mdc = { s.mdc with maint := s.mdc.maint ++ [(m, op, a, 0)] } ∧ t.mreg m pMDC 0x54 = 0 ∧ t.mem = s.mem) ∧
        (s.mdc.maint = [] →
          (Does (.invAll m) s fun t => (∀ e, e < 48 → (t.mdcEnt e).line = none) ∧ t.mem = s.mem ∧ t.mreg m pMDC 0x54 = 0) ∧
          ((∀ e l', e < 48 → (s.mdcEnt e).line = some l' → l' % 256 = 0 ∧ (s.mdcEnt e).data.length = 256 ∧ (∀ k, k < 4 → s.spanRefusal none true (l' + 64 * k) 64 = none) ∧
              ∀ e', e' < 48 → (s.mdcEnt e').line = some l' → e' = e) →
            (Does (.cleanAll m) s fun t => ∀ e l', e < 48 → (s.mdcEnt e).line = some l' → t.mdcEnt e = { s.mdcEnt e with dirty := false } ∧
              ((s.mdcEnt e).dirty = true → ∀ k, k < 256 → t.byte (l' + k) = (s.mdcEnt e).data[k]?.getD 0)) ∧
            (Does (.cleanInvAll m) s fun t => ∀ e, e < 48 → (t.mdcEnt e).line = none ∧
              ∀ l', (s.mdcEnt e).line = some l' → (s.mdcEnt e).dirty = true → ∀ k, k < 256 → t.byte (l' + k) = (s.mdcEnt e).data[k]?.getD 0)) ∧
          (dramBase ≤ a → a < dramEnd → s.mdcFind l = none → ∀ c : Instr, c = .invAddr m ∨ c = .cleanAddr m ∨ c = .cleanInvAddr m → Does c s fun t => t.mem = s.mem ∧ t.mreg m pMDC 0x54 = 0 ∧
            ∀ e, t.mdcEnt e = s.mdcEnt e) ∧
          (dramBase ≤ a → a < dramEnd → ∀ e v, s.mdcFind l = some e → v = s.mdcEnt e → (∀ e', e' < 48 → e' ≠ e → (s.mdcEnt e').line ≠ some l) →
            (Does (.invAddr m) s fun t => (∀ e', e' < 48 → (t.mdcEnt e').line ≠ some l) ∧ t.mem = s.mem ∧ ∀ e', e' ≠ e → t.mdcEnt e' = s.mdcEnt e') ∧
            (v.dirty = false → (Does (.cleanAddr m) s fun t => t.mem = s.mem ∧ t.mdcEnt e = v) ∧ (Does (.cleanInvAddr m) s fun t => t.mem = s.mem ∧ (t.mdcEnt e).line = none)) ∧
            (v.dirty = true → v.data.length = 256 → (∀ k, k < 4 → s.spanRefusal none true (l + 64 * k) 64 = none) →
              (Does (.cleanAddr m) s fun t => t.mdcEnt e = { v with dirty := false } ∧ (∀ k, k < 256 → t.byte (l + k) = v.data[k]?.getD 0) ∧ ∀ x, x < l ∨ l + 256 ≤ x → t.byte x = s.byte x) ∧
              (Does (.cleanInvAddr m) s fun t => (t.mdcEnt e).line = none ∧ (∀ k, k < 256 → t.byte (l + k) = v.data[k]?.getD 0) ∧ ∀ x, x < l ∨ l + 256 ≤ x → t.byte x = s.byte x)))))) ∧
    (s.running pMDC = true → s.fenced pMDC = false → s.isResetting pMDC = false → s.on pMDC MDC.MDC_STAT_BYPASS = false → s.on pMDC MDC.MDC_STAT_CLEANING = false → ∀ m : Master,
      Does (.bypassReq m true) s fun t => t.on pMDC MDC.MDC_CTRL_BYPASS_REQ = true ∧ t.on pMDC MDC.MDC_STAT_CLEANING = true ∧ ∀ e, e < 48 → (t.mdcEnt e).line = none) ∧
    (s.on pMDC MDC.MDC_STAT_CLEANING = true → s.mdc.fills = [] → s.mdc.victims = [] → s.on pMDC MDC.MDC_CTRL_BYPASS_REQ = true → Does .bypassEntered s fun t => t.on pMDC MDC.MDC_STAT_BYPASS = true ∧
      t.on pMDC MDC.MDC_STAT_CLEANING = false ∧ (t.reg pMDC 0x18).getLsbD 0 = true ∧ (t.reg pMDC 0x1C).getLsbD 7 = true)

/-- RUN in IDLE of an enabled engine starts the channel at HEAD and only sets the bit otherwise, a cleared RUN leaves what is in flight and returns an empty channel to IDLE; KICK leaves WAIT_OWN; a channel that may not fetch, or whose next descriptor lies in DRAM in self-refresh, fetches nothing; a fetch of a descriptor with OWN at 0 enters WAIT_OWN, one that fails a check of R366 joins as BAD_DESC and moves no data, a fetch that meets an error halts the channel with ERR STATUS 9 and FLT_STAT bit 2, and a plain transfer of one beat in the buffer, no access refused, waiting or meeting an error, writes the source's bytes at the destination and changes no other byte; a host completion writes its data at its place, one with an error ends the descriptor READ_ERROR with UR or CA, and both wait where the destination lies in DRAM in self-refresh; a descriptor that has delivered all completes OK: W12, DONE_CNT, DONE_SEQ, OWN at 0, IDLE at the chain's end, and one that met an error sets ERR_INFO, ERR_PEND and FLT_STAT bit 0; one not ready completes not; an acknowledgement takes the descriptor out of the trail with its last TLP, a loss freezes the trail of completed descriptors with FLT_STAT bit 1 and ends one in flight WRITE_LOST; a closed window ends the descriptor TIMEOUT; ABORT drains, ends the descriptor ABORTED and returns to IDLE, and does nothing in ABORTING and ERROR. -/
def Obligations.DmaEngine : Prop :=
  ∀ (c : Fin 32) (s : State) (ch : DmaChan), Sound s → ch = s.dmaOf c →
    (s.present pDMA = true → s.powered pDMA = true → s.isResetting pDMA = false → ∀ m : Master,
      (s.chState c = 0 → s.running pDMA = true → ∀ h, h = s.get pDMA (chF c 8 6 26) * 64 + s.get pDMA (chF c 0xC 0 16) * 2 ^ 32 → Does (.run m c true) s fun t => t.chState c = 1 ∧ (t.dmaOf c).next = h ∧
        t.get pDMA (chF c 0x10 0 32) = h % 2 ^ 32 ∧ t.on pDMA (chF c 0 0 1) = true ∧ t.mem = s.mem) ∧
      (s.chState c ≠ 0 ∨ s.running pDMA = false → exec (.run m c true) s = .next (s.put pDMA (chF c 0 0 1) 1)) ∧
      (ch.halt = true ∨ (s.chState c ≠ 1 ∧ s.chState c ≠ 2) → exec (.run m c false) s = .next (s.put pDMA (chF c 0 0 1) 0)) ∧
      (3 ≤ s.chState c → exec (.dmaAbort m c) s = .next s) ∧
      (ch.descs ≠ [] → exec (.run m c false) s = .next (s.put pDMA (chF c 0 0 1) 0)) ∧
      (ch.descs = [] → ch.halt = false → s.chState c = 1 ∨ s.chState c = 2 → Does (.run m c false) s fun t => t.chState c = 0 ∧ t.on pDMA (chF c 0 0 1) = false) ∧
      exec (.kick m c) s = .next (if s.chState c = 2 then s.setChState c 1 else s) ∧
      (s.chState c ≤ 2 → ch.descs ≠ [] → exec (.dmaAbort m c) s = .next (s.setChState c 3)) ∧
      (s.chState c ≤ 2 → ch.descs = [] → Does (.dmaAbort m c) s fun t => t.chState c = 0 ∧ t.on pDMA (chF c 0 0 1) = false ∧ t.mem = s.mem)) ∧
    (s.chState c ≠ 1 ∨ ch.last = true ∨ ch.halt = true ∨ 2 ≤ ch.descs.length ∨ s.on pDMA (chF c 0 0 1) = false ∨ s.running pDMA = false ∨ s.dramHeld ch.next = true →
      exec (.descriptorFetch c) s = .next s) ∧
    (s.chState c = 1 → ch.last = false → ch.halt = false → ch.descs.length < 2 → s.on pDMA (chF c 0 0 1) = true → s.running pDMA = true → s.dramHeld ch.next = false →
      (∀ s1, s.bufRead (some (.dma c)) ch.next 64 = (s1, none) → Does (.descriptorFetch c) s fun t => (t.reg pDMA 0x1C).getLsbD 2 = true ∧ t.get pDMA (chF c 0x28 0 8) = 9 ∧ (t.dmaOf c).halt = true ∧ (t.dmaOf c).descs = ch.descs ∧ t.mem = s.mem) ∧
      (∀ s1 bs, s.bufRead (some (.dma c)) ch.next 64 = (s1, some bs) →
        (bit (leNat bs) 31 = false → exec (.descriptorFetch c) s = .next ((s1.setChState c 2).setCur c ch.next)) ∧
        (bit (leNat bs) 31 = true → ch.descs = [] → ∀ d : DmaDesc, d = { addr := ch.next, raw := leNat bs, seq := s.get pDMA (chF c 0x18 0 16), since := s.time } →
          (∀ det, s.descCheck d = some det → Does (.descriptorFetch c) s fun t => (t.dmaOf c).descs = [{ d with err := some (6, det, ch.next) }] ∧ t.mem = s.mem ∧ t.get pDMA (chF c 0x18 0 16) = (d.seq + 1) % 65536) ∧
          (s.descCheck d = none → dDir d = 0 → dSwap d = 0 → dBarrier d = false → dSrcIn d % 64 + dLen d ≤ 64 → s.badLines = [] → s.dramHeld (dSrcIn d) = false → s.dramHeld (dDstIn d) = false → s.spanRefusal (some (.dma c)) false (dSrcIn d) (dLen d) = none →
            s.spanRefusal (some (.dma c)) true (dDstIn d) (dLen d) = none → Does (.descriptorFetch c) s fun t => (t.dmaOf c).descs = [{ d with pos := dLen d, given := dLen d }] ∧
              (∀ i, i < dLen d → t.byte (dDstIn d + i) = s.byte (dSrcIn d + i)) ∧ ∀ a, a < dDstIn d ∨ dDstIn d + dLen d ≤ a → t.byte a = s.byte a)))) ∧
    (∀ (i : BitVec 8) (k : Fin 3) (data : List Byte), s.sinkHeld c = true → exec (.hostCompletion c i k data) s = .next s) ∧
    (∀ (d : DmaDesc) (r : RdReq) (rs : List RdReq) (data : List Byte), ch.descs = [d] → d.reads = r :: rs → d.err = none → dDir d = 2 → s.sinkHeld c = false → s.chState c = 1 → r.got ≤ r.len →
      (dXts d = 0 → dSwap d = 0 → data.length = r.len - r.got → s.badLines = [] → s.spanRefusal (some (.dma c)) true (dDstIn d + (r.off + r.got)) data.length = none → Does (.hostCompletion c 0 0 data) s fun t =>
        (∀ i, i < data.length → t.byte (dDstIn d + (r.off + r.got) + i) = data[i]?.getD 0) ∧ ∀ a, a < dDstIn d + (r.off + r.got) ∨ dDstIn d + (r.off + r.got) + data.length ≤ a → t.byte a = s.byte a) ∧
      (∀ k : Fin 3, k ≠ 0 → Does (.hostCompletion c 0 k data) s fun t => (t.dmaOf c).descs = [{ d with reads := rs, err := some (1, k.val + 2, r.host) }] ∧ t.mem = s.mem)) ∧
    (∀ d ds, ch.descs = d :: ds → descReady ch d = false ∨ s.chState c = 3 ∨ s.chState c = 4 ∨ s.dramHeld d.addr = true → exec (.descriptorComplete c) s = .next s) ∧
    (∀ d : DmaDesc, ch.descs = [d] → s.chState c = 1 → d.reads = [] → s.dramHeld d.addr = false → d.addr % 64 = 0 → s.badLines = [] → s.spanRefusal (some (.dma c)) true (d.addr + 48) 16 = none → s.spanRefusal (some (.dma c)) true d.addr 4 = none →
      (d.err = none → d.pos = dLen d → d.given = dLen d → (dBarrier d = true → ch.trail = []) → Does (.descriptorComplete c) s fun t => (t.dmaOf c).descs = [] ∧ t.load (d.addr + 48) 4 = 2 ^ 31 ∧ t.load (d.addr + 52) 4 = 0 ∧
        t.load d.addr 4 = d.word 0 % 2 ^ 31 ∧ t.load (d.addr + 60) 4 = d.seq % 2 ^ 32 ∧ (∀ a, a < d.addr ∨ d.addr + 64 ≤ a → t.byte a = s.byte a) ∧ t.get pDMA (chF c 0x18 16 16) = d.seq % 65536 ∧
        t.get pDMA (chF c 0x3C 0 32) = min (s.get pDMA (chF c 0x3C 0 32) + 1) (2 ^ 32 - 1) ∧ (dIrq d = true → bit (t.get pDMA DMA.DONE_PEND) c = true) ∧
        (ch.last = true → ch.halt = false → t.chState c = 0 ∧ t.on pDMA (chF c 0 0 1) = false)) ∧
      (∀ st det a, d.err = some (st, det, a) → st < 256 → det < 16 → st ≠ 0 → st ≠ 3 → Does (.descriptorComplete c) s fun t => (t.dmaOf c).descs = [] ∧ t.load (d.addr + 48) 4 = st + 256 * det + 2 ^ 31 ∧
        t.load d.addr 4 = d.word 0 % 2 ^ 31 ∧ t.get pDMA (chF c 0x28 0 8) = st ∧ t.get pDMA (chF c 0x28 8 4) = det ∧ bit (t.get pDMA DMA.ERR_PEND) c = true ∧ (t.reg pDMA 0x1C).getLsbD 0 = true ∧
        (s.chStop c = true → (t.dmaOf c).halt = true))) ∧
    (ch.descs = [] → exec (.descriptorComplete c) s = .next s) ∧
    (∀ (p : Fin 2) (x : Tlp) (rest : List Tlp), (s.portOf p).txq = x :: rest → (∀ k, (s.dmaOf k).descs = []) → x.kind = 0 → Does (.postedAck p) s fun t => (t.portOf p).txq = rest ∧ t.mem = s.mem ∧
      (t.dmaOf x.chan).trail = if rest.any (fun y => decide (y.kind = 0 ∧ y.chan = x.chan ∧ y.seq = x.seq)) = true then (s.dmaOf x.chan).trail else (s.dmaOf x.chan).trail.erase x.seq) ∧
    (∀ (p : Fin 2) (x : Tlp) (rest : List Tlp), (s.portOf p).txq = x :: rest → (∀ k, (s.dmaOf k).descs = []) → x.kind ≠ 0 → Does (.postedAck p) s fun t => (t.portOf p).txq = rest ∧ t.mem = s.mem ∧ t.dma = s.dma) ∧
    (∀ p : Fin 2, (s.portOf p).txq = [] → exec (.postedAck p) s = .next s) ∧
    (∀ a q qs, ch.lost = some a → ch.descs = [] → ch.trail = q :: qs → s.on pDMA (chF c 0x24 8 1) = false → Does (.postedLost c) s fun t => t.on pDMA (chF c 0x24 8 1) = true ∧ t.get pDMA (chF c 0x24 12 4) = 7 ∧
      t.get pDMA (chF c 0x1C 0 16) = q % 65536 ∧ bit (t.get pDMA DMA.ERR_PEND) c = true ∧ (t.reg pDMA 0x1C).getLsbD 1 = true ∧ (t.dmaOf c).lost = none ∧ t.mem = s.mem) ∧
    (ch.lost = none → exec (.postedLost c) s = .next s) ∧
    (∀ a d, ch.lost = some a → ch.descs = [d] → d.err = none → ch.trail.contains d.seq = true → Does (.postedLost c) s fun t => (t.dmaOf c).descs = [{ d with err := some (2, 7, a) }] ∧ (t.dmaOf c).lost = none ∧ t.mem = s.mem) ∧
    (∀ a, ch.lost = some a → ch.descs = [] → ch.trail = [] → Does (.postedLost c) s fun t => (t.dmaOf c).lost = none ∧ t.get pDMA DMA.ERR_PEND = s.get pDMA DMA.ERR_PEND ∧ t.mem = s.mem) ∧
    (∀ second : Bool, ch.descs[if second = true then 1 else 0]? = none ∨ (∃ d, ch.descs[if second = true then 1 else 0]? = some d ∧ (d.err ≠ none ∨ s.get pDMA (chF c 0x34 0 16) = 0 ∨ s.chState c = 3)) →
      exec (.descriptorTimeout c second) s = .next s) ∧
    (s.chState c ≠ 3 ∨ (∃ d ∈ ch.descs, d.reads ≠ []) → exec (.abortDrained c) s = .next s) ∧
    (∀ (second : Bool) (d : DmaDesc), ch.descs[if second = true then 1 else 0]? = some d → d.err = none → s.get pDMA (chF c 0x34 0 16) ≠ 0 → s.chState c ≠ 3 →
      (d.since + s.get pDMA (chF c 0x34 0 16) * usSub ≤ s.time → exec (.descriptorTimeout c second) s = .next (s.setDesc c (if second = true then 1 else 0) { d with err := some (7, 0, d.addr) })) ∧
      (s.time < d.since + s.get pDMA (chF c 0x34 0 16) * usSub → exec (.descriptorTimeout c second) s = .next s)) ∧
    (∀ d : DmaDesc, ch.descs = [d] → s.chState c = 3 → d.reads = [] → d.addr % 64 = 0 → s.badLines = [] → s.spanRefusal (some (.dma c)) true (d.addr + 48) 16 = none → s.spanRefusal (some (.dma c)) true d.addr 4 = none →
      Does (.abortDrained c) s fun t => t.chState c = 0 ∧ t.on pDMA (chF c 0 0 1) = false ∧ (t.dmaOf c).descs = [] ∧ t.load (d.addr + 48) 4 = 4 + 2 ^ 31 ∧ t.load d.addr 4 = d.word 0 % 2 ^ 31)

/-- On a powered port PERST# assertion and a hot reset take the link down, discard the queue, reset what an FLR resets and CFG_READY; a port trains only while the conditions of R388 hold and reaches the lesser of the two speeds and widths; a link lost discards the queue, names its posted writes lost, ends the reads with LINK_DOWN and sets FLT_STAT bit 0; 100 ms without L0 set bit 1 once; L0p narrows after IDLE; PME_REQ sends PM_PME, drives WAKE# or does nothing; an FLR resets the MSI-X table and PBA, INTX_SRC, the windows, MIRROR_DIRTY, the port's doorbells and its channels, keeps the queue, the slots and the link, a second one is ignored, it ends with FLR_ACK or with FLR_TMO and FLT_STAT bit 5; a removal shows in PRSNT and starts the supply-loss sequence with PRSNT_EN; a D-state or Bus Master Enable change shows and sets its interrupt, and clearing the latter ends host-side descriptors ABORTED_BME; MSIX_SEND drops, pends or sends; a pending vector goes when unmasked; INTA messages follow the condition. Outside these conditions each of these commands changes nothing. -/
def Obligations.HostPortLinkAndResets : Prop :=
  ∀ (p : Fin 2) (s : State) (q : Port) (g : Nat), Sound s → g = pHIF p → q = s.portOf p →
    (s.present g = false → exec (.perstAssert p) s = .next s ∧ exec (.perstDeassert p) s = .next s) ∧
    (s.present g = true → s.powered g = false → exec (.perstAssert p) s = .next (s.put g HIF.LINK_STAT_PERST 1)) ∧
    (s.present g = true → Does (.perstDeassert p) s fun t => t.on g HIF.LINK_STAT_PERST = false ∧ (t.portOf p).wake = false) ∧
    (s.present g = false ∨ s.powered g = false → exec (.removed p) s = .next s) ∧
    (s.msixEn p = false → ∀ v : BitVec 8, exec (.pbaSend p v) s = .next s) ∧
    (s.get g HIF.LINK_STAT_STATE ≠ 1 → s.get g HIF.LINK_STAT_STATE ≠ 2 → s.get g HIF.LINK_STAT_STATE ≠ 9 → ∀ speed width : BitVec 3, exec (.linkUp p speed width) s = .next s) ∧
    (q.flrAt = none → exec (.flrTmo p) s = .next s) ∧
    (∀ t0, q.trainAt = some t0 → q.trainTold = true ∨ s.time < t0 + 100 * msSub → exec (.trainFail p) s = .next s) ∧
    (s.get g HIF.LINK_STAT_STATE ≠ 3 → s.get g HIF.LINK_STAT_STATE ≠ 4 → exec (.intxChange p) s = .next s) ∧
    (s.get g HIF.LINK_STAT_STATE ≠ 3 ∨ 8192 ≤ s.txqBytes p ∨ q.idleAt = 0 ∨ s.time + 1 < q.idleAt + s.get g HIF.L0P_CFG_IDLE * usSub ∨ q.width ≤ (if s.get g HIF.L0P_CFG_WIDTH = 2 then 2 else 1) →
      exec (.l0pNarrow p) s = .next s) ∧
    (s.present g = true → s.powered g = true →
      (Does (.perstAssert p) s fun t => t.get g HIF.LINK_STAT_STATE = 0 ∧ t.on g HIF.LINK_STAT_PERST = true ∧ t.on g HIF.HIF_CTRL_CFG_READY = false ∧ (t.reg g 0x18).getLsbD 3 = true ∧ (t.portOf p).txq = [] ∧ (t.portOf p).msix = [] ∧
        (t.portOf p).pba = [] ∧ (t.portOf p).doeOut = [] ∧ t.reg g 0x6C = 0 ∧ (∀ i, i < 64 → t.reg g (0x100 + 4 * i) = 0) ∧ (∀ d, d < 1024 → t.dbOf (1024 * p + d) = {}) ∧ ∀ c : Fin 32, s.chPort c = p → (t.dmaOf c).descs = [] ∧ t.chState c = 0) ∧
      (s.on g HIF.HIF_CTRL_LINK_EN = true → s.fenced g = false → s.get g HIF.LINK_STAT_STATE = 0 → Does (.perstDeassert p) s fun t => t.get g HIF.LINK_STAT_STATE = 1 ∧ t.on g HIF.LINK_STAT_PERST = false ∧
        (t.portOf p).wake = false ∧ (t.portOf p).trainAt = some s.time) ∧
      (s.on g HIF.HIF_CTRL_LINK_EN = false → s.get g HIF.LINK_STAT_STATE = 0 → Does (.perstDeassert p) s fun t => t.get g HIF.LINK_STAT_STATE = 0 ∧ t.on g HIF.LINK_STAT_PERST = false) ∧
      exec (.removed p) s = .next (if s.on g HIF.HIF_CFG_PRSNT_EN = true then ((s.put g HIF.LINK_STAT_PRSNT 1).supplyLoss 6 0).raise g 6 else s) ∧
      (s.on g HIF.HIF_CFG_PRSNT_EN = true → s.supply = none → s.retracting = false → Does (.removed p) s fun t => (t.reg g 0x1C).getLsbD 6 = true ∧ t.on pMOT MOT.SUP_STAT_LOSS = true) ∧
      (s.isResetting g = false → ∀ m : Master,
        (s.pmeEn p = false → exec (.pmeReq m p) s = .next s) ∧
        (s.pmeEn p = true → s.linkUpOn p = true → Does (.pmeReq m p) s fun t => (t.portOf p).txq = q.txq ++ [{ kind := 4 }]) ∧
        (s.pmeEn p = true → s.linkUpOn p = false → s.on g HIF.LINK_STAT_PERST = true → Does (.pmeReq m p) s fun t => (t.portOf p).wake = true ∧ (t.portOf p).txq = q.txq) ∧
        (s.pmeEn p = true → s.linkUpOn p = false → s.on g HIF.LINK_STAT_PERST = false → exec (.pmeReq m p) s = .next s) ∧
        (s.on g HIF.LINK_STAT_FLR_ACTIVE = true → Does (.flrAck m p) s fun t => t.on g HIF.LINK_STAT_FLR_ACTIVE = false ∧ (t.portOf p).flrAt = none ∧ t.reg g 0x1C = s.reg g 0x1C) ∧
        (s.on g HIF.LINK_STAT_FLR_ACTIVE = false → exec (.flrAck m p) s = .next s) ∧
        (∀ v : BitVec 8,
          (s.msixEn p = false → exec (.msixSend m p v) s = .next (s.irq g 9)) ∧
          (s.msixEn p = true → s.funcMask p = true ∨ s.bmeOn p = false ∨ (tabGet q.msix (4 * v.toNat + 3) (1 : Word)).getLsbD 0 = true → Does (.msixSend m p v) s fun t =>
            (t.portOf p).pba = (if q.pba.contains v.toNat then q.pba else q.pba ++ [v.toNat]) ∧ (t.portOf p).txq = q.txq) ∧
          (s.msixEn p = true → s.funcMask p = false → s.bmeOn p = true → (tabGet q.msix (4 * v.toNat + 3) (1 : Word)).getLsbD 0 = false → Does (.msixSend m p v) s fun t => (t.portOf p).pba = q.pba ∧
            (t.portOf p).txq = q.txq ++ [{ kind := 1, seq := v.toNat, addr := (tabGet q.msix (4 * v.toNat) (0 : Word)).toNat + 2 ^ 32 * (tabGet q.msix (4 * v.toNat + 1) (0 : Word)).toNat, data := leBytes (tabGet q.msix (4 * v.toNat + 2) (0 : Word)).toNat 4 }])))) ∧
    (∀ v : BitVec 8, (q.pba.contains v.toNat = false → exec (.pbaSend p v) s = .next s) ∧
      (q.pba.contains v.toNat = true → s.msixEn p = true → s.vectorMasked p v.toNat = false → Does (.pbaSend p v) s fun t => (t.portOf p).pba = q.pba.erase v.toNat ∧ ∃ x : Tlp, (t.portOf p).txq = q.txq ++ [x] ∧ x.kind = 1 ∧ x.seq = v.toNat) ∧
      (s.vectorMasked p v.toNat = true → exec (.pbaSend p v) s = .next s)) ∧
    (∀ speed width : BitVec 3, s.mayTrain p = true → s.get g HIF.LINK_STAT_STATE = 1 ∨ s.get g HIF.LINK_STAT_STATE = 2 ∨ s.get g HIF.LINK_STAT_STATE = 9 → Does (.linkUp p speed width) s fun t => t.get g HIF.LINK_STAT_STATE = 3 ∧
      t.get g HIF.LINK_STAT_SPEED = max 1 (min (s.get g HIF.HIF_CFG_MAX_SPEED) (min 6 speed.toNat)) ∧ t.get g HIF.LINK_STAT_WIDTH = min (lanes (s.get g HIF.HIF_CFG_MAX_WIDTH)) (lanes width.toNat) ∧ (t.reg g 0x18).getLsbD 0 = true) ∧
    (∀ speed width : BitVec 3, s.mayTrain p = false → exec (.linkUp p speed width) s = .next s) ∧
    (s.present g = true → s.linkUpOn p = true →
      (Does (.hotReset p) s fun t => t.get g HIF.LINK_STAT_STATE = (if s.mayTrain p = true then 1 else 0) ∧ t.on g HIF.HIF_CTRL_CFG_READY = false ∧ (t.reg g 0x18).getLsbD 3 = true ∧ (t.portOf p).txq = [] ∧ (t.portOf p).msix = []) ∧
      (∀ dis : Bool, Does (.linkDown p dis) s fun t => t.get g HIF.LINK_STAT_STATE = (if dis = true then 9 else 1) ∧ (t.portOf p).txq = [] ∧ t.get g HIF.LINK_DOWN_CNT = min (s.get g HIF.LINK_DOWN_CNT + 1) (2 ^ 32 - 1) ∧
        (t.reg g 0x18).getLsbD 1 = true ∧ (t.reg g 0x1C).getLsbD 0 = true ∧ (∀ x ∈ q.txq, x.kind = 0 → (t.dmaOf x.chan).lost.isSome = true) ∧
        ∀ (c : Fin 32) (d : DmaDesc) (r : RdReq) (rs : List RdReq), s.chPort c = p → (s.dmaOf c).descs = [d] → d.reads = r :: rs → d.err = none → (t.dmaOf c).descs = [{ d with reads := [], err := some (1, 7, r.host) }]) ∧
      (s.on g HIF.LINK_STAT_FLR_ACTIVE = false → Does (.flr p) s fun t => t.on g HIF.LINK_STAT_FLR_ACTIVE = true ∧ (t.reg g 0x18).getLsbD 2 = true ∧ t.get g HIF.FLR_CNT = min (s.get g HIF.FLR_CNT + 1) (2 ^ 32 - 1) ∧ (t.portOf p).flrAt = some s.time ∧
        (t.portOf p).msix = [] ∧ (t.portOf p).pba = [] ∧ t.reg g 0x6C = 0 ∧ t.reg g 0xA8 = 0 ∧ t.reg g 0xAC = 0 ∧ (∀ i, i < 64 → t.reg g (0x100 + 4 * i) = 0 ∧ t.reg g (0x200 + 4 * i) = s.reg g (0x200 + 4 * i)) ∧
        (∀ d, d < 1024 → t.dbOf (1024 * p + d) = {}) ∧ (∀ c, ∀ e ∈ tabGet t.dbq c [], e.port ≠ p) ∧ (∀ c : Fin 32, s.chPort c = p → t.dmaOf c = {} ∧ t.chState c = 0) ∧ (t.portOf p).txq = q.txq ∧
        t.get g HIF.LINK_STAT_STATE = s.get g HIF.LINK_STAT_STATE) ∧
      (s.on g HIF.LINK_STAT_FLR_ACTIVE = true → exec (.flr p) s = .next s) ∧
      (∀ d3 : Bool, Does (.dState p d3) s fun t => t.on g HIF.LINK_STAT_D3HOT = d3 ∧ (s.on g HIF.LINK_STAT_D3HOT ≠ d3 → (t.reg g 0x18).getLsbD 6 = true)) ∧
      (Does (.bmeClear p) s fun t => t.on g HIF.LINK_STAT_BME = false ∧ (s.on g HIF.LINK_STAT_BME = true → (t.reg g 0x18).getLsbD 5 = true) ∧
        ∀ (c : Fin 32) (d : DmaDesc), s.bmeOn p = true → s.chPort c = p → (s.dmaOf c).descs = [d] → d.err = none → dHost d = true → (t.dmaOf c).descs = [{ d with err := some (3, 0, if dDir d = 1 then dDst d else dSrc d) }])) ∧
    (s.linkUpOn p = false → exec (.hotReset p) s = .next s ∧ (∀ dis : Bool, exec (.linkDown p dis) s = .next s) ∧ exec (.flr p) s = .next s ∧ (∀ d3 : Bool, exec (.dState p d3) s = .next s) ∧ exec (.bmeClear p) s = .next s) ∧
    (∀ t0, q.flrAt = some t0 → ∀ w, w = max 1 (min 90 (s.get g HIF.FLR_CFG_FLR_TMO)) * msSub →
      (s.time < t0 + w → exec (.flrTmo p) s = .next s) ∧
      (t0 + w ≤ s.time → s.present g = true → Does (.flrTmo p) s fun t => t.on g HIF.LINK_STAT_FLR_ACTIVE = false ∧ (t.portOf p).flrAt = none ∧ (t.reg g 0x1C).getLsbD 5 = true)) ∧
    (∀ t0, q.trainAt = some t0 → q.trainTold = false → s.present g = true → t0 + 100 * msSub ≤ s.time → Does (.trainFail p) s fun t => (t.reg g 0x1C).getLsbD 1 = true ∧ (t.portOf p).trainTold = true) ∧
    (q.trainAt = none → exec (.trainFail p) s = .next s) ∧
    (s.on g HIF.L0P_CFG_AUTO = true → s.get g HIF.LINK_STAT_STATE = 3 → s.txqBytes p < 8192 → q.idleAt ≠ 0 → q.idleAt + s.get g HIF.L0P_CFG_IDLE * usSub ≤ s.time + 1 → ∀ w, w = (if s.get g HIF.L0P_CFG_WIDTH = 2 then 2 else 1) → w < q.width →
      exec (.l0pNarrow p) s = .next ((s.put g HIF.LINK_STAT_STATE 4).put g HIF.LINK_STAT_WIDTH w)) ∧
    (s.on g HIF.L0P_CFG_AUTO = false → exec (.l0pNarrow p) s = .next s) ∧
    (s.intxWant p = q.intx → exec (.intxChange p) s = .next s) ∧
    (s.intxWant p ≠ q.intx → s.get g HIF.LINK_STAT_STATE = 3 ∨ s.get g HIF.LINK_STAT_STATE = 4 → Does (.intxChange p) s fun t => (t.portOf p).txq = q.txq ++ [{ kind := if s.intxWant p = true then 2 else 3 }] ∧ (t.portOf p).intx = s.intxWant p)

/-- With the link down no request does anything. A configuration request gets Request Retry until CFG_READY and during an FLR; identity reads give the registers, an unoccupied offset reads 0 and changes nothing, a write of Command gives BME and MSE, Initiate FLR starts one. A BAR0 request to an OFF slot or with MSE 0 is Unsupported, an aligned 4 B or 8 B one to a PAGE slot is an access to that register, any other to it and a write with RO Unsupported, a MIRROR write lands in host staging and marks its slot, a MIRROR read returns it, a DOORBELL read returns 0; a refused slot write leaves the slot OFF with FLT_STAT bit 4. An inbound write lands at its window's target as the translation table stood at the start of the FCLK cycle, a read returns what lies there, both wait while DRAM is in self-refresh, a miss is recorded, counted and changes no memory, a refused access counts in CA_CNT; doorbell writes are FORMAT, DISABLED, RANGE or accepted, in that order, and CLAIMc removes and returns the oldest of the list. Completion time-outs, malformed, poisoned and unsupported TLPs and unexpected completions are counted and logged in AER. A DOE object longer than 1,024 DW sets DOE Error, Discovery is answered, another object is placed and announced, RX_DONE frees, DOE_TX sends the page, DOE Abort clears. -/
def Obligations.HostRequests : Prop :=
  ∀ (p : Fin 2) (s : State) (q : Port) (g : Nat), Sound s → g = pHIF p → q = s.portOf p →
    (s.linkUpOn p = false → (∀ w i be v, exec (.configRequest p w i be v) s = .next s) ∧ (∀ w off en d, exec (.bar0Request p w off en d) s = .next s) ∧ (∀ off d, exec (.inboundWrite p off d) s = .next s) ∧ (∀ off l, exec (.inboundRead p off l) s = .next s) ∧
      (∀ off l f v, exec (.doorbellWrite p off l f v) s = .next s) ∧ exec (.malformedTlp p) s = .next s ∧ (∀ c, exec (.poisonedTlp p c) s = .next s) ∧ (∀ b, exec (.unsupportedRequest p b) s = .next s) ∧ exec (.unexpectedCompletion p) s = .next s ∧
      (∀ ws, exec (.doeObject p ws) s = .next s) ∧ exec (.doeAbort p) s = .next s ∧ ∀ w off l d, exec (.msixTableAccess p w off l d) s = .next s) ∧
    (s.linkUpOn p = true →
      (s.memEn p = false ∨ (∀ j, j < 2 ^ (s.bar0Log p - 12) → s.get g (HIF.BAR0_SLOT_KIND j) ≠ 3) → ∀ off len full w, Does (.doorbellWrite p off len full w) s fun t => t.dbs = s.dbs ∧ t.dbq = s.dbq ∧
        t.get g HIF.UR_CNT = min (s.get g HIF.UR_CNT + 1) (2 ^ 32 - 1)) ∧
      (s.memEn p = true → (∃ j, j < 2 ^ (s.bar0Log p - 12) ∧ s.get g (HIF.BAR0_SLOT_KIND j) = 3) → s.fenced pDBA = true ∨ s.enabled pDBA = false → ∀ off len full w, exec (.doorbellWrite p off len full w) s = .next s) ∧
      (s.memEn p = false → ∀ w off l d, Does (.msixTableAccess p w off l d) s fun t => (t.portOf p).msix = q.msix ∧ t.get g HIF.UR_CNT = min (s.get g HIF.UR_CNT + 1) (2 ^ 32 - 1)) ∧
      (s.on g HIF.HIF_CTRL_CFG_READY = true → s.on g HIF.LINK_STAT_FLR_ACTIVE = false → ∀ i be v, Does (.configRequest p true i be v) s fun t => (t.portOf p).cpl = 0 ∧ t.resp.err = false) ∧
      (s.on g HIF.HIF_CTRL_CFG_READY = false ∨ s.on g HIF.LINK_STAT_FLR_ACTIVE = true → ∀ w i be v, Does (.configRequest p w i be v) s fun t => (t.portOf p).cpl = 2 ∧ (t.portOf p).cfg = q.cfg ∧ t.resp.err = true) ∧
      (s.on g HIF.HIF_CTRL_CFG_READY = true → s.on g HIF.LINK_STAT_FLR_ACTIVE = false → ∀ (be : BitVec 4) (v : Word),
        (∀ i : BitVec 10, Does (.configRequest p false i be v) s fun t => (t.portOf p).cpl = 0 ∧ t.resp.err = false ∧ (i = 0 → t.resp.value = (s.reg g 0x4C).toNat) ∧ (i = 2 → t.resp.value = (s.reg g 0x54).toNat) ∧
          (i = 0xB → t.resp.value = (s.reg g 0x50).toNat) ∧ (i = 0x55 → t.resp.value = (s.reg g 0x5C).toNat) ∧ (i = 0x56 → t.resp.value = (s.reg g 0x60).toNat) ∧ (i = 0x30 ∨ i = 0x3FF → t.resp.value = 0)) ∧
        (∀ i : BitVec 10, i = 0x30 ∨ i = 0x3FF → Does (.configRequest p true i be v) s fun t => (t.portOf p).cpl = 0 ∧ ∀ j, t.cfgGet p j = s.cfgGet p j) ∧
        (Does (.configRequest p true 1 0xF v) s fun t => t.on g HIF.LINK_STAT_BME = v.getLsbD 2 ∧ t.on g HIF.LINK_STAT_MSE = v.getLsbD 1 ∧ (t.portOf p).cpl = 0) ∧
        (v.getLsbD 15 = true → Does (.configRequest p true 0x1A 0xF v) s fun t => t.on g HIF.LINK_STAT_FLR_ACTIVE = true ∧ (t.portOf p).msix = [])) ∧
      (∀ (w : Bool) (off : BitVec 18) (en : List Bool) (d : List Byte) (slot : Nat), slot = off.toNat / 4096 →
        (s.memEn p = false ∨ 2 ^ (s.bar0Log p - 12) ≤ slot ∨ s.get g (HIF.BAR0_SLOT_KIND slot) = 0 → Does (.bar0Request p w off en d) s fun t => t.mem = s.mem ∧ t.get g HIF.UR_CNT = min (s.get g HIF.UR_CNT + 1) (2 ^ 32 - 1) ∧
          (w = false → (t.portOf p).cpl = 1)) ∧
        (s.memEn p = true → slot < 2 ^ (s.bar0Log p - 12) →
          (∀ a, a = stgBase + 4096 * s.get g (HIF.BAR0_SLOT_IDX slot) + off.toNat % 4096 → s.get g (HIF.BAR0_SLOT_KIND slot) = 2 → off.toNat % 4096 + en.length ≤ 4096 → 0 < en.length → s.badLines = [] →
            (w = false → Does (.bar0Request p w off en d) s fun t => (t.portOf p).cpl = 0 ∧ (t.portOf p).cplData = s.bytesAt a en.length ∧ t.mem = s.mem) ∧
            (w = true → en.all id = true → d.length = en.length → Does (.bar0Request p w off en d) s fun t => (∀ i, i < d.length → t.byte (a + i) = d[i]?.getD 0) ∧ (∀ x, x < a ∨ a + d.length ≤ x → t.byte x = s.byte x) ∧
              (t.reg g (if slot < 32 then 0xA8 else 0xAC)).getLsbD (slot % 32) = true)) ∧
          (s.get g (HIF.BAR0_SLOT_KIND slot) = 1 → ∀ (n : Nat) (s1 : State), n = en.length →
              s1 = s.regAccess (portMaster p) w n (regAddr (s.get g (HIF.BAR0_SLOT_IDX slot)) (off.toNat % 4096)) (BitVec.ofNat 64 (leNat (fitBytes n d))) →
            (n = 4 ∨ n = 8 → off.toNat % 4096 % n = 0 → en.all id = true → (w = true → s.on g (HIF.BAR0_SLOT_RO slot) = false) →
              exec (.bar0Request p w off en d) s = .next (if w = true then s1 else s1.complete p 0 (leBytes s1.resp.value n))) ∧
            ((n ≠ 4 ∧ n ≠ 8) ∨ off.toNat % 4096 % n ≠ 0 ∨ en.all id = false → Does (.bar0Request p w off en d) s fun t => t.mem = s.mem ∧ t.get g HIF.UR_CNT = min (s.get g HIF.UR_CNT + 1) (2 ^ 32 - 1))) ∧
          (s.get g (HIF.BAR0_SLOT_KIND slot) = 2 → 4096 < off.toNat % 4096 + en.length → Does (.bar0Request p w off en d) s fun t => t.mem = s.mem ∧ t.get g HIF.UR_CNT = min (s.get g HIF.UR_CNT + 1) (2 ^ 32 - 1)) ∧
          (s.get g (HIF.BAR0_SLOT_KIND slot) = 3 → w = true → exec (.bar0Request p w off en d) s = .next (s.ringDoorbell p (off.toNat % 4096) en.length (en.all id) (leNat (fitBytes en.length d)))) ∧
          (s.get g (HIF.BAR0_SLOT_KIND slot) = 3 → w = false → Does (.bar0Request p w off en d) s fun t => (t.portOf p).cplData = List.replicate en.length 0 ∧ t.dbq = s.dbq) ∧
          (s.get g (HIF.BAR0_SLOT_KIND slot) = 1 → w = true → s.on g (HIF.BAR0_SLOT_RO slot) = true → Does (.bar0Request p w off en d) s fun t => t.get g HIF.UR_CNT = min (s.get g HIF.UR_CNT + 1) (2 ^ 32 - 1) ∧ t.mem = s.mem))) ∧
      (∀ (off : BitVec 36) (d : List Byte) (u : State), u = s.settle g s.time →
        (u.bar2Ok p off.toNat d.length = true → (∀ a, (u.winTable p).winHit p true off.toNat d.length = some a → u.dramHeld a = true → exec (.inboundWrite p off d) s = .next u) ∧
          (∀ a, (u.winTable p).winHit p true off.toNat d.length = some a → u.dramHeld a = false → u.badLines = [] →
            (u.spanRefusal (some (portMaster p)) true a d.length = none → Does (.inboundWrite p off d) s fun t => (∀ i, i < d.length → t.byte (a + i) = d[i]?.getD 0) ∧ ∀ x, x < a ∨ a + d.length ≤ x → t.byte x = s.byte x) ∧
            (u.spanRefusal (some (portMaster p)) true a d.length ≠ none → Does (.inboundWrite p off d) s fun t => t.mem = s.mem ∧ t.get g HIF.CA_CNT = min (s.get g HIF.CA_CNT + 1) (2 ^ 32 - 1))) ∧
          ((u.winTable p).winHit p true off.toNat d.length = none → Does (.inboundWrite p off d) s fun t => t.mem = s.mem ∧ t.get g HIF.UR_CNT = min (s.get g HIF.UR_CNT + 1) (2 ^ 32 - 1) ∧ (t.reg g 0x8C).toNat = off.toNat % 2 ^ 32 ∧
            (t.reg g 0x90).toNat = off.toNat / 2 ^ 32 + 2 ^ 31)) ∧
        (u.bar2Ok p off.toNat d.length = false → Does (.inboundWrite p off d) s fun t => t.mem = s.mem ∧ t.get g HIF.UR_CNT = min (s.get g HIF.UR_CNT + 1) (2 ^ 32 - 1))) ∧
      (∀ (off : BitVec 36) (len : BitVec 13) (n : Nat) (u : State), n = max 1 (min 4096 len.toNat) → u = s.settle g s.time →
        (u.bar2Ok p off.toNat n = false → Does (.inboundRead p off len) s fun t => (t.portOf p).cpl = 1 ∧ t.mem = s.mem ∧ t.get g HIF.UR_CNT = min (s.get g HIF.UR_CNT + 1) (2 ^ 32 - 1)) ∧
        (u.bar2Ok p off.toNat n = true →
        (∀ a, (u.winTable p).winHit p false off.toNat n = some a → u.dramHeld a = true → exec (.inboundRead p off len) s = .next u) ∧
        (∀ a, (u.winTable p).winHit p false off.toNat n = some a → u.dramHeld a = false → u.badLines = [] →
          (u.spanRefusal (some (portMaster p)) false a n = none → exec (.inboundRead p off len) s = .next (u.complete p 0 (u.bytesAt a n))) ∧
          (u.spanRefusal (some (portMaster p)) false a n ≠ none → Does (.inboundRead p off len) s fun t => (t.portOf p).cpl = 4 ∧ t.mem = s.mem ∧ t.get g HIF.CA_CNT = min (s.get g HIF.CA_CNT + 1) (2 ^ 32 - 1))) ∧
        ((u.winTable p).winHit p false off.toNat n = none → Does (.inboundRead p off len) s fun t => (t.portOf p).cpl = 1 ∧ (t.reg g 0x90).toNat = off.toNat / 2 ^ 32 ∧ t.mem = s.mem ∧
          t.get g HIF.UR_CNT = min (s.get g HIF.UR_CNT + 1) (2 ^ 32 - 1)))) ∧
      (s.memEn p = true → (∃ j, j < 2 ^ (s.bar0Log p - 12) ∧ s.get g (HIF.BAR0_SLOT_KIND j) = 3) → s.fenced pDBA = false → s.enabled pDBA = true → ∀ (off : BitVec 12) (len : BitVec 4) (full : Bool) (w : Word) (d v k core : Nat) (b : Doorbell),
        d = off.toNat / 4 → v = w.toNat % 65536 → k = 1024 * p + d → b = s.dbOf k → core = bits b.cfg.toNat 6 4 →
        (len ≠ 4 ∨ off.toNat % 4 ≠ 0 ∨ full = false → Does (.doorbellWrite p off len full w) s fun t => t.dbs = s.dbs ∧ t.dbq = s.dbq ∧ t.get g HIF.UR_CNT = min (s.get g HIF.UR_CNT + 1) (2 ^ 32 - 1) ∧
          t.get pDBA DBA.INV_CNT = min (s.get pDBA DBA.INV_CNT + 1) (2 ^ 32 - 1) ∧ (t.reg pDBA 0x4C).toNat = v + d * 2 ^ 16 + p * 2 ^ 26 + 3 * 2 ^ 28 + 2 ^ 31) ∧
        (len = 4 → off.toNat % 4 = 0 → full = true →
          (b.cfg.getLsbD 0 = false → Does (.doorbellWrite p off len full w) s fun t => t.dbs = s.dbs ∧ t.dbq = s.dbq ∧ (t.reg pDBA 0x18).getLsbD 0 = true ∧ (t.reg pDBA 0x4C).toNat = v + d * 2 ^ 16 + p * 2 ^ 26 + 2 ^ 28 + 2 ^ 31) ∧
          (b.cfg.getLsbD 0 = true → bits b.cfg.toNat 31 16 < v → Does (.doorbellWrite p off len full w) s fun t => t.dbs = s.dbs ∧ tabGet t.dbq core [] = tabGet s.dbq core [] ++ [{ port := p, db := d, bad := some v }] ∧ (t.reg pDBA 0x18).getLsbD 0 = true ∧
            (t.reg pDBA 0x4C).toNat = v + d * 2 ^ 16 + p * 2 ^ 26 + 2 * 2 ^ 28 + 2 ^ 31) ∧
          (b.cfg.getLsbD 0 = true → v ≤ bits b.cfg.toNat 31 16 →
            (b.pend = none → Does (.doorbellWrite p off len full w) s fun t => t.dbOf k = { b with value := v, pend := some core } ∧ tabGet t.dbq core [] = tabGet s.dbq core [] ++ [{ port := p, db := d }] ∧
              t.get pDBA DBA.WRITE_CNT = min (s.get pDBA DBA.WRITE_CNT + 1) (2 ^ 32 - 1)) ∧
            (b.pend ≠ none → Does (.doorbellWrite p off len full w) s fun t => t.dbOf k = { b with value := v } ∧ t.dbq = s.dbq ∧ t.get pDBA DBA.COALESCE_CNT = min (s.get pDBA DBA.COALESCE_CNT + 1) (2 ^ 32 - 1))))) ∧
      (s.memEn p = true → ∀ (off : BitVec 13) (data : List Byte), off.toNat < 0x1000 → off.toNat % 4 = 0 → off.toNat / 4 % 4 ≠ 3 → data.length = 4 → Does (.msixTableAccess p true off 4 data) s fun t =>
        (∀ i, i < 4 → t.bar4Byte p (off.toNat + i) = data[i]?.getD 0) ∧ ∀ j, j ≠ off.toNat / 4 → ∀ d : Word, tabGet (t.portOf p).msix j d = tabGet q.msix j d) ∧
      (s.memEn p = true → ∀ (off : BitVec 13) (len : BitVec 4) (data : List Byte) (n : Nat), n = max 1 (min len.toNat (0x2000 - off.toNat)) → exec (.msixTableAccess p false off len data) s = .next (s.complete p 0 ((List.range n).map (fun i => s.bar4Byte p (off.toNat + i))))) ∧
      (Does (.malformedTlp p) s fun t => t.get g HIF.MALF_CNT = min (s.get g HIF.MALF_CNT + 1) (2 ^ 32 - 1) ∧ bit (t.cfgGet p cUESTAT) 18 = true ∧ t.mem = s.mem ∧ (s.cfgGet p cUESTAT ≠ 0 → ∀ k, k < 4 → t.cfgGet p (cHDRLOG + k) = s.cfgGet p (cHDRLOG + k))) ∧
      (Does (.poisonedTlp p none) s fun t => t.get g HIF.POISON_CNT = min (s.get g HIF.POISON_CNT + 1) (2 ^ 32 - 1) ∧ bit (t.cfgGet p cUESTAT) 12 = true ∧ t.mem = s.mem ∧ t.dma = s.dma) ∧
      (∀ (c : Fin 32) (d : DmaDesc) (r : RdReq) (rs : List RdReq), (s.dmaOf c).descs = [d] → d.reads = r :: rs → d.err = none → Does (.poisonedTlp p (some (c, 0))) s fun t => (t.dmaOf c).descs = [{ d with reads := rs, err := some (1, 5, r.host) }] ∧ t.mem = s.mem ∧
        t.get g HIF.POISON_CNT = min (s.get g HIF.POISON_CNT + 1) (2 ^ 32 - 1)) ∧
      (∀ (c : Fin 32) (i : BitVec 8), (s.dmaOf c).descs = [] → Does (.poisonedTlp p (some (c, i))) s fun t => (t.dmaOf c).descs = [] ∧ t.mem = s.mem ∧ t.get g HIF.POISON_CNT = min (s.get g HIF.POISON_CNT + 1) (2 ^ 32 - 1)) ∧
      (∀ posted : Bool, Does (.unsupportedRequest p posted) s fun t => t.get g HIF.UR_CNT = min (s.get g HIF.UR_CNT + 1) (2 ^ 32 - 1) ∧ bit (t.cfgGet p cUESTAT) 20 = true ∧ t.mem = s.mem ∧ (posted = false → (t.portOf p).cpl = 1)) ∧
      (Does (.unexpectedCompletion p) s fun t => t.get g HIF.UNEXP_CPL_CNT = min (s.get g HIF.UNEXP_CPL_CNT + 1) (2 ^ 32 - 1) ∧ bit (t.cfgGet p cUESTAT) 16 = true ∧ t.mem = s.mem) ∧
      (∀ ws : List Word,
        (1024 < ws.length → Does (.doeObject p ws) s fun t => (t.portOf p).doeErr = true ∧ t.mem = s.mem) ∧
        (ws.length ≤ 1024 → s.on g HIF.DOE_STAT_RX_READY = true → exec (.doeObject p ws) s = .next s) ∧
        (2 ≤ ws.length → ws.length ≤ 1024 → s.on g HIF.DOE_STAT_RX_READY = false → (ws.getD 0 0).toNat % 2 ^ 24 = 1 → exec (.doeObject p ws) s = .next (s.setPort p { q with doeOut := doeDiscovery ((ws.getD 2 0).toNat % 256) })) ∧
        (ws.length ≤ 1024 → (ws.getD 0 0).toNat % 2 ^ 24 ≠ 1 ∨ ws.length < 2 → s.on g HIF.DOE_STAT_RX_READY = false → s.badLines = [] → Does (.doeObject p ws) s fun t => t.get g HIF.DOE_STAT_RX_LEN = ws.length ∧ t.on g HIF.DOE_STAT_RX_READY = true ∧ (t.reg g 0x18).getLsbD 7 = true ∧
            ∀ i, i < ws.length → t.load (stgBase + 4096 * s.get g HIF.DOE_BUF_RX_IDX + 4 * i) 4 = (ws.getD i 0).toNat)) ∧
      (Does (.doeAbort p) s fun t => (t.portOf p).doeOut = [] ∧ t.on g HIF.DOE_STAT_RX_READY = false ∧ t.on g HIF.DOE_STAT_TX_BUSY = false ∧ t.on g HIF.DOE_STAT_ABORTED = true ∧ (t.reg g 0x18).getLsbD 8 = true)) ∧
    (∀ (c : Fin 32) (d : DmaDesc) (r : RdReq) (rs : List RdReq), s.chPort c = p → (s.dmaOf c).descs = [d] → d.reads = r :: rs → d.err = none → Does (.cplTimeout c 0) s fun t => (t.dmaOf c).descs = [{ d with reads := rs, err := some (1, 6, r.host) }] ∧
      t.get g HIF.CPL_TMO_CNT = min (s.get g HIF.CPL_TMO_CNT + 1) (2 ^ 32 - 1) ∧ bit (t.cfgGet p cUESTAT) 14 = true ∧ t.mem = s.mem) ∧
    (∀ (c : Fin 32) (i : BitVec 8), ((s.dmaOf c).descs.map (fun d => d.reads.length)).sum ≤ i.toNat → exec (.cplTimeout c i) s = .next s) ∧
    (s.present g = true → s.powered g = true → s.isResetting g = false → ∀ m : Master,
      (∀ b : Bool, exec (.cfgReady m p b) s = .next (s.put g HIF.HIF_CTRL_CFG_READY (if b = true then 1 else 0))) ∧
      (∀ (n : Fin 64) (v : Word),
        ((v.toNat % 4 = 1 ∧ barredPage (bits v.toNat 18 8) = true) ∨ (v.toNat % 4 = 3 ∧ ∃ j, j < 64 ∧ j ≠ n.val ∧ s.get g (HIF.BAR0_SLOT_KIND j) = 3) → Does (.bar0Slot m p n v) s fun t => t.reg g (0x200 + 4 * n.val) = 0 ∧ (t.reg g 0x1C).getLsbD 4 = true) ∧
        ((v.toNat % 4 = 1 → barredPage (bits v.toNat 18 8) = false) → (v.toNat % 4 = 3 → ∀ j, j < 64 → j ≠ n.val → s.get g (HIF.BAR0_SLOT_KIND j) ≠ 3) → exec (.bar0Slot m p n v) s = .next (s.setReg g (0x200 + 4 * n.val) (v &&& 0x7FF13)))) ∧
      exec (.rxDone m p) s = .next ((s.put g HIF.DOE_STAT_RX_READY 0).put g HIF.DOE_STAT_ABORTED 0) ∧
      (∀ (len : BitVec 11) (n : Nat), n = max 1 (min 1024 len.toNat) → s.badLines = [] → Does (.doeTx m p len) s fun t => t.on g HIF.DOE_STAT_TX_BUSY = true ∧ (t.portOf p).doeOut.length = n ∧
        ∀ i, i < n → ((t.portOf p).doeOut.getD i 0).toNat = s.load (stgBase + 4096 * s.get g HIF.DOE_BUF_TX_IDX + 4 * i) 4)) ∧
    (s.present pDBA = true → s.powered pDBA = true → s.isResetting pDBA = false → ∀ m : Master,
      (∀ v : BitVec 16, exec (.dbVal m v) s = .next (s.setDb s.dbSel { s.dbOf s.dbSel with value := v.toNat })) ∧
      (s.fenced pDBA = true → ∀ c : Fin 8, exec (.doorbellClaim m c) s = .next (s.answer 0)) ∧
      (s.fenced pDBA = false → ∀ c : Fin 8, (tabGet s.dbq c [] = [] → exec (.doorbellClaim m c) s = .next (s.answer 0)) ∧
        (∀ e r, tabGet s.dbq c [] = e :: r →
          (∀ v, e.bad = some v → Does (.doorbellClaim m c) s fun t => t.resp.value = v + e.db * 2 ^ 16 + e.port * 2 ^ 26 + 2 ^ 27 + 2 ^ 31 ∧ tabGet t.dbq c [] = r ∧ t.dbs = s.dbs) ∧
          (e.bad = none → Does (.doorbellClaim m c) s fun t => t.resp.value = (s.dbOf (1024 * e.port + e.db)).value + e.db * 2 ^ 16 + e.port * 2 ^ 26 + 2 ^ 31 ∧ tabGet t.dbq c [] = r ∧
            t.dbOf (1024 * e.port + e.db) = { s.dbOf (1024 * e.port + e.db) with pend := none } ∧ t.get pDBA (DBA.PEND c) = min 4095 r.length))))

/-- A report is graded once the PCLK cycle in which it came has ended, and until then waits; a detection of a source enters the queue with its page, bit and grade and sets its FLT_STAT bit, one that no bit names does nothing. An event of an acknowledged class at FL0 opens its first-error record, sets UNACK, enters the history under SEQ and fences nothing; one of an unacknowledged class is escalated by one level and counts in the record; FL1 fences the unit with LEVEL, CLASS, SOURCE and COUNT, a DMA channel's ends what is in flight; FL3, and FL1 of a source without a fence, degrade a NORMAL device with DEG_CLASSES, DEG_SEQ and the DEVICE inhibit; FL4 makes it SAFE, with the DEVICE inhibit but for a supply loss, and stops ALIVE. (When a report is graded within R420's order is the model's reading: log entry 140.) ACK clears UNACK and VALID of classes 1–14 and no fence; UNFENCE's RESULT follows the checks in their order, BUSY is refused, an OK request unfences its target with ENABLE left at 0; CLR_DEGRADED returns to NORMAL or is refused; the watchdog starts, and its period is written, by the boot-and-safety core of an unlocked page alone; its kick with the key before the window's close begins a new window, a later one does nothing, any other sets BAD_KICK and FLT_STAT bit 2; a closed window sets EXPIRED and bit 3 and stops ALIVE; ALIVE starts by the boot-and-safety core alone, once, rises and falls at its ticks, and is not driven once stopped. -/
def Obligations.FaultCollector : Prop :=
  ∀ s : State, Sound s →
    (∀ (r : Report) (rest : List Report) (esc : Bool) (lvl seq : Nat), s.fltq = r :: rest → s.gradable r = true → 1 ≤ r.cls → r.cls ≤ 14 → esc = bit (s.get pFLT FLT.UNACK) r.cls → lvl = (if esc = true then min 4 (r.base + 1) else r.base) → seq = s.get pFLT FLT.EVENT_CNT % 65536 →
      (lvl = 0 → Does (.faultEvent none) s fun t => t.fltq = rest ∧ (∀ c, c < 32 → bit (t.get pFLT FLT.UNACK) c = (bit (s.get pFLT FLT.UNACK) c || decide (c = r.cls))) ∧ t.get pFLT FLT.EVENT_CNT = (s.get pFLT FLT.EVENT_CNT + 1) % 2 ^ 32 ∧
        t.get pFLT FLT.HIST_WR_NEXT_SEQ = (seq + 1) % 65536 ∧ (∀ i, i < 8 → (t.reg pFLT (0x400 + 0x20 * (seq % 32) + 4 * i)).toNat = ((r.words 0 false seq)[i]?.getD 0) % 2 ^ 32 ∧
          (t.reg pFLT (firstOff r.cls + 4 * i)).toNat = ((r.words 0 false seq)[i]?.getD 0) % 2 ^ 32) ∧ (∀ p, t.fenced p = s.fenced p) ∧ t.subFence = s.subFence ∧ t.get pFLT FLT.DEV_STAT_LEVEL = s.get pFLT FLT.DEV_STAT_LEVEL ∧ t.mem = s.mem ∧ (t.reg pFLT 0x18).getLsbD 0 = true) ∧
      (lvl = 1 → r.bit < 32 → s.present r.page = true → s.fenced r.page = false → (∃ k, pageKind r.page = some k ∧ k ∈ ([.dmc, .bfm, .spn, .xts, .sec, .dba, .act, .srv] : List PageKind)) → Does (.faultEvent none) s fun t => t.fenced r.page = true ∧
        t.enabled r.page = false ∧ t.get r.page HDR.FENCE_LEVEL = 1 ∧ t.get r.page HDR.FENCE_CLASS = r.cls ∧ t.get r.page HDR.FENCE_SOURCE = r.bit ∧ t.get r.page HDR.FENCE_COUNT = min (s.get r.page HDR.FENCE_COUNT + 1) 65535 ∧
        (∀ p, p ≠ r.page → t.fenced p = s.fenced p) ∧ (t.reg pFLT 0x18).getLsbD 1 = true ∧ (esc = true → t.get pFLT ⟨firstOff r.cls + 24, 16, 16⟩ = min (s.get pFLT ⟨firstOff r.cls + 24, 16, 16⟩ + 1) 65535)) ∧
      (∀ c, lvl = 1 → r.page = pDMA → r.sub = some c → c < 32 → s.subFenced pDMA c = false → Does (.faultEvent none) s fun t => t.subFenced pDMA c = true ∧ t.chState c = 4 ∧ (t.dmaOf c).descs = [] ∧ ∀ p, t.fenced p = s.fenced p) ∧
      (s.get pFLT FLT.DEV_STAT_LEVEL = 0 → r.base = 3 ∧ esc = false ∨ (lvl = 1 ∧ fenceUnitOf r = .none) → Does (.faultEvent none) s fun t => t.get pFLT FLT.DEV_STAT_LEVEL = 3 ∧ t.get pFLT FLT.DEV_STAT_DEG_CLASSES = 2 ^ r.cls ∧
        t.get pFLT FLT.DEG_SEQ = seq ∧ t.deviceInh = true ∧ ∀ p, t.fenced p = s.fenced p) ∧
      (r.base = 4 → s.get pFLT FLT.DEV_STAT_LEVEL ≠ 4 → Does (.faultEvent none) s fun t => t.get pFLT FLT.DEV_STAT_LEVEL = 4 ∧ t.get pFLT FLT.SAFE_SEQ = seq ∧ t.on pFLT FLT.ALIVE_STAT_STOPPED = true ∧ t.on pFLT FLT.ALIVE_STAT_RUNNING =
        (s.on pFLT FLT.ALIVE_STAT_STOPPED && s.on pFLT FLT.ALIVE_STAT_RUNNING) ∧ (r.supply = false → t.deviceInh = true))) ∧
    (∀ (p : Fin 352) (b : Fin 32) (sub : Option (BitVec 8)), s.fltq = [] → faultGrade p b = none → exec (.faultEvent (some (p, b, sub))) s = .next s) ∧
    (∀ (r : Report) (rest : List Report), s.fltq = r :: rest → s.gradable r = false → exec (.faultEvent none) s = .next s) ∧
    (∀ r : Report, s.gradable r = decide (r.time / pclkSub < s.time / pclkSub)) ∧
    (∀ (p : Fin 352) (b : Fin 32) (sub : Option (BitVec 8)) (cls base : Nat), s.fltq = [] → s.present p = true → faultGrade p b = some (cls, base) → Does (.faultEvent (some (p, b, sub))) s fun t =>
      (t.reg p 0x1C).getLsbD b = true ∧ ∃ r : Report, t.fltq = [r] ∧ r.page = p ∧ r.bit = b ∧ r.cls = cls ∧ r.base = base ∧ r.time = s.time) ∧
    (s.fltq = [] → exec (.faultEvent none) s = .next s) ∧
    (s.present pFLT = true → s.powered pFLT = true → s.isResetting pFLT = false → ∀ m : Master,
      (∀ v : Word, Does (.ack m v) s fun t => (∀ c, c < 32 → bit (t.get pFLT FLT.UNACK) c = (bit (s.get pFLT FLT.UNACK) c && !(decide (1 ≤ c) && decide (c ≤ 14) && v.getLsbD c))) ∧
        (∀ c, 1 ≤ c → c ≤ 14 → v.getLsbD c = true → t.get pFLT ⟨firstOff c, 31, 1⟩ = 0 ∧ t.get pFLT ⟨firstOff c, 0, 31⟩ = s.get pFLT ⟨firstOff c, 0, 31⟩) ∧ t.get pFLT FLT.DEV_STAT_LEVEL = s.get pFLT FLT.DEV_STAT_LEVEL ∧
        (∀ p, t.fenced p = s.fenced p) ∧ t.subFence = s.subFence) ∧
      (∀ (page : BitVec 9) (sub : Option (BitVec 8)) (p : Nat), p = page.toNat →
        (s.unfencing.isSome = true → exec (.unfence m page sub) s = .next (s.put pFLT FLT.UNFENCE_STAT_BUSY_REFUSED 1)) ∧
        (s.unfencing = none → ∃ res, (Does (.unfence m page sub) s fun t => t.unfencing = some { page := p, sub := sub.map (·.toNat), result := res } ∧ t.on pFLT FLT.UNFENCE_STAT_DONE = false ∧ t.on pFLT FLT.UNFENCE_STAT_BUSY_REFUSED = false ∧ ∀ x, t.fenced x = s.fenced x) ∧
          (s.present p = false ∨ (sub = none ∧ noFence p = true) ∨ (∃ i, sub = some i ∧ subUnits p ≤ i.toNat) → res = 5) ∧
          (s.present p = true → (sub = none → noFence p = false) → (∀ i, sub = some i → i.toNat < subUnits p) →
            (s.get pFLT FLT.DEV_STAT_LEVEL = 4 → res = 4) ∧
            (s.get pFLT FLT.DEV_STAT_LEVEL ≠ 4 → pageKind p ≠ some .act →
              (sub = none → s.fenced p = false → res = 1) ∧
              (sub = none → s.fenced p = true → res = if s.groupFenced p none = true then 3 else if bit (s.get pFLT FLT.UNACK) (s.get p HDR.FENCE_CLASS) = true then 2 else 0) ∧
              (∀ i, sub = some i → s.subFenced p i.toNat = false → res = 1) ∧ (∀ i, sub = some i → s.subFenced p i.toNat = true → s.groupFenced p (some i.toNat) = true → res = 3))))) ∧
      (s.get pFLT FLT.DEV_STAT_LEVEL = 3 → (∀ c, c < 16 → (bit (s.get pFLT FLT.DEV_STAT_DEG_CLASSES) c && bit (s.get pFLT FLT.UNACK) c) = false) → Does (.clrDegraded m) s fun t => t.get pFLT FLT.DEV_STAT_LEVEL = 0 ∧ t.get pFLT FLT.DEV_STAT_DEG_CLASSES = 0 ∧
        t.on pFLT FLT.DEV_STAT_CLR_REFUSED = false ∧ t.deviceInh = false) ∧
      (s.get pFLT FLT.DEV_STAT_LEVEL ≠ 3 ∨ (∃ c, c < 16 ∧ (bit (s.get pFLT FLT.DEV_STAT_DEG_CLASSES) c && bit (s.get pFLT FLT.UNACK) c) = true) → exec (.clrDegraded m) s = .next (s.put pFLT FLT.DEV_STAT_CLR_REFUSED 1)) ∧
      (∀ (period : BitVec 16) (e : Bool),
        (m ≠ .bsc ∨ s.locked pFLT = true → exec (.wdogEnable m period e) s = .next s) ∧
        (m = .bsc → s.locked pFLT = false → s.on pFLT FLT.WDOG_CFG_EN = false → e = true → Does (.wdogEnable m period e) s fun t => t.wdog = some (s.time, max 1 period.toNat * msSub) ∧ t.on pFLT FLT.WDOG_CFG_EN = true ∧
          t.get pFLT FLT.WDOG_CFG_PERIOD = period.toNat ∧ t.on pFLT FLT.WDOG_STAT_RUNNING = true) ∧
        (m = .bsc → s.locked pFLT = false → s.on pFLT FLT.WDOG_CFG_EN = true → exec (.wdogEnable m period e) s = .next (s.put pFLT FLT.WDOG_CFG_PERIOD period.toNat))) ∧
      (∀ period : BitVec 16, m = .bsc → s.locked pFLT = false → exec (.wdogEnable m period false) s = .next (s.put pFLT FLT.WDOG_CFG_PERIOD period.toNat)) ∧
      (m = .bsc → s.wdog = none → exec (.wdogKick m 0xA5C3) s = .next s) ∧
      (∀ v : Word, m ≠ .bsc ∨ v ≠ 0xA5C3 → Does (.wdogKick m v) s fun t => t.wdog = s.wdog ∧ t.on pFLT FLT.WDOG_STAT_BAD_KICK = true ∧ (t.reg pFLT 0x1C).getLsbD 2 = true) ∧
      (m = .bsc → ∀ k n, s.wdog = some (k, n) → (s.time < k + n → exec (.wdogKick m 0xA5C3) s = .next { s with wdog := some (s.time, max 1 (s.get pFLT FLT.WDOG_CFG_PERIOD) * msSub) }) ∧ (k + n ≤ s.time → exec (.wdogKick m 0xA5C3) s = .next s)) ∧
      (m = .bsc → s.on pFLT FLT.ALIVE_STAT_STOPPED = false → s.aliveStart = none → Does (.aliveStart m) s fun t => t.aliveStart = some s.time ∧ t.on pFLT FLT.ALIVE_STAT_RUNNING = true ∧ t.on pFLT FLT.ALIVE_STAT_LEVEL = s.on pFLT FLT.ALIVE_STAT_LEVEL) ∧
      (m ≠ .bsc ∨ s.on pFLT FLT.ALIVE_STAT_STOPPED = true ∨ s.aliveStart ≠ none → exec (.aliveStart m) s = .next s)) ∧
    (s.unfencing = none → exec .unfenceDone s = .next s) ∧
    (∀ r : UnfenceReq, s.unfencing = some r →
      (r.result ≠ 0 → r.result < 16 → Does .unfenceDone s fun t => t.unfencing = none ∧ t.get pFLT FLT.UNFENCE_STAT_RESULT = r.result ∧ t.on pFLT FLT.UNFENCE_STAT_DONE = true ∧ (t.reg pFLT 0x18).getLsbD 5 = true ∧ (∀ p, t.fenced p = s.fenced p) ∧ t.subFence = s.subFence) ∧
      (r.result = 0 → r.sub = none → (∃ k, pageKind r.page = some k ∧ k ∈ ([.dmc, .bfm, .spn, .xts, .sec, .dba, .srv] : List PageKind)) → Does .unfenceDone s fun t => t.fenced r.page = false ∧ t.enabled r.page = s.enabled r.page ∧
        t.get r.page HDR.FENCE_CLASS = s.get r.page HDR.FENCE_CLASS ∧ t.get r.page HDR.FENCE_COUNT = s.get r.page HDR.FENCE_COUNT ∧ (∀ p, p ≠ r.page → t.fenced p = s.fenced p) ∧ t.get pFLT FLT.UNFENCE_STAT_RESULT = 0 ∧ t.on pFLT FLT.UNFENCE_STAT_DONE = true) ∧
      (∀ c, r.result = 0 → r.page = pDMA → r.sub = some c → c < 32 → Does .unfenceDone s fun t => t.subFenced pDMA c = false ∧ t.chState c = 0 ∧ t.dmaOf c = {} ∧ t.on pDMA (chF c 0 0 1) = false)) ∧
    (∀ k n, s.wdog = some (k, n) →
      (s.time < k + n → exec .wdogExpired s = .next s) ∧
      (k + n ≤ s.time → Does .wdogExpired s fun t => t.wdog = none ∧ t.on pFLT FLT.WDOG_STAT_EXPIRED = true ∧ t.on pFLT FLT.WDOG_STAT_RUNNING = false ∧ (t.reg pFLT 0x1C).getLsbD 3 = true ∧ t.on pFLT FLT.ALIVE_STAT_STOPPED = true ∧
        (s.on pFLT FLT.ALIVE_STAT_STOPPED = false → t.get pFLT FLT.ALIVE_STAT_CAUSE = 2 ∧ t.get pFLT FLT.ALIVE_STOP = (k + n) % 2 ^ 32))) ∧
    (s.wdog = none → exec .wdogExpired s = .next s) ∧
    (∀ k n, s.aliveStart = some k → s.on pFLT FLT.ALIVE_STAT_RUNNING = true → s.on pFLT FLT.ALIVE_STAT_STOPPED = false → k ≤ n * 2400000 * ftSub →
      (s.time = n * 2400000 * ftSub → Does .aliveEdge s fun t => t.on pFLT FLT.ALIVE_STAT_LEVEL = true) ∧ (s.time = (n * 2400000 + 1200000) * ftSub → Does .aliveEdge s fun t => t.on pFLT FLT.ALIVE_STAT_LEVEL = false)) ∧
    (s.on pFLT FLT.ALIVE_STAT_STOPPED = true ∨ s.on pFLT FLT.ALIVE_STAT_RUNNING = false → exec .aliveEdge s = .next s)

/-- A DOM_REQ bit set in an off domain puts it in WAIT, one cleared in a waiting domain takes it out of the queue, in a domain from RAMP to ON it takes the domain off at once, one of a running core or busy deep decoder is refused with FLT_STAT bit 2; the request that waits longest enters RAMP when a place is free; RAMP, FILL and TEST follow, AFM's fill zeroes its memory, the end of TEST powers the domain's pages, a failed checker or a late switch makes it FAILED; a domain that is off honours a request that waited. The hottest of the eight sensors and its number are TEMP, each threshold sets its FLT_STAT bit once until 5 °C below it. A supply-loss decision is recorded with its cause, rail and td, sets LOSS and MOT's FLT_STAT bit 5; a further cause is only added, a cause not armed or enabled decides nothing. Stage FUSE sets SYS.CAP or stops with ERROR 2; stage FILL zeroes the SRAM and ends in ROM with the NVS domain requested, or stops with ERROR 1, and outside its stage each does nothing; CORE_HOLD is the boot-and-safety core's alone and keeps an unpowered core held. -/
def Obligations.DomainsTemperatureSupplyAndStages : Prop :=
  ∀ s : State, Sound s →
    (s.present pPWR = true → s.powered pPWR = true → s.isResetting pPWR = false → ∀ (m : Master) (v : BitVec 17) (i d : Nat), i < 17 → d = domOfBit i →
      (v.getLsbD i = true → s.hasDom d = true → s.domOf d = {} → Does (.domReq m v) s fun t => t.domOf d = { st := 1, req := true, since := s.time } ∧ d ∈ t.domWait) ∧
      (v.getLsbD i = false → (s.domOf d).req = true → s.clearRefused d = true → Does (.domReq m v) s fun t => t.domOf d = s.domOf d ∧ t.on pPWR PWR.PWR_STAT_REFUSED = true ∧ (t.reg pPWR 0x1C).getLsbD 2 = true) ∧
      (i < 8 → s.clearRefused d = (!bit (s.get pSYS SYS.CORE_HOLD_HOLD) i && !s.subFenced pSYS i)) ∧
      (v.getLsbD i = false → (s.domOf d).req = true → (s.domOf d).st = 1 → s.clearRefused d = false → Does (.domReq m v) s fun t => (t.domOf d).st = 0 ∧ (t.domOf d).req = false ∧ d ∉ t.domWait) ∧
      (v.getLsbD i = false → (s.domOf d).req = true → 2 ≤ (s.domOf d).st → (s.domOf d).st ≤ 5 → s.clearRefused d = false → Does (.domReq m v) s fun t => (t.domOf d).st = 0 ∧ (t.domOf d).req = false ∧ (t.domOf d).offAt = s.time + 2 * usSub ∧ ((s.domOf d).st = 5 → i < 8 → bit (t.get pSYS SYS.CORE_HOLD_HOLD) i = true)) ∧
      ((∀ j, j < 17 → v.getLsbD j = false → (s.domOf (domOfBit j)).req = true → s.clearRefused (domOfBit j) = false) → Does (.domReq m v) s fun t => t.on pPWR PWR.PWR_STAT_REFUSED = false ∧ t.reg pPWR 0x1C = s.reg pPWR 0x1C)) ∧
    (s.domWait = [] → exec .domainRampStart s = .next s) ∧
    (∀ d r, s.domWait = d :: r →
      ((d = 136 → s.ramping = []) → (d ≠ 136 → 136 ∉ s.ramping ∧ s.ramping.length < s.rampMax) → Does .domainRampStart s fun t => (t.domOf d).st = 2 ∧ (t.domOf d).ramp0 = s.time ∧ t.domWait = r ∧ ∀ d', d' ≠ d → t.domOf d' = s.domOf d') ∧
      (d = 136 ∧ s.ramping ≠ [] ∨ (d ≠ 136 ∧ (136 ∈ s.ramping ∨ s.rampMax ≤ s.ramping.length)) → exec .domainRampStart s = .next s)) ∧
    (∀ (d : Fin 141) (bad : Bool) (w : Dom), w = s.domOf d →
      (w.st < 2 ∨ 4 < w.st → ∀ ph, exec (.domainUp d ph bad) s = .next s) ∧
      (w.st ≠ 2 → exec (.domainUp d 0 bad) s = .next s) ∧ (w.st = 4 → exec (.domainUp d 1 bad) s = .next s) ∧
      (w.st = 2 → exec (.domainUp d 0 bad) s = .next (s.setDom d { w with st := 3, since := s.time })) ∧
      (w.st = 2 ∨ w.st = 3 → Does (.domainUp d 1 bad) s fun t => t.domOf d = { w with st := 4, since := s.time } ∧ (d.val = 136 → ∀ a, afmBase ≤ a → a < scrBase → t.byte a = 0) ∧ (d.val ≠ 136 → t.mem = s.mem)) ∧
      (2 ≤ w.st → w.st ≤ 4 → (Does (.domainUp d 2 false) s fun t => (t.domOf d).st = 5 ∧ t.domOn d = true ∧ (∀ p ∈ domPages d, t.powered p = true) ∧ (t.reg pPWR 0x18).getLsbD 0 = true) ∧
        (Does (.domainUp d 2 true) s fun t => (t.domOf d).st = 6 ∧ t.domOn d = false ∧ (t.reg pGLN 0x1C).getLsbD 2 = true ∧ (t.reg pPWR 0x18).getLsbD 1 = true)) ∧
      (w.st = 2 → w.ramp0 + 2 * rampUs d * usSub ≤ s.time → Does (.domainFailed d) s fun t => (t.domOf d).st = 6 ∧ (t.reg pPWR 0x18).getLsbD 1 = true ∧ (t.reg pPWR 0x1C).getLsbD 0 = true ∧
        (118 ≤ d.val → d.val < 126 → bit (t.get pSYS SYS.CORE_HOLD_HOLD) (d.val - 118) = true)) ∧
      (w.st ≠ 2 ∨ s.time < w.ramp0 + 2 * rampUs d * usSub → exec (.domainFailed d) s = .next s) ∧
      (w.offAt = 0 → exec (.domainOff d) s = .next s) ∧
      (w.offAt ≠ 0 → w.req = false → exec (.domainOff d) s = .next (s.setDom d { w with offAt := 0 })) ∧
      (w.offAt ≠ 0 → w.req = true → w.st = 0 → s.hasDom d = true → Does (.domainOff d) s fun t => (t.domOf d).st = 1 ∧ (t.domOf d).offAt = 0 ∧ d.val ∈ t.domWait) ∧
      (w.offAt ≠ 0 → w.req = true → s.hasDom d = false → exec (.domainOff d) s = .next (s.setDom d { w with offAt := 0 }))) ∧
    exec (.tempSample []) s = .next s ∧
    (∀ (ts : List (BitVec 16)) (k : Nat) (x : BitVec 16), ts.length ≤ 8 → ts[k]? = some x → (∀ y ∈ ts, y.toInt ≤ x.toInt) → (∀ j y, j < k → ts[j]? = some y → y.toInt < x.toInt) → Does (.tempSample ts) s fun t =>
      t.get pPWR ⟨0x80, 0, 16⟩ = x.toNat ∧ t.get pPWR PWR.TEMP_SENSOR = k ∧ (s.thmSeen = false → t.get pPWR ⟨0x84, 0, 16⟩ = x.toNat) ∧
      (∀ n f thr, (n, f, thr) ∈ [(0, 3, s.get pPWR PWR.THM_CFG_WARN), (1, 4, s.get pPWR PWR.THM_CFG_HIGH), (2, 5, s.get pPWR PWR.THM_CFG_CRIT)] →
        (8 * (thr : Int) < x.toInt → bit t.thmTold n = true ∧ (bit s.thmTold n = false → (t.reg pPWR 0x1C).getLsbD f = true ∧ (t.reg pPWR 0x18).getLsbD 2 = true)) ∧
        (x.toInt ≤ 8 * (thr : Int) - 40 → bit t.thmTold n = false) ∧ (x.toInt ≤ 8 * (thr : Int) → (t.reg pPWR 0x1C).getLsbD f = (s.reg pPWR 0x1C).getLsbD f))) ∧
    (∀ (cause : Fin 5) (mv : BitVec 16) (rail : Fin 6) (hit : Bool), hit = decide ((cause = 0 ∧ bit s.supArmed 0 = true ∧ mv.toNat < s.get pMOT MOT.SUP_CFG_UV12) ∨ (cause = 1 ∧ bit s.supArmed 1 = true ∧ mv.toNat < s.get pMOT MOT.SUP_CFG_UV5) ∨
        (cause = 2 ∧ bit s.supArmed 2 = true ∧ s.on pMOT MOT.SUP_CTRL_SGOOD_EN = true) ∨ cause = 3 ∨ (cause = 4 ∧ bit s.supArmed 3 = true ∧ s.on pMOT MOT.SUP_CTRL_RAIL_EN = true)) →
      (hit = true → s.supply = none → Does (.supplyLossDecision cause mv rail) s fun t => t.supply = some s.time ∧ t.on pMOT MOT.SUP_STAT_LOSS = true ∧ (t.reg pMOT 0x218).toNat = cause.val + 1 + 256 * 2 ^ cause.val + (if cause = 4 then 65536 * rail.val else 0) ∧
        t.get pMOT MOT.LOSS_TIME = s.time % 2 ^ 32 ∧ (t.reg pMOT 0x18).getLsbD 3 = true ∧ (t.reg pMOT 0x1C).getLsbD 5 = true ∧ (s.retracting = false → t.mot.emergReq = true)) ∧
      (∀ td, hit = true → s.supply = some td → Does (.supplyLossDecision cause mv rail) s fun t => t.supply = some td ∧ bit (t.get pMOT MOT.LOSS_LOG_CAUSES) cause = true ∧ t.get pMOT MOT.LOSS_LOG_CAUSE = s.get pMOT MOT.LOSS_LOG_CAUSE ∧
        t.get pMOT MOT.LOSS_TIME = s.get pMOT MOT.LOSS_TIME ∧ t.reg pMOT 0x1C = s.reg pMOT 0x1C) ∧
      (hit = false → Does (.supplyLossDecision cause mv rail) s fun t => t.supply = s.supply ∧ t.reg pMOT 0x218 = s.reg pMOT 0x218 ∧ t.reg pMOT 0x1C = s.reg pMOT 0x1C ∧ t.on pMOT MOT.SUP_STAT_LOSS = s.on pMOT MOT.SUP_STAT_LOSS)) ∧
    (∀ cause : Fin 4, Does (.supplyCauseArmed cause) s fun t => bit t.supArmed cause = true ∧ (∀ j, j ≠ cause.val → bit t.supArmed j = bit s.supArmed j) ∧ t.supply = s.supply ∧
      (cause = 0 → t.on pMOT MOT.SUP_STAT_VIN12_OK = true) ∧ (cause = 1 → t.on pMOT MOT.SUP_STAT_V5_OK = true) ∧ (cause = 2 → t.on pMOT MOT.SUP_STAT_SGOOD = true) ∧ (cause = 3 → t.get pMOT MOT.SUP_STAT_RAILS_OK = 63)) ∧
    (s.get pSYS SYS.BOOT_STAT_STAGE = 2 → s.get pSYS SYS.BOOT_STAT_ERROR = 0 → s.rootRuns = true →
      (Does (.fuseRead true) s fun t => t.get pSYS SYS.BOOT_STAT_STAGE = 2 ∧ t.get pSYS SYS.BOOT_STAT_ERROR = 2 ∧ t.reg pSYS 4 = 0) ∧
      (Does (.fuseRead false) s fun t => t.get pSYS SYS.BOOT_STAT_STAGE = 3 ∧ t.get pSYS SYS.BOOT_STAT_ERROR = 0 ∧ t.reg pSYS 4 = BitVec.ofNat 32 (s.fuse 2) ∧ t.sec.fuses = s.sec.fuses)) ∧
    (∀ ue : Bool, s.get pSYS SYS.BOOT_STAT_STAGE ≠ 2 ∨ s.get pSYS SYS.BOOT_STAT_ERROR ≠ 0 ∨ s.rootRuns = false → exec (.fuseRead ue) s = .next s) ∧
    (∀ (rom : Bool) (fails : List (Fin 352 × BitVec 8)),
      (s.get pSYS SYS.BOOT_STAT_STAGE ≠ 3 → exec (.initFillDone rom fails) s = .next s) ∧
      (s.get pSYS SYS.BOOT_STAT_STAGE = 3 → Does (.initFillDone rom fails) s fun t => (∀ a, afmBase ≤ a → a < sramEnd → t.byte a = 0) ∧ (rom = true → t.get pSYS SYS.BOOT_STAT_STAGE = 5 ∧ (t.domOf 139).req = true) ∧
        (rom = false → t.get pSYS SYS.BOOT_STAT_STAGE = 4 ∧ t.get pSYS SYS.BOOT_STAT_ERROR = 1 ∧ t.dom = s.dom))) ∧
    (s.isResetting pSYS = false → ∀ (m : Master) (v : BitVec 8),
      (m ≠ .bsc → exec (.coreHold m v) s = .next s) ∧
      (m = .bsc → Does (.coreHold m v) s fun t => ∀ c, c < 8 → bit (t.get pSYS SYS.CORE_HOLD_HOLD) c = (if v.getLsbD c = true then true else if s.domOn (domCore c) = true then false else bit (s.get pSYS SYS.CORE_HOLD_HOLD) c)))

/-- A command refused changes neither the NOR nor the operation in progress, gives its RESULT and sets NVS's FLT_STAT bit 1; the checks decide in their order, as its clauses say; an accepted erase, program, bracket (INTENT, erase, COMPLETE; a rollover first where no journal is active), blank check or scan becomes the operation in progress, SUSPEND is issued from T_RUN_MIN on and held before, RESUME takes effect at once or waits for the operation in progress and for the reads of an auto-suspended device. A poll with WIP set does nothing; a good page or record clears the bits its data clears and no others, a good erase leaves its sector 0xFF, a bad status, a record read back wrong or a time-out is retried once and then sets FLT_STAT bit 2 and ends FAILED; a completed suspend sets SUSP. The end gives STATUS and DONE; a bracket's good end clears its sector from the suspect set and advances JSEQ. A read that is a write, misaligned, or beyond the capacity is refused, one of the suspended sector sets FLT_STAT bit 0 and gets an error response, another is queued and served once its device is free; WP bits are only added to once WP_LOCK is set; probing ends READY or FAILED. Outside these conditions each of these commands changes nothing. -/
def Obligations.SerialFlash : Prop :=
  ∀ (s : State) (k : Nat), Sound s → k = norSector (s.get pNVS NVS.OP_ADDR) →
    (s.present pNVS = true → s.powered pNVS = true → s.isResetting pNVS = false → ∀ m : Master,
      (∀ (i : Instr) (c : Nat), (i, c) ∈ [(.program m, 1), (.erase m, 2), (.eraseBr m, 3), (.nvsSuspend m, 4), (.nvsResume m, 5), (.blankCheck m, 6), (.jscan m, 7)] →
        (s.norResult c ≠ 0 → Does i s fun t => t.get pNVS NVS.OP_STAT_RESULT = s.norResult c ∧ t.nor = s.nor ∧ t.nvs = s.nvs ∧ (t.reg pNVS 0x18).getLsbD 2 = true ∧ (t.reg pNVS 0x1C).getLsbD 1 = true) ∧
        (s.nvsReady = false → s.norResult c = 1) ∧
        (s.nvsReady = true → s.nvs.op.isSome = true → c ≠ 4 → c ≠ 5 → s.norResult c = 2) ∧
        (s.nvsReady = true → s.nvs.susp = none → s.norErasing = none → c = 4 ∨ c = 5 → s.norResult c = 3) ∧
        (s.nvsReady = true → s.nvs.op = none → s.nvs.susp = none → s.nvs.suspects.length ≤ 4093 → c = 2 ∨ c = 3 → s.norResult c =
          if s.norCap ≤ s.get pNVS NVS.OP_ADDR then 4 else if k = 0x200 ∨ k = 0x201 then 5 else if c = 3 ∧ s.get pNVS NVS.NVS_STAT_JRNL = 0 then 9 else if s.norProtected k = true then 6 else if c = 2 ∧ s.isSuspect k = true then 7 else 0) ∧
        (∀ o, s.nvsReady = true → s.nvs.op = none → s.nvs.susp = some o → o.roll = 0 → c = 2 → s.get pNVS NVS.OP_ADDR < s.norCap → k ≠ 0x200 → k ≠ 0x201 → s.norProtected k = false → s.isSuspect k = false → s.norResult c = 8) ∧
        (s.norResult c = 0 → c = 6 ∨ c = 7 → Does i s fun t => t.nvs.op = some { cmd := c, sector := k, ended := some 1 } ∧ t.nor = s.nor ∧ t.get pNVS NVS.OP_STAT_RESULT = 0 ∧ t.on pNVS NVS.OP_STAT_DONE = false)) ∧
      (s.norResult 2 = 0 → Does (.erase m) s fun t => t.nvs.op = some { cmd := 2, sector := k, steps := [.erase k], since := s.time } ∧ t.nor = s.nor ∧ t.get pNVS NVS.OP_STAT_RESULT = 0 ∧ t.on pNVS NVS.OP_STAT_DONE = false) ∧
      (∀ a src n, a = s.get pNVS NVS.OP_ADDR → src = s.addr48 pNVS NVS.OP_SRC_LO NVS.OP_SRC_HI → n = s.get pNVS NVS.OP_LEN → s.norResult 1 = 0 → a % 256 + n ≤ 256 → s.badLines = [] → s.spanRefusal none false src n = none → Does (.program m) s fun t =>
        t.nvs.op = some { cmd := 1, sector := k, steps := [.page a src n], since := s.time, data := s.bytesAt src n } ∧ t.nor = s.nor ∧ t.on pNVS NVS.OP_STAT_DONE = false) ∧
      (∀ j q a, s.norResult 3 = 0 → s.jActive = some j → q = s.get pNVS NVS.JSEQ → a = jBase j + 16 * s.jNext j → s.jNext j ≤ 4094 → Does (.eraseBr m) s fun t => t.nor = s.nor ∧ t.nvs.op = some { cmd := 3, sector := k, steps := [.record a 0xA2 k q, .erase k, .record (a + 16) 0xA3 k q], since := s.time, data := wordBytes [0xA2 + 65536 * k, q, s.time % 2 ^ 32, crc3 (0xA2 + 65536 * k) q (s.time % 2 ^ 32)] }) ∧
      (∀ j gen a q : Nat, s.norResult 3 = 0 → (s.jActive = none ∧ j = 0 ∧ gen = 1) ∨ (∃ j0, s.jActive = some j0 ∧ 4094 < s.jNext j0 ∧ j = 1 - j0 ∧ gen = (s.jWord j0 0 1 + 1) % 2 ^ 32) → q = s.get pNVS NVS.JSEQ → a = jBase j + 16 * (1 + s.nvs.suspects.length) →
        Does (.eraseBr m) s fun t => t.nvs.op = some { cmd := 3, sector := k, steps := s.rollSteps j gen ++ [.record a 0xA2 k q, .erase k, .record (a + 16) 0xA3 k q], roll := s.nvs.suspects.length + 2, since := s.time } ∧ t.nor = s.nor ∧ t.get pNVS NVS.NVS_STAT_OP = 4) ∧
      (∀ o, s.norResult 4 = 0 → s.norErasing = some o → s.nvs.susp = none → s.nvs.issued = 0 →
        (o.since + s.get pNVS NVS.T_RUN_MIN * usSub ≤ s.time → Does (.nvsSuspend m) s fun t => t.nvs.issued = s.time + 1 ∧ t.nvs.op = s.nvs.op ∧ t.on pNVS NVS.NVS_STAT_SUSP_HELD = false) ∧
        (s.time < o.since + s.get pNVS NVS.T_RUN_MIN * usSub → Does (.nvsSuspend m) s fun t => t.nvs.issued = 0 ∧ t.nvs.op = s.nvs.op ∧ t.on pNVS NVS.NVS_STAT_SUSP_HELD = true)) ∧
      (∀ o, s.norResult 4 = 0 → s.norErasing = some o → s.nvs.susp = none → s.nvs.issued ≠ 0 → Does (.nvsSuspend m) s fun t => t.nvs.fwWant = true ∧ t.nvs.issued = s.nvs.issued ∧ t.nvs.op = s.nvs.op) ∧
      (∀ o, s.norResult 4 = 0 → s.nvs.susp = some o → Does (.nvsSuspend m) s fun t => t.nvs.fwIn = true ∧ t.nvs.resume = false ∧ t.nvs.susp = some o ∧ t.nvs.op = s.nvs.op) ∧
      (∀ o, s.norResult 5 = 0 → s.nvs.susp = some o →
        (s.nvs.op = none → s.nvs.autoIn = false ∨ s.norReadsOf s.norSuspDev = false → Does (.nvsResume m) s fun t => t.nvs.susp = none ∧ t.nvs.op = some { o with since := s.time } ∧ t.on pNVS NVS.NVS_STAT_SUSP = false) ∧
        (s.nvs.op.isSome = true ∨ (s.nvs.autoIn = true ∧ s.norReadsOf s.norSuspDev = true) → Does (.nvsResume m) s fun t => t.nvs.susp = some o ∧ t.nvs.fwIn = false ∧ t.nvs.resume = true ∧ t.nvs.op = s.nvs.op))) ∧
    (∀ o, s.norErasing = some o → s.nvs.fwWant = true ∨ s.nvs.autoWant = true → s.nvs.issued = 0 → o.since + s.get pNVS NVS.T_RUN_MIN * usSub ≤ s.time → Does .suspendIssue s fun t => t.nvs.issued = s.time + 1 ∧ t.nvs.op = s.nvs.op) ∧
    (∀ o, s.norErasing = some o → s.nvs.issued ≠ 0 ∨ s.time < o.since + s.get pNVS NVS.T_RUN_MIN * usSub ∨ (s.nvs.fwWant = false ∧ s.nvs.autoWant = false ∧ s.on pNVS NVS.NVS_CTRL_AUTO_SUSP = false) → Does .suspendIssue s fun t => t.nvs.issued = s.nvs.issued ∧ t.nvs.op = s.nvs.op) ∧
    (s.norErasing = none → Does .suspendIssue s fun t => t.nvs = s.nvs) ∧
    (∀ o, s.nvs.susp = some o → s.nvs.autoIn = true → s.nvs.fwIn = false → s.nvs.op = none →
      (s.norReadsOf s.norSuspDev = false → Does .autoResume s fun t => t.nvs.susp = none ∧ t.nvs.op = some { o with since := s.time }) ∧ (s.norReadsOf s.norSuspDev = true → Does .autoResume s fun t => t.nvs = s.nvs)) ∧
    (∀ o, s.nvs.susp = some o → s.nvs.autoIn = false → s.nvs.resume = true → s.nvs.fwIn = false → s.nvs.op = none → Does .autoResume s fun t => t.nvs.susp = none ∧ t.nvs.op = some { o with since := s.time }) ∧
    (s.nvs.susp = none ∨ s.nvs.fwIn = true ∨ (s.nvs.autoIn = false ∧ s.nvs.resume = false) ∨ s.nvs.op.isSome = true → Does .autoResume s fun t => t.nvs.susp = s.nvs.susp ∧ t.nvs.op = s.nvs.op) ∧
    (∀ (o : NorOp) (x : NorStep) (r : List NorStep) (st : BitVec 8) (wrong : Bool), s.nvs.op = some o → o.ended = none → o.steps = x :: r →
      (∀ complete, bit st.toNat (s.get pNVS NVS.STS_CFG_WIP_BIT) = true → exec (.statusPoll st complete wrong) s = .next s) ∧
      (bit st.toNat (s.get pNVS NVS.STS_CFG_WIP_BIT) = false →
        (0 < s.nvs.issued → Does (.statusPoll st false wrong) s fun t => t.nvs.susp = some o ∧ t.nvs.op = none ∧ t.nvs.fwIn = s.nvs.fwWant ∧ t.nvs.autoIn = s.nvs.autoWant ∧ t.nvs.issued = 0 ∧ t.nor = s.nor ∧ (t.reg pNVS 0x18).getLsbD 1 = true ∧ t.on pNVS NVS.NVS_STAT_SUSP = true) ∧
        (∀ complete, s.nvs.issued = 0 ∨ complete = true →
          (Nat.land st.toNat (s.get pNVS NVS.STS_CFG_ERR_MASK) = 0 → (wrong = true → ∀ a typ sec w, x ≠ .record a typ sec w) →
            (∀ j, x = .erase j → Does (.statusPoll st complete wrong) s fun t => (∀ a, tabGet t.nor a 0xFF = if norSector a = j then 0xFF else tabGet s.nor a 0xFF) ∧ t.nvs.issued = 0 ∧ (r = [] → t.nvs.op.map (·.ended) = some (some 1))) ∧
            (∀ a, (∃ src n, x = .page a src n) ∨ (∃ typ sec w, x = .record a typ sec w) → Does (.statusPoll st complete wrong) s fun t =>
              (∀ b, tabGet t.nor b 0xFF = if a ≤ b ∧ b < a + o.data.length then tabGet s.nor b 0xFF &&& o.data[b - a]?.getD 0 else tabGet s.nor b 0xFF) ∧ (r = [] → t.nvs.op.map (·.ended) = some (some 1))) ∧
            (∀ y ys, r = y :: ys → (∀ a src n, y ≠ .page a src n) → Does (.statusPoll st complete wrong) s fun t => t.nvs.op.map (fun u => (u.steps, u.ended, u.since)) = some (r, none, s.time))) ∧
          (Nat.land st.toNat (s.get pNVS NVS.STS_CFG_ERR_MASK) ≠ 0 ∨ (wrong = true ∧ ∃ a typ sec w, x = .record a typ sec w) →
            (o.tried = false → Does (.statusPoll st complete wrong) s fun t => t.nvs.op = some { o with tried := true, since := s.time } ∧ t.nor = s.nor ∧ t.get pNVS NVS.RETRY_CNT = min (s.get pNVS NVS.RETRY_CNT + 1) (2 ^ 32 - 1) ∧ t.on pNVS NVS.OP_STAT_RETRIED = true) ∧
            (o.tried = true → Does (.statusPoll st complete wrong) s fun t => t.nvs.op.map (·.ended) = some (some 2) ∧ t.nor = s.nor ∧ (t.reg pNVS 0x1C).getLsbD 2 = true)))) ∧
      (∀ lim, lim = (if x.isErase = true then max 1 (s.get pNVS NVS.OP_TMO_ERASE_TMO) * 100 * msSub else max 1 (s.get pNVS NVS.OP_TMO_PROG_TMO) * msSub) → s.nvs.issued = 0 →
        (s.time ≤ o.since + lim → exec .norOpTimeout s = .next s) ∧
        (o.since + lim < s.time → o.tried = false → Does .norOpTimeout s fun t => t.nvs.op = some { o with tried := true, since := s.time } ∧ t.get pNVS NVS.RETRY_CNT = min (s.get pNVS NVS.RETRY_CNT + 1) (2 ^ 32 - 1)) ∧
        (o.since + lim < s.time → o.tried = true → Does .norOpTimeout s fun t => t.nvs.op.map (·.ended) = some (some 2) ∧ (t.reg pNVS 0x1C).getLsbD 2 = true ∧ t.nor = s.nor)) ∧
      (0 < s.nvs.issued →
        (s.time ≤ s.nvs.issued - 1 + 100 * usSub → exec .norOpTimeout s = .next s) ∧
        (s.nvs.issued - 1 + 100 * usSub < s.time → s.nvs.suspTried = false → Does .norOpTimeout s fun t => t.nvs.issued = s.time + 1 ∧ t.nvs.suspTried = true ∧ t.nvs.op = s.nvs.op ∧ t.get pNVS NVS.RETRY_CNT = min (s.get pNVS NVS.RETRY_CNT + 1) (2 ^ 32 - 1)) ∧
        (s.nvs.issued - 1 + 100 * usSub < s.time → s.nvs.suspTried = true → Does .norOpTimeout s fun t => t.nvs.op.map (·.ended) = some (some 2) ∧ t.nvs.issued = 0 ∧ (t.reg pNVS 0x1C).getLsbD 2 = true ∧ t.nor = s.nor)) ∧
      exec .norOpDone s = .next s) ∧
    (∀ o, s.nvs.op = some o → o.ended.isSome = true ∨ o.steps = [] → (∀ st complete wrong, exec (.statusPoll st complete wrong) s = .next s) ∧ exec .norOpTimeout s = .next s) ∧
    (∀ o, s.nvs.op = some o → o.ended = none → exec .norOpDone s = .next s) ∧
    (s.nvs.op = none → (∀ st complete wrong, exec (.statusPoll st complete wrong) s = .next s) ∧ exec .norOpTimeout s = .next s ∧ exec .norOpDone s = .next s) ∧
    (∀ (o : NorOp) (st : Nat), s.nvs.op = some o → o.ended = some st → st < 4 →
      (∀ u, s.nvs.susp = some u → s.nvs.fwIn = false → s.nvs.autoIn = true ∨ s.nvs.resume = true → s.nvs.autoIn = false ∨ s.norReadsOf s.norSuspDev = false → Does .norOpDone s fun t => t.nvs.susp = none ∧ t.nvs.op = some { u with since := s.time } ∧ t.get pNVS NVS.OP_STAT_STATUS = st ∧ t.on pNVS NVS.OP_STAT_DONE = true) ∧
      (s.nvs.susp = none ∨ s.nvs.fwIn = true ∨ (s.nvs.autoIn = false ∧ s.nvs.resume = false) ∨ (s.nvs.autoIn = true ∧ s.norReadsOf s.norSuspDev = true) →
      (o.cmd < 6 → Does .norOpDone s fun t => t.nvs.op = none ∧ t.nor = s.nor ∧ t.get pNVS NVS.OP_STAT_STATUS = st ∧ t.on pNVS NVS.OP_STAT_DONE = true ∧ (t.reg pNVS 0x18).getLsbD 0 = true ∧
        t.nvs.suspects = (if o.cmd = 3 ∧ st = 1 then s.nvs.suspects.filter (fun y => decide (y ≠ o.sector)) else s.nvs.suspects) ∧ t.get pNVS NVS.JSEQ = if o.cmd = 3 ∧ st = 1 then (s.get pNVS NVS.JSEQ + 1) % 2 ^ 32 else s.get pNVS NVS.JSEQ) ∧
      (o.cmd = 6 → Does .norOpDone s fun t => t.on pNVS NVS.OP_STAT_BLANK = s.norBlank o.sector ∧ t.on pNVS NVS.OP_STAT_DONE = true ∧ t.nor = s.nor ∧ t.nvs.suspects = s.nvs.suspects) ∧
      (o.cmd = 7 → s.jHeader 0 = none → s.jHeader 1 = none → Does .norOpDone s fun t => t.get pNVS NVS.NVS_STAT_JRNL = 2 ∧ t.nvs.suspects = s.nvs.suspects ∧ t.on pNVS NVS.OP_STAT_DONE = true) ∧
      (∀ j g, o.cmd = 7 → (j = 0 ∧ s.jHeader 0 = some g ∧ ∀ h, s.jHeader 1 = some h → h ≤ g) ∨ (j = 1 ∧ s.jHeader 1 = some g ∧ ∀ h, s.jHeader 0 = some h → h < g) → Does .norOpDone s fun t => t.get pNVS NVS.NVS_STAT_JRNL = 1 ∧ t.get pNVS NVS.JGEN_ACTIVE = j ∧
        t.get pNVS NVS.JGEN_GEN = g % 65536 ∧ (∀ q, (s.jScan j).2.1 = some q → t.get pNVS NVS.JSEQ = q % 2 ^ 32) ∧ (0 < (s.jScan j).2.2 → (t.reg pNVS 0x1C).getLsbD 5 = true) ∧ t.on pNVS NVS.OP_STAT_DONE = true ∧
        ∀ y, y ∈ t.nvs.suspects ↔ y ∈ s.nvs.suspects ∨ y ∈ (s.jScan j).1))) ∧
    (∀ (m : Master) (w : Bool) (addr : BitVec 48) (len : BitVec 7) (a n : Nat), a = addr.toNat - norWindow → n = len.toNat → norWindow ≤ addr.toNat → addr.toNat < norWindow + 2 ^ 30 →
      (s.powered pNVS = false → Does (.norRead m w addr len) s fun t => t.resp = { value := 0, err := false } ∧ t.nvs = s.nvs ∧ (t.reg pPWR 0x1C).getLsbD 1 = true) ∧
      (s.powered pNVS = true →
        (w = true ∨ (n ≠ 4 ∧ n ≠ 8 ∧ n ≠ 64) ∨ a % n ≠ 0 ∨ s.norCap < a + n → Does (.norRead m w addr len) s fun t => t.resp.err = true ∧ t.nvs = s.nvs ∧ t.nor = s.nor ∧ (t.reg pSYS 0x1C).getLsbD 0 = true) ∧
        (w = false → n = 4 ∨ n = 8 ∨ n = 64 → a % n = 0 → a + n ≤ s.norCap →
          (s.nvsReady = false → exec (.norRead m w addr len) s = .next s.answerErr) ∧
          (s.nvsReady = true → s.norSuspSector = some (norSector a) → Does (.norRead m w addr len) s fun t => t.resp.err = true ∧ t.nvs = s.nvs ∧ (t.reg pNVS 0x1C).getLsbD 0 = true) ∧
          (s.nvsReady = true → s.norSuspSector ≠ some (norSector a) → Does (.norRead m w addr len) s fun t => t.nvs.reads = s.nvs.reads ++ [{ master := m, a := a, n := n }] ∧ t.nor = s.nor ∧ t.nvs.op = s.nvs.op)))) ∧
    (∀ (m : Master) (w : Bool) (addr : BitVec 48) (len : BitVec 7), addr.toNat < norWindow ∨ norWindow + 2 ^ 30 ≤ addr.toNat → exec (.norRead m w addr len) s = .next s) ∧
    (∀ b, s.nvs.reads = [] → exec (.norReadDone b) s = .next s) ∧
    ((∀ r ∈ s.nvs.reads, s.norBusy (s.norDevOf r.a) = true) → ∀ b, exec (.norReadDone b) s = .next s) ∧
    (∀ (p q : List NorRead) (r : NorRead), s.nvs.reads = p ++ r :: q → (∀ u ∈ p, s.norBusy (s.norDevOf u.a) = true) → s.norBusy (s.norDevOf r.a) = false →
      (∀ b, s.norSuspSector = some (norSector r.a) → Does (.norReadDone b) s fun t => t.nvs.reads = p ++ q ∧ tabGet t.mresp r.master.code {} = { value := 0, err := true } ∧ (t.reg pNVS 0x1C).getLsbD 0 = true) ∧
      (s.norSuspSector ≠ some (norSector r.a) →
        (Does (.norReadDone false) s fun t => t.nvs.reads = p ++ q ∧ (tabGet t.mresp r.master.code {}).err = false ∧ (s.norUnsure = [] → (tabGet t.mresp r.master.code {}).value = leNat ((List.range r.n).map (fun i => tabGet s.nor (r.a + i) 0xFF))) ∧ t.nor = s.nor ∧
          t.get pNVS NVS.SUSPECT_RD = if s.isSuspect (norSector r.a) = true then min (s.get pNVS NVS.SUSPECT_RD + 1) (2 ^ 32 - 1) else s.get pNVS NVS.SUSPECT_RD) ∧
        (r.tried = false → Does (.norReadDone true) s fun t => t.nvs.reads = { r with tried := true } :: (p ++ q) ∧ t.get pNVS NVS.RETRY_CNT = min (s.get pNVS NVS.RETRY_CNT + 1) (2 ^ 32 - 1)) ∧
        (r.tried = true → Does (.norReadDone true) s fun t => t.nvs.reads = p ++ q ∧ tabGet t.mresp r.master.code {} = { value := 0, err := true } ∧ (t.reg pNVS 0x1C).getLsbD 2 = true))) ∧
    (∀ m : Master,
      (∀ (n : Fin 512) (v : Word), exec (.wpWrite m n v) s = .next (s.setReg pNVS (0x800 + 4 * n.val) (if s.on pNVS NVS.NVS_CTRL_WP_LOCK = true then s.reg pNVS (0x800 + 4 * n.val) ||| v else v))) ∧
      (Does (.wpLock m true) s fun t => t.on pNVS NVS.NVS_CTRL_WP_LOCK = true ∧ ∀ i, i < 512 → t.reg pNVS (0x800 + 4 * i) = s.reg pNVS (0x800 + 4 * i)) ∧ exec (.wpLock m false) s = .next s) ∧
    (∀ a b, s.powered pNVS = true → s.get pNVS NVS.NVS_STAT_STATE = 1 → exec (.norProbe a b) s = .next { s with nvs := { s.nvs with probe := some (a, b) } }) ∧
    (∀ a b, s.get pNVS NVS.NVS_STAT_STATE ≠ 1 ∨ s.powered pNVS = false → exec (.norProbe a b) s = .next s) ∧
    (s.get pNVS NVS.NVS_STAT_STATE ≠ 1 → exec .probeDone s = .next s) ∧
    (s.nvs.probe = none → exec .probeDone s = .next s) ∧
    (∀ b, s.nvs.probe = some (true, b) → s.get pNVS NVS.NVS_STAT_STATE = 1 → Does .probeDone s fun t => t.get pNVS NVS.NVS_STAT_STATE = 2 ∧ t.get pNVS NVS.NVS_STAT_DEV_OK = (if s.on pNVS NVS.XSPI_CFG_DEVS = true ∧ b = true then 3 else 1) ∧
      (s.on pNVS NVS.XSPI_CFG_DEVS = true → b = false → (t.reg pNVS 0x1C).getLsbD 4 = true)) ∧
    (∀ b, s.nvs.probe = some (false, b) → s.get pNVS NVS.NVS_STAT_STATE = 1 → Does .probeDone s fun t => t.get pNVS NVS.NVS_STAT_STATE = 3 ∧ (t.reg pNVS 0x1C).getLsbD 3 = true ∧
      (s.get pSYS SYS.BOOT_STAT_STAGE = 5 → s.on pSYS SYS.BOOT_STAT_DONE = false → t.get pSYS SYS.BOOT_STAT_ERROR = 3))

/-- A fuse row is programmed by the boot-and-safety core with the key and within its rule, otherwise DENIED with nothing changed; programming sets bits and leaves other rows, and ends OK or FAILED with FLT_STAT bit 3. A job command is BUSY while a job runs or SEC is fenced; HASH stores the digest, VERIFY gives OK or BAD_SIG, SIGN_ID without an identity gives NO_ID and otherwise stores a signature, EXTEND sets MEASn and ends LOCKED for MEAS0–MEAS2 once locked, an operand range outside is ADDR and memory that refuses the block gives 7. A failed health test clears READY and sets FLT_STAT bit 0. A good unlock sets UNLOCKED and extends MEAS0, a bad one counts and sets FLT_STAT bit 2; DISABLE shows. A key command clears KEY_W and is refused in the order of R505 with no slot changed, or loads or empties its slot, or all. The SMBus captures a write to its address once, NAKs the next, answers target reads, sends one message at a time, none that is outside 1–256 bytes, and abandons a timed-out transaction. -/
def Obligations.SecurityAndSmbus : Prop :=
  ∀ s : State, Sound s →
    (s.isResetting pSEC = false → ∀ m : Master,
      (∀ (row : Fin 128) (key : BitVec 16) (p : Nat), p = s.get pSEC SEC.FUSE_PROG_LO + 2 ^ 32 * s.get pSEC SEC.FUSE_PROG_HI →
        (s.sec.prog.isSome = true → exec (.fuseCmd m row key) s = .next s) ∧
        (s.sec.prog = none → m = .bsc → key = 0x6B1D → s.fuseRule row p = true → Does (.fuseCmd m row key) s fun t => t.sec.prog = some (row.val, s.fuse row, p) ∧ t.sec.fuses = s.sec.fuses ∧ t.reg pSEC 0x6C = 0) ∧
        (s.sec.prog = none → m ≠ .bsc ∨ key ≠ 0x6B1D ∨ s.fuseRule row p = false → Does (.fuseCmd m row key) s fun t => t.sec = s.sec ∧ t.reg pSEC 0x6C = 0x80000001 ∧ (t.reg pSEC 0x18).getLsbD 1 = true) ∧
        (row.val < 3 ∨ (4 ≤ row.val ∧ row.val < 8) ∨ 54 ≤ row.val → s.fuseRule row p = false) ∧
        (row = 3 → s.fuseRule row p = true → Nat.lor (s.fuse 3) p ∈ [0, 1, 3, 7])) ∧
      (∀ (i : Instr) (j : SecJob), (i, j) ∈ [(.hash m, { op := 1 }), (.verify m, { op := 2 }), (.signId m, { op := 3 })] ∨ (∃ n : Fin 4, i = .extend m n ∧ j = { op := 4, meas := n.val }) →
        (s.sec.job.isSome = true → Does i s fun t => t.sec = s.sec ∧ t.get pSEC SEC.JOB_STAT_RESULT = 1 ∧ (t.reg pSEC 0x1C).getLsbD 1 = true) ∧
        (s.sec.job = none → s.fenced pSEC = true → Does i s fun t => t.sec = s.sec ∧ t.reg pSEC 0x7C = 0x80000001 ∧ (t.reg pSEC 0x18).getLsbD 0 = true) ∧
        (s.sec.job = none → s.fenced pSEC = false → Does i s fun t => t.sec = { s.sec with job := some j } ∧ t.reg pSEC 0x7C = 0 ∧ t.mem = s.mem)) ∧
      (Does (.dbgDisable m) s fun t => t.on pSEC SEC.DBG_STAT_DISABLED = true ∧ t.on pSEC SEC.DBG_CTRL_DISABLE = true ∧ t.on pSEC SEC.DBG_STAT_UNLOCKED = s.on pSEC SEC.DBG_STAT_UNLOCKED)) ∧
    (∀ v : BitVec 64, s.sec.prog = none → exec (.fuseProgDone v) s = .next s) ∧
    (∀ (v : BitVec 64) (r old p : Nat), s.sec.prog = some (r, old, p) → Does (.fuseProgDone v) s fun t => t.sec.prog = none ∧ t.fuse r = Nat.lor (s.fuse r) v.toNat ∧ (∀ r', r' ≠ r → t.fuse r' = s.fuse r') ∧ t.sec.used = s.sec.used ∧ (t.reg pSEC 0x18).getLsbD 1 = true ∧
      (v.toNat = Nat.lor old p → t.reg pSEC 0x6C = 0x80000000) ∧ (v.toNat ≠ Nat.lor old p → t.reg pSEC 0x6C = 0x80000002 ∧ (t.reg pSEC 0x1C).getLsbD 3 = true)) ∧
    (s.sec.job = none → exec .jobDone s = .next s) ∧
    (∀ (j : SecJob) (a : Nat) (cut : Nat → Nat → List Byte), s.sec.job = some j → a = s.get pSEC SEC.JOB_ADDR_LO * 64 + s.get pSEC SEC.JOB_ADDR_HI * 2 ^ 32 → cut = (fun o n => ((s.bytesAt a 512).drop o).take n) →
      (s.fenced pSEC = true → Does .jobDone s fun t => t.sec.job = none ∧ t.reg pSEC 0x7C = 0x80000001 ∧ t.mem = s.mem) ∧
      (s.fenced pSEC = false → 1 ≤ j.op → j.op ≤ 4 →
        (s.secRange a 512 = false → Does .jobDone s fun t => t.sec.job = none ∧ t.reg pSEC 0x7C = 0x80000003 ∧ t.mem = s.mem ∧ (t.reg pSEC 0x1C).getLsbD 1 = true) ∧
        (s.secRange a 512 = true → s.spanRefusal none false a 512 ≠ none → Does .jobDone s fun t => t.sec.job = none ∧ t.reg pSEC 0x7C = 0x80000007 ∧ t.mem = s.mem ∧ (t.reg pSEC 0x1C).getLsbD 1 = true) ∧
        (s.secRange a 512 = true → s.badLines = [] → s.spanRefusal none false a 512 = none →
          (∀ src n, j.op = 1 → src = leNat (cut 0 8) → n = leNat (cut 8 8) →
            (s.secRange src n = false → Does .jobDone s fun t => t.reg pSEC 0x7C = 0x80000003 ∧ t.mem = s.mem) ∧
            (s.secRange src n = true → n = 0 ∨ s.spanRefusal none false src n = none → s.spanRefusal none true (a + 0x40) 64 = none → Does .jobDone s fun t => t.reg pSEC 0x7C = 0x80000000 ∧ (t.reg pSEC 0x18).getLsbD 0 = true ∧
              t.bytesAt (a + 0x40) 64 = sha512 (s.bytesAt src n) ∧ ∀ x, x < a + 0x40 ∨ a + 0x80 ≤ x → t.byte x = s.byte x)) ∧
          (j.op = 2 → Does .jobDone s fun t => t.reg pSEC 0x7C = (if ecdsaVerify (cut 0x40 64) (cut 0x80 132) (cut 0x108 132) = true then 0x80000000 else 0x80000004) ∧ t.mem = s.mem ∧ t.sec.job = none) ∧
          (j.op = 3 → s.sec.idKey = none → Does .jobDone s fun t => t.reg pSEC 0x7C = 0x80000005 ∧ t.mem = s.mem ∧ (t.reg pSEC 0x1C).getLsbD 1 = true) ∧
          (∀ d, j.op = 3 → s.sec.idKey = some d → s.spanRefusal none true (a + 0x108) 132 = none → Does .jobDone s fun t => t.reg pSEC 0x7C = 0x80000000 ∧ ∃ k, 1 ≤ k ∧ k < ecN ∧ t.bytesAt (a + 0x108) 132 = ecdsaSign (cut 0x40 64) d k) ∧
          (j.op = 4 → j.meas < 4 →
            (s.locked pSEC = true → j.meas < 3 → Does .jobDone s fun t => t.reg pSEC 0x7C = 0x80000006 ∧ ∀ n, n < 4 → t.getBytes pSEC (measOff n) 16 = s.getBytes pSEC (measOff n) 16) ∧
            (s.locked pSEC = false ∨ j.meas = 3 → Does .jobDone s fun t => t.reg pSEC 0x7C = 0x80000000 ∧ t.getBytes pSEC (measOff j.meas) 16 = sha512 (s.getBytes pSEC (measOff j.meas) 16 ++ cut 0x40 64) ∧
              ∀ n, n < 4 → n ≠ j.meas → t.getBytes pSEC (measOff n) 16 = s.getBytes pSEC (measOff n) 16))))) ∧
    (Does (.rngHealth false) s fun t => t.on pSEC SEC.RNG_STAT_READY = false ∧ t.on pSEC SEC.RNG_STAT_HEALTH_FAIL = true ∧ (t.reg pSEC 0x1C).getLsbD 0 = true) ∧
    (s.on pSEC SEC.RNG_STAT_HEALTH_FAIL = false → Does (.rngHealth true) s fun t => t.on pSEC SEC.RNG_STAT_READY = true ∧ t.reg pSEC 0x1C = s.reg pSEC 0x1C) ∧
    (s.on pSEC SEC.RNG_STAT_HEALTH_FAIL = true → exec (.rngHealth true) s = .next s) ∧
    (∀ (pub sig chal : List Byte) (ok : Bool), chal = s.getBytes pSEC 0x300 16 → ok = decide (s.on pSEC SEC.DBG_STAT_DISABLED = false ∧ s.get pSEC SEC.DBG_STAT_FAILS < 8 ∧ pub.length = 132 ∧ sig.length = 132 ∧ sha512 pub = s.fuseBytes 42 8 ∧ ecdsaVerify (sha512 (chal ++ s.fuseBytes 0 2)) pub sig = true) →
      (ok = true → Does (.debugUnlock pub sig) s fun t => t.on pSEC SEC.DBG_STAT_UNLOCKED = true ∧ t.getBytes pSEC (measOff 0) 16 = sha512 (s.getBytes pSEC (measOff 0) 16 ++ sha512 chal)) ∧
      (ok = false → Does (.debugUnlock pub sig) s fun t => t.on pSEC SEC.DBG_STAT_UNLOCKED = s.on pSEC SEC.DBG_STAT_UNLOCKED ∧ t.get pSEC SEC.DBG_STAT_FAILS = min 8 (s.get pSEC SEC.DBG_STAT_FAILS + 1) ∧ (t.reg pSEC 0x1C).getLsbD 2 = true)) ∧
    (s.present pXTS = true → s.powered pXTS = true → s.isResetting pXTS = false → ∀ (m : Master) (k : Fin 64) (w : List Byte), w = s.getBytes pXTS 0x40 18 →
      (∀ (i : Instr) (op slot : Nat), (i, op, slot) ∈ [(.keyLoad m k, 1, k.val), (.keyLoadWrapped m k, 2, k.val), (.keyErase m k, 3, k.val), (.keyEraseAll m, 4, 0)] → ∀ res, res = (s.keyResult slot op w).1 →
        (Does i s fun t => (t.reg pXTS 0x8C).toNat = 2 ^ 31 + res ∧ (t.reg pXTS 0x18).getLsbD 0 = true ∧ (∀ n, n < 18 → t.reg pXTS (0x40 + 4 * n) = 0) ∧ (res ≠ 0 → t.keys = s.keys ∧ (t.reg pXTS 0x1C).getLsbD 3 = true)) ∧
        (s.get pSEC SEC.LC_STAT_STATE = 0 ∨ s.get pSEC SEC.LC_STAT_STATE = 3 ∨ s.domOn domKS = false ∨ s.fenced pXTS = true → res = 4) ∧
        (s.get pSEC SEC.LC_STAT_STATE ≠ 0 → s.get pSEC SEC.LC_STAT_STATE ≠ 3 → s.domOn domKS = true → s.fenced pXTS = false →
          (op ≠ 4 → bit s.slotsUsed slot = true → res = 1) ∧ (op = 4 → s.slotsUsed ≠ 0 → res = 1) ∧ (op = 1 → bit s.slotsUsed slot = false → res = if w.take 32 = (w.drop 32).take 32 then 5 else 0) ∧
          (op = 2 → bit s.slotsUsed slot = false → keyUnwrap s.sec.kek w = none → res = 2) ∧ (∀ key, op = 2 → bit s.slotsUsed slot = false → keyUnwrap s.sec.kek w = some key → res = if key.take 32 = key.drop 32 then 5 else 0) ∧ (op = 3 → bit s.slotsUsed slot = false → res = 0) ∧ (op = 4 → s.slotsUsed = 0 → res = 0))) ∧
      ((s.keyResult k 1 w).1 = 0 → Does (.keyLoad m k) s fun t => t.keyOf k = w.take 64 ∧ ∀ j, j ≠ k.val → t.keyOf j = s.keyOf j) ∧
      (∀ key, (s.keyResult k 2 w).1 = 0 → keyUnwrap s.sec.kek w = some key → Does (.keyLoadWrapped m k) s fun t => t.keyOf k = key ∧ ∀ j, j ≠ k.val → t.keyOf j = s.keyOf j) ∧
      ((s.keyResult k 3 w).1 = 0 → Does (.keyErase m k) s fun t => t.keyOf k = [] ∧ ∀ j, j ≠ k.val → t.keyOf j = s.keyOf j) ∧
      ((s.keyResult 0 4 w).1 = 0 → Does (.keyEraseAll m) s fun t => t.keys = [])) ∧
    (∀ (addr : BitVec 7) (data : List Byte) (pec : Bool) (n : BitVec 9),
      (s.on pSYS SYS.SMB_CTRL_EN = false ∨ s.get pSYS SYS.SMB_CTRL_ADDR ≠ addr.toNat → exec (.smbWriteReceived addr data pec) s = .next s ∧ exec (.smbTargetRead addr n) s = .next s) ∧
      (s.on pSYS SYS.SMB_CTRL_EN = true → s.get pSYS SYS.SMB_CTRL_ADDR = addr.toNat →
        (s.on pSYS SYS.SMB_STAT_RX_READY = true → Does (.smbWriteReceived addr data pec) s fun t => t.get pSYS SYS.SMB_NAK_CNT = min (s.get pSYS SYS.SMB_NAK_CNT + 1) (2 ^ 32 - 1) ∧ t.getBytes pSYS 0x140 64 = s.getBytes pSYS 0x140 64) ∧
        (s.on pSYS SYS.SMB_STAT_RX_READY = false → Does (.smbWriteReceived addr data pec) s fun t => t.on pSYS SYS.SMB_STAT_RX_READY = true ∧ t.get pSYS SYS.SMB_STAT_RX_LEN = min 256 data.length ∧ t.on pSYS SYS.SMB_STAT_OVF = decide (256 < data.length) ∧
          t.on pSYS SYS.SMB_STAT_PEC_BAD = (s.on pSYS SYS.SMB_CTRL_PEC && !pec) ∧ (t.getBytes pSYS 0x140 64).take (min 256 data.length) = data.take 256 ∧ (t.reg pSYS 0x18).getLsbD 16 = true) ∧
        Does (.smbTargetRead addr n) s fun t => t.resp = { value := leNat ((s.getBytes pSYS 0x340 8 ++ List.replicate 480 0xFF).take n.toNat), err := false })) ∧
    (s.isResetting pSYS = false → ∀ m : Master,
      (∀ (len : BitVec 9) (dest : BitVec 7),
        (s.on pSYS SYS.SMB_STAT_TX_BUSY = false → s.on pSYS SYS.SMB_CTRL_EN = true → 1 ≤ len.toNat → len.toNat ≤ 256 → Does (.smbTx m len dest) s fun t => t.smbTx = some (dest.toNat, len.toNat) ∧ t.on pSYS SYS.SMB_STAT_TX_BUSY = true) ∧
        (s.on pSYS SYS.SMB_STAT_TX_BUSY = true ∨ s.on pSYS SYS.SMB_CTRL_EN = false ∨ len.toNat = 0 ∨ 256 < len.toNat → exec (.smbTx m len dest) s = .next s)) ∧
      exec (.smbRxDone m) s = .next (s.put pSYS SYS.SMB_STAT_RX_READY 0)) ∧
    (∀ r : Fin 4, (s.smbTx = none → exec (.smbTxEnd r) s = .next s) ∧
      (∀ d n, s.smbTx = some (d, n) → Does (.smbTxEnd r) s fun t => t.smbTx = none ∧ t.on pSYS SYS.SMB_STAT_TX_BUSY = false ∧ t.get pSYS SYS.SMB_STAT_TX_RESULT = r ∧ (t.reg pSYS 0x18).getLsbD 17 = true ∧
        t.smbOut = if r = 0 then some (d, (s.getBytes pSYS 0x240 64).take n) else s.smbOut)) ∧
    (s.on pSYS SYS.SMB_CTRL_EN = false → exec .smbTimeout s = .next s) ∧
    (s.on pSYS SYS.SMB_CTRL_EN = true → Does .smbTimeout s fun t => t.get pSYS SYS.SMB_TO_CNT = min (s.get pSYS SYS.SMB_TO_CNT + 1) (2 ^ 32 - 1) ∧ (t.reg pSYS 0x18).getLsbD 18 = true ∧ t.smbTx = none ∧ (s.smbTx.isSome = true → t.get pSYS SYS.SMB_STAT_TX_RESULT = 3))
end

