-- ==== Sys2Proof/Laws/Tables.lean ====
section
/-! SUPPORT. Laws of the tables in canonical form. -/

namespace Sys2Proof.Machine

theorem tabGet_tabPut_ne {α : Type} [DecidableEq α] {t : List (Nat × α)} {k k' : Nat} {v d d' : α} (h : k' ≠ k) :
    tabGet (tabPut t k v d) k' d' = tabGet t k' d' := by
  induction t with
  | nil => unfold tabPut; split <;> simp [tabGet, Ne.symm h]
  | cons e r ih =>
    obtain ⟨k1, v1⟩ := e
    unfold tabPut
    split
    · rename_i e; subst e; split <;> simp [tabGet, Ne.symm h, ih]
    · split <;> simp [tabGet, Ne.symm h, ih]

theorem tabGet_tabPut_same {α : Type} [DecidableEq α] {t : List (Nat × α)} {k : Nat} {v d : α} : tabGet (tabPut t k v d) k d = v := by
  induction t with
  | nil => unfold tabPut; split <;> simp_all [tabGet]
  | cons e r ih =>
    obtain ⟨k1, v1⟩ := e
    unfold tabPut
    split
    · split <;> simp [tabGet, ih]
    · rename_i hk; split <;> simp [tabGet, hk, ih]

theorem tabSorted_nil {α : Type} : tabSorted ([] : List (Nat × α)) = true := rfl

/-- Every key of a table is above `k`. -/
def tabAbove {α : Type} (k : Nat) (t : List (Nat × α)) : Prop := ∀ e ∈ t, k < e.1

theorem tabSorted_cons {α : Type} {e : Nat × α} {t : List (Nat × α)} : tabSorted (e :: t) = true ↔ tabAbove e.1 t ∧ tabSorted t = true := by
  induction t generalizing e with
  | nil => simp [tabSorted, tabAbove]
  | cons f r ih =>
    simp only [tabSorted, Bool.and_eq_true, decide_eq_true_eq, tabAbove, List.mem_cons, forall_eq_or_imp]
    constructor
    · rintro ⟨h, k⟩; exact ⟨⟨h, fun x hx => Nat.lt_trans h ((ih.1 k).1 x hx)⟩, k⟩
    · rintro ⟨⟨h, _⟩, k⟩; exact ⟨h, k⟩

theorem tabGet_above {α : Type} {t : List (Nat × α)} {k : Nat} {d : α} (h : tabAbove k t) : tabGet t k d = d := by
  induction t with
  | nil => rfl
  | cons e r ih =>
    have h1 := h e (by simp)
    simp [tabGet, Nat.ne_of_gt h1, ih (fun x hx => h x (by simp [hx]))]

theorem mem_tabPut {α : Type} [DecidableEq α] {t : List (Nat × α)} {k : Nat} {v d : α} {e : Nat × α} (h : e ∈ tabPut t k v d) :
    e ∈ t ∨ (e = (k, v) ∧ v ≠ d) := by
  induction t with
  | nil => unfold tabPut at h; split at h <;> simp_all
  | cons f r ih =>
    obtain ⟨k1, v1⟩ := f
    unfold tabPut at h
    split at h
    · split at h
      · rcases ih h with h | h
        · exact .inl (List.mem_cons_of_mem _ h)
        · exact .inr h
      · rename_i hv
        rcases List.mem_cons.1 h with h | h
        · exact .inr ⟨h, hv⟩
        · exact .inl (List.mem_cons_of_mem _ h)
    · split at h
      · rename_i hv
        rcases List.mem_cons.1 h with h | h
        · exact .inr ⟨h, hv.2⟩
        · exact .inl h
      · rcases List.mem_cons.1 h with h | h
        · exact .inl (h ▸ List.mem_cons_self)
        · rcases ih h with h | h
          · exact .inl (List.mem_cons_of_mem _ h)
          · exact .inr h

theorem tabPut_sorted {α : Type} [DecidableEq α] {t : List (Nat × α)} {k : Nat} {v d : α} (h : tabSorted t = true) :
    tabSorted (tabPut t k v d) = true := by
  induction t with
  | nil => unfold tabPut; split <;> simp [tabSorted]
  | cons f r ih =>
    obtain ⟨k1, v1⟩ := f
    have hs := tabSorted_cons.1 h
    unfold tabPut
    split
    · rename_i hk
      split
      · exact ih hs.2
      · exact tabSorted_cons.2 ⟨hk ▸ hs.1, hs.2⟩
    · split
      · rename_i hk
        refine tabSorted_cons.2 ⟨fun x hx => ?_, h⟩
        rcases List.mem_cons.1 hx with rfl | hx
        · exact hk.1
        · exact Nat.lt_trans hk.1 (hs.1 x hx)
      · rename_i h1 h2
        refine tabSorted_cons.2 ⟨fun x hx => ?_, ih hs.2⟩
        rcases mem_tabPut hx with hx | ⟨rfl, hv⟩
        · exact hs.1 x hx
        · have : ¬ k < k1 := fun hk => h2 ⟨hk, hv⟩
          show k1 < k; omega

theorem tabPut_wf {α : Type} [DecidableEq α] {t : List (Nat × α)} {k : Nat} {v d : α} {f : Nat → α} (h : tabWf f t = true) (e : f k = d) :
    tabWf f (tabPut t k v d) = true := by
  simp only [tabWf, Bool.and_eq_true, List.all_eq_true, decide_eq_true_eq] at *
  refine ⟨tabPut_sorted h.1, fun x hx => ?_⟩
  rcases mem_tabPut hx with hx | ⟨rfl, hv⟩
  · exact h.2 x hx
  · simpa [e] using hv

theorem filter_above {α : Type} {t : List (Nat × α)} {k : Nat} {p : Nat × α → Bool} (h : tabAbove k t) : tabAbove k (t.filter p) :=
  fun x hx => h x ((List.mem_filter.1 hx).1)

theorem filter_sorted {α : Type} {t : List (Nat × α)} {p : Nat × α → Bool} (h : tabSorted t = true) : tabSorted (t.filter p) = true := by
  induction t with
  | nil => rfl
  | cons e r ih =>
    have hs := tabSorted_cons.1 h
    rw [List.filter_cons]
    split
    · exact tabSorted_cons.2 ⟨filter_above hs.1, ih hs.2⟩
    · exact ih hs.2

theorem filter_wf {α : Type} [DecidableEq α] {t : List (Nat × α)} {f : Nat → α} {p : Nat × α → Bool} (h : tabWf f t = true) :
    tabWf f (t.filter p) = true := by
  simp only [tabWf, Bool.and_eq_true, List.all_eq_true] at *
  exact ⟨filter_sorted h.1, fun x hx => h.2 x ((List.mem_filter.1 hx).1)⟩

theorem filterMap_above {α β : Type} {t : List (Nat × α)} {k : Nat} {f : Nat × α → Option (Nat × β)} (hf : ∀ e y, f e = some y → y.1 = e.1)
    (h : tabAbove k t) : tabAbove k (t.filterMap f) := by
  intro y hy
  obtain ⟨e, he, hey⟩ := List.mem_filterMap.1 hy
  rw [hf e y hey]; exact h e he

theorem filterMap_sorted {α β : Type} {t : List (Nat × α)} {f : Nat × α → Option (Nat × β)} (hf : ∀ e y, f e = some y → y.1 = e.1)
    (h : tabSorted t = true) : tabSorted (t.filterMap f) = true := by
  induction t with
  | nil => rfl
  | cons e r ih =>
    have hs := tabSorted_cons.1 h
    rw [List.filterMap_cons]
    split
    · exact ih hs.2
    · rename_i y hy
      exact tabSorted_cons.2 ⟨by rw [hf e y hy]; exact filterMap_above hf hs.1, ih hs.2⟩

theorem map_sorted {α β : Type} {t : List (Nat × α)} {f : Nat × α → Nat × β} (hf : ∀ e, (f e).1 = e.1)
    (h : tabSorted t = true) : tabSorted (t.map f) = true := by
  rw [← List.filterMap_eq_map]
  exact filterMap_sorted (fun e y hy => by simp only [Function.comp, Option.some.injEq] at hy; rw [← hy, hf]) h

theorem foldl_tabPut_sorted {α β : Type} [DecidableEq α] {l : List β} {t : List (Nat × α)} {k : β → Nat} {v d : α} (h : tabSorted t = true) :
    tabSorted (l.foldl (fun t b => tabPut t (k b) v d) t) = true := by
  induction l generalizing t with
  | nil => exact h
  | cons b l ih => exact ih (tabPut_sorted h)

theorem bit_eq_testBit (n i : Nat) : bit n i = n.testBit i := by
  simp [bit, Nat.testBit_eq_decide_div_mod_eq]

theorem bit_lor {n m i : Nat} (h : bit n i = true) : bit (Nat.lor n m) i = true := by
  rw [bit_eq_testBit] at *
  show (n ||| m).testBit i = true
  rw [Nat.testBit_or, h, Bool.true_or]

end Sys2Proof.Machine
end

