-- ==== Sys2Proof/Laws/Keeps.lean ====
section
/-! SUPPORT. The relation that every operation of the model respects: the variant and the queue stay, a sound state
stays sound, programmed fuse bits stay programmed. -/

namespace Sys2Proof.Machine

/-- What holds from a state `s` to every state `t` that an operation makes of it. -/
structure Keeps (s t : State) : Prop where
  part : t.part = s.part
  pending : t.pending = s.pending
  sound : Sound s → Sound t
  fuses : Sound s → ∀ r b, bit (s.fuse r) b = true → bit (t.fuse r) b = true

/-- The same for what a command answers. -/
def KeepsOut (s : State) (o : Out) : Prop :=
  match o with
  | .next t => Keeps s t
  | _ => True

theorem Keeps.refl (s : State) : Keeps s s := ⟨rfl, rfl, id, fun _ _ _ x => x⟩

theorem Keeps.trans {s t u : State} (h : Keeps s t) (k : Keeps t u) : Keeps s u :=
  ⟨k.part.trans h.part, k.pending.trans h.pending, fun x => k.sound (h.sound x), fun x r b y => k.fuses (h.sound x) r b (h.fuses x r b y)⟩

theorem Keeps.out {s t : State} (h : Keeps s t) : KeepsOut s (.next t) := h

theorem keeps_cut {s t : State} {P : Prop} (h : Keeps s t) (k : Keeps s t → P) : P := k h

theorem keeps_cut_fst {s : State} {α : Type} {x : State × α} {P : Prop} (h : Keeps s x.1) (k : Keeps s x.1 → P) : P := k h

/-- The same for a state that may not come. -/
def KeepsOpt (s : State) (o : Option State) : Prop :=
  match o with
  | some t => Keeps s t
  | none => True

theorem keeps_some {s t : State} (h : Keeps s t) : KeepsOpt s (some t) := h

theorem keeps_none {s : State} : KeepsOpt s none := trivial

theorem keeps_of_some {s t : State} {o : Option State} (h : KeepsOpt s o) (e : o = some t) : Keeps s t := by subst e; exact h

theorem keeps_of_fst {s t : State} {α : Type} {p : State × α} {x : α} (h : Keeps s p.1) (e : p = (t, x)) : Keeps s t := by subst e; exact h

theorem keeps_of_snd {s t : State} {α : Type} {p : α × State} {x : α} (h : Keeps s p.2) (e : p = (x, t)) : Keeps s t := by subst e; exact h

theorem keeps_fst {s t : State} {α : Type} {x : α} (h : Keeps s t) : Keeps s (t, x).1 := h

theorem keeps_snd {s t : State} {α : Type} {x : α} (h : Keeps s t) : Keeps s (x, t).2 := h

theorem keeps_cut_snd {s : State} {α : Type} {x : α × State} {P : Prop} (h : Keeps s x.2) (k : Keeps s x.2 → P) : P := k h

theorem each_keeps {s0 s : State} {α : Type} {l : List α} {f : State → α → State} (h : Keeps s0 s)
    (hf : ∀ s a, Keeps s0 s → Keeps s0 (f s a)) : Keeps s0 (s.each l f) := by
  induction l generalizing s with
  | nil => exact h
  | cons a l ih => exact ih (hf s a h)

theorem foldl_keeps {s0 s : State} {α : Type} {l : List α} {f : State → α → State} (h : Keeps s0 s)
    (hf : ∀ s a, Keeps s0 s → Keeps s0 (f s a)) : Keeps s0 (l.foldl f s) := each_keeps h hf

theorem foldl_keeps_fst {s0 : State} {α β : Type} {l : List α} {f : State × β → α → State × β} {i : State × β} (h : Keeps s0 i.1)
    (hf : ∀ s b a, Keeps s0 s → Keeps s0 (f (s, b) a).1) : Keeps s0 (l.foldl f i).1 := by
  induction l generalizing i with
  | nil => exact h
  | cons a l ih => exact ih (hf i.1 i.2 a h)

theorem foldl_keeps_snd {s0 : State} {α β : Type} {l : List α} {f : β × State → α → β × State} {i : β × State} (h : Keeps s0 i.2)
    (hf : ∀ b s a, Keeps s0 s → Keeps s0 (f (b, s) a).2) : Keeps s0 (l.foldl f i).2 := by
  induction l generalizing i with
  | nil => exact h
  | cons a l ih => exact ih (hf i.1 i.2 a h)

/-- An update of fields other than the variant, the queue and the fuse rows. -/
theorem keeps_mk {s0 s : State} {time : Nat} {regs : List (Nat × Word)} {shadow : List (Nat × Word)} {mregs : List (Nat × Word)} {mem : List Host.Cell} {zptOld : Nat × List (Nat × Byte)} {resp : Resp} {badLines : List Nat} {free : Nat} {fltq : List Report} {dom : List (Nat × Dom)} {domWait : List Nat} {resetting : List Nat} {claims : List (Nat × Nat × Word)} {trk : Tracker} {meas : List WedgeMeas} {drl : List (Nat × DrillQ)} {afe : List (Nat × Afe)} {lnk : List (Nat × Link)} {rdh : List (Nat × RdHead)} {afm : Afm} {stpIn : List StpRec} {subFence : List (Nat × Nat × Nat)} {commitAt : List (Nat × Nat)} {lastCommit : List (Nat × Nat)} {preCopy : List (Nat × Word)} {wrh : List (Nat × WrHead)} {pesGuard : List (Nat × PesGuard)} {alertSt : List (Nat × Nat)} {shockEnd : List (Nat × Nat)} {shockSince : Nat} {supply : Option Nat} {windowClosed : Bool} {deviceInh : Bool} {d2dLost : Bool} {stripes : List (Nat × Stripe)} {stpReady : List Nat} {stpSeq : Nat} {dil : List (Nat × Dil)} {srvh : List (Nat × SrvHead)} {srv : List (Nat × Srv)} {loops : List (Nat × TilLoop)} {til : List (Nat × Til)} {prf : List (Nat × Prf)} {macts : List (Nat × Mact)} {mot : Mot} {spn : Spn} {spnWedge : Option (Rat × Nat)} {bufq : List (Nat × List BufReq)} {slots : List (Nat × Nat)} {lastGrant : List (Nat × Nat)} {mresp : List (Nat × Resp)} {srt : Srt} {gln : Gln} {mdc : Mdc} {dma : List (Nat × DmaChan)} {ports : List (Nat × Port)} {keys : List (Nat × List Byte)} {dbs : List (Nat × Doorbell)} {dbq : List (Nat × List DbEvent)} {supArmed : Nat} {nor : List Host.Cell} {norUnsure : List (Nat × Nat)} {nvs : Nvs} {sec : Sec} {smbTx : Option (Nat × Nat)} {smbOut : Option (Nat × List Byte)} {unfencing : Option UnfenceReq} {wdog : Option (Nat × Nat)} {aliveStart : Option Nat} {oscStable : Bool} {testHeld : Bool} {relock : Bool} {thmTold : Nat} {thmSeen : Bool} {warmReq : Option Nat} {motionDue : Bool} (h : Keeps s0 s) (e : sec.fuses = s.sec.fuses)
    (k : Sound s → Sound (State.mk s.pending time s.part regs shadow mregs mem zptOld resp badLines free fltq dom domWait resetting claims trk meas drl afe lnk rdh afm stpIn subFence commitAt lastCommit preCopy wrh pesGuard alertSt shockEnd shockSince supply windowClosed deviceInh d2dLost stripes stpReady stpSeq dil srvh srv loops til prf macts mot spn spnWedge bufq slots lastGrant mresp srt gln mdc dma ports keys dbs dbq supArmed nor norUnsure nvs sec smbTx smbOut unfencing wdog aliveStart oscStable testHeld relock thmTold thmSeen warmReq motionDue)) :
    Keeps s0 (State.mk s.pending time s.part regs shadow mregs mem zptOld resp badLines free fltq dom domWait resetting claims trk meas drl afe lnk rdh afm stpIn subFence commitAt lastCommit preCopy wrh pesGuard alertSt shockEnd shockSince supply windowClosed deviceInh d2dLost stripes stpReady stpSeq dil srvh srv loops til prf macts mot spn spnWedge bufq slots lastGrant mresp srt gln mdc dma ports keys dbs dbq supArmed nor norUnsure nvs sec smbTx smbOut unfencing wdog aliveStart oscStable testHeld relock thmTold thmSeen warmReq motionDue) :=
  h.trans ⟨rfl, rfl, k, by
    intro _ r b y; simp only [State.fuse] at *; rw [e]; exact y⟩

end Sys2Proof.Machine
end

