-- ==== Sys2Proof/Laws/KeepsOps.lean ====
section
/-! SUPPORT. The operations of Ops, Flags, Buffer, Pages, Furrow, Drill, Commit, Enqueue keep what `Keeps` says. -/

namespace Sys2Proof.Machine

theorem State.setByte_keeps {s0 : State} {s : State} {a : Nat} {b : Byte} (hs : Keeps s0 s) : Keeps s0 (State.setByte s a b) :=
  keeps_mk hs rfl (fun h => { h with mem := tabPut_wf h.mem rfl })

theorem State.answerErr_keeps {s0 : State} {s : State} (hs : Keeps s0 s) : Keeps s0 (State.answerErr s) := by
  unfold State.answerErr
  with_reducible repeat' first | assumption | intro _ | (refine keeps_mk ?_ rfl ?_; rotate_left; (intro hk; cases hk; constructor <;> first | assumption | exact tabPut_sorted (by assumption) | exact filter_sorted (by assumption) | exact tabSorted_nil | exact foldl_tabPut_sorted (by assumption)))

theorem State.setReg_keeps {s0 : State} {s : State} {p : Nat} {off : Nat} {v : Word} (hs : Keeps s0 s) : Keeps s0 (State.setReg s p off v) := by
  unfold State.setReg
  with_reducible repeat' first | assumption | intro _ | (refine keeps_mk ?_ rfl ?_; rotate_left; (intro hk; cases hk; constructor <;> first | assumption | exact tabPut_sorted (by assumption) | exact filter_sorted (by assumption) | exact tabSorted_nil | exact foldl_tabPut_sorted (by assumption)))

theorem State.put_keeps {s0 : State} {s : State} {p : Nat} {f : Fld} {v : Nat} (hs : Keeps s0 s) : Keeps s0 (State.put s p f v) := by
  unfold State.put
  with_reducible repeat' first | assumption | apply State.setReg_keeps

theorem State.addWrap_keeps {s0 : State} {s : State} {p : Nat} {f : Fld} {n : Nat} (hs : Keeps s0 s) : Keeps s0 (State.addWrap s p f n) := by
  unfold State.addWrap
  with_reducible repeat' first | assumption | apply State.put_keeps

theorem State.setMreg_keeps {s0 : State} {s : State} {m : Master} {p : Nat} {off : Nat} {v : Word} (hs : Keeps s0 s) : Keeps s0 (State.setMreg s m p off v) := by
  unfold State.setMreg
  with_reducible repeat' first | assumption | intro _ | (refine keeps_mk ?_ rfl ?_; rotate_left; (intro hk; cases hk; constructor <;> first | assumption | exact tabPut_sorted (by assumption) | exact filter_sorted (by assumption) | exact tabSorted_nil | exact foldl_tabPut_sorted (by assumption)))

theorem State.addSat_keeps {s0 : State} {s : State} {p : Nat} {f : Fld} {n : Nat} (hs : Keeps s0 s) : Keeps s0 (State.addSat s p f n) := by
  unfold State.addSat
  with_reducible repeat' first | assumption | apply State.put_keeps

theorem State.inc_keeps {s0 : State} {s : State} {p : Nat} {f : Fld} (hs : Keeps s0 s) : Keeps s0 (State.inc s p f) := by
  unfold State.inc
  with_reducible repeat' first | assumption | apply State.addSat_keeps

theorem State.storeBytes_keeps {s0 : State} {s : State} {a : Nat} {bs : List Byte} (hs : Keeps s0 s) : Keeps s0 (State.storeBytes s a bs) := by
  induction bs generalizing s a with
  | nil => exact hs
  | cons b r ih => exact ih (State.setByte_keeps hs)

theorem State.putM_keeps {s0 : State} {s : State} {m : Master} {p : Nat} {f : Fld} {v : Nat} (hs : Keeps s0 s) : Keeps s0 (State.putM s m p f v) := by
  unfold State.putM
  with_reducible repeat' first | assumption | apply State.setMreg_keeps

theorem State.putB_keeps {s0 : State} {s : State} {p : Nat} {f : Fld} {b : Bool} (hs : Keeps s0 s) : Keeps s0 (State.putB s p f b) := by
  unfold State.putB
  with_reducible repeat' first | assumption | apply State.put_keeps | split

theorem State.putMax_keeps {s0 : State} {s : State} {p : Nat} {f : Fld} {v : Nat} (hs : Keeps s0 s) : Keeps s0 (State.putMax s p f v) := by
  unfold State.putMax
  with_reducible repeat' first | assumption | apply State.put_keeps | split

theorem State.store_keeps {s0 : State} {s : State} {a : Nat} {n : Nat} {v : Nat} (hs : Keeps s0 s) : Keeps s0 (State.store s a n v) := by
  induction n generalizing s a v with
  | zero => exact hs
  | succ n ih => exact ih (State.setByte_keeps hs)

theorem State.answer_keeps {s0 : State} {s : State} {v : Nat} (hs : Keeps s0 s) : Keeps s0 (State.answer s v) := by
  unfold State.answer
  with_reducible repeat' first | assumption | intro _ | (refine keeps_mk ?_ rfl ?_; rotate_left; (intro hk; cases hk; constructor <;> first | assumption | exact tabPut_sorted (by assumption) | exact filter_sorted (by assumption) | exact tabSorted_nil | exact foldl_tabPut_sorted (by assumption)))

theorem State.drew_keeps {s0 : State} {s : State} (hs : Keeps s0 s) : Keeps s0 (State.drew s) := by
  unfold State.drew
  with_reducible repeat' first | assumption | intro _ | (refine keeps_mk ?_ rfl ?_; rotate_left; (intro hk; cases hk; constructor <;> first | assumption | exact tabPut_sorted (by assumption) | exact filter_sorted (by assumption) | exact tabSorted_nil | exact foldl_tabPut_sorted (by assumption)))

theorem State.setShadowReg_keeps {s0 : State} {s : State} {p : Nat} {off : Nat} {v : Word} (hs : Keeps s0 s) : Keeps s0 (State.setShadowReg s p off v) := by
  unfold State.setShadowReg
  with_reducible repeat' first | assumption | intro _ | (refine keeps_mk ?_ rfl ?_; rotate_left; (intro hk; cases hk; constructor <;> first | assumption | exact tabPut_sorted (by assumption) | exact filter_sorted (by assumption) | exact tabSorted_nil | exact foldl_tabPut_sorted (by assumption)))

theorem State.idleTick_keeps {s0 : State} {s : State} (hs : Keeps s0 s) : Keeps s0 (State.idleTick s) := by
  unfold State.idleTick
  with_reducible repeat' first | assumption | intro _ | split | (refine keeps_mk ?_ rfl ?_; rotate_left; (intro hk; cases hk; constructor <;> first | assumption | exact tabPut_sorted (by assumption) | exact filter_sorted (by assumption) | exact tabSorted_nil | exact foldl_tabPut_sorted (by assumption)))

theorem State.irqBits_keeps {s0 : State} {s : State} {p : Nat} {m : Nat} (hs : Keeps s0 s) : Keeps s0 (State.irqBits s p m) := by
  unfold State.irqBits
  with_reducible repeat' first | assumption | intro _ | apply State.setReg_keeps

theorem State.irq_keeps {s0 : State} {s : State} {p : Nat} {b : Nat} (hs : Keeps s0 s) : Keeps s0 (State.irq s p b) := by
  unfold State.irq
  with_reducible repeat' first | assumption | apply State.irqBits_keeps

theorem State.raiseWith_keeps {s0 : State} {s : State} {p : Nat} {b : Nat} {d : Detail} (hs : Keeps s0 s) : Keeps s0 (State.raiseWith s p b d) := by
  unfold State.raiseWith
  with_reducible repeat' first | assumption | intro _ | apply State.irq_keeps | apply State.setReg_keeps | (extract_lets +onlyGivenNames x; first | (refine keeps_cut (s := s0) (t := x) ?_ (fun hx => ?_); unfold x; clear x; rotate_left; clear_value x; rotate_right) | clear_value x) | split | (refine keeps_mk ?_ rfl ?_; rotate_left; (intro hk; cases hk; constructor <;> first | assumption | exact tabPut_sorted (by assumption) | exact filter_sorted (by assumption) | exact tabSorted_nil | exact foldl_tabPut_sorted (by assumption)))

theorem State.raise_keeps {s0 : State} {s : State} {p : Nat} {b : Nat} (hs : Keeps s0 s) : Keeps s0 (State.raise s p b) := by
  unfold State.raise
  with_reducible repeat' first | assumption | intro _ | apply State.raiseWith_keeps

theorem State.raiseAccess_keeps {s0 : State} {s : State} {m : Option Master} {access : Nat} {addr : Nat} (hs : Keeps s0 s) : Keeps s0 (State.raiseAccess s m access addr) := by
  unfold State.raiseAccess
  with_reducible repeat' first | assumption | intro _ | apply State.raiseWith_keeps | split

theorem State.raiseBy_keeps {s0 : State} {s : State} {p : Nat} {b : Nat} {m : Master} {access : Nat} {addr : Nat} (hs : Keeps s0 s) : Keeps s0 (State.raiseBy s p b m access addr) := by
  unfold State.raiseBy
  with_reducible repeat' first | assumption | intro _ | apply State.raiseWith_keeps

theorem State.raiseSub_keeps {s0 : State} {s : State} {p : Nat} {b : Nat} {sub : Nat} (hs : Keeps s0 s) : Keeps s0 (State.raiseSub s p b sub) := by
  unfold State.raiseSub
  with_reducible repeat' first | assumption | intro _ | apply State.raiseWith_keeps

theorem State.dramUe_keeps {s0 : State} {s : State} {m : Option Master} {w : Bool} {l : Nat} (hs : Keeps s0 s) : Keeps s0 (State.dramUe s m w l) := by
  unfold State.dramUe
  with_reducible repeat' first | assumption | intro _ | apply State.raiseWith_keeps | apply State.inc_keeps | apply State.put_keeps | apply State.irq_keeps | apply State.raise_keeps | (extract_lets +onlyGivenNames x; first | (refine keeps_cut (s := s0) (t := x) ?_ (fun hx => ?_); unfold x; clear x; rotate_left; clear_value x; rotate_right) | clear_value x) | split

theorem State.badRead_keeps {s0 : State} {s : State} {m : Option Master} {w : Bool} {l : Nat} (hs : Keeps s0 s) : Keeps s0 (State.badRead s m w l) := by
  unfold State.badRead
  with_reducible repeat' first | assumption | intro _ | apply State.dramUe_keeps | split

theorem State.raiseRefusal_keeps {s0 : State} {s : State} {m : Option Master} {w : Bool} {r : Option Nat} {x : Nat} (hs : Keeps s0 s) : Keeps s0 (State.raiseRefusal s m w r x) := by
  unfold State.raiseRefusal
  with_reducible repeat' first | assumption | intro _ | apply State.raiseAccess_keeps | apply State.raiseWith_keeps | split

theorem State.bufRead_keeps {s0 : State} {s : State} {m : Option Master} {a : Nat} {n : Nat} (hs : Keeps s0 s) : Keeps s0 (State.bufRead s m a n).1 := by
  unfold State.bufRead
  with_reducible repeat' first | assumption | intro _ | apply State.raiseRefusal_keeps | apply State.badRead_keeps | dsimp -zeta only | refine keeps_of_fst ?_ (by assumption) | refine keeps_of_snd ?_ (by assumption) | split

theorem State.countRmw_keeps {s0 : State} {s : State} {a : Nat} {n : Nat} (hs : Keeps s0 s) : Keeps s0 (State.countRmw s a n) := by
  unfold State.countRmw
  with_reducible repeat' first | assumption | intro _ | apply State.inc_keeps | apply each_keeps

theorem State.ringDrop_keeps {s0 : State} {s : State} {r : Ring} (hs : Keeps s0 s) : Keeps s0 (State.ringDrop s r) := by
  unfold State.ringDrop
  with_reducible repeat' first | assumption | apply State.raise_keeps | apply State.inc_keeps

theorem State.noteZpt_keeps {s0 : State} {s : State} {a : Nat} {n : Nat} (hs : Keeps s0 s) : Keeps s0 (State.noteZpt s a n) := by
  unfold State.noteZpt
  with_reducible repeat' first | assumption | intro _ | (extract_lets +onlyGivenNames x; clear_value x) | split | (refine keeps_mk ?_ rfl ?_; rotate_left; (intro hk; cases hk; constructor <;> first | assumption | exact tabPut_sorted (by assumption) | exact filter_sorted (by assumption) | exact tabSorted_nil | exact foldl_tabPut_sorted (by assumption)))

theorem State.bufWrite_keeps {s0 : State} {s : State} {m : Option Master} {a : Nat} {bs : List Byte} (hs : Keeps s0 s) : Keeps s0 (State.bufWrite s m a bs).1 := by
  unfold State.bufWrite
  with_reducible repeat' first | assumption | intro _ | apply State.raiseRefusal_keeps | apply State.badRead_keeps | apply State.storeBytes_keeps | apply State.countRmw_keeps | apply State.noteZpt_keeps | dsimp -zeta only | refine keeps_of_fst ?_ (by assumption) | refine keeps_of_snd ?_ (by assumption) | (extract_lets +onlyGivenNames x; first | (refine keeps_cut (s := s0) (t := x) ?_ (fun hx => ?_); unfold x; clear x; rotate_left; clear_value x; rotate_right) | clear_value x) | split | (refine keeps_mk ?_ rfl ?_; rotate_left; (intro hk; cases hk; constructor <;> first | assumption | exact tabPut_sorted (by assumption) | exact filter_sorted (by assumption) | exact tabSorted_nil | exact foldl_tabPut_sorted (by assumption)))

theorem State.ringWrite_keeps {s0 : State} {s : State} {r : Ring} {m : Option Master} {ws : List Nat} (hs : Keeps s0 s) : Keeps s0 (State.ringWrite s r m ws).1 := by
  unfold State.ringWrite
  with_reducible repeat' first | assumption | intro _ | apply State.ringDrop_keeps | apply State.bufWrite_keeps | apply State.irq_keeps | apply State.put_keeps | dsimp -zeta only | refine keeps_of_fst ?_ (by assumption) | refine keeps_of_snd ?_ (by assumption) | (extract_lets +onlyGivenNames x; clear_value x) | split

theorem State.regRead_keeps {s0 : State} {s : State} {m : Master} {p : Nat} {off : Nat} {k : State → State} (hs : Keeps s0 s) (hk : ∀ y0, Keeps s0 y0 → Keeps s0 (k y0)) : Keeps s0 (State.regRead s m p off k) := by
  unfold State.regRead
  with_reducible repeat' first | assumption | apply State.answer_keeps | apply State.raiseBy_keeps | apply hk | split

theorem State.hdrCmd_keeps {s0 : State} {s : State} {p : Nat} {k : State → State} (hs : Keeps s0 s) (hk : ∀ y0, Keeps s0 y0 → Keeps s0 (k y0)) : Keeps s0 (State.hdrCmd s p k) := by
  unfold State.hdrCmd
  with_reducible repeat' first | assumption | apply hk | split

theorem State.setDom_keeps {s0 : State} {s : State} {d : Nat} {v : Dom} (hs : Keeps s0 s) : Keeps s0 (State.setDom s d v) := by
  unfold State.setDom
  with_reducible repeat' first | assumption | intro _ | (refine keeps_mk ?_ rfl ?_; rotate_left; (intro hk; cases hk; constructor <;> first | assumption | exact tabPut_sorted (by assumption) | exact filter_sorted (by assumption) | exact tabSorted_nil | exact foldl_tabPut_sorted (by assumption)))

theorem State.regCmd_keeps {s0 : State} {s : State} {m : Master} {p : Nat} {off : Nat} {k : State → State} (hs : Keeps s0 s) (hk : ∀ y0, Keeps s0 y0 → Keeps s0 (k y0)) : Keeps s0 (State.regCmd s m p off k) := by
  unfold State.regCmd
  with_reducible repeat' first | assumption | apply State.raiseBy_keeps | apply hk | split

theorem execTrackToAcquire_keeps {s0 : State} {s : State} (hs : Keeps s0 s) : KeepsOut s0 (execTrackToAcquire s) := by
  unfold execTrackToAcquire
  with_reducible repeat' first | assumption | intro _ | apply State.put_keeps | apply Keeps.out | (extract_lets +onlyGivenNames x; first | (refine keeps_cut (s := s0) (t := x) ?_ (fun hx => ?_); unfold x; clear x; rotate_left; clear_value x; rotate_right) | clear_value x) | split | (refine keeps_mk ?_ rfl ?_; rotate_left; (intro hk; cases hk; constructor <;> first | assumption | exact tabPut_sorted (by assumption) | exact filter_sorted (by assumption) | exact tabSorted_nil | exact foldl_tabPut_sorted (by assumption)))

theorem execTimeLoRead_keeps {s0 : State} {m : Master} {s : State} (hs : Keeps s0 s) : KeepsOut s0 (execTimeLoRead m s) := by
  unfold execTimeLoRead
  with_reducible repeat' first | assumption | apply State.answer_keeps | apply State.setMreg_keeps | apply Keeps.out | (extract_lets +onlyGivenNames x; clear_value x) | split

theorem execTrackerHoldover_keeps {s0 : State} {s : State} (hs : Keeps s0 s) : KeepsOut s0 (execTrackerHoldover s) := by
  unfold execTrackerHoldover
  with_reducible repeat' first | assumption | intro _ | apply State.raise_keeps | apply State.irq_keeps | apply State.put_keeps | apply Keeps.out | (extract_lets +onlyGivenNames x; first | (refine keeps_cut (s := s0) (t := x) ?_ (fun hx => ?_); unfold x; clear x; rotate_left; clear_value x; rotate_right) | clear_value x) | split | (refine keeps_mk ?_ rfl ?_; rotate_left; (intro hk; cases hk; constructor <;> first | assumption | exact tabPut_sorted (by assumption) | exact filter_sorted (by assumption) | exact tabSorted_nil | exact foldl_tabPut_sorted (by assumption)))

theorem State.notePhase_keeps {s0 : State} {s : State} {e : Rat} (hs : Keeps s0 s) : Keeps s0 (State.notePhase s e) := by
  unfold State.notePhase
  with_reducible repeat' first | assumption | apply State.putMax_keeps | apply State.put_keeps | (extract_lets +onlyGivenNames x; clear_value x) | split

theorem State.trackerStart_keeps {s0 : State} {s : State} (hs : Keeps s0 s) : Keeps s0 (State.trackerStart s) := by
  unfold State.trackerStart
  with_reducible repeat' first | assumption | intro _ | apply State.put_keeps | (extract_lets +onlyGivenNames x; first | (refine keeps_cut (s := s0) (t := x) ?_ (fun hx => ?_); unfold x; clear x; rotate_left; clear_value x; rotate_right) | clear_value x) | split | (refine keeps_mk ?_ rfl ?_; rotate_left; (intro hk; cases hk; constructor <;> first | assumption | exact tabPut_sorted (by assumption) | exact filter_sorted (by assumption) | exact tabSorted_nil | exact foldl_tabPut_sorted (by assumption)))

theorem State.trackerIdle_keeps {s0 : State} {s : State} (hs : Keeps s0 s) : Keeps s0 (State.trackerIdle s) := by
  unfold State.trackerIdle
  with_reducible repeat' first | assumption | intro _ | apply State.put_keeps | (extract_lets +onlyGivenNames x; first | (refine keeps_cut (s := s0) (t := x) ?_ (fun hx => ?_); unfold x; clear x; rotate_left; clear_value x; rotate_right) | clear_value x) | (refine keeps_mk ?_ rfl ?_; rotate_left; (intro hk; cases hk; constructor <;> first | assumption | exact tabPut_sorted (by assumption) | exact filter_sorted (by assumption) | exact tabSorted_nil | exact foldl_tabPut_sorted (by assumption)))

theorem execTrackEn_keeps {s0 : State} {m : Master} {en : Bool} {s : State} (hs : Keeps s0 s) : KeepsOut s0 (execTrackEn m en s) := by
  unfold execTrackEn
  with_reducible repeat' first | assumption | intro _ | apply State.regCmd_keeps | apply State.putB_keeps | apply State.trackerStart_keeps | apply State.trackerIdle_keeps | apply Keeps.out | (extract_lets +onlyGivenNames x; first | (refine keeps_cut (s := s0) (t := x) ?_ (fun hx => ?_); unfold x; clear x; rotate_left; clear_value x; rotate_right) | clear_value x) | split

theorem execTrackerEnterTrack_keeps {s0 : State} {s : State} (hs : Keeps s0 s) : KeepsOut s0 (execTrackerEnterTrack s) := by
  unfold execTrackerEnterTrack
  with_reducible repeat' first | assumption | intro _ | apply State.put_keeps | apply Keeps.out | (extract_lets +onlyGivenNames x; first | (refine keeps_cut (s := s0) (t := x) ?_ (fun hx => ?_); unfold x; clear x; rotate_left; clear_value x; rotate_right) | clear_value x) | split | (refine keeps_mk ?_ rfl ?_; rotate_left; (intro hk; cases hk; constructor <;> first | assumption | exact tabPut_sorted (by assumption) | exact filter_sorted (by assumption) | exact tabSorted_nil | exact foldl_tabPut_sorted (by assumption)))

theorem execTrackerLocked_keeps {s0 : State} {s : State} (hs : Keeps s0 s) : KeepsOut s0 (execTrackerLocked s) := by
  unfold execTrackerLocked
  with_reducible repeat' first | assumption | intro _ | apply State.irq_keeps | apply State.put_keeps | apply Keeps.out | (extract_lets +onlyGivenNames x; first | (refine keeps_cut (s := s0) (t := x) ?_ (fun hx => ?_); unfold x; clear x; rotate_left; clear_value x; rotate_right) | clear_value x) | split | (refine keeps_mk ?_ rfl ?_; rotate_left; (intro hk; cases hk; constructor <;> first | assumption | exact tabPut_sorted (by assumption) | exact filter_sorted (by assumption) | exact tabSorted_nil | exact foldl_tabPut_sorted (by assumption)))

theorem State.trackWedge_keeps {s0 : State} {s : State} (hs : Keeps s0 s) : Keeps s0 (State.trackWedge s) := by
  unfold State.trackWedge
  with_reducible repeat' first | assumption | intro _ | apply State.put_keeps | apply State.notePhase_keeps | apply State.inc_keeps | apply State.irq_keeps | (extract_lets +onlyGivenNames x; first | (refine keeps_cut (s := s0) (t := x) ?_ (fun hx => ?_); unfold x; clear x; rotate_left; clear_value x; rotate_right) | clear_value x) | split | (refine keeps_mk ?_ rfl ?_; rotate_left; (intro hk; cases hk; constructor <;> first | assumption | exact tabPut_sorted (by assumption) | exact filter_sorted (by assumption) | exact tabSorted_nil | exact foldl_tabPut_sorted (by assumption)))

theorem execAcqTimeout_keeps {s0 : State} {s : State} (hs : Keeps s0 s) : KeepsOut s0 (execAcqTimeout s) := by
  unfold execAcqTimeout
  with_reducible repeat' first | assumption | intro _ | apply State.raise_keeps | apply State.irq_keeps | apply State.put_keeps | apply Keeps.out | (extract_lets +onlyGivenNames x; first | (refine keeps_cut (s := s0) (t := x) ?_ (fun hx => ?_); unfold x; clear x; rotate_left; clear_value x; rotate_right) | clear_value x) | split | (refine keeps_mk ?_ rfl ?_; rotate_left; (intro hk; cases hk; constructor <;> first | assumption | exact tabPut_sorted (by assumption) | exact filter_sorted (by assumption) | exact tabSorted_nil | exact foldl_tabPut_sorted (by assumption)))

theorem State.acquireWedge_keeps {s0 : State} {s : State} (hs : Keeps s0 s) : Keeps s0 (State.acquireWedge s) := by
  unfold State.acquireWedge
  with_reducible repeat' first | assumption | intro _ | apply State.put_keeps | apply State.inc_keeps | (extract_lets +onlyGivenNames x; first | (refine keeps_cut (s := s0) (t := x) ?_ (fun hx => ?_); unfold x; clear x; rotate_left; clear_value x; rotate_right) | clear_value x) | split | (refine keeps_mk ?_ rfl ?_; rotate_left; (intro hk; cases hk; constructor <;> first | assumption | exact tabPut_sorted (by assumption) | exact filter_sorted (by assumption) | exact tabSorted_nil | exact foldl_tabPut_sorted (by assumption)))

theorem execWedges_keeps {s0 : State} {m : Master} {n : BitVec 11} {s : State} (hs : Keeps s0 s) : KeepsOut s0 (execWedges m n s) := by
  unfold execWedges
  with_reducible repeat' first | assumption | intro _ | apply State.regCmd_keeps | apply State.put_keeps | apply State.raise_keeps | apply State.irq_keeps | apply Keeps.out | split

theorem execCounterMismatch_keeps {s0 : State} {s : State} (hs : Keeps s0 s) : KeepsOut s0 (execCounterMismatch s) := by
  unfold execCounterMismatch
  with_reducible repeat' first | assumption | apply State.raise_keeps | apply Keeps.out

theorem execWedgeMeasurement_keeps {s0 : State} {s : State} (hs : Keeps s0 s) : KeepsOut s0 (execWedgeMeasurement s) := by
  unfold execWedgeMeasurement
  with_reducible repeat' first | assumption | intro _ | apply State.acquireWedge_keeps | apply State.trackWedge_keeps | apply Keeps.out | split | (refine keeps_mk ?_ rfl ?_; rotate_left; (intro hk; cases hk; constructor <;> first | assumption | exact tabPut_sorted (by assumption) | exact filter_sorted (by assumption) | exact tabSorted_nil | exact foldl_tabPut_sorted (by assumption)))

theorem execTrackerLost_keeps {s0 : State} {s : State} (hs : Keeps s0 s) : KeepsOut s0 (execTrackerLost s) := by
  unfold execTrackerLost
  with_reducible repeat' first | assumption | apply State.raise_keeps | apply State.irq_keeps | apply State.put_keeps | apply Keeps.out | split

theorem State.noteRefusal_keeps {s0 : State} {s : State} {d : Nat} {v : Verdict} (hs : Keeps s0 s) : Keeps s0 (State.noteRefusal s d v) := by
  unfold State.noteRefusal
  with_reducible repeat' first | assumption | intro _ | apply State.irq_keeps | apply State.raise_keeps | (extract_lets +onlyGivenNames x; first | (refine keeps_cut (s := s0) (t := x) ?_ (fun hx => ?_); unfold x; clear x; rotate_left; clear_value x; rotate_right) | clear_value x) | split

theorem State.noteQueue_keeps {s0 : State} {s : State} {d : Nat} (hs : Keeps s0 s) : Keeps s0 (State.noteQueue s d) := by
  unfold State.noteQueue
  with_reducible repeat' first | assumption | intro _ | apply State.put_keeps | (extract_lets +onlyGivenNames x; first | (refine keeps_cut (s := s0) (t := x) ?_ (fun hx => ?_); unfold x; clear x; rotate_left; clear_value x; rotate_right) | clear_value x) | split

theorem State.setDrl_keeps {s0 : State} {s : State} {d : Nat} {q : DrillQ} (hs : Keeps s0 s) : Keeps s0 (State.setDrl s d q) := by
  unfold State.setDrl
  with_reducible repeat' first | assumption | intro _ | (refine keeps_mk ?_ rfl ?_; rotate_left; (intro hk; cases hk; constructor <;> first | assumption | exact tabPut_sorted (by assumption) | exact filter_sorted (by assumption) | exact tabSorted_nil | exact foldl_tabPut_sorted (by assumption)))

theorem State.dropEntry_keeps {s0 : State} {s : State} {d : Nat} {n : Nat} (hs : Keeps s0 s) : Keeps s0 (State.dropEntry s d n) := by
  unfold State.dropEntry
  with_reducible repeat' first | assumption | apply State.noteQueue_keeps | apply State.setDrl_keeps | (extract_lets +onlyGivenNames x; clear_value x)

theorem State.retire_keeps {s0 : State} {s : State} {d : Nat} {e : Entry} {isClose : Bool} {outcome : Nat} {launch : Option Int} {late : Int} (hs : Keeps s0 s) : Keeps s0 (State.retire s d e isClose outcome launch late) := by
  unfold State.retire
  with_reducible repeat' first | assumption | intro _ | apply State.setDrl_keeps | apply State.ringWrite_keeps | apply State.irq_keeps | apply State.raise_keeps | apply State.put_keeps | apply State.inc_keeps | dsimp -zeta only | refine keeps_of_fst ?_ (by assumption) | refine keeps_of_snd ?_ (by assumption) | (extract_lets +onlyGivenNames x; first | (refine keeps_cut (s := s0) (t := x) ?_ (fun hx => ?_); unfold x; clear x; rotate_left; clear_value x; rotate_right) | clear_value x) | split

theorem State.retireWhole_keeps {s0 : State} {s : State} {d : Nat} {e : Entry} {outcome : Nat} (hs : Keeps s0 s) : Keeps s0 (State.retireWhole s d e outcome) := by
  unfold State.retireWhole
  with_reducible repeat' first | assumption | intro _ | apply State.dropEntry_keeps | apply State.retire_keeps | (extract_lets +onlyGivenNames x; first | (refine keeps_cut (s := s0) (t := x) ?_ (fun hx => ?_); unfold x; clear x; rotate_left; clear_value x; rotate_right) | clear_value x) | split

theorem State.removeEntries_keeps {s0 : State} {s : State} {d : Nat} {f : Entry → Bool} {outcome : Nat} (hs : Keeps s0 s) : Keeps s0 (State.removeEntries s d f outcome) := by
  unfold State.removeEntries
  with_reducible repeat' first | assumption | intro _ | apply State.retireWhole_keeps | apply each_keeps

theorem State.flushDrill_keeps {s0 : State} {s : State} {d : Nat} (hs : Keeps s0 s) : Keeps s0 (State.flushDrill s d) := by
  unfold State.flushDrill
  with_reducible repeat' first | assumption | apply State.removeEntries_keeps

theorem State.takeSlot_keeps {s0 : State} {s : State} {d : Nat} {used : List Nat} (hs : Keeps s0 s) : Keeps s0 (State.takeSlot s d used).1 := by
  unfold State.takeSlot
  with_reducible repeat' first | assumption | intro _ | apply State.drew_keeps | dsimp -zeta only | refine keeps_of_fst ?_ (by assumption) | refine keeps_of_snd ?_ (by assumption) | (extract_lets +onlyGivenNames x; clear_value x)

theorem State.enterEntry_keeps {s0 : State} {s : State} {d : Nat} {e : Entry} (hs : Keeps s0 s) : Keeps s0 (State.enterEntry s d e).1 := by
  unfold State.enterEntry
  with_reducible repeat' first | assumption | intro _ | apply State.takeSlot_keeps | apply State.noteQueue_keeps | apply State.setDrl_keeps | dsimp -zeta only | refine keeps_of_fst ?_ (by assumption) | refine keeps_of_snd ?_ (by assumption) | (extract_lets +onlyGivenNames x; first | (refine keeps_cut_fst (s := s0) (x := x) ?_ (fun hx => ?_); unfold x; clear x; rotate_left; clear_value x; rotate_right) | (refine keeps_cut_snd (s := s0) (x := x) ?_ (fun hx => ?_); unfold x; clear x; rotate_left; clear_value x; rotate_right) | clear_value x) | split

theorem State.admitBatch_keeps {s0 : State} {s : State} {d : Nat} {es : List Entry} {now : Int} {lead : Int} (hs : Keeps s0 s) : Keeps s0 (State.admitBatch s d es now lead).1 := by
  unfold State.admitBatch
  with_reducible repeat' first | assumption | intro _ | apply State.noteRefusal_keeps | apply State.enterEntry_keeps | dsimp -zeta only | refine keeps_of_fst ?_ (by assumption) | refine keeps_of_snd ?_ (by assumption) | apply each_keeps | (extract_lets +onlyGivenNames x; clear_value x) | split

theorem State.retireClose_keeps {s0 : State} {s : State} {d : Nat} {e : Entry} {outcome : Nat} (hs : Keeps s0 s) : Keeps s0 (State.retireClose s d e outcome) := by
  unfold State.retireClose
  with_reducible repeat' first | assumption | intro _ | apply State.retire_keeps | apply State.dropEntry_keeps | split

theorem execFlush_keeps {s0 : State} {m : Master} {d : Fin 9} {s : State} (hs : Keeps s0 s) : KeepsOut s0 (execFlush m d s) := by
  unfold execFlush
  with_reducible repeat' first | assumption | intro _ | apply State.regCmd_keeps | apply State.put_keeps | apply State.flushDrill_keeps | apply Keeps.out

theorem State.skipDrill_keeps {s0 : State} {s : State} {d : Nat} (hs : Keeps s0 s) : Keeps s0 (State.skipDrill s d) := by
  unfold State.skipDrill
  with_reducible repeat' first | assumption | apply State.removeEntries_keeps | apply State.setDrl_keeps | (extract_lets +onlyGivenNames x; first | (refine keeps_cut (s := s0) (t := x) ?_ (fun hx => ?_); unfold x; clear x; rotate_left; clear_value x; rotate_right) | clear_value x)

theorem execFlushDone_keeps {s0 : State} {d : Fin 9} {s : State} (hs : Keeps s0 s) : KeepsOut s0 (execFlushDone d s) := by
  unfold execFlushDone
  with_reducible repeat' first | assumption | apply State.put_keeps | apply Keeps.out

theorem State.updEntry_keeps {s0 : State} {s : State} {d : Nat} {e : Entry} (hs : Keeps s0 s) : Keeps s0 (State.updEntry s d e) := by
  unfold State.updEntry
  with_reducible repeat' first | assumption | apply State.noteQueue_keeps | apply State.setDrl_keeps | (extract_lets +onlyGivenNames x; clear_value x) | split

theorem State.retireOne_keeps {s0 : State} {s : State} {d : Nat} {e : Entry} {outcome : Nat} {late : Int} (hs : Keeps s0 s) : Keeps s0 (State.retireOne s d e outcome late) := by
  unfold State.retireOne
  with_reducible repeat' first | assumption | intro _ | apply State.retire_keeps | apply State.dropEntry_keeps | split

theorem execMissed_keeps {s0 : State} {d : Fin 9} {s : State} (hs : Keeps s0 s) : KeepsOut s0 (execMissed d s) := by
  unfold execMissed
  with_reducible repeat' first | assumption | intro _ | apply State.retireOne_keeps | apply Keeps.out | split

theorem State.enqueueOne_keeps {s0 : State} {s : State} {d : Nat} {w0 : Word} {w1 : Word} {w2 : Word} {w3 : Word} {now : Nat} {lead : Int} (hs : Keeps s0 s) : Keeps s0 (State.enqueueOne s d w0 w1 w2 w3 now lead).1 := by
  unfold State.enqueueOne
  with_reducible repeat' first | assumption | intro _ | apply State.noteRefusal_keeps | apply State.enterEntry_keeps | dsimp -zeta only | refine keeps_of_fst ?_ (by assumption) | refine keeps_of_snd ?_ (by assumption) | (extract_lets +onlyGivenNames x; first | (refine keeps_cut_fst (s := s0) (x := x) ?_ (fun hx => ?_); unfold x; clear x; rotate_left; clear_value x; rotate_right) | (refine keeps_cut_snd (s := s0) (x := x) ?_ (fun hx => ?_); unfold x; clear x; rotate_left; clear_value x; rotate_right) | clear_value x) | split

theorem State.resetDrill_keeps {s0 : State} {s : State} {d : Nat} (hs : Keeps s0 s) : Keeps s0 (State.resetDrill s d) := by
  unfold State.resetDrill
  with_reducible repeat' first | assumption | intro _ | apply State.noteQueue_keeps | apply State.setDrl_keeps | (extract_lets +onlyGivenNames x; clear_value x)

theorem State.retireOpen_keeps {s0 : State} {s : State} {d : Nat} {e : Entry} {outcome : Nat} (hs : Keeps s0 s) : Keeps s0 (State.retireOpen s d e outcome) := by
  unfold State.retireOpen
  with_reducible repeat' first | assumption | intro _ | apply State.retire_keeps | apply State.updEntry_keeps | split

theorem State.launchSerial_keeps {s0 : State} {s : State} {d : Nat} {e : Entry} {gap : Nat} (hs : Keeps s0 s) : Keeps s0 (State.launchSerial s d e gap) := by
  unfold State.launchSerial
  with_reducible repeat' first | assumption | apply State.retireOne_keeps | apply State.setDrl_keeps | (extract_lets +onlyGivenNames x; clear_value x) | split

theorem execFinalResolution_keeps {s0 : State} {d : Fin 9} {s : State} (hs : Keeps s0 s) : KeepsOut s0 (execFinalResolution d s) := by
  unfold execFinalResolution
  with_reducible repeat' first | assumption | intro _ | apply State.updEntry_keeps | apply State.retireWhole_keeps | apply Keeps.out | (extract_lets +onlyGivenNames x; clear_value x) | split

theorem execQCancel_keeps {s0 : State} {m : Master} {d : Fin 9} {tag : BitVec 16} {mask : BitVec 16} {s : State} (hs : Keeps s0 s) : KeepsOut s0 (execQCancel m d tag mask s) := by
  unfold execQCancel
  with_reducible repeat' first | assumption | intro _ | apply State.regCmd_keeps | apply State.removeEntries_keeps | apply Keeps.out

theorem State.setCommitTime_keeps {s0 : State} {s : State} {p : Nat} {t : Nat} (hs : Keeps s0 s) : Keeps s0 (State.setCommitTime s p t) := by
  unfold State.setCommitTime
  with_reducible repeat' first | assumption | intro _ | (refine keeps_mk ?_ rfl ?_; rotate_left; (intro hk; cases hk; constructor <;> first | assumption | exact tabPut_sorted (by assumption) | exact filter_sorted (by assumption) | exact tabSorted_nil | exact foldl_tabPut_sorted (by assumption)))

theorem State.armCommit_keeps {s0 : State} {s : State} {p : Nat} {src : Nat} {t : Nat} (hs : Keeps s0 s) : Keeps s0 (State.armCommit s p src t) := by
  unfold State.armCommit
  with_reducible repeat' first | assumption | apply State.put_keeps | apply State.raise_keeps | apply State.setCommitTime_keeps | (extract_lets +onlyGivenNames x; first | (refine keeps_cut (s := s0) (t := x) ?_ (fun hx => ?_); unfold x; clear x; rotate_left; clear_value x; rotate_right) | clear_value x) | split

theorem State.disarm_keeps {s0 : State} {s : State} {p : Nat} (hs : Keeps s0 s) : Keeps s0 (State.disarm s p) := by
  unfold State.disarm
  with_reducible repeat' first | assumption | apply State.setCommitTime_keeps | apply State.put_keeps

theorem State.copyShadow_keeps {s0 : State} {s : State} {p : Nat} {offs : List Nat} (hs : Keeps s0 s) : Keeps s0 (State.copyShadow s p offs) := by
  unfold State.copyShadow
  with_reducible repeat' first | assumption | intro _ | apply State.setReg_keeps | apply each_keeps

theorem State.notePre_keeps {s0 : State} {s : State} {old : State} {p : Nat} (hs : Keeps s0 s) (hold : Keeps s0 old) : Keeps s0 (State.notePre s old p) := by
  unfold State.notePre
  with_reducible repeat' first | assumption | intro _ | (extract_lets +onlyGivenNames x; clear_value x) | split | (refine keeps_mk ?_ rfl ?_; rotate_left; (intro hk; cases hk; constructor <;> first | assumption | exact tabPut_sorted (by assumption) | exact filter_sorted (by assumption) | exact tabSorted_nil | exact foldl_tabPut_sorted (by assumption)))

theorem State.commitBank_keeps {s0 : State} {s : State} {p : Nat} {j : Nat} (hs : Keeps s0 s) : Keeps s0 (State.commitBank s p j) := by
  unfold State.commitBank
  with_reducible repeat' first | assumption | intro _ | apply State.raise_keeps | apply State.put_keeps | apply State.copyShadow_keeps | (extract_lets +onlyGivenNames x; clear_value x) | split

theorem State.commitWindows_keeps {s0 : State} {s : State} {p : Nat} (hs : Keeps s0 s) : Keeps s0 (State.commitWindows s p) := by
  unfold State.commitWindows
  with_reducible repeat' first | assumption | intro _ | apply State.put_keeps | apply State.raise_keeps | apply foldl_keeps | apply foldl_keeps_fst | apply foldl_keeps_snd | (extract_lets +onlyGivenNames x; first | (refine keeps_cut (s := s0) (t := x) ?_ (fun hx => ?_); unfold x; clear x; rotate_left; clear_value x; rotate_right) | clear_value x) | split

theorem State.commitCopy_keeps {s0 : State} {s : State} {p : Nat} {t : Nat} (hs : Keeps s0 s) : Keeps s0 (State.commitCopy s p t) := by
  unfold State.commitCopy
  with_reducible repeat' first | assumption | intro _ | apply State.commitBank_keeps | apply State.commitWindows_keeps | apply State.copyShadow_keeps | apply State.setDrl_keeps | apply each_keeps | (extract_lets +onlyGivenNames x; first | (refine keeps_cut (s := s0) (t := x) ?_ (fun hx => ?_); unfold x; clear x; rotate_left; clear_value x; rotate_right) | clear_value x) | split | (refine keeps_mk ?_ rfl ?_; rotate_left; (intro hk; cases hk; constructor <;> first | assumption | exact tabPut_sorted (by assumption) | exact filter_sorted (by assumption) | exact tabSorted_nil | exact foldl_tabPut_sorted (by assumption)))

theorem State.commitPage_keeps {s0 : State} {s : State} {p : Nat} {t : Nat} (hs : Keeps s0 s) : Keeps s0 (State.commitPage s p t) := by
  unfold State.commitPage
  with_reducible repeat' first | assumption | intro _ | apply State.addWrap_keeps | apply State.put_keeps | apply State.setCommitTime_keeps | apply State.notePre_keeps | apply State.commitCopy_keeps | (extract_lets +onlyGivenNames x; first | (refine keeps_cut (s := s0) (t := x) ?_ (fun hx => ?_); unfold x; clear x; rotate_left; clear_value x; rotate_right) | clear_value x) | (refine keeps_mk ?_ rfl ?_; rotate_left; (intro hk; cases hk; constructor <;> first | assumption | exact tabPut_sorted (by assumption) | exact filter_sorted (by assumption) | exact tabSorted_nil | exact foldl_tabPut_sorted (by assumption)))

theorem State.settle_keeps {s0 : State} {s : State} {p : Nat} {t : Nat} (hs : Keeps s0 s) : Keeps s0 (State.settle s p t) := by
  unfold State.settle
  with_reducible repeat' first | assumption | apply State.commitPage_keeps | split

theorem execShadowCommit_keeps {s0 : State} {p : Fin 352} {s : State} (hs : Keeps s0 s) : KeepsOut s0 (execShadowCommit p s) := by
  unfold execShadowCommit
  with_reducible repeat' first | assumption | apply State.settle_keeps | apply Keeps.out

theorem State.writeArm_keeps {s0 : State} {s : State} {p : Nat} {arm : Bool} {src : Nat} (hs : Keeps s0 s) : Keeps s0 (State.writeArm s p arm src) := by
  unfold State.writeArm
  with_reducible repeat' first | assumption | intro _ | apply State.settle_keeps | apply State.setCommitTime_keeps | apply State.put_keeps | apply State.armCommit_keeps | (extract_lets +onlyGivenNames x; first | (refine keeps_cut (s := s0) (t := x) ?_ (fun hx => ?_); unfold x; clear x; rotate_left; clear_value x; rotate_right) | clear_value x) | split

theorem execShadowArm_keeps {s0 : State} {m : Master} {p : Fin 352} {arm : Bool} {src : BitVec 2} {s : State} (hs : Keeps s0 s) : KeepsOut s0 (execShadowArm m p arm src s) := by
  unfold execShadowArm
  with_reducible repeat' first | assumption | intro _ | apply State.hdrCmd_keeps | apply State.writeArm_keeps | apply Keeps.out | (extract_lets +onlyGivenNames x; clear_value x)

theorem State.beforeCopy_keeps {s0 : State} {s : State} {p : Nat} (hs : Keeps s0 s) : Keeps s0 (State.beforeCopy s p) := by
  unfold State.beforeCopy
  with_reducible repeat' first | assumption | intro _ | apply State.setReg_keeps | apply foldl_keeps | apply foldl_keeps_fst | apply foldl_keeps_snd | split

theorem State.shadowWrite_keeps {s0 : State} {s : State} {p : Nat} {f : State → State} (hs : Keeps s0 s) (hf : ∀ y0, Keeps s0 y0 → Keeps s0 (f y0)) : Keeps s0 (State.shadowWrite s p f) := by
  unfold State.shadowWrite
  with_reducible repeat' first | assumption | apply State.settle_keeps | apply State.put_keeps | apply hf | (extract_lets +onlyGivenNames x; first | (refine keeps_cut (s := s0) (t := x) ?_ (fun hx => ?_); unfold x; clear x; rotate_left; clear_value x; rotate_right) | clear_value x) | split

theorem execApply_keeps {s0 : State} {d : Fin 9} {s : State} (hs : Keeps s0 s) : KeepsOut s0 (execApply d s) := by
  unfold execApply
  with_reducible repeat' first | assumption | intro _ | apply State.retireOne_keeps | apply State.settle_keeps | apply State.setCommitTime_keeps | apply Keeps.out | (extract_lets +onlyGivenNames x; clear_value x) | split

theorem State.admitStaged_keeps {s0 : State} {s : State} {d : Nat} (hs : Keeps s0 s) : Keeps s0 (State.admitStaged s d) := by
  unfold State.admitStaged
  with_reducible repeat' first | assumption | intro _ | apply State.setDrl_keeps | apply State.admitBatch_keeps | apply State.noteRefusal_keeps | apply State.irq_keeps | apply State.put_keeps | apply State.setReg_keeps | dsimp -zeta only | refine keeps_of_fst ?_ (by assumption) | refine keeps_of_snd ?_ (by assumption) | (extract_lets +onlyGivenNames x; first | (refine keeps_cut (s := s0) (t := x) ?_ (fun hx => ?_); unfold x; clear x; rotate_left; clear_value x; rotate_right) | (refine keeps_cut_fst (s := s0) (x := x) ?_ (fun hx => ?_); unfold x; clear x; rotate_left; clear_value x; rotate_right) | (refine keeps_cut_snd (s := s0) (x := x) ?_ (fun hx => ?_); unfold x; clear x; rotate_left; clear_value x; rotate_right) | clear_value x) | split

theorem State.withdraw_keeps {s0 : State} {s : State} {d : Nat} {c : Nat} {keep : List EnqReq} {out : List EnqReq} (hs : Keeps s0 s) : Keeps s0 (State.withdraw s d c keep out) := by
  unfold State.withdraw
  with_reducible repeat' first | assumption | intro _ | apply State.dropEntry_keeps | apply State.setDrl_keeps | apply each_keeps | (extract_lets +onlyGivenNames x; first | (refine keeps_cut (s := s0) (t := x) ?_ (fun hx => ?_); unfold x; clear x; rotate_left; clear_value x; rotate_right) | clear_value x)

theorem State.noteReq_keeps {s0 : State} {s : State} {d : Nat} {c : Nat} {r : EnqReq} (hs : Keeps s0 s) : Keeps s0 (State.noteReq s d c r) := by
  unfold State.noteReq
  with_reducible repeat' first | assumption | intro _ | apply State.setDrl_keeps | (extract_lets +onlyGivenNames x; clear_value x)

theorem State.takeReq_keeps {s0 : State} {s : State} {d : Nat} {r : EnqReq} (hs : Keeps s0 s) : Keeps s0 (State.takeReq s d r) := by
  unfold State.takeReq
  with_reducible repeat' first | assumption | intro _ | apply State.enqueueOne_keeps | apply State.setMreg_keeps | apply State.noteReq_keeps | dsimp -zeta only | refine keeps_of_fst ?_ (by assumption) | refine keeps_of_snd ?_ (by assumption) | (extract_lets +onlyGivenNames x; first | (refine keeps_cut (s := s0) (t := x) ?_ (fun hx => ?_); unfold x; clear x; rotate_left; clear_value x; rotate_right) | (refine keeps_cut_fst (s := s0) (x := x) ?_ (fun hx => ?_); unfold x; clear x; rotate_left; clear_value x; rotate_right) | (refine keeps_cut_snd (s := s0) (x := x) ?_ (fun hx => ?_); unfold x; clear x; rotate_left; clear_value x; rotate_right) | clear_value x) | split

theorem State.putBack_keeps {s0 : State} {s : State} {d : Nat} {r : EnqReq} (hs : Keeps s0 s) : Keeps s0 (State.putBack s d r) := by
  unfold State.putBack
  with_reducible repeat' first | assumption | intro _ | apply State.takeReq_keeps | apply State.noteReq_keeps | split

theorem State.admitWaiting_keeps {s0 : State} {s : State} {d : Nat} (hs : Keeps s0 s) : Keeps s0 (State.admitWaiting s d) := by
  unfold State.admitWaiting
  with_reducible repeat' first | assumption | intro _ | apply State.admitStaged_keeps | apply State.withdraw_keeps | apply State.putBack_keeps | apply each_keeps | (extract_lets +onlyGivenNames x; clear_value x) | split

theorem execBatchAdmission_keeps {s0 : State} {d : Fin 9} {s : State} (hs : Keeps s0 s) : KeepsOut s0 (execBatchAdmission d s) := by
  unfold execBatchAdmission
  with_reducible repeat' first | assumption | apply State.admitWaiting_keeps | apply Keeps.out

theorem State.makeWay_keeps {s0 : State} {s : State} {d : Nat} {k : Nat} (hs : Keeps s0 s) : Keeps s0 (State.makeWay s d k).1 := by
  unfold State.makeWay
  with_reducible repeat' first | assumption | apply State.admitWaiting_keeps | apply State.settle_keeps | apply State.withdraw_keeps | dsimp -zeta only | refine keeps_of_fst ?_ (by assumption) | refine keeps_of_snd ?_ (by assumption) | (extract_lets +onlyGivenNames x; first | (refine keeps_cut (s := s0) (t := x) ?_ (fun hx => ?_); unfold x; clear x; rotate_left; clear_value x; rotate_right) | clear_value x) | split

theorem State.directEnqueue_keeps {s0 : State} {s : State} {m : Master} {d : Nat} {w0 : Word} {w1 : Word} {w2 : Word} {w3 : Word} (hs : Keeps s0 s) : Keeps s0 (State.directEnqueue s m d w0 w1 w2 w3) := by
  unfold State.directEnqueue
  with_reducible repeat' first | assumption | intro _ | apply State.makeWay_keeps | apply State.takeReq_keeps | apply State.putBack_keeps | dsimp -zeta only | refine keeps_of_fst ?_ (by assumption) | refine keeps_of_snd ?_ (by assumption) | apply each_keeps | (extract_lets +onlyGivenNames x; first | (refine keeps_cut_fst (s := s0) (x := x) ?_ (fun hx => ?_); unfold x; clear x; rotate_left; clear_value x; rotate_right) | (refine keeps_cut_snd (s := s0) (x := x) ?_ (fun hx => ?_); unfold x; clear x; rotate_left; clear_value x; rotate_right) | clear_value x)

theorem execDirectEnqueue_keeps {s0 : State} {m : Master} {d : Fin 9} {w3 : Word} {s : State} (hs : Keeps s0 s) : KeepsOut s0 (execDirectEnqueue m d w3 s) := by
  unfold execDirectEnqueue
  with_reducible repeat' first | assumption | intro _ | apply State.regCmd_keeps | apply State.directEnqueue_keeps | apply Keeps.out | (extract_lets +onlyGivenNames x; clear_value x) | split

end Sys2Proof.Machine
end

