-- ==== Sys2Proof/Laws/KeepsLink.lean ====
section
/-! SUPPORT. The operations of Link, Sectors, FrontEnd, Signal, Aftermath, ReadPath keep what `Keeps` says. -/

namespace Sys2Proof.Machine

theorem State.setLnk_keeps {s0 : State} {s : State} {a : Nat} {l : Link} (hs : Keeps s0 s) : Keeps s0 (State.setLnk s a l) := by
  unfold State.setLnk
  with_reducible repeat' first | assumption | intro _ | (refine keeps_mk ?_ rfl ?_; rotate_left; (intro hk; cases hk; constructor <;> first | assumption | exact tabPut_sorted (by assumption) | exact filter_sorted (by assumption) | exact tabSorted_nil | exact foldl_tabPut_sorted (by assumption)))

theorem State.linkCmd_keeps {s0 : State} {s : State} {a : Nat} {t : Tx} (hs : Keeps s0 s) : Keeps s0 (State.linkCmd s a t) := by
  unfold State.linkCmd
  with_reducible repeat' first | assumption | intro _ | apply State.put_keeps | apply State.setLnk_keeps | (extract_lets +onlyGivenNames x; clear_value x) | split

theorem execCmdStatusReq_keeps {s0 : State} {m : Master} {a : Fin 8} {head : BitVec 4} {reg : BitVec 8} {data : BitVec 8} {s : State} (hs : Keeps s0 s) : KeepsOut s0 (execCmdStatusReq m a head reg data s) := by
  unfold execCmdStatusReq
  with_reducible repeat' first | assumption | intro _ | apply State.regCmd_keeps | apply State.linkCmd_keeps | apply Keeps.out

theorem execCmdReadFrame_keeps {s0 : State} {m : Master} {a : Fin 8} {head : BitVec 4} {reg : BitVec 8} {data : BitVec 8} {s : State} (hs : Keeps s0 s) : KeepsOut s0 (execCmdReadFrame m a head reg data s) := by
  unfold execCmdReadFrame
  with_reducible repeat' first | assumption | intro _ | apply State.regCmd_keeps | apply State.linkCmd_keeps | apply Keeps.out

theorem State.pageFrameEnd_keeps {s0 : State} {s : State} {a : Nat} {result : Nat} (hs : Keeps s0 s) : Keeps s0 (State.pageFrameEnd s a result) := by
  unfold State.pageFrameEnd
  with_reducible repeat' first | assumption | apply State.put_keeps | apply State.irq_keeps | (extract_lets +onlyGivenNames x; first | (refine keeps_cut (s := s0) (t := x) ?_ (fun hx => ?_); unfold x; clear x; rotate_left; clear_value x; rotate_right) | clear_value x) | split

theorem State.linkDrop_keeps {s0 : State} {s : State} {a : Nat} {st : Nat} (hs : Keeps s0 s) : Keeps s0 (State.linkDrop s a st) := by
  unfold State.linkDrop
  with_reducible repeat' first | assumption | apply State.put_keeps | apply State.setLnk_keeps | apply State.pageFrameEnd_keeps | (extract_lets +onlyGivenNames x; first | (refine keeps_cut (s := s0) (t := x) ?_ (fun hx => ?_); unfold x; clear x; rotate_left; clear_value x; rotate_right) | clear_value x) | split

theorem State.sendFrame_keeps {s0 : State} {s : State} {a : Nat} {t : Tx} (hs : Keeps s0 s) : Keeps s0 (State.sendFrame s a t) := by
  unfold State.sendFrame
  with_reducible repeat' first | assumption | intro _ | apply State.setLnk_keeps | (extract_lets +onlyGivenNames x; clear_value x)

theorem State.sendNew_keeps {s0 : State} {s : State} {a : Nat} {t : Tx} (hs : Keeps s0 s) : Keeps s0 (State.sendNew s a t) := by
  unfold State.sendNew
  with_reducible repeat' first | assumption | apply State.sendFrame_keeps | apply State.setLnk_keeps | (extract_lets +onlyGivenNames x; clear_value x)

theorem State.resend_keeps {s0 : State} {s : State} {a : Nat} {t : Tx} (hs : Keeps s0 s) : Keeps s0 (State.resend s a t) := by
  unfold State.resend
  with_reducible repeat' first | assumption | apply State.irq_keeps | apply State.inc_keeps | apply State.sendFrame_keeps

theorem State.launchFrame_keeps {s0 : State} {s : State} {a : Nat} {e : Entry} (hs : Keeps s0 s) : Keeps s0 (State.launchFrame s a e) := by
  unfold State.launchFrame
  with_reducible repeat' first | assumption | intro _ | apply State.retireOne_keeps | apply State.launchSerial_keeps | apply State.sendNew_keeps | split

theorem State.startFrame_keeps {s0 : State} {s : State} {a : Nat} (hs : Keeps s0 s) : Keeps s0 (State.startFrame s a) := by
  unfold State.startFrame
  with_reducible repeat' first | assumption | intro _ | apply State.resend_keeps | apply State.setLnk_keeps | apply State.sendNew_keeps | apply State.launchFrame_keeps | (extract_lets +onlyGivenNames x; clear_value x) | split

theorem execFrameStart_keeps {s0 : State} {a : Fin 8} {s : State} (hs : Keeps s0 s) : KeepsOut s0 (execFrameStart a s) := by
  unfold execFrameStart
  with_reducible repeat' first | assumption | apply State.startFrame_keeps | apply Keeps.out | split

theorem State.retransmit_keeps {s0 : State} {s : State} {a : Nat} {t : Tx} (hs : Keeps s0 s) : Keeps s0 (State.retransmit s a t) := by
  unfold State.retransmit
  with_reducible repeat' first | assumption | intro _ | apply State.pageFrameEnd_keeps | apply State.raise_keeps | apply State.setLnk_keeps | (extract_lets +onlyGivenNames x; first | (refine keeps_cut (s := s0) (t := x) ?_ (fun hx => ?_); unfold x; clear x; rotate_left; clear_value x; rotate_right) | clear_value x) | split

theorem execCmdTypeRefused_keeps {s0 : State} {m : Master} {a : Fin 8} {s : State} (hs : Keeps s0 s) : KeepsOut s0 (execCmdTypeRefused m a s) := by
  unfold execCmdTypeRefused
  with_reducible repeat' first | assumption | intro _ | apply State.regCmd_keeps | apply State.put_keeps | apply Keeps.out

theorem State.linkUp_keeps {s0 : State} {s : State} {a : Nat} (hs : Keeps s0 s) : Keeps s0 (State.linkUp s a) := by
  unfold State.linkUp
  with_reducible repeat' first | assumption | intro _ | apply State.put_keeps | apply State.setLnk_keeps | (extract_lets +onlyGivenNames x; first | (refine keeps_cut (s := s0) (t := x) ?_ (fun hx => ?_); unfold x; clear x; rotate_left; clear_value x; rotate_right) | clear_value x) | split

theorem execLinkTrainingEnd_keeps {s0 : State} {a : Fin 8} {rsp : List (List Word)} {high : Bool} {s : State} (hs : Keeps s0 s) : KeepsOut s0 (execLinkTrainingEnd a rsp high s) := by
  unfold execLinkTrainingEnd
  with_reducible repeat' first | assumption | intro _ | apply State.putB_keeps | apply State.put_keeps | apply State.setLnk_keeps | apply State.linkUp_keeps | apply State.raise_keeps | apply foldl_keeps | apply foldl_keeps_fst | apply foldl_keeps_snd | apply Keeps.out | (extract_lets +onlyGivenNames x; first | (refine keeps_cut (s := s0) (t := x) ?_ (fun hx => ?_); unfold x; clear x; rotate_left; clear_value x; rotate_right) | clear_value x) | split

theorem execHeat_keeps {s0 : State} {a : Fin 8} {s : State} (hs : Keeps s0 s) : KeepsOut s0 (execHeat a s) := by
  unfold execHeat
  with_reducible repeat' first | assumption | intro _ | apply State.launchFrame_keeps | apply Keeps.out | split

theorem execPreReg_keeps {s0 : State} {a : Fin 8} {s : State} (hs : Keeps s0 s) : KeepsOut s0 (execPreReg a s) := by
  unfold execPreReg
  with_reducible repeat' first | assumption | intro _ | apply State.launchFrame_keeps | apply Keeps.out | split

theorem execAlertUnmask_keeps {s0 : State} {m : Master} {a : Fin 8} {s : State} (hs : Keeps s0 s) : KeepsOut s0 (execAlertUnmask m a s) := by
  unfold execAlertUnmask
  with_reducible repeat' first | assumption | intro _ | apply State.regCmd_keeps | apply State.setLnk_keeps | apply State.put_keeps | apply Keeps.out | (extract_lets +onlyGivenNames x; clear_value x) | split

theorem execCmdWriteFrame_keeps {s0 : State} {m : Master} {a : Fin 8} {head : BitVec 4} {reg : BitVec 8} {data : BitVec 8} {s : State} (hs : Keeps s0 s) : KeepsOut s0 (execCmdWriteFrame m a head reg data s) := by
  unfold execCmdWriteFrame
  with_reducible repeat' first | assumption | intro _ | apply State.regCmd_keeps | apply State.linkCmd_keeps | apply Keeps.out

theorem execRspTimeout_keeps {s0 : State} {a : Fin 8} {s : State} (hs : Keeps s0 s) : KeepsOut s0 (execRspTimeout a s) := by
  unfold execRspTimeout
  with_reducible repeat' first | assumption | intro _ | apply State.retransmit_keeps | apply State.setLnk_keeps | apply Keeps.out | (extract_lets +onlyGivenNames x; clear_value x) | split

theorem State.addHint_keeps {s0 : State} {s : State} {h : Nat} {k : Nat} {opn : Int} {cls : Int} (hs : Keeps s0 s) : Keeps s0 (State.addHint s h k opn cls) := by
  unfold State.addHint
  with_reducible repeat' first | assumption | intro _ | apply State.store_keeps | (extract_lets +onlyGivenNames x; clear_value x) | split

theorem State.shockHints_keeps {s0 : State} {s : State} {opn : Int} {cls : Int} (hs : Keeps s0 s) : Keeps s0 (State.shockHints s opn cls) := by
  unfold State.shockHints
  with_reducible repeat' first | assumption | intro _ | apply State.addHint_keeps | apply each_keeps | split

theorem State.storePair_keeps {s0 : State} {s : State} {base : Nat} {i : Nat} {p : BitVec 12} (hs : Keeps s0 s) : Keeps s0 (State.storePair s base i p) := by
  unfold State.storePair
  with_reducible repeat' first | assumption | apply State.store_keeps | (extract_lets +onlyGivenNames x; clear_value x) | split

theorem State.storePairs_keeps {s0 : State} {s : State} {base i : Nat} {ps : List (BitVec 12)} (hs : Keeps s0 s) : Keeps s0 (State.storePairs s base i ps) := by
  induction ps generalizing s i with
  | nil => exact hs
  | cons p r ih =>
    unfold State.storePairs
    split
    · exact ih (State.storePair_keeps hs)
    · exact hs

theorem State.setRd_keeps {s0 : State} {s : State} {h : Nat} {v : RdHead} (hs : Keeps s0 s) : Keeps s0 (State.setRd s h v) := by
  unfold State.setRd
  with_reducible repeat' first | assumption | intro _ | (refine keeps_mk ?_ rfl ?_; rotate_left; (intro hk; cases hk; constructor <;> first | assumption | exact tabPut_sorted (by assumption) | exact filter_sorted (by assumption) | exact tabSorted_nil | exact foldl_tabPut_sorted (by assumption)))

theorem State.setSlot_keeps {s0 : State} {s : State} {h : Nat} {k : Nat} {st : Nat} (hs : Keeps s0 s) : Keeps s0 (State.setSlot s h k st) := by
  unfold State.setSlot
  with_reducible repeat' first | assumption | apply State.put_keeps | apply State.irq_keeps | (extract_lets +onlyGivenNames x; first | (refine keeps_cut (s := s0) (t := x) ?_ (fun hx => ?_); unfold x; clear x; rotate_left; clear_value x; rotate_right) | clear_value x) | split

theorem State.clearHints_keeps {s0 : State} {s : State} {h : Nat} {k : Nat} (hs : Keeps s0 s) : Keeps s0 (State.clearHints s h k) := by
  unfold State.clearHints
  with_reducible repeat' first | assumption | intro _ | apply State.store_keeps | split

theorem State.claimLanding_keeps {s0 : State} {s : State} {h : Nat} (hs : Keeps s0 s) : Keeps s0 (State.claimLanding s h).1 := by
  unfold State.claimLanding
  with_reducible repeat' first | assumption | apply State.raise_keeps | apply State.irq_keeps | apply State.put_keeps | dsimp -zeta only | refine keeps_of_fst ?_ (by assumption) | refine keeps_of_snd ?_ (by assumption) | (extract_lets +onlyGivenNames x; clear_value x) | split

theorem State.writeSts_keeps {s0 : State} {s : State} {h : Nat} {r : StsRec} {stripe : Bool} (hs : Keeps s0 s) : Keeps s0 (State.writeSts s h r stripe) := by
  unfold State.writeSts
  with_reducible repeat' first | assumption | intro _ | apply State.put_keeps | apply State.setRd_keeps | apply State.ringWrite_keeps | dsimp -zeta only | refine keeps_of_fst ?_ (by assumption) | refine keeps_of_snd ?_ (by assumption) | (extract_lets +onlyGivenNames x; first | (refine keeps_cut (s := s0) (t := x) ?_ (fun hx => ?_); unfold x; clear x; rotate_left; clear_value x; rotate_right) | clear_value x) | split | (refine keeps_mk ?_ rfl ?_; rotate_left; (intro hk; cases hk; constructor <;> first | assumption | exact tabPut_sorted (by assumption) | exact filter_sorted (by assumption) | exact tabSorted_nil | exact foldl_tabPut_sorted (by assumption)))

theorem State.lateWake_keeps {s0 : State} {s : State} {h : Nat} {t : Nat} (hs : Keeps s0 s) : Keeps s0 (State.lateWake s h t) := by
  unfold State.lateWake
  with_reducible repeat' first | assumption | apply State.irq_keeps | apply State.inc_keeps | split

theorem State.setAfe_keeps {s0 : State} {s : State} {h : Nat} {v : Afe} (hs : Keeps s0 s) : Keeps s0 (State.setAfe s h v) := by
  unfold State.setAfe
  with_reducible repeat' first | assumption | intro _ | (refine keeps_mk ?_ rfl ?_; rotate_left; (intro hk; cases hk; constructor <;> first | assumption | exact tabPut_sorted (by assumption) | exact filter_sorted (by assumption) | exact tabSorted_nil | exact foldl_tabPut_sorted (by assumption)))

theorem State.gateWake_keeps {s0 : State} {s : State} {h : Nat} {t : Nat} (hs : Keeps s0 s) : Keeps s0 (State.gateWake s h t) := by
  unfold State.gateWake
  with_reducible repeat' first | assumption | intro _ | apply State.lateWake_keeps | apply State.setAfe_keeps | (extract_lets +onlyGivenNames x; clear_value x) | split

theorem execAdcStuck_keeps {s0 : State} {h : Fin 96} {rdB : Bool} {s : State} (hs : Keeps s0 s) : KeepsOut s0 (execAdcStuck h rdB s) := by
  unfold execAdcStuck
  with_reducible repeat' first | assumption | apply State.raise_keeps | apply State.setAfe_keeps | apply Keeps.out | (extract_lets +onlyGivenNames x; clear_value x) | split

theorem State.clipHint_keeps {s0 : State} {s : State} {h : Nat} {run : Nat} {i : Nat} (hs : Keeps s0 s) : Keeps s0 (State.clipHint s h run i) := by
  unfold State.clipHint
  with_reducible repeat' first | assumption | intro _ | apply State.addHint_keeps | (extract_lets +onlyGivenNames x; clear_value x) | split

theorem State.learnWord_keeps {s0 : State} {s : State} {a : Nat} {r : Reader} (hs : Keeps s0 s) : Keeps s0 (State.learnWord s a r) := by
  unfold State.learnWord
  with_reducible repeat' first | assumption | apply State.store_keeps

theorem State.afeSleep_keeps {s0 : State} {s : State} {h : Nat} (hs : Keeps s0 s) : Keeps s0 (State.afeSleep s h) := by
  unfold State.afeSleep
  with_reducible repeat' first | assumption | intro _ | apply State.setAfe_keeps | (extract_lets +onlyGivenNames x; clear_value x) | split

theorem State.closeAfe_keeps {s0 : State} {s : State} {h : Nat} {zone : Nat} (hs : Keeps s0 s) : Keeps s0 (State.closeAfe s h zone) := by
  unfold State.closeAfe
  with_reducible repeat' first | assumption | intro _ | apply State.clipHint_keeps | apply State.learnWord_keeps | apply State.afeSleep_keeps | apply State.setAfe_keeps | (extract_lets +onlyGivenNames x; first | (refine keeps_cut (s := s0) (t := x) ?_ (fun hx => ?_); unfold x; clear x; rotate_left; clear_value x; rotate_right) | clear_value x) | split

theorem State.roundFree_keeps {s0 : State} {s : State} {r : Rat} (hs : Keeps s0 s) : Keeps s0 (State.roundFree s r).1 := by
  unfold State.roundFree
  with_reducible repeat' first | assumption | apply State.drew_keeps | dsimp -zeta only | refine keeps_of_fst ?_ (by assumption) | refine keeps_of_snd ?_ (by assumption) | split

theorem State.adaptReader_keeps {s0 : State} {s : State} {h : Nat} {set : List Word} {fast : Bool} {xs : List Int} {r : Reader} (hs : Keeps s0 s) : Keeps s0 (State.adaptReader s h set fast xs r).1 := by
  unfold State.adaptReader
  with_reducible repeat' first | assumption | intro _ | apply State.roundFree_keeps | dsimp -zeta only | refine keeps_of_fst ?_ (by assumption) | refine keeps_of_snd ?_ (by assumption) | (extract_lets +onlyGivenNames x; first | (refine keeps_cut_fst (s := s0) (x := x) ?_ (fun hx => ?_); unfold x; clear x; rotate_left; clear_value x; rotate_right) | (refine keeps_cut_snd (s := s0) (x := x) ?_ (fun hx => ?_); unfold x; clear x; rotate_left; clear_value x; rotate_right) | clear_value x) | split

theorem State.zptSelect_keeps {s0 : State} {s : State} {h : Nat} {z : Nat} {ecc : Ecc} (hs : Keeps s0 s) : Keeps s0 (State.zptSelect s h z ecc) := by
  unfold State.zptSelect
  with_reducible repeat' first | assumption | intro _ | apply State.settle_keeps | apply State.raise_keeps | apply State.shadowWrite_keeps | apply State.setShadowReg_keeps | apply State.irq_keeps | apply State.put_keeps | apply each_keeps | (extract_lets +onlyGivenNames x; first | (refine keeps_cut (s := s0) (t := x) ?_ (fun hx => ?_); unfold x; clear x; rotate_left; clear_value x; rotate_right) | clear_value x) | split

theorem State.noteLive_keeps {s0 : State} {s : State} {h : Nat} (hs : Keeps s0 s) : Keeps s0 (State.noteLive s h) := by
  unfold State.noteLive
  with_reducible repeat' first | assumption | apply State.put_keeps | (extract_lets +onlyGivenNames x; clear_value x)

theorem State.openAfe_keeps {s0 : State} {s : State} {h : Nat} {set : List Word} {t : Nat} (hs : Keeps s0 s) : Keeps s0 (State.openAfe s h set t) := by
  unfold State.openAfe
  with_reducible repeat' first | assumption | intro _ | apply State.gateWake_keeps | apply State.setAfe_keeps | apply State.noteLive_keeps | apply State.put_keeps | (extract_lets +onlyGivenNames x; first | (refine keeps_cut (s := s0) (t := x) ?_ (fun hx => ?_); unfold x; clear x; rotate_left; clear_value x; rotate_right) | clear_value x)

theorem State.noteSat_keeps {s0 : State} {s : State} {h : Nat} {b : Bool} {r : Reader} (hs : Keeps s0 s) : Keeps s0 (State.noteSat s h b r) := by
  unfold State.noteSat
  with_reducible repeat' first | assumption | intro _ | apply State.irq_keeps | apply State.put_keeps | (extract_lets +onlyGivenNames x; clear_value x) | split

theorem execZptSel_keeps {s0 : State} {m : Master} {h : Fin 96} {zone : BitVec 6} {ecc : Ecc} {s : State} (hs : Keeps s0 s) : KeepsOut s0 (execZptSel m h zone ecc s) := by
  unfold execZptSel
  with_reducible repeat' first | assumption | intro _ | apply State.regCmd_keeps | apply State.zptSelect_keeps | apply Keeps.out

theorem execClipRun_keeps {s0 : State} {h : Fin 96} {rdB : Bool} {s : State} (hs : Keeps s0 s) : KeepsOut s0 (execClipRun h rdB s) := by
  unfold execClipRun
  with_reducible repeat' first | assumption | apply State.raise_keeps | apply State.setAfe_keeps | apply Keeps.out | (extract_lets +onlyGivenNames x; clear_value x) | split

theorem State.passSamples_keeps {s0 : State} {s : State} {h : Nat} {b : Bool} {r : Reader} {i : Nat} {xs : List (Option Int)} (hs : Keeps s0 s) : Keeps s0 (State.passSamples s h b r i xs).1 := by
  induction xs generalizing s r i with
  | nil => exact hs
  | cons x xs ih =>
    unfold State.passSamples
    refine ih ?_
    split
    · exact State.inc_keeps hs
    · exact State.clipHint_keeps hs

theorem State.roundNear_keeps {s0 : State} {s : State} {r : Rat} (hs : Keeps s0 s) : Keeps s0 (State.roundNear s r).1 := by
  unfold State.roundNear
  with_reducible repeat' first | assumption | apply State.drew_keeps | dsimp -zeta only | refine keeps_of_fst ?_ (by assumption) | refine keeps_of_snd ?_ (by assumption) | split

theorem execAfeWake_keeps {s0 : State} {h : Fin 96} {delay : BitVec 16} {s : State} (hs : Keeps s0 s) : KeepsOut s0 (execAfeWake h delay s) := by
  unfold execAfeWake
  with_reducible repeat' first | assumption | intro _ | apply State.setAfe_keeps | apply Keeps.out | (extract_lets +onlyGivenNames x; clear_value x) | split

theorem State.retain_keeps {s0 : State} {s : State} {h : Nat} {x : RdSector} {c : Chain} (hs : Keeps s0 s) : Keeps s0 (State.retain s h x c) := by
  unfold State.retain
  with_reducible repeat' first | assumption | intro _ | apply State.storePairs_keeps | split

theorem State.runChain_keeps {s0 : State} {s : State} {h : Nat} {ys : List (Option (Int × Int))} {xs : List SymErr} {done : Bool} (hs : Keeps s0 s) : Keeps s0 (State.runChain s h ys xs done) := by
  unfold State.runChain
  with_reducible repeat' first | assumption | intro _ | apply State.retain_keeps | apply State.setRd_keeps | (extract_lets +onlyGivenNames x; first | (refine keeps_cut (s := s0) (t := x) ?_ (fun hx => ?_); unfold x; clear x; rotate_left; clear_value x; rotate_right) | clear_value x) | split | (refine keeps_mk ?_ rfl ?_; rotate_left; (intro hk; cases hk; constructor <;> first | assumption | exact tabPut_sorted (by assumption) | exact filter_sorted (by assumption) | exact tabSorted_nil | exact foldl_tabPut_sorted (by assumption)))

theorem execAdaptBlock_keeps {s0 : State} {h : Fin 96} {xa : List (BitVec 7)} {xb : List (BitVec 7)} {errs : List SymErr} {s : State} (hs : Keeps s0 s) : KeepsOut s0 (execAdaptBlock h xa xb errs s) := by
  unfold execAdaptBlock
  with_reducible repeat' first | assumption | intro _ | apply State.passSamples_keeps | apply State.adaptReader_keeps | apply State.setAfe_keeps | apply State.noteSat_keeps | apply State.noteLive_keeps | apply State.runChain_keeps | dsimp -zeta only | refine keeps_of_fst ?_ (by assumption) | refine keeps_of_snd ?_ (by assumption) | apply Keeps.out | (extract_lets +onlyGivenNames x; first | (refine keeps_cut (s := s0) (t := x) ?_ (fun hx => ?_); unfold x; clear x; rotate_left; clear_value x; rotate_right) | (refine keeps_cut_fst (s := s0) (x := x) ?_ (fun hx => ?_); unfold x; clear x; rotate_left; clear_value x; rotate_right) | (refine keeps_cut_snd (s := s0) (x := x) ?_ (fun hx => ?_); unfold x; clear x; rotate_left; clear_value x; rotate_right) | clear_value x) | split

theorem State.ddState_keeps {s0 : State} {s : State} {d : Nat} {st : Nat} (hs : Keeps s0 s) : Keeps s0 (State.ddState s d st) := by
  unfold State.ddState
  with_reducible repeat' first | assumption | apply State.setReg_keeps

theorem State.noteAfm_keeps {s0 : State} {s : State} (hs : Keeps s0 s) : Keeps s0 (State.noteAfm s) := by
  unfold State.noteAfm
  with_reducible repeat' first | assumption | intro _ | apply State.put_keeps | apply foldl_keeps | apply foldl_keeps_fst | apply foldl_keeps_snd

theorem State.setAfm_keeps {s0 : State} {s : State} {q : Afm} (hs : Keeps s0 s) : Keeps s0 (State.setAfm s q) := by
  unfold State.setAfm
  with_reducible repeat' first | assumption | intro _ | apply State.noteAfm_keeps | (refine keeps_mk ?_ rfl ?_; rotate_left; (intro hk; cases hk; constructor <;> first | assumption | exact tabPut_sorted (by assumption) | exact filter_sorted (by assumption) | exact tabSorted_nil | exact foldl_tabPut_sorted (by assumption)))

theorem State.dropRun_keeps {s0 : State} {s : State} {d : Nat} (hs : Keeps s0 s) : Keeps s0 (State.dropRun s d) := by
  unfold State.dropRun
  with_reducible repeat' first | assumption | apply State.setAfm_keeps | (extract_lets +onlyGivenNames x; clear_value x)

theorem State.noteRelease_keeps {s0 : State} {s : State} (hs : Keeps s0 s) : Keeps s0 (State.noteRelease s) := by
  unfold State.noteRelease
  with_reducible repeat' first | assumption | apply State.putB_keeps

theorem State.jobDone_keeps {s0 : State} {s : State} (hs : Keeps s0 s) : Keeps s0 (State.jobDone s) := by
  unfold State.jobDone
  with_reducible repeat' first | assumption | apply State.irq_keeps | apply State.inc_keeps

theorem State.setDescStatus_keeps {s0 : State} {s : State} {h : Nat} {k : Nat} {st : Nat} (hs : Keeps s0 s) : Keeps s0 (State.setDescStatus s h k st) := by
  unfold State.setDescStatus
  with_reducible repeat' first | assumption | apply State.put_keeps | apply State.store_keeps

theorem State.postJob_keeps {s0 : State} {s : State} {j : Job} {r : TryEnd} {pinned : Bool} (hs : Keeps s0 s) : Keeps s0 (State.postJob s j r pinned) := by
  unfold State.postJob
  with_reducible repeat' first | assumption | apply State.setDescStatus_keeps | apply State.writeSts_keeps | apply State.raise_keeps | apply State.inc_keeps | (extract_lets +onlyGivenNames x; first | (refine keeps_cut (s := s0) (t := x) ?_ (fun hx => ?_); unfold x; clear x; rotate_left; clear_value x; rotate_right) | clear_value x) | split

theorem State.dropJob_keeps {s0 : State} {s : State} {d : Nat} {st : Nat} {j : Job} (hs : Keeps s0 s) : Keeps s0 (State.dropJob s d st j) := by
  unfold State.dropJob
  with_reducible repeat' first | assumption | intro _ | apply State.ddState_keeps | apply State.dropRun_keeps | apply State.setSlot_keeps | apply State.noteRelease_keeps | apply State.jobDone_keeps | apply State.postJob_keeps | apply each_keeps | (extract_lets +onlyGivenNames x; first | (refine keeps_cut (s := s0) (t := x) ?_ (fun hx => ?_); unfold x; clear x; rotate_left; clear_value x; rotate_right) | clear_value x) | split

theorem State.ddStopped_keeps {s0 : State} {s : State} {d : Nat} {st : Nat} (hs : Keeps s0 s) : Keeps s0 (State.ddStopped s d st) := by
  unfold State.ddStopped
  with_reducible repeat' first | assumption | intro _ | apply State.ddState_keeps | apply State.dropRun_keeps | apply State.dropJob_keeps | apply State.setSlot_keeps | apply State.setAfm_keeps | apply each_keeps | (extract_lets +onlyGivenNames x; first | (refine keeps_cut (s := s0) (t := x) ?_ (fun hx => ?_); unfold x; clear x; rotate_left; clear_value x; rotate_right) | clear_value x) | split

theorem State.noteDd_keeps {s0 : State} {s : State} {d : Nat} {st : Nat} {run : DeepRun} (hs : Keeps s0 s) : Keeps s0 (State.noteDd s d st run) := by
  unfold State.noteDd
  with_reducible repeat' first | assumption | apply State.setReg_keeps

theorem State.submitJob_keeps {s0 : State} {s : State} {m : Master} {w3 : Word} (hs : Keeps s0 s) : Keeps s0 (State.submitJob s m w3) := by
  unfold State.submitJob
  with_reducible repeat' first | assumption | intro _ | apply State.setMreg_keeps | apply State.setSlot_keeps | apply State.setAfm_keeps | apply State.raise_keeps | apply each_keeps | (extract_lets +onlyGivenNames x; first | (refine keeps_cut (s := s0) (t := x) ?_ (fun hx => ?_); unfold x; clear x; rotate_left; clear_value x; rotate_right) | clear_value x) | split

theorem State.jobRow_keeps {s0 : State} {s : State} {m : Master} {t : Nat} {w3 : Word} (hs : Keeps s0 s) : Keeps s0 (State.jobRow s m t w3) := by
  unfold State.jobRow
  with_reducible repeat' first | assumption | intro _ | apply State.regCmd_keeps | apply State.submitJob_keeps | split

theorem execRedecode_keeps {s0 : State} {m : Master} {w3 : Word} {s : State} (hs : Keeps s0 s) : KeepsOut s0 (execRedecode m w3 s) := by
  unfold execRedecode
  with_reducible repeat' first | assumption | apply State.jobRow_keeps | apply Keeps.out

theorem execReleaseDone_keeps {s0 : State} {h : Fin 96} {slot : Bool} {s : State} (hs : Keeps s0 s) : KeepsOut s0 (execReleaseDone h slot s) := by
  unfold execReleaseDone
  with_reducible repeat' first | assumption | intro _ | apply State.dropJob_keeps | apply State.noteRelease_keeps | apply State.setSlot_keeps | apply Keeps.out | (extract_lets +onlyGivenNames x; clear_value x) | split

theorem State.setSlotInfo_keeps {s0 : State} {s : State} {i : Nat} {v : SlotInfo} (hs : Keeps s0 s) : Keeps s0 (State.setSlotInfo s i v) := by
  unfold State.setSlotInfo
  with_reducible repeat' first | assumption | intro _ | (extract_lets +onlyGivenNames x; clear_value x) | (refine keeps_mk ?_ rfl ?_; rotate_left; (intro hk; cases hk; constructor <;> first | assumption | exact tabPut_sorted (by assumption) | exact filter_sorted (by assumption) | exact tabSorted_nil | exact foldl_tabPut_sorted (by assumption)))

theorem State.setRun_keeps {s0 : State} {s : State} {d : Nat} {run : DeepRun} (hs : Keeps s0 s) : Keeps s0 (State.setRun s d run) := by
  unfold State.setRun
  with_reducible repeat' first | assumption | intro _ | apply State.setAfm_keeps | (extract_lets +onlyGivenNames x; clear_value x)

theorem State.nextTry_keeps {s0 : State} {s : State} {run : DeepRun} {lost : TryEnd} (hs : Keeps s0 s) : Keeps s0 (State.nextTry s run lost).1 := by
  unfold State.nextTry
  with_reducible repeat' first | assumption | intro _ | apply State.addSat_keeps | dsimp -zeta only | refine keeps_of_fst ?_ (by assumption) | refine keeps_of_snd ?_ (by assumption) | (extract_lets +onlyGivenNames x; first | (refine keeps_cut (s := s0) (t := x) ?_ (fun hx => ?_); unfold x; clear x; rotate_left; clear_value x; rotate_right) | clear_value x) | split

theorem State.tryEnd_keeps {s0 : State} {s : State} {d : Nat} {run : DeepRun} {r : Decoded} (hs : Keeps s0 s) : Keeps s0 (State.tryEnd s d run r) := by
  unfold State.tryEnd
  with_reducible repeat' first | assumption | intro _ | apply State.raiseSub_keeps | apply State.setRun_keeps | apply State.noteDd_keeps | apply State.nextTry_keeps | dsimp -zeta only | refine keeps_of_fst ?_ (by assumption) | refine keeps_of_snd ?_ (by assumption) | (extract_lets +onlyGivenNames x; first | (refine keeps_cut_fst (s := s0) (x := x) ?_ (fun hx => ?_); unfold x; clear x; rotate_left; clear_value x; rotate_right) | (refine keeps_cut_snd (s := s0) (x := x) ?_ (fun hx => ?_); unfold x; clear x; rotate_left; clear_value x; rotate_right) | clear_value x) | split

theorem State.finishRun_keeps {s0 : State} {s : State} {d : Nat} {run : DeepRun} {r : TryEnd} (hs : Keeps s0 s) : Keeps s0 (State.finishRun s d run r) := by
  unfold State.finishRun
  with_reducible repeat' first | assumption | intro _ | apply State.bufWrite_keeps | apply State.setSlot_keeps | apply State.noteRelease_keeps | apply State.jobDone_keeps | apply State.postJob_keeps | apply State.ddState_keeps | apply State.dropRun_keeps | apply State.inc_keeps | dsimp -zeta only | refine keeps_of_fst ?_ (by assumption) | refine keeps_of_snd ?_ (by assumption) | apply each_keeps | (extract_lets +onlyGivenNames x; first | (refine keeps_cut (s := s0) (t := x) ?_ (fun hx => ?_); unfold x; clear x; rotate_left; clear_value x; rotate_right) | (refine keeps_cut_fst (s := s0) (x := x) ?_ (fun hx => ?_); unfold x; clear x; rotate_left; clear_value x; rotate_right) | (refine keeps_cut_snd (s := s0) (x := x) ?_ (fun hx => ?_); unfold x; clear x; rotate_left; clear_value x; rotate_right) | clear_value x) | split

theorem execDeepJobEnd_keeps {s0 : State} {d : Fin 8} {s : State} (hs : Keeps s0 s) : KeepsOut s0 (execDeepJobEnd d s) := by
  unfold execDeepJobEnd
  with_reducible repeat' first | assumption | intro _ | apply State.finishRun_keeps | apply Keeps.out | split

theorem execJobDispatch_keeps {s0 : State} {s : State} (hs : Keeps s0 s) : KeepsOut s0 (execJobDispatch s) := by
  unfold execJobDispatch
  with_reducible repeat' first | assumption | intro _ | apply State.setAfm_keeps | apply State.setSlot_keeps | apply State.nextTry_keeps | apply State.noteDd_keeps | apply State.setRun_keeps | dsimp -zeta only | refine keeps_of_fst ?_ (by assumption) | refine keeps_of_snd ?_ (by assumption) | apply each_keeps | apply Keeps.out | (extract_lets +onlyGivenNames x; first | (refine keeps_cut (s := s0) (t := x) ?_ (fun hx => ?_); unfold x; clear x; rotate_left; clear_value x; rotate_right) | (refine keeps_cut_fst (s := s0) (x := x) ?_ (fun hx => ?_); unfold x; clear x; rotate_left; clear_value x; rotate_right) | (refine keeps_cut_snd (s := s0) (x := x) ?_ (fun hx => ?_); unfold x; clear x; rotate_left; clear_value x; rotate_right) | clear_value x) | split

theorem execJoint_keeps {s0 : State} {m : Master} {w3 : Word} {s : State} (hs : Keeps s0 s) : KeepsOut s0 (execJoint m w3 s) := by
  unfold execJoint
  with_reducible repeat' first | assumption | apply State.jobRow_keeps | apply Keeps.out

theorem execSweep_keeps {s0 : State} {m : Master} {w3 : Word} {s : State} (hs : Keeps s0 s) : KeepsOut s0 (execSweep m w3 s) := by
  unfold execSweep
  with_reducible repeat' first | assumption | apply State.jobRow_keeps | apply Keeps.out

theorem State.handOver_keeps {s0 : State} {s : State} {h : Nat} {k : Nat} (hs : Keeps s0 s) : Keeps s0 (State.handOver s h k) := by
  unfold State.handOver
  with_reducible repeat' first | assumption | intro _ | apply State.setAfm_keeps | apply State.setSlot_keeps | apply State.raise_keeps | apply State.irq_keeps | apply State.inc_keeps | apply State.postJob_keeps | (extract_lets +onlyGivenNames x; first | (refine keeps_cut (s := s0) (t := x) ?_ (fun hx => ?_); unfold x; clear x; rotate_left; clear_value x; rotate_right) | clear_value x) | split

theorem State.dropFilling_keeps {s0 : State} {s : State} (hs : Keeps s0 s) : Keeps s0 (State.dropFilling s) := by
  unfold State.dropFilling
  with_reducible repeat' first | assumption | intro _ | apply State.addSat_keeps | apply State.setRd_keeps | apply State.setSlot_keeps | apply each_keeps | (extract_lets +onlyGivenNames x; first | (refine keeps_cut (s := s0) (t := x) ?_ (fun hx => ?_); unfold x; clear x; rotate_left; clear_value x; rotate_right) | clear_value x) | split

theorem State.afmEndAll_keeps {s0 : State} {sA : State} (hsA : Keeps s0 sA) : Keeps s0 (State.afmEndAll sA) := by
  unfold State.afmEndAll
  with_reducible repeat' first | assumption | intro _ | apply State.dropFilling_keeps | apply State.jobDone_keeps | apply State.postJob_keeps | apply State.ddState_keeps | apply State.dropRun_keeps | apply State.setAfm_keeps | apply State.noteRelease_keeps | apply State.setSlot_keeps | apply each_keeps | (extract_lets +onlyGivenNames x; first | (refine keeps_cut (s := s0) (t := x) ?_ (fun hx => ?_); unfold x; clear x; rotate_left; clear_value x; rotate_right) | clear_value x) | split

theorem execDeepTryEnd_keeps {s0 : State} {d : Fin 8} {r : Decoded} {llr : List (BitVec 7)} {llr2 : List (BitVec 7)} {s : State} (hs : Keeps s0 s) : KeepsOut s0 (execDeepTryEnd d r llr llr2 s) := by
  unfold execDeepTryEnd
  with_reducible repeat' first | assumption | intro _ | apply State.tryEnd_keeps | apply Keeps.out | split

theorem execReframe_keeps {s0 : State} {m : Master} {w3 : Word} {s : State} (hs : Keeps s0 s) : KeepsOut s0 (execReframe m w3 s) := by
  unfold execReframe
  with_reducible repeat' first | assumption | apply State.jobRow_keeps | apply Keeps.out

theorem State.releaseSlot_keeps {s0 : State} {s : State} {h : Nat} {k : Nat} (hs : Keeps s0 s) : Keeps s0 (State.releaseSlot s h k) := by
  unfold State.releaseSlot
  with_reducible repeat' first | assumption | intro _ | apply State.setSlot_keeps | apply State.setAfm_keeps | apply State.jobDone_keeps | apply State.postJob_keeps | apply State.put_keeps | apply each_keeps | (extract_lets +onlyGivenNames x; first | (refine keeps_cut (s := s0) (t := x) ?_ (fun hx => ?_); unfold x; clear x; rotate_left; clear_value x; rotate_right) | clear_value x) | split

theorem execRelease_keeps {s0 : State} {m : Master} {h : BitVec 7} {slot : Bool} {s : State} (hs : Keeps s0 s) : KeepsOut s0 (execRelease m h slot s) := by
  unfold execRelease
  with_reducible repeat' first | assumption | intro _ | apply State.regCmd_keeps | apply State.releaseSlot_keeps | apply Keeps.out | split

theorem State.snapshot_keeps {s0 : State} {s : State} {h : Nat} {k : Nat} {x : RdSector} (hs : Keeps s0 s) : Keeps s0 (State.snapshot s h k x) := by
  unfold State.snapshot
  with_reducible repeat' first | assumption | intro _ | apply State.store_keeps | apply each_keeps | (extract_lets +onlyGivenNames x; clear_value x) | split

theorem State.closeSlot_keeps {s0 : State} {s : State} {h : Nat} {k : Nat} {x : RdSector} {status : Nat} {pinned : Bool} (hs : Keeps s0 s) : Keeps s0 (State.closeSlot s h k x status pinned) := by
  unfold State.closeSlot
  with_reducible repeat' first | assumption | apply State.addHint_keeps | apply State.storeBytes_keeps | apply State.snapshot_keeps | apply State.put_keeps | apply State.setSlot_keeps | apply State.setSlotInfo_keeps | (extract_lets +onlyGivenNames x; first | (refine keeps_cut (s := s0) (t := x) ?_ (fun hx => ?_); unfold x; clear x; rotate_left; clear_value x; rotate_right) | clear_value x) | split

theorem State.endSector_keeps {s0 : State} {s : State} {h : Nat} {x : RdSector} {e : SecEnd} (hs : Keeps s0 s) : Keeps s0 (State.endSector s h x e) := by
  unfold State.endSector
  with_reducible repeat' first | assumption | intro _ | apply State.bufWrite_keeps | apply State.closeSlot_keeps | apply State.addSat_keeps | apply State.inc_keeps | apply State.writeSts_keeps | apply State.irq_keeps | apply State.put_keeps | apply State.handOver_keeps | dsimp -zeta only | refine keeps_of_fst ?_ (by assumption) | refine keeps_of_snd ?_ (by assumption) | (extract_lets +onlyGivenNames x; first | (refine keeps_cut (s := s0) (t := x) ?_ (fun hx => ?_); unfold x; clear x; rotate_left; clear_value x; rotate_right) | clear_value x) | split

theorem State.startGate_keeps {s0 : State} {s : State} {h : Nat} {e : Entry} {set : List Word} {zone : Nat} {x : Option RdSector} {last : Bool} (hs : Keeps s0 s) : Keeps s0 (State.startGate s h e set zone x last) := by
  unfold State.startGate
  with_reducible repeat' first | assumption | intro _ | apply State.openAfe_keeps | apply State.setRd_keeps | (extract_lets +onlyGivenNames x; first | (refine keeps_cut (s := s0) (t := x) ?_ (fun hx => ?_); unfold x; clear x; rotate_left; clear_value x; rotate_right) | clear_value x) | split | (refine keeps_mk ?_ rfl ?_; rotate_left; (intro hk; cases hk; constructor <;> first | assumption | exact tabPut_sorted (by assumption) | exact filter_sorted (by assumption) | exact tabSorted_nil | exact foldl_tabPut_sorted (by assumption)))

theorem State.endRecv_keeps {s0 : State} {s : State} {h : Nat} {e : SecEnd} (hs : Keeps s0 s) : Keeps s0 (State.endRecv s h e) := by
  unfold State.endRecv
  with_reducible repeat' first | assumption | intro _ | apply State.endSector_keeps | apply State.setRd_keeps | (extract_lets +onlyGivenNames x; clear_value x) | split

theorem State.openNext_keeps {s0 : State} {s : State} {h : Nat} {e : Entry} {set : List Word} {zone : Nat} {epoch : Nat} {last : Bool} (hs : Keeps s0 s) : Keeps s0 (State.openNext s h e set zone epoch last) := by
  unfold State.openNext
  with_reducible repeat' first | assumption | intro _ | apply State.endSector_keeps | apply State.startGate_keeps | apply State.endRecv_keeps | (extract_lets +onlyGivenNames x; first | (refine keeps_cut (s := s0) (t := x) ?_ (fun hx => ?_); unfold x; clear x; rotate_left; clear_value x; rotate_right) | (have hf : ∀ y, x y = x y := fun _ => rfl; clear hf; unfold x; clear x) | clear_value x) | split

theorem State.endDec_keeps {s0 : State} {s : State} {h : Nat} {x : RdSector} {e : SecEnd} (hs : Keeps s0 s) : Keeps s0 (State.endDec s h x e) := by
  unfold State.endDec
  with_reducible repeat' first | assumption | apply State.endSector_keeps | apply State.setRd_keeps | (extract_lets +onlyGivenNames x; clear_value x)

theorem State.expireRead_keeps {s0 : State} {s : State} {h : Nat} {t : Int} (hs : Keeps s0 s) : Keeps s0 (State.expireRead s h t) := by
  unfold State.expireRead
  with_reducible repeat' first | assumption | intro _ | apply State.endRecv_keeps | (extract_lets +onlyGivenNames x; clear_value x) | split

theorem State.cutBg_keeps {s0 : State} {s : State} {h : Nat} {t : Int} (hs : Keeps s0 s) : Keeps s0 (State.cutBg s h t) := by
  unfold State.cutBg
  with_reducible repeat' first | assumption | intro _ | apply State.inc_keeps | apply State.setRd_keeps | apply State.endRecv_keeps | (extract_lets +onlyGivenNames x; first | (refine keeps_cut (s := s0) (t := x) ?_ (fun hx => ?_); unfold x; clear x; rotate_left; clear_value x; rotate_right) | clear_value x) | split

theorem State.claimSlot_keeps {s0 : State} {s : State} {h : Nat} (hs : Keeps s0 s) : Keeps s0 (State.claimSlot s h).1 := by
  unfold State.claimSlot
  with_reducible repeat' first | assumption | intro _ | apply State.inc_keeps | apply State.setRd_keeps | apply State.clearHints_keeps | apply State.setSlot_keeps | dsimp -zeta only | refine keeps_of_fst ?_ (by assumption) | refine keeps_of_snd ?_ (by assumption) | (extract_lets +onlyGivenNames x; first | (refine keeps_cut (s := s0) (t := x) ?_ (fun hx => ?_); unfold x; clear x; rotate_left; clear_value x; rotate_right) | clear_value x) | split

theorem State.openFirst_keeps {s0 : State} {s : State} {h : Nat} {e : Entry} {set : List Word} {zone : Nat} {epoch : Nat} {last : Bool} (hs : Keeps s0 s) : Keeps s0 (State.openFirst s h e set zone epoch last) := by
  unfold State.openFirst
  with_reducible repeat' first | assumption | intro _ | apply State.endRecv_keeps | apply State.endSector_keeps | apply State.claimSlot_keeps | apply State.claimLanding_keeps | apply State.startGate_keeps | dsimp -zeta only | refine keeps_of_fst ?_ (by assumption) | refine keeps_of_snd ?_ (by assumption) | (extract_lets +onlyGivenNames x; first | (refine keeps_cut (s := s0) (t := x) ?_ (fun hx => ?_); unfold x; clear x; rotate_left; clear_value x; rotate_right) | (refine keeps_cut_fst (s := s0) (x := x) ?_ (fun hx => ?_); unfold x; clear x; rotate_left; clear_value x; rotate_right) | (refine keeps_cut_snd (s := s0) (x := x) ?_ (fun hx => ?_); unfold x; clear x; rotate_left; clear_value x; rotate_right) | clear_value x) | split

theorem State.openRead_keeps {s0 : State} {s : State} {h : Nat} {e : Entry} (hs : Keeps s0 s) : Keeps s0 (State.openRead s h e) := by
  unfold State.openRead
  with_reducible repeat' first | assumption | apply State.expireRead_keeps | apply State.settle_keeps | apply State.cutBg_keeps | apply State.openFirst_keeps | apply State.openNext_keeps | (extract_lets +onlyGivenNames x; first | (refine keeps_cut (s := s0) (t := x) ?_ (fun hx => ?_); unfold x; clear x; rotate_left; clear_value x; rotate_right) | clear_value x) | split

theorem State.closeRead_keeps {s0 : State} {s : State} {h : Nat} {e : Entry} {errs : List SymErr} (hs : Keeps s0 s) : Keeps s0 (State.closeRead s h e errs) := by
  unfold State.closeRead
  with_reducible repeat' first | assumption | intro _ | apply State.closeAfe_keeps | apply State.runChain_keeps | apply State.endSector_keeps | apply State.setRd_keeps | (extract_lets +onlyGivenNames x; first | (refine keeps_cut (s := s0) (t := x) ?_ (fun hx => ?_); unfold x; clear x; rotate_left; clear_value x; rotate_right) | clear_value x) | split

theorem State.framed_keeps {s0 : State} {s : State} {h : Nat} {x : RdSector} {y : RdSector} (hs : Keeps s0 s) : Keeps s0 (State.framed s h x y) := by
  unfold State.framed
  with_reducible repeat' first | assumption | intro _ | apply State.endSector_keeps | apply State.setRd_keeps | (extract_lets +onlyGivenNames x; clear_value x) | split

theorem execResyncSearchEnd_keeps {s0 : State} {h : Fin 96} {hard : List Bool} {s : State} (hs : Keeps s0 s) : KeepsOut s0 (execResyncSearchEnd h hard s) := by
  unfold execResyncSearchEnd
  with_reducible repeat' first | assumption | intro _ | apply State.framed_keeps | apply Keeps.out | split

theorem execDecodeEnd_keeps {s0 : State} {h : Fin 96} {r : Decoded} {s : State} (hs : Keeps s0 s) : KeepsOut s0 (execDecodeEnd h r s) := by
  unfold execDecodeEnd
  with_reducible repeat' first | assumption | intro _ | apply State.raise_keeps | apply State.endDec_keeps | apply Keeps.out | (extract_lets +onlyGivenNames x; clear_value x) | split

theorem State.abortRead_keeps {s0 : State} {s : State} {h : Nat} {status : Nat} (hs : Keeps s0 s) : Keeps s0 (State.abortRead s h status) := by
  unfold State.abortRead
  with_reducible repeat' first | assumption | intro _ | apply State.endDec_keeps | apply State.endRecv_keeps | apply State.afeSleep_keeps | apply State.setRd_keeps | apply each_keeps | (extract_lets +onlyGivenNames x; first | (refine keeps_cut (s := s0) (t := x) ?_ (fun hx => ?_); unfold x; clear x; rotate_left; clear_value x; rotate_right) | clear_value x)

theorem execDetectorPassEnd_keeps {s0 : State} {h : Fin 96} {llr : List (BitVec 7)} {older : Decoded} {s : State} (hs : Keeps s0 s) : KeepsOut s0 (execDetectorPassEnd h llr older s) := by
  unfold execDetectorPassEnd
  with_reducible repeat' first | assumption | intro _ | apply State.setRd_keeps | apply State.endDec_keeps | apply each_keeps | apply Keeps.out | (extract_lets +onlyGivenNames x; first | (refine keeps_cut (s := s0) (t := x) ?_ (fun hx => ?_); unfold x; clear x; rotate_left; clear_value x; rotate_right) | clear_value x) | split

theorem execRgOpen_keeps {s0 : State} {a : Fin 8} {s : State} (hs : Keeps s0 s) : KeepsOut s0 (execRgOpen a s) := by
  unfold execRgOpen
  with_reducible repeat' first | assumption | intro _ | apply State.retireOpen_keeps | apply State.openRead_keeps | apply Keeps.out | split

theorem execRgClose_keeps {s0 : State} {a : Fin 8} {errs : List SymErr} {s : State} (hs : Keeps s0 s) : KeepsOut s0 (execRgClose a errs s) := by
  unfold execRgClose
  with_reducible repeat' first | assumption | intro _ | apply State.closeRead_keeps | apply State.retireClose_keeps | apply Keeps.out | split

theorem execSyncSearchEnd_keeps {s0 : State} {h : Fin 96} {hard : List Bool} {s : State} (hs : Keeps s0 s) : KeepsOut s0 (execSyncSearchEnd h hard s) := by
  unfold execSyncSearchEnd
  with_reducible repeat' first | assumption | intro _ | apply State.framed_keeps | apply State.inc_keeps | apply Keeps.out | split

theorem execFragmentTimeout_keeps {s0 : State} {h : Fin 96} {s : State} (hs : Keeps s0 s) : KeepsOut s0 (execFragmentTimeout h s) := by
  unfold execFragmentTimeout
  with_reducible repeat' first | assumption | apply State.expireRead_keeps | apply Keeps.out

end Sys2Proof.Machine
end

