-- ==== Sys2Proof/Laws/KeepsWritePath.lean ====
section
/-! SUPPORT. The operations of WritePath, StripeParity keep what `Keeps` says. -/

namespace Sys2Proof.Machine

theorem State.setWr_keeps {s0 : State} {s : State} {h : Nat} {v : WrHead} (hs : Keeps s0 s) : Keeps s0 (State.setWr s h v) := by
  unfold State.setWr
  with_reducible repeat' first | assumption | intro _ | (refine keeps_mk ?_ rfl ?_; rotate_left; (intro hk; cases hk; constructor <;> first | assumption | exact tabPut_sorted (by assumption) | exact filter_sorted (by assumption) | exact tabSorted_nil | exact foldl_tabPut_sorted (by assumption)))

theorem State.consumeDesc_keeps {s0 : State} {s : State} {h : Nat} (hs : Keeps s0 s) : Keeps s0 (State.consumeDesc s h) := by
  unfold State.consumeDesc
  with_reducible repeat' first | assumption | apply State.put_keeps | apply State.setWr_keeps | (extract_lets +onlyGivenNames x; clear_value x) | split

theorem State.releaseRec_keeps {s0 : State} {s : State} {h : Nat} {r : WrRec} (hs : Keeps s0 s) : Keeps s0 (State.releaseRec s h r) := by
  unfold State.releaseRec
  with_reducible repeat' first | assumption | intro _ | apply State.ringWrite_keeps | apply State.setWr_keeps | apply State.inc_keeps | apply State.irq_keeps | apply State.put_keeps | dsimp -zeta only | refine keeps_of_fst ?_ (by assumption) | refine keeps_of_snd ?_ (by assumption) | (extract_lets +onlyGivenNames x; first | (refine keeps_cut (s := s0) (t := x) ?_ (fun hx => ?_); unfold x; clear x; rotate_left; clear_value x; rotate_right) | clear_value x) | split | (refine keeps_mk ?_ rfl ?_; rotate_left; (intro hk; cases hk; constructor <;> first | assumption | exact tabPut_sorted (by assumption) | exact filter_sorted (by assumption) | exact tabSorted_nil | exact foldl_tabPut_sorted (by assumption)))

theorem State.endWrite_keeps {s0 : State} {s : State} {h : Nat} {x : WrSector} {cause : Nat} {dropped : Nat} {named : Bool} (hs : Keeps s0 s) : Keeps s0 (State.endWrite s h x cause dropped named) := by
  unfold State.endWrite
  with_reducible repeat' first | assumption | intro _ | apply State.setWr_keeps | apply State.afeSleep_keeps | apply State.consumeDesc_keeps | apply State.releaseRec_keeps | (extract_lets +onlyGivenNames x; first | (refine keeps_cut (s := s0) (t := x) ?_ (fun hx => ?_); unfold x; clear x; rotate_left; clear_value x; rotate_right) | clear_value x) | split

theorem State.abortWrite_keeps {s0 : State} {s : State} {h : Nat} {cause : Nat} (hs : Keeps s0 s) : Keeps s0 (State.abortWrite s h cause) := by
  unfold State.abortWrite
  with_reducible repeat' first | assumption | intro _ | apply State.endWrite_keeps | split

theorem State.expireWrite_keeps {s0 : State} {s : State} {h : Nat} {t : Int} (hs : Keeps s0 s) : Keeps s0 (State.expireWrite s h t) := by
  unfold State.expireWrite
  with_reducible repeat' first | assumption | intro _ | apply State.abortWrite_keeps | (extract_lets +onlyGivenNames x; clear_value x) | split

theorem execWriteFragmentTimeout_keeps {s0 : State} {h : Fin 96} {s : State} (hs : Keeps s0 s) : KeepsOut s0 (execWriteFragmentTimeout h s) := by
  unfold execWriteFragmentTimeout
  with_reducible repeat' first | assumption | apply State.expireWrite_keeps | apply Keeps.out

theorem State.notDriven_keeps {s0 : State} {s : State} {h : Nat} {e : Entry} {cause : Nat} (hs : Keeps s0 s) : Keeps s0 (State.notDriven s h e cause) := by
  unfold State.notDriven
  with_reducible repeat' first | assumption | intro _ | apply State.abortWrite_keeps | apply State.endWrite_keeps | apply State.inc_keeps | (extract_lets +onlyGivenNames x; first | (refine keeps_cut (s := s0) (t := x) ?_ (fun hx => ?_); unfold x; clear x; rotate_left; clear_value x; rotate_right) | clear_value x) | split

theorem State.shockOver_keeps {s0 : State} {s : State} (hs : Keeps s0 s) : Keeps s0 (State.shockOver s) := by
  unfold State.shockOver
  with_reducible repeat' first | assumption | intro _ | apply State.shockHints_keeps | apply each_keeps | (refine keeps_mk ?_ rfl ?_; rotate_left; (intro hk; cases hk; constructor <;> first | assumption | exact tabPut_sorted (by assumption) | exact filter_sorted (by assumption) | exact tabSorted_nil | exact foldl_tabPut_sorted (by assumption)))

theorem execShockRelease_keeps {s0 : State} {n : Fin 4} {mag : BitVec 10} {s : State} (hs : Keeps s0 s) : KeepsOut s0 (execShockRelease n mag s) := by
  unfold execShockRelease
  with_reducible repeat' first | assumption | apply State.putMax_keeps | apply State.put_keeps | apply State.shockOver_keeps | apply Keeps.out | (extract_lets +onlyGivenNames x; first | (refine keeps_cut (s := s0) (t := x) ?_ (fun hx => ?_); unfold x; clear x; rotate_left; clear_value x; rotate_right) | clear_value x) | split

theorem State.setStripe_keeps {s0 : State} {s : State} {i : Nat} {v : Stripe} (hs : Keeps s0 s) : Keeps s0 (State.setStripe s i v) := by
  unfold State.setStripe
  with_reducible repeat' first | assumption | intro _ | (refine keeps_mk ?_ rfl ?_; rotate_left; (intro hk; cases hk; constructor <;> first | assumption | exact tabPut_sorted (by assumption) | exact filter_sorted (by assumption) | exact tabSorted_nil | exact foldl_tabPut_sorted (by assumption)))

theorem State.serve_keeps {s0 : State} {s : State} {i : Nat} {k : Nat} {b : List Byte} (hs : Keeps s0 s) : Keeps s0 (State.serve s i k b) := by
  unfold State.serve
  with_reducible repeat' first | assumption | apply State.setStripe_keeps | (extract_lets +onlyGivenNames x; clear_value x) | split

theorem State.serveEnded_keeps {s0 : State} {s : State} {i : Nat} {n : Nat} (hs : Keeps s0 s) : Keeps s0 (State.serveEnded s i n) := by
  unfold State.serveEnded
  with_reducible repeat' first | assumption | intro _ | apply State.bufRead_keeps | apply State.serve_keeps | dsimp -zeta only | refine keeps_of_fst ?_ (by assumption) | refine keeps_of_snd ?_ (by assumption) | apply each_keeps | split

theorem descOf_keeps {s0 : State} {r : State × Option (List Byte)} (hr : Keeps s0 r.1) : Keeps s0 (descOf r).1 := hr

theorem State.fetchDesc_keeps {s0 : State} {s : State} {h : Nat} {i : Nat} (hs : Keeps s0 s) : Keeps s0 (State.fetchDesc s h i).1 := by
  unfold State.fetchDesc
  with_reducible repeat' first | assumption | intro _ | apply descOf_keeps | apply State.bufRead_keeps | dsimp -zeta only | refine keeps_of_fst ?_ (by assumption) | refine keeps_of_snd ?_ (by assumption) | (extract_lets +onlyGivenNames x; clear_value x)

theorem State.noteFeed_keeps {s0 : State} {s : State} {h : Nat} (hs : Keeps s0 s) : Keeps s0 (State.noteFeed s h) := by
  unfold State.noteFeed
  with_reducible repeat' first | assumption | intro _ | apply State.setStripe_keeps | apply each_keeps | (extract_lets +onlyGivenNames x; clear_value x) | split

theorem State.fetchNext_keeps {s0 : State} {s : State} {h : Nat} (hs : Keeps s0 s) : Keeps s0 (State.fetchNext s h) := by
  unfold State.fetchNext
  with_reducible repeat' first | assumption | intro _ | apply State.fetchDesc_keeps | apply State.noteFeed_keeps | apply State.setWr_keeps | dsimp -zeta only | refine keeps_of_fst ?_ (by assumption) | refine keeps_of_snd ?_ (by assumption) | (extract_lets +onlyGivenNames x; clear_value x) | split

theorem State.driveGate_keeps {s0 : State} {s : State} {h : Nat} {e : Entry} {x : WrSector} {pl : WrPlan} (hs : Keeps s0 s) : Keeps s0 (State.driveGate s h e x pl) := by
  unfold State.driveGate
  with_reducible repeat' first | assumption | intro _ | apply State.setWr_keeps | apply State.gateWake_keeps | (extract_lets +onlyGivenNames x; clear_value x)

theorem State.startWrite_keeps {s0 : State} {s : State} {h : Nat} {e : Entry} {set : List Word} (hs : Keeps s0 s) : Keeps s0 (State.startWrite s h e set) := by
  unfold State.startWrite
  with_reducible repeat' first | assumption | intro _ | apply State.driveGate_keeps | apply State.notDriven_keeps | apply State.raise_keeps | (extract_lets +onlyGivenNames x; clear_value x) | split

theorem State.openWriteFirst_keeps {s0 : State} {s : State} {h : Nat} {e : Entry} {set : List Word} (hs : Keeps s0 s) : Keeps s0 (State.openWriteFirst s h e set) := by
  unfold State.openWriteFirst
  with_reducible repeat' first | assumption | apply State.startWrite_keeps | apply State.abortWrite_keeps

theorem State.openWriteNext_keeps {s0 : State} {s : State} {h : Nat} {e : Entry} {set : List Word} (hs : Keeps s0 s) : Keeps s0 (State.openWriteNext s h e set) := by
  unfold State.openWriteNext
  with_reducible repeat' first | assumption | intro _ | apply State.notDriven_keeps | apply State.driveGate_keeps | (extract_lets +onlyGivenNames x; clear_value x) | split

theorem State.openWrite_keeps {s0 : State} {s : State} {a : Nat} {e : Entry} (hs : Keeps s0 s) : Keeps s0 (State.openWrite s a e).1 := by
  unfold State.openWrite
  with_reducible repeat' first | assumption | apply State.expireWrite_keeps | apply State.cutBg_keeps | apply State.settle_keeps | apply State.notDriven_keeps | apply State.openWriteFirst_keeps | apply State.openWriteNext_keeps | dsimp -zeta only | refine keeps_of_fst ?_ (by assumption) | refine keeps_of_snd ?_ (by assumption) | (extract_lets +onlyGivenNames x; first | (refine keeps_cut (s := s0) (t := x) ?_ (fun hx => ?_); unfold x; clear x; rotate_left; clear_value x; rotate_right) | (have hf : ∀ y, x y = x y := fun _ => rfl; clear hf; unfold x; clear x) | clear_value x) | split

theorem execWgOpen_keeps {s0 : State} {a : Fin 8} {s : State} (hs : Keeps s0 s) : KeepsOut s0 (execWgOpen a s) := by
  unfold execWgOpen
  with_reducible repeat' first | assumption | intro _ | apply State.openWrite_keeps | apply State.retireOpen_keeps | dsimp -zeta only | refine keeps_of_fst ?_ (by assumption) | refine keeps_of_snd ?_ (by assumption) | apply Keeps.out | (extract_lets +onlyGivenNames x; first | (refine keeps_cut_fst (s := s0) (x := x) ?_ (fun hx => ?_); unfold x; clear x; rotate_left; clear_value x; rotate_right) | (refine keeps_cut_snd (s := s0) (x := x) ?_ (fun hx => ?_); unfold x; clear x; rotate_left; clear_value x; rotate_right) | clear_value x) | split

theorem execWqWr_keeps {s0 : State} {m : Master} {h : Fin 96} {v : Word} {s : State} (hs : Keeps s0 s) : KeepsOut s0 (execWqWr m h v s) := by
  unfold execWqWr
  with_reducible repeat' first | assumption | intro _ | apply State.regCmd_keeps | apply State.put_keeps | apply State.fetchNext_keeps | apply Keeps.out | (extract_lets +onlyGivenNames x; first | (refine keeps_cut (s := s0) (t := x) ?_ (fun hx => ?_); unfold x; clear x; rotate_left; clear_value x; rotate_right) | clear_value x) | split

theorem State.amendCut_keeps {s0 : State} {s : State} {h : Nat} (hs : Keeps s0 s) : Keeps s0 (State.amendCut s h) := by
  unfold State.amendCut
  with_reducible repeat' first | assumption | intro _ | apply State.setWr_keeps | apply State.store_keeps | apply State.put_keeps | (extract_lets +onlyGivenNames x; first | (refine keeps_cut (s := s0) (t := x) ?_ (fun hx => ?_); unfold x; clear x; rotate_left; clear_value x; rotate_right) | clear_value x) | split

theorem State.setAlert_keeps {s0 : State} {s : State} {a : Nat} {v : Nat} (hs : Keeps s0 s) : Keeps s0 (State.setAlert s a v) := by
  unfold State.setAlert
  with_reducible repeat' first | assumption | intro _ | (refine keeps_mk ?_ rfl ?_; rotate_left; (intro hk; cases hk; constructor <;> first | assumption | exact tabPut_sorted (by assumption) | exact filter_sorted (by assumption) | exact tabSorted_nil | exact foldl_tabPut_sorted (by assumption)))

theorem State.cutWrite_keeps {s0 : State} {s : State} {h : Nat} {c : Nat} (hs : Keeps s0 s) : Keeps s0 (State.cutWrite s h c) := by
  unfold State.cutWrite
  with_reducible repeat' first | assumption | intro _ | apply State.abortWrite_keeps | apply State.setWr_keeps | (extract_lets +onlyGivenNames x; first | (refine keeps_cut (s := s0) (t := x) ?_ (fun hx => ?_); unfold x; clear x; rotate_left; clear_value x; rotate_right) | clear_value x) | split

theorem State.dropGates_keeps {s0 : State} {s : State} (hs : Keeps s0 s) : Keeps s0 (State.dropGates s) := by
  unfold State.dropGates
  with_reducible repeat' first | assumption | intro _ | apply State.amendCut_keeps | apply State.cutWrite_keeps | apply each_keeps | split

theorem State.noteInhibit_keeps {s0 : State} {s : State} {a : Nat} {cause : Nat} {k : Nat} (hs : Keeps s0 s) : Keeps s0 (State.noteInhibit s a cause k) := by
  unfold State.noteInhibit
  with_reducible repeat' first | assumption | apply State.put_keeps | split

theorem execAalertRise_keeps {s0 : State} {a : Fin 8} {s : State} (hs : Keeps s0 s) : KeepsOut s0 (execAalertRise a s) := by
  unfold execAalertRise
  with_reducible repeat' first | assumption | intro _ | apply State.setLnk_keeps | apply State.put_keeps | apply State.setAlert_keeps | apply State.dropGates_keeps | apply State.noteInhibit_keeps | apply State.setWr_keeps | apply each_keeps | apply Keeps.out | (extract_lets +onlyGivenNames x; first | (refine keeps_cut (s := s0) (t := x) ?_ (fun hx => ?_); unfold x; clear x; rotate_left; clear_value x; rotate_right) | clear_value x) | split

theorem State.putPayload_keeps {s0 : State} {s : State} {h : Nat} {i : Nat} {b : List Byte} (hs : Keeps s0 s) : Keeps s0 (State.putPayload s h i b) := by
  unfold State.putPayload
  with_reducible repeat' first | assumption | apply State.setWr_keeps | (extract_lets +onlyGivenNames x; clear_value x) | split

theorem execFaultLatchClear_keeps {s0 : State} {m : Master} {h : Fin 96} {s : State} (hs : Keeps s0 s) : KeepsOut s0 (execFaultLatchClear m h s) := by
  unfold execFaultLatchClear
  with_reducible repeat' first | assumption | intro _ | apply State.regCmd_keeps | apply State.put_keeps | apply Keeps.out

theorem State.alertOver_keeps {s0 : State} {s : State} {a : Nat} (hs : Keeps s0 s) : Keeps s0 (State.alertOver s a) := by
  unfold State.alertOver
  with_reducible repeat' first | assumption | intro _ | apply State.put_keeps | apply State.setAlert_keeps | apply State.setWr_keeps | apply each_keeps | (extract_lets +onlyGivenNames x; clear_value x)

theorem State.releaseHeld_keeps {s0 : State} {s : State} {a : Nat} {bad : Nat → Bool} {cause : Nat} (hs : Keeps s0 s) : Keeps s0 (State.releaseHeld s a bad cause) := by
  unfold State.releaseHeld
  with_reducible repeat' first | assumption | intro _ | apply State.setWr_keeps | apply State.releaseRec_keeps | apply each_keeps | (extract_lets +onlyGivenNames x; clear_value x) | split

theorem State.alertReply_keeps {s0 : State} {s : State} {a : Nat} {head : Nat} {status : Nat} (hs : Keeps s0 s) : Keeps s0 (State.alertReply s a head status) := by
  unfold State.alertReply
  with_reducible repeat' first | assumption | intro _ | apply State.irq_keeps | apply State.put_keeps | apply State.raise_keeps | apply State.noteInhibit_keeps | apply State.alertOver_keeps | apply State.releaseHeld_keeps | apply State.dropGates_keeps | apply each_keeps | (extract_lets +onlyGivenNames x; first | (refine keeps_cut (s := s0) (t := x) ?_ (fun hx => ?_); unfold x; clear x; rotate_left; clear_value x; rotate_right) | clear_value x) | split

theorem execResponseFrame_keeps {s0 : State} {a : Fin 8} {typ : BitVec 2} {head : BitVec 4} {seq : BitVec 2} {reg : BitVec 8} {data : BitVec 8} {crcOk : Bool} {high : Bool} {s : State} (hs : Keeps s0 s) : KeepsOut s0 (execResponseFrame a typ head seq reg data crcOk high s) := by
  unfold execResponseFrame
  with_reducible repeat' first | assumption | intro _ | apply State.putB_keeps | apply State.inc_keeps | apply State.setLnk_keeps | apply State.retransmit_keeps | apply State.pageFrameEnd_keeps | apply State.put_keeps | apply State.alertReply_keeps | apply State.irq_keeps | apply Keeps.out | (extract_lets +onlyGivenNames x; first | (refine keeps_cut (s := s0) (t := x) ?_ (fun hx => ?_); unfold x; clear x; rotate_left; clear_value x; rotate_right) | clear_value x) | split

theorem State.closeWrite_keeps {s0 : State} {s : State} {h : Nat} {e : Entry} (hs : Keeps s0 s) : Keeps s0 (State.closeWrite s h e) := by
  unfold State.closeWrite
  with_reducible repeat' first | assumption | intro _ | apply State.afeSleep_keeps | apply State.setWr_keeps | (extract_lets +onlyGivenNames x; clear_value x) | split

theorem execShockHoldEnd_keeps {s0 : State} {a : Fin 8} {s : State} (hs : Keeps s0 s) : KeepsOut s0 (execShockHoldEnd a s) := by
  unfold execShockHoldEnd
  with_reducible repeat' first | assumption | intro _ | apply State.put_keeps | apply Keeps.out | (extract_lets +onlyGivenNames x; clear_value x) | split | (refine keeps_mk ?_ rfl ?_; rotate_left; (intro hk; cases hk; constructor <;> first | assumption | exact tabPut_sorted (by assumption) | exact filter_sorted (by assumption) | exact tabSorted_nil | exact foldl_tabPut_sorted (by assumption)))

theorem execAlertStuck_keeps {s0 : State} {a : Fin 8} {s : State} (hs : Keeps s0 s) : KeepsOut s0 (execAlertStuck a s) := by
  unfold execAlertStuck
  with_reducible repeat' first | assumption | intro _ | apply State.setAlert_keeps | apply State.put_keeps | apply State.raise_keeps | apply Keeps.out | (extract_lets +onlyGivenNames x; clear_value x) | split

theorem State.linkFenced_keeps {s0 : State} {s : State} {a : Nat} (hs : Keeps s0 s) : Keeps s0 (State.linkFenced s a) := by
  unfold State.linkFenced
  with_reducible repeat' first | assumption | intro _ | apply State.noteInhibit_keeps | apply State.alertOver_keeps | apply State.linkDrop_keeps | apply State.releaseHeld_keeps | apply State.dropGates_keeps | apply State.removeEntries_keeps | (extract_lets +onlyGivenNames x; first | (refine keeps_cut (s := s0) (t := x) ?_ (fun hx => ?_); unfold x; clear x; rotate_left; clear_value x; rotate_right) | clear_value x)

theorem execUnderrun_keeps {s0 : State} {h : Fin 96} {s : State} (hs : Keeps s0 s) : KeepsOut s0 (execUnderrun h s) := by
  unfold execUnderrun
  with_reducible repeat' first | assumption | intro _ | apply State.raise_keeps | apply State.inc_keeps | apply State.abortWrite_keeps | apply Keeps.out | (extract_lets +onlyGivenNames x; clear_value x) | split

theorem execWgClose_keeps {s0 : State} {a : Fin 8} {s : State} (hs : Keeps s0 s) : KeepsOut s0 (execWgClose a s) := by
  unfold execWgClose
  with_reducible repeat' first | assumption | intro _ | apply State.closeWrite_keeps | apply State.retireClose_keeps | apply Keeps.out | split

theorem State.take_keeps {s0 : State} {s : State} {i : Nat} {k : Nat} {n : Nat} (hs : Keeps s0 s) : Keeps s0 (State.take s i k n) := by
  unfold State.take
  with_reducible repeat' first | assumption | apply State.setStripe_keeps | (extract_lets +onlyGivenNames x; clear_value x)

theorem State.fillBeat_keeps {s0 : State} {s : State} {h : Nat} {i : Nat} {d : WrDesc} {n : Nat} (hs : Keeps s0 s) : Keeps s0 (State.fillBeat s h i d n) := by
  unfold State.fillBeat
  with_reducible repeat' first | assumption | intro _ | apply State.serveEnded_keeps | apply State.bufRead_keeps | apply State.serve_keeps | apply State.putPayload_keeps | apply State.take_keeps | dsimp -zeta only | refine keeps_of_fst ?_ (by assumption) | refine keeps_of_snd ?_ (by assumption) | (extract_lets +onlyGivenNames x; first | (refine keeps_cut (s := s0) (t := x) ?_ (fun hx => ?_); unfold x; clear x; rotate_left; clear_value x; rotate_right) | clear_value x) | split

theorem execWriteFifoFill_keeps {s0 : State} {h : Fin 96} {s : State} (hs : Keeps s0 s) : KeepsOut s0 (execWriteFifoFill h s) := by
  unfold execWriteFifoFill
  with_reducible repeat' first | assumption | apply State.fetchNext_keeps | apply State.fillBeat_keeps | apply Keeps.out | (extract_lets +onlyGivenNames x; first | (refine keeps_cut (s := s0) (t := x) ?_ (fun hx => ?_); unfold x; clear x; rotate_left; clear_value x; rotate_right) | clear_value x) | split

theorem State.supplyGates_keeps {s0 : State} {s : State} {td : Nat} (hs : Keeps s0 s) : Keeps s0 (State.supplyGates s td) := by
  unfold State.supplyGates
  with_reducible repeat' first | assumption | intro _ | apply State.setWr_keeps | apply State.dropGates_keeps | apply each_keeps | (extract_lets +onlyGivenNames x; first | (refine keeps_cut (s := s0) (t := x) ?_ (fun hx => ?_); unfold x; clear x; rotate_left; clear_value x; rotate_right) | clear_value x) | split | (refine keeps_mk ?_ rfl ?_; rotate_left; (intro hk; cases hk; constructor <;> first | assumption | exact tabPut_sorted (by assumption) | exact filter_sorted (by assumption) | exact tabSorted_nil | exact foldl_tabPut_sorted (by assumption)))

theorem execWriteSectorEnd_keeps {s0 : State} {h : Fin 96} {s : State} (hs : Keeps s0 s) : KeepsOut s0 (execWriteSectorEnd h s) := by
  unfold execWriteSectorEnd
  with_reducible repeat' first | assumption | intro _ | apply State.endWrite_keeps | apply State.setWr_keeps | apply Keeps.out | (extract_lets +onlyGivenNames x; first | (refine keeps_cut (s := s0) (t := x) ?_ (fun hx => ?_); unfold x; clear x; rotate_left; clear_value x; rotate_right) | clear_value x) | split

theorem State.noteStp_keeps {s0 : State} {s : State} (hs : Keeps s0 s) : Keeps s0 (State.noteStp s) := by
  unfold State.noteStp
  with_reducible repeat' first | assumption | apply State.put_keeps | (extract_lets +onlyGivenNames x; clear_value x)

theorem State.setStripeState_keeps {s0 : State} {s : State} {i : Nat} {st : Nat} (hs : Keeps s0 s) : Keeps s0 (State.setStripeState s i st) := by
  unfold State.setStripeState
  with_reducible repeat' first | assumption | apply State.noteStp_keeps | apply State.put_keeps

theorem State.endStripe_keeps {s0 : State} {s : State} {i : Nat} {r : StripeEnd} (hs : Keeps s0 s) : Keeps s0 (State.endStripe s i r) := by
  unfold State.endStripe
  with_reducible repeat' first | assumption | intro _ | apply State.ringWrite_keeps | apply State.irq_keeps | apply State.setStripeState_keeps | apply State.put_keeps | apply State.inc_keeps | dsimp -zeta only | refine keeps_of_fst ?_ (by assumption) | refine keeps_of_snd ?_ (by assumption) | (extract_lets +onlyGivenNames x; first | (refine keeps_cut (s := s0) (t := x) ?_ (fun hx => ?_); unfold x; clear x; rotate_left; clear_value x; rotate_right) | clear_value x) | split | (refine keeps_mk ?_ rfl ?_; rotate_left; (intro hk; cases hk; constructor <;> first | assumption | exact tabPut_sorted (by assumption) | exact filter_sorted (by assumption) | exact tabSorted_nil | exact foldl_tabPut_sorted (by assumption)))

theorem State.checkStripe_keeps {s0 : State} {s : State} {i : Nat} (hs : Keeps s0 s) : Keeps s0 (State.checkStripe s i) := by
  unfold State.checkStripe
  with_reducible repeat' first | assumption | intro _ | apply State.put_keeps | apply State.endStripe_keeps | apply State.setStripeState_keeps | (extract_lets +onlyGivenNames x; first | (refine keeps_cut (s := s0) (t := x) ?_ (fun hx => ?_); unfold x; clear x; rotate_left; clear_value x; rotate_right) | clear_value x) | split | (refine keeps_mk ?_ rfl ?_; rotate_left; (intro hk; cases hk; constructor <;> first | assumption | exact tabPut_sorted (by assumption) | exact filter_sorted (by assumption) | exact tabSorted_nil | exact foldl_tabPut_sorted (by assumption)))

theorem State.loseMembers_keeps {s0 : State} {s : State} {i : Nat} {f : Nat → Bool} (hs : Keeps s0 s) : Keeps s0 (State.loseMembers s i f) := by
  unfold State.loseMembers
  with_reducible repeat' first | assumption | intro _ | apply State.checkStripe_keeps | apply State.setStripe_keeps | apply foldl_keeps | apply foldl_keeps_fst | apply foldl_keeps_snd | (extract_lets +onlyGivenNames x; clear_value x) | split

theorem State.stpHeadFenced_keeps {s0 : State} {s : State} {h : Nat} (hs : Keeps s0 s) : Keeps s0 (State.stpHeadFenced s h) := by
  unfold State.stpHeadFenced
  with_reducible repeat' first | assumption | intro _ | apply State.loseMembers_keeps | apply each_keeps | split

theorem State.freeBytes_keeps {s0 : State} {s : State} {n : Nat} (hs : Keeps s0 s) : Keeps s0 (State.freeBytes s n).1 := by
  unfold State.freeBytes
  with_reducible repeat' first | assumption | intro _ | dsimp -zeta only | refine keeps_of_fst ?_ (by assumption) | refine keeps_of_snd ?_ (by assumption) | (refine keeps_mk ?_ rfl ?_; rotate_left; (intro hk; cases hk; constructor <;> first | assumption | exact tabPut_sorted (by assumption) | exact filter_sorted (by assumption) | exact tabSorted_nil | exact foldl_tabPut_sorted (by assumption)))

theorem State.readMember_keeps {s0 : State} {s : State} {i : Nat} {k : Nat} {n : Nat} (hs : Keeps s0 s) : Keeps s0 (State.readMember s i k n).1 := by
  unfold State.readMember
  with_reducible repeat' first | assumption | intro _ | apply State.freeBytes_keeps | apply State.bufRead_keeps | dsimp -zeta only | refine keeps_of_fst ?_ (by assumption) | refine keeps_of_snd ?_ (by assumption) | split

theorem State.readSurvivors_keeps {s0 : State} {s : State} {i n : Nat} {ks : List Nat} (hs : Keeps s0 s) : Keeps s0 (State.readSurvivors s i n ks).1 := by
  induction ks generalizing s with
  | nil => exact hs
  | cons k r ih => exact ih (State.readMember_keeps hs)

theorem State.rebuild_keeps {s0 : State} {s : State} {i : Nat} (hs : Keeps s0 s) : Keeps s0 (State.rebuild s i) := by
  unfold State.rebuild
  with_reducible repeat' first | assumption | intro _ | apply State.readSurvivors_keeps | apply State.bufWrite_keeps | apply State.endStripe_keeps | dsimp -zeta only | refine keeps_of_fst ?_ (by assumption) | refine keeps_of_snd ?_ (by assumption) | apply each_keeps | (extract_lets +onlyGivenNames x; first | (refine keeps_cut (s := s0) (t := x) ?_ (fun hx => ?_); unfold x; clear x; rotate_left; clear_value x; rotate_right) | (refine keeps_cut_fst (s := s0) (x := x) ?_ (fun hx => ?_); unfold x; clear x; rotate_left; clear_value x; rotate_right) | (refine keeps_cut_snd (s := s0) (x := x) ?_ (fun hx => ?_); unfold x; clear x; rotate_left; clear_value x; rotate_right) | clear_value x) | split

theorem execRebuildEnd_keeps {s0 : State} {i : Fin 64} {s : State} (hs : Keeps s0 s) : KeepsOut s0 (execRebuildEnd i s) := by
  unfold execRebuildEnd
  with_reducible repeat' first | assumption | apply State.rebuild_keeps | apply Keeps.out | split

theorem State.startStripe_keeps {s0 : State} {s : State} {i : Nat} {a : Nat} {t : Nat} (hs : Keeps s0 s) : Keeps s0 (State.startStripe s i a t) := by
  unfold State.startStripe
  with_reducible repeat' first | assumption | intro _ | apply State.raise_keeps | apply State.irq_keeps | apply State.setReg_keeps | apply State.setStripeState_keeps | apply State.put_keeps | apply State.setStripe_keeps | apply State.endStripe_keeps | apply State.noteFeed_keeps | apply State.loseMembers_keeps | apply each_keeps | (extract_lets +onlyGivenNames x; first | (refine keeps_cut (s := s0) (t := x) ?_ (fun hx => ?_); unfold x; clear x; rotate_left; clear_value x; rotate_right) | clear_value x) | split

theorem State.openDest_keeps {s0 : State} {s : State} {i : Nat} (hs : Keeps s0 s) : Keeps s0 (State.openDest s i) := by
  unfold State.openDest
  with_reducible repeat' first | assumption | intro _ | apply State.freeBytes_keeps | apply State.bufWrite_keeps | dsimp -zeta only | refine keeps_of_fst ?_ (by assumption) | refine keeps_of_snd ?_ (by assumption) | apply each_keeps | (extract_lets +onlyGivenNames x; first | (refine keeps_cut_fst (s := s0) (x := x) ?_ (fun hx => ?_); unfold x; clear x; rotate_left; clear_value x; rotate_right) | (refine keeps_cut_snd (s := s0) (x := x) ?_ (fun hx => ?_); unfold x; clear x; rotate_left; clear_value x; rotate_right) | clear_value x) | split

theorem State.abortStripe_keeps {s0 : State} {s : State} {i : Nat} (hs : Keeps s0 s) : Keeps s0 (State.abortStripe s i) := by
  unfold State.abortStripe
  with_reducible repeat' first | assumption | apply State.endStripe_keeps | apply State.openDest_keeps | (extract_lets +onlyGivenNames x; clear_value x) | split

theorem execCancel_keeps {s0 : State} {m : Master} {i : BitVec 6} {s : State} (hs : Keeps s0 s) : KeepsOut s0 (execCancel m i s) := by
  unfold execCancel
  with_reducible repeat' first | assumption | intro _ | apply State.regCmd_keeps | apply State.abortStripe_keeps | apply Keeps.out

theorem execStripeTimeout_keeps {s0 : State} {i : Fin 64} {s : State} (hs : Keeps s0 s) : KeepsOut s0 (execStripeTimeout i s) := by
  unfold execStripeTimeout
  with_reducible repeat' first | assumption | intro _ | apply State.checkStripe_keeps | apply State.setStripe_keeps | apply foldl_keeps | apply foldl_keeps_fst | apply foldl_keeps_snd | apply Keeps.out | (extract_lets +onlyGivenNames x; clear_value x) | split

theorem State.stpActFenced_keeps {s0 : State} {s : State} {a : Nat} (hs : Keeps s0 s) : Keeps s0 (State.stpActFenced s a) := by
  unfold State.stpActFenced
  with_reducible repeat' first | assumption | intro _ | apply State.loseMembers_keeps | apply each_keeps | split

theorem State.acceptRecord_keeps {s0 : State} {s : State} {i : Nat} {r : StpRec} (hs : Keeps s0 s) : Keeps s0 (State.acceptRecord s i r) := by
  unfold State.acceptRecord
  with_reducible repeat' first | assumption | intro _ | apply State.inc_keeps | apply State.checkStripe_keeps | apply State.setStripe_keeps | (extract_lets +onlyGivenNames x; clear_value x) | split

theorem execStpRecord_keeps {s0 : State} {s : State} (hs : Keeps s0 s) : KeepsOut s0 (execStpRecord s) := by
  unfold execStpRecord
  with_reducible repeat' first | assumption | intro _ | apply State.acceptRecord_keeps | apply State.inc_keeps | apply Keeps.out | (extract_lets +onlyGivenNames x; first | (refine keeps_cut (s := s0) (t := x) ?_ (fun hx => ?_); unfold x; clear x; rotate_left; clear_value x; rotate_right) | clear_value x) | split | (refine keeps_mk ?_ rfl ?_; rotate_left; (intro hk; cases hk; constructor <;> first | assumption | exact tabPut_sorted (by assumption) | exact filter_sorted (by assumption) | exact tabSorted_nil | exact foldl_tabPut_sorted (by assumption)))

theorem execRebuildStart_keeps {s0 : State} {s : State} (hs : Keeps s0 s) : KeepsOut s0 (execRebuildStart s) := by
  unfold execRebuildStart
  with_reducible repeat' first | assumption | intro _ | apply State.setStripeState_keeps | apply Keeps.out | split | (refine keeps_mk ?_ rfl ?_; rotate_left; (intro hk; cases hk; constructor <;> first | assumption | exact tabPut_sorted (by assumption) | exact filter_sorted (by assumption) | exact tabSorted_nil | exact foldl_tabPut_sorted (by assumption)))

theorem State.abortStripes_keeps {s0 : State} {s : State} (hs : Keeps s0 s) : Keeps s0 (State.abortStripes s) := by
  unfold State.abortStripes
  with_reducible repeat' first | assumption | intro _ | apply State.abortStripe_keeps | apply each_keeps

theorem execStpStart_keeps {s0 : State} {a : Fin 8} {s : State} (hs : Keeps s0 s) : KeepsOut s0 (execStpStart a s) := by
  unfold execStpStart
  with_reducible repeat' first | assumption | intro _ | apply State.retireOne_keeps | apply State.startStripe_keeps | apply Keeps.out | (extract_lets +onlyGivenNames x; first | (refine keeps_cut (s := s0) (t := x) ?_ (fun hx => ?_); unfold x; clear x; rotate_left; clear_value x; rotate_right) | clear_value x) | split

end Sys2Proof.Machine
end

