-- ==== Sys2Proof/Laws/KeepsDill.lean ====
section
/-! SUPPORT. The operations of Dill, Servo, EccCode keep what `Keeps` says. -/

namespace Sys2Proof.Machine

theorem State.setDil_keeps {s0 : State} {s : State} {a : Nat} {v : Dil} (hs : Keeps s0 s) : Keeps s0 (State.setDil s a v) := by
  unfold State.setDil
  with_reducible repeat' first | assumption | intro _ | (refine keeps_mk ?_ rfl ?_; rotate_left; (intro hk; cases hk; constructor <;> first | assumption | exact tabPut_sorted (by assumption) | exact filter_sorted (by assumption) | exact tabSorted_nil | exact foldl_tabPut_sorted (by assumption)))

theorem State.dropStaging_keeps {s0 : State} {s : State} {a : Nat} (hs : Keeps s0 s) : Keeps s0 (State.dropStaging s a) := by
  unfold State.dropStaging
  with_reducible repeat' first | assumption | intro _ | apply State.setReg_keeps | apply State.setDil_keeps | (extract_lets +onlyGivenNames x; clear_value x)

theorem State.endRoutine_keeps {s0 : State} {s : State} {a : Nat} {status : Nat} {code : Nat} {pcAt : Nat} {st : Nat} (hs : Keeps s0 s) : Keeps s0 (State.endRoutine s a status code pcAt st) := by
  unfold State.endRoutine
  with_reducible repeat' first | assumption | intro _ | apply State.setDil_keeps | apply State.dropStaging_keeps | apply State.put_keeps | apply State.irq_keeps | apply State.raise_keeps | (extract_lets +onlyGivenNames x; first | (refine keeps_cut (s := s0) (t := x) ?_ (fun hx => ?_); unfold x; clear x; rotate_left; clear_value x; rotate_right) | clear_value x) | split

theorem State.dilFault_keeps {s0 : State} {s : State} {c : DilCtx} {b : Nat} (hs : Keeps s0 s) : Keeps s0 (State.dilFault s c b) := by
  unfold State.dilFault
  with_reducible repeat' first | assumption | apply State.raise_keeps | apply State.endRoutine_keeps

theorem State.dilGo_keeps {s0 : State} {s : State} {a : Nat} {q : Nat} (hs : Keeps s0 s) : Keeps s0 (State.dilGo s a q) := by
  unfold State.dilGo
  with_reducible repeat' first | assumption | intro _ | apply State.setDil_keeps | apply State.put_keeps | apply State.endRoutine_keeps | (extract_lets +onlyGivenNames x; first | (refine keeps_cut (s := s0) (t := x) ?_ (fun hx => ?_); unfold x; clear x; rotate_left; clear_value x; rotate_right) | clear_value x) | split

theorem State.dilTransfer_keeps {s0 : State} {s : State} {c : DilCtx} {q : Nat} {entry : Bool} (hs : Keeps s0 s) : Keeps s0 (State.dilTransfer s c q entry) := by
  unfold State.dilTransfer
  with_reducible repeat' first | assumption | intro _ | apply State.dilFault_keeps | apply State.dilGo_keeps | split

theorem State.dilOpEnd_keeps {s0 : State} {s : State} {c : DilCtx} (hs : Keeps s0 s) : Keeps s0 (State.dilOpEnd s c) := by
  unfold State.dilOpEnd
  with_reducible repeat' first | assumption | intro _ | apply State.putMax_keeps | apply State.setDil_keeps | apply State.dilTransfer_keeps | (extract_lets +onlyGivenNames x; first | (refine keeps_cut (s := s0) (t := x) ?_ (fun hx => ?_); unfold x; clear x; rotate_left; clear_value x; rotate_right) | clear_value x) | split

theorem State.dilOp_keeps {s0 : State} {s : State} {a : Nat} {opc : Nat} {fn : Option Nat} {f : State → DilCtx → State × Option Nat} (hs : Keeps s0 s) (hf : ∀ y0 y1, Keeps s0 y0 → Keeps s0 (f y0 y1).1) : Keeps s0 (State.dilOp s a opc fn f) := by
  unfold State.dilOp
  with_reducible repeat' first | assumption | intro _ | apply State.dilFault_keeps | apply State.dilOpEnd_keeps | dsimp -zeta only | refine keeps_of_fst ?_ (by assumption) | refine keeps_of_snd ?_ (by assumption) | apply hf | (extract_lets +onlyGivenNames x; clear_value x) | split

theorem State.dilPlain_keeps {s0 : State} {s : State} {a : Nat} {opc : Nat} {fn : Option Nat} {f : State → DilCtx → State} (hs : Keeps s0 s) (hf : ∀ y0 y1, Keeps s0 y0 → Keeps s0 (f y0 y1)) : Keeps s0 (State.dilPlain s a opc fn f) := by
  unfold State.dilPlain
  with_reducible repeat' first | assumption | intro _ | apply State.dilOp_keeps | apply hf

theorem execOut_keeps {s0 : State} {a : Fin 8} {s : State} (hs : Keeps s0 s) : KeepsOut s0 (execOut a s) := by
  unfold execOut
  with_reducible repeat' first | assumption | intro _ | apply State.dilPlain_keeps | apply State.setReg_keeps | apply Keeps.out

theorem State.dilNext_keeps {s0 : State} {s : State} {a : Nat} {nxt : Nat} {sub : Option Nat} {f : State → DilCtx → State} (hs : Keeps s0 s) (hf : ∀ y0 y1, Keeps s0 y0 → Keeps s0 (f y0 y1)) : Keeps s0 (State.dilNext s a nxt sub f) := by
  unfold State.dilNext
  with_reducible repeat' first | assumption | intro _ | apply State.dilPlain_keeps | apply State.dilTransfer_keeps | apply State.dilFault_keeps | apply hf | (extract_lets +onlyGivenNames x; first | (refine keeps_cut (s := s0) (t := x) ?_ (fun hx => ?_); unfold x; clear x; rotate_left; clear_value x; rotate_right) | clear_value x) | split

theorem State.dilPop_keeps {s0 : State} {s : State} {a : Nat} (hs : Keeps s0 s) : Keeps s0 (State.dilPop s a) := by
  unfold State.dilPop
  with_reducible repeat' first | assumption | intro _ | apply State.put_keeps

theorem execResume_keeps {s0 : State} {a : Fin 8} {s : State} (hs : Keeps s0 s) : KeepsOut s0 (execResume a s) := by
  unfold execResume
  with_reducible repeat' first | assumption | intro _ | apply State.dilNext_keeps | apply State.dilFault_keeps | apply State.put_keeps | apply State.dilPop_keeps | apply State.setDil_keeps | apply State.dilTransfer_keeps | apply Keeps.out | (extract_lets +onlyGivenNames x; first | (refine keeps_cut (s := s0) (t := x) ?_ (fun hx => ?_); unfold x; clear x; rotate_left; clear_value x; rotate_right) | clear_value x) | split

theorem State.loadPart_keeps {s0 : State} {s : State} {m : Master} {a : Nat} {v : Nat} (hs : Keeps s0 s) : Keeps s0 (State.loadPart s m a v) := by
  unfold State.loadPart
  with_reducible repeat' first | assumption | intro _ | apply State.setReg_keeps | apply State.put_keeps | apply State.setDil_keeps | apply State.raise_keeps | apply State.irq_keeps | (extract_lets +onlyGivenNames x; first | (refine keeps_cut (s := s0) (t := x) ?_ (fun hx => ?_); unfold x; clear x; rotate_left; clear_value x; rotate_right) | clear_value x) | split

theorem State.setG_keeps {s0 : State} {s : State} {a : Nat} {i : Nat} {v : Word} (hs : Keeps s0 s) : Keeps s0 (State.setG s a i v) := by
  unfold State.setG
  with_reducible repeat' first | assumption | apply State.setReg_keeps | split

theorem State.setFlag_keeps {s0 : State} {s : State} {a : Nat} {f : Nat} {b : Bool} (hs : Keeps s0 s) : Keeps s0 (State.setFlag s a f b) := by
  unfold State.setFlag
  with_reducible repeat' first | assumption | intro _ | apply State.setDil_keeps | (extract_lets +onlyGivenNames x; clear_value x)

theorem State.dilResult_keeps {s0 : State} {s : State} {c : DilCtx} {r : Word} {carry : Bool} {ovf : Bool} (hs : Keeps s0 s) : Keeps s0 (State.dilResult s c r carry ovf) := by
  unfold State.dilResult
  with_reducible repeat' first | assumption | apply State.setG_keeps | apply State.setFlag_keeps | (extract_lets +onlyGivenNames x; first | (refine keeps_cut (s := s0) (t := x) ?_ (fun hx => ?_); unfold x; clear x; rotate_left; clear_value x; rotate_right) | clear_value x) | split

theorem State.aluShift_keeps {s0 : State} {s : State} {a : Nat} {fn : Nat} {f : Word → Nat → Word} {last : Nat → Nat} (hs : Keeps s0 s) : Keeps s0 (State.aluShift s a fn f last) := by
  unfold State.aluShift
  with_reducible repeat' first | assumption | intro _ | apply State.dilPlain_keeps | apply State.dilResult_keeps | apply State.drew_keeps | (extract_lets +onlyGivenNames x; clear_value x) | split

theorem execShl_keeps {s0 : State} {a : Fin 8} {s : State} (hs : Keeps s0 s) : KeepsOut s0 (execShl a s) := by
  unfold execShl
  with_reducible repeat' first | assumption | intro _ | apply State.aluShift_keeps | apply Keeps.out

theorem execEmask_keeps {s0 : State} {a : Fin 8} {s : State} (hs : Keeps s0 s) : KeepsOut s0 (execEmask a s) := by
  unfold execEmask
  with_reducible repeat' first | assumption | intro _ | apply State.dilPlain_keeps | apply State.put_keeps | apply Keeps.out

theorem execFail_keeps {s0 : State} {a : Fin 8} {s : State} (hs : Keeps s0 s) : KeepsOut s0 (execFail a s) := by
  unfold execFail
  with_reducible repeat' first | assumption | intro _ | apply State.dilNext_keeps | apply State.endRoutine_keeps | apply Keeps.out

theorem State.dilPush_keeps {s0 : State} {s : State} {a : Nat} {v : Nat} (hs : Keeps s0 s) : Keeps s0 (State.dilPush s a v) := by
  unfold State.dilPush
  with_reducible repeat' first | assumption | intro _ | apply State.put_keeps | apply State.setReg_keeps | (extract_lets +onlyGivenNames x; clear_value x)

theorem State.dilBranch_keeps {s0 : State} {s : State} {c : DilCtx} {b : Bool} {q : Nat} {entry : Bool} (hs : Keeps s0 s) : Keeps s0 (State.dilBranch s c b q entry) := by
  unfold State.dilBranch
  with_reducible repeat' first | assumption | intro _ | apply State.dilTransfer_keeps | split

theorem execDisp_keeps {s0 : State} {a : Fin 8} {s : State} (hs : Keeps s0 s) : KeepsOut s0 (execDisp a s) := by
  unfold execDisp
  with_reducible repeat' first | assumption | intro _ | apply State.dilNext_keeps | apply State.dilBranch_keeps | apply Keeps.out

theorem State.dilStart_keeps {s0 : State} {s : State} {a : Nat} {entry : Nat} (hs : Keeps s0 s) : Keeps s0 (State.dilStart s a entry) := by
  unfold State.dilStart
  with_reducible repeat' first | assumption | intro _ | apply State.raise_keeps | apply State.irq_keeps | apply State.put_keeps | apply State.setG_keeps | apply State.dropStaging_keeps | apply State.setDil_keeps | apply each_keeps | (extract_lets +onlyGivenNames x; first | (refine keeps_cut (s := s0) (t := x) ?_ (fun hx => ?_); unfold x; clear x; rotate_left; clear_value x; rotate_right) | clear_value x) | split

theorem execDilStart_keeps {s0 : State} {m : Master} {a : Fin 8} {entry : BitVec 13} {s : State} (hs : Keeps s0 s) : KeepsOut s0 (execDilStart m a entry s) := by
  unfold execDilStart
  with_reducible repeat' first | assumption | intro _ | apply State.regCmd_keeps | apply State.dilStart_keeps | apply Keeps.out

theorem State.dilHold_keeps {s0 : State} {s : State} {c : DilCtx} (hs : Keeps s0 s) : Keeps s0 (State.dilHold s c) := by
  unfold State.dilHold
  with_reducible repeat' first | assumption | intro _ | apply State.dilGo_keeps | apply State.put_keeps | split

theorem State.mulOp_keeps {s0 : State} {s : State} {a : Nat} {fn : Nat} {f : Word → Word → Word} (hs : Keeps s0 s) : Keeps s0 (State.mulOp s a fn f) := by
  unfold State.mulOp
  with_reducible repeat' first | assumption | intro _ | apply State.dilPlain_keeps | apply State.dilResult_keeps

theorem State.noteStg_keeps {s0 : State} {s : State} {a : Nat} (hs : Keeps s0 s) : Keeps s0 (State.noteStg s a) := by
  unfold State.noteStg
  with_reducible repeat' first | assumption | intro _ | apply State.put_keeps | (extract_lets +onlyGivenNames x; clear_value x)

theorem execDwr_keeps {s0 : State} {a : Fin 8} {s : State} (hs : Keeps s0 s) : KeepsOut s0 (execDwr a s) := by
  unfold execDwr
  with_reducible repeat' first | assumption | intro _ | apply State.dilOp_keeps | apply State.setDil_keeps | apply Keeps.out | (extract_lets +onlyGivenNames x; clear_value x) | split

theorem execStg_keeps {s0 : State} {a : Fin 8} {s : State} (hs : Keeps s0 s) : KeepsOut s0 (execStg a s) := by
  unfold execStg
  with_reducible repeat' first | assumption | intro _ | apply State.dilOp_keeps | apply State.noteStg_keeps | apply State.setDil_keeps | apply Keeps.out | (extract_lets +onlyGivenNames x; clear_value x) | split

theorem State.dilRaise_keeps {s0 : State} {s : State} {a : Nat} {mask : Nat} (hs : Keeps s0 s) : Keeps s0 (State.dilRaise s a mask) := by
  unfold State.dilRaise
  with_reducible repeat' first | assumption | intro _ | apply State.setReg_keeps | split

theorem State.timeOp_keeps {s0 : State} {s : State} {a : Nat} {fn : Nat} {f : State → DilCtx → State × Nat} (hs : Keeps s0 s) (hf : ∀ y0 y1, Keeps s0 y0 → Keeps s0 (f y0 y1).1) : Keeps s0 (State.timeOp s a fn f) := by
  unfold State.timeOp
  with_reducible repeat' first | assumption | intro _ | apply State.dilPlain_keeps | apply State.setG_keeps | apply State.setFlag_keeps | dsimp -zeta only | refine keeps_of_fst ?_ (by assumption) | refine keeps_of_snd ?_ (by assumption) | apply hf | (extract_lets +onlyGivenNames x; first | (refine keeps_cut_fst (s := s0) (x := x) ?_ (fun hx => ?_); unfold x; clear x; rotate_left; clear_value x; rotate_right) | (refine keeps_cut_snd (s := s0) (x := x) ?_ (fun hx => ?_); unfold x; clear x; rotate_left; clear_value x; rotate_right) | (have hf : ∀ y, x y = x y := fun _ => rfl; clear hf; unfold x; clear x) | clear_value x) | split

theorem execTimePred_keeps {s0 : State} {a : Fin 8} {s : State} (hs : Keeps s0 s) : KeepsOut s0 (execTimePred a s) := by
  unfold execTimePred
  with_reducible repeat' first | assumption | intro _ | apply State.timeOp_keeps | apply State.drew_keeps | apply Keeps.out | (extract_lets +onlyGivenNames x; clear_value x) | split

theorem State.dilStopWith_keeps {s0 : State} {s : State} {a : Nat} {status : Nat} (hs : Keeps s0 s) : Keeps s0 (State.dilStopWith s a status) := by
  unfold State.dilStopWith
  with_reducible repeat' first | assumption | intro _ | apply State.setDil_keeps | apply State.endRoutine_keeps | (extract_lets +onlyGivenNames x; clear_value x) | split

theorem execTimeNow_keeps {s0 : State} {a : Fin 8} {s : State} (hs : Keeps s0 s) : KeepsOut s0 (execTimeNow a s) := by
  unfold execTimeNow
  with_reducible repeat' first | assumption | intro _ | apply State.timeOp_keeps | apply Keeps.out

theorem execWait_keeps {s0 : State} {a : Fin 8} {s : State} (hs : Keeps s0 s) : KeepsOut s0 (execWait a s) := by
  unfold execWait
  with_reducible repeat' first | assumption | intro _ | apply State.dilNext_keeps | apply State.dilTransfer_keeps | apply State.dilHold_keeps | apply Keeps.out | split

theorem execEset_keeps {s0 : State} {a : Fin 8} {s : State} (hs : Keeps s0 s) : KeepsOut s0 (execEset a s) := by
  unfold execEset
  with_reducible repeat' first | assumption | intro _ | apply State.dilPlain_keeps | apply State.dilRaise_keeps | apply Keeps.out

theorem execCall_keeps {s0 : State} {a : Fin 8} {s : State} (hs : Keeps s0 s) : KeepsOut s0 (execCall a s) := by
  unfold execCall
  with_reducible repeat' first | assumption | intro _ | apply State.dilNext_keeps | apply State.dilFault_keeps | apply State.dilTransfer_keeps | apply State.dilPush_keeps | apply Keeps.out | split

theorem execDrd_keeps {s0 : State} {a : Fin 8} {s : State} (hs : Keeps s0 s) : KeepsOut s0 (execDrd a s) := by
  unfold execDrd
  with_reducible repeat' first | assumption | intro _ | apply State.dilOp_keeps | apply State.setG_keeps | apply Keeps.out | (extract_lets +onlyGivenNames x; clear_value x) | split

theorem execLoop_keeps {s0 : State} {a : Fin 8} {s : State} (hs : Keeps s0 s) : KeepsOut s0 (execLoop a s) := by
  unfold execLoop
  with_reducible repeat' first | assumption | intro _ | apply State.dilNext_keeps | apply State.setG_keeps | apply State.dilBranch_keeps | apply Keeps.out | (extract_lets +onlyGivenNames x; first | (refine keeps_cut (s := s0) (t := x) ?_ (fun hx => ?_); unfold x; clear x; rotate_left; clear_value x; rotate_right) | clear_value x)

theorem execWaitRelease_keeps {s0 : State} {a : Fin 8} {s : State} (hs : Keeps s0 s) : KeepsOut s0 (execWaitRelease a s) := by
  unfold execWaitRelease
  with_reducible repeat' first | assumption | intro _ | apply State.dilTransfer_keeps | apply State.put_keeps | apply Keeps.out | (extract_lets +onlyGivenNames x; clear_value x) | split

theorem State.aluField_keeps {s0 : State} {s : State} {a : Nat} {fn : Nat} {f : DilCtx → Word → Word → Word} (hs : Keeps s0 s) : Keeps s0 (State.aluField s a fn f) := by
  unfold State.aluField
  with_reducible repeat' first | assumption | intro _ | apply State.dilPlain_keeps | apply State.dilResult_keeps | apply State.drew_keeps | split

theorem execIns_keeps {s0 : State} {a : Fin 8} {s : State} (hs : Keeps s0 s) : KeepsOut s0 (execIns a s) := by
  unfold execIns
  with_reducible repeat' first | assumption | intro _ | apply State.aluField_keeps | apply Keeps.out | (extract_lets +onlyGivenNames x; clear_value x)

theorem State.alu_keeps {s0 : State} {s : State} {a : Nat} {fn : Nat} {f : Word → Word → Word × Bool × Bool} (hs : Keeps s0 s) : Keeps s0 (State.alu s a fn f) := by
  unfold State.alu
  with_reducible repeat' first | assumption | intro _ | apply State.dilPlain_keeps | apply State.dilResult_keeps | (extract_lets +onlyGivenNames x; clear_value x)

theorem execDilStop_keeps {s0 : State} {m : Master} {a : Fin 8} {s : State} (hs : Keeps s0 s) : KeepsOut s0 (execDilStop m a s) := by
  unfold execDilStop
  with_reducible repeat' first | assumption | intro _ | apply State.regCmd_keeps | apply State.dilRaise_keeps | apply Keeps.out

theorem execMulhu_keeps {s0 : State} {a : Fin 8} {s : State} (hs : Keeps s0 s) : KeepsOut s0 (execMulhu a s) := by
  unfold execMulhu
  with_reducible repeat' first | assumption | intro _ | apply State.mulOp_keeps | apply Keeps.out

theorem execMin_keeps {s0 : State} {a : Fin 8} {s : State} (hs : Keeps s0 s) : KeepsOut s0 (execMin a s) := by
  unfold execMin
  with_reducible repeat' first | assumption | intro _ | apply State.alu_keeps | apply Keeps.out | split

theorem execDiscard_keeps {s0 : State} {a : Fin 8} {s : State} (hs : Keeps s0 s) : KeepsOut s0 (execDiscard a s) := by
  unfold execDiscard
  with_reducible repeat' first | assumption | intro _ | apply State.dilPlain_keeps | apply State.setFlag_keeps | apply State.dropStaging_keeps | apply Keeps.out

theorem execMulhs_keeps {s0 : State} {a : Fin 8} {s : State} (hs : Keeps s0 s) : KeepsOut s0 (execMulhs a s) := by
  unfold execMulhs
  with_reducible repeat' first | assumption | intro _ | apply State.mulOp_keeps | apply Keeps.out

theorem State.dilVerdict_keeps {s0 : State} {s : State} {a : Nat} {batch : Bool} {v : Verdict} {index : Nat} (hs : Keeps s0 s) : Keeps s0 (State.dilVerdict s a batch v index) := by
  unfold State.dilVerdict
  with_reducible repeat' first | assumption | intro _ | apply State.setReg_keeps | apply State.setFlag_keeps | apply State.dilRaise_keeps | (extract_lets +onlyGivenNames x; first | (refine keeps_cut (s := s0) (t := x) ?_ (fun hx => ?_); unfold x; clear x; rotate_left; clear_value x; rotate_right) | clear_value x) | split

theorem execEnq_keeps {s0 : State} {a : Fin 8} {s : State} (hs : Keeps s0 s) : KeepsOut s0 (execEnq a s) := by
  unfold execEnq
  with_reducible repeat' first | assumption | intro _ | apply State.dilOp_keeps | apply State.makeWay_keeps | apply State.setMreg_keeps | apply State.enqueueOne_keeps | apply State.putBack_keeps | apply State.dilVerdict_keeps | apply State.setG_keeps | dsimp -zeta only | refine keeps_of_fst ?_ (by assumption) | refine keeps_of_snd ?_ (by assumption) | apply each_keeps | apply Keeps.out | (extract_lets +onlyGivenNames x; first | (refine keeps_cut (s := s0) (t := x) ?_ (fun hx => ?_); unfold x; clear x; rotate_left; clear_value x; rotate_right) | (refine keeps_cut_fst (s := s0) (x := x) ?_ (fun hx => ?_); unfold x; clear x; rotate_left; clear_value x; rotate_right) | (refine keeps_cut_snd (s := s0) (x := x) ?_ (fun hx => ?_); unfold x; clear x; rotate_left; clear_value x; rotate_right) | clear_value x) | split

theorem execEventTaken_keeps {s0 : State} {a : Fin 8} {s : State} (hs : Keeps s0 s) : KeepsOut s0 (execEventTaken a s) := by
  unfold execEventTaken
  with_reducible repeat' first | assumption | intro _ | apply State.setReg_keeps | apply State.dilPush_keeps | apply State.setDil_keeps | apply State.put_keeps | apply State.dilTransfer_keeps | apply Keeps.out | (extract_lets +onlyGivenNames x; first | (refine keeps_cut (s := s0) (t := x) ?_ (fun hx => ?_); unfold x; clear x; rotate_left; clear_value x; rotate_right) | clear_value x) | split

theorem execAbandon_keeps {s0 : State} {a : Fin 8} {s : State} (hs : Keeps s0 s) : KeepsOut s0 (execAbandon a s) := by
  unfold execAbandon
  with_reducible repeat' first | assumption | intro _ | apply State.dilNext_keeps | apply State.endRoutine_keeps | apply State.dilFault_keeps | apply Keeps.out | (extract_lets +onlyGivenNames x; clear_value x) | split

theorem State.dilFenced_keeps {s0 : State} {s : State} {a : Nat} (hs : Keeps s0 s) : Keeps s0 (State.dilFenced s a) := by
  unfold State.dilFenced
  with_reducible repeat' first | assumption | intro _ | apply State.dilStopWith_keeps | apply State.put_keeps | split

theorem execSub_keeps {s0 : State} {a : Fin 8} {s : State} (hs : Keeps s0 s) : KeepsOut s0 (execSub a s) := by
  unfold execSub
  with_reducible repeat' first | assumption | intro _ | apply State.alu_keeps | apply Keeps.out

theorem execOr_keeps {s0 : State} {a : Fin 8} {s : State} (hs : Keeps s0 s) : KeepsOut s0 (execOr a s) := by
  unfold execOr
  with_reducible repeat' first | assumption | intro _ | apply State.alu_keeps | apply Keeps.out

theorem execMax_keeps {s0 : State} {a : Fin 8} {s : State} (hs : Keeps s0 s) : KeepsOut s0 (execMax a s) := by
  unfold execMax
  with_reducible repeat' first | assumption | intro _ | apply State.alu_keeps | apply Keeps.out | split

theorem execEvtSet_keeps {s0 : State} {m : Master} {a : Fin 8} {mask : BitVec 16} {s : State} (hs : Keeps s0 s) : KeepsOut s0 (execEvtSet m a mask s) := by
  unfold execEvtSet
  with_reducible repeat' first | assumption | intro _ | apply State.regCmd_keeps | apply State.dilRaise_keeps | apply Keeps.out

theorem execShr_keeps {s0 : State} {a : Fin 8} {s : State} (hs : Keeps s0 s) : KeepsOut s0 (execShr a s) := by
  unfold execShr
  with_reducible repeat' first | assumption | intro _ | apply State.aluShift_keeps | apply Keeps.out

theorem execEvent_keeps {s0 : State} {d : Fin 9} {s : State} (hs : Keeps s0 s) : KeepsOut s0 (execEvent d s) := by
  unfold execEvent
  with_reducible repeat' first | assumption | intro _ | apply State.retireOne_keeps | apply State.dilRaise_keeps | apply State.irq_keeps | apply Keeps.out | split

theorem execEclr_keeps {s0 : State} {a : Fin 8} {s : State} (hs : Keeps s0 s) : KeepsOut s0 (execEclr a s) := by
  unfold execEclr
  with_reducible repeat' first | assumption | intro _ | apply State.dilPlain_keeps | apply State.setReg_keeps | apply Keeps.out

theorem execEndOp_keeps {s0 : State} {a : Fin 8} {s : State} (hs : Keeps s0 s) : KeepsOut s0 (execEndOp a s) := by
  unfold execEndOp
  with_reducible repeat' first | assumption | intro _ | apply State.dilNext_keeps | apply State.endRoutine_keeps | apply Keeps.out

theorem execMul_keeps {s0 : State} {a : Fin 8} {s : State} (hs : Keeps s0 s) : KeepsOut s0 (execMul a s) := by
  unfold execMul
  with_reducible repeat' first | assumption | intro _ | apply State.mulOp_keeps | apply Keeps.out

theorem execJmp_keeps {s0 : State} {a : Fin 8} {s : State} (hs : Keeps s0 s) : KeepsOut s0 (execJmp a s) := by
  unfold execJmp
  with_reducible repeat' first | assumption | intro _ | apply State.dilNext_keeps | apply State.dilBranch_keeps | apply Keeps.out

theorem execTimeAngle_keeps {s0 : State} {a : Fin 8} {s : State} (hs : Keeps s0 s) : KeepsOut s0 (execTimeAngle a s) := by
  unfold execTimeAngle
  with_reducible repeat' first | assumption | intro _ | apply State.timeOp_keeps | apply Keeps.out

theorem execHoldRun_keeps {s0 : State} {a : Fin 8} {s : State} (hs : Keeps s0 s) : KeepsOut s0 (execHoldRun a s) := by
  unfold execHoldRun
  with_reducible repeat' first | assumption | intro _ | apply State.dilFault_keeps | apply Keeps.out | (extract_lets +onlyGivenNames x; clear_value x) | split

theorem execLdData_keeps {s0 : State} {m : Master} {a : Fin 8} {v : Word} {s : State} (hs : Keeps s0 s) : KeepsOut s0 (execLdData m a v s) := by
  unfold execLdData
  with_reducible repeat' first | assumption | intro _ | apply State.regCmd_keeps | apply State.loadPart_keeps | apply Keeps.out

theorem execExt_keeps {s0 : State} {a : Fin 8} {s : State} (hs : Keeps s0 s) : KeepsOut s0 (execExt a s) := by
  unfold execExt
  with_reducible repeat' first | assumption | intro _ | apply State.aluField_keeps | apply Keeps.out

theorem execXor_keeps {s0 : State} {a : Fin 8} {s : State} (hs : Keeps s0 s) : KeepsOut s0 (execXor a s) := by
  unfold execXor
  with_reducible repeat' first | assumption | intro _ | apply State.alu_keeps | apply Keeps.out

theorem execNop_keeps {s0 : State} {a : Fin 8} {s : State} (hs : Keeps s0 s) : KeepsOut s0 (execNop a s) := by
  unfold execNop
  with_reducible repeat' first | assumption | intro _ | apply State.dilPlain_keeps | apply Keeps.out

theorem execKill_keeps {s0 : State} {m : Master} {a : Fin 8} {s : State} (hs : Keeps s0 s) : KeepsOut s0 (execKill m a s) := by
  unfold execKill
  with_reducible repeat' first | assumption | intro _ | apply State.regCmd_keeps | apply State.dilStopWith_keeps | apply Keeps.out

theorem execIrq_keeps {s0 : State} {a : Fin 8} {s : State} (hs : Keeps s0 s) : KeepsOut s0 (execIrq a s) := by
  unfold execIrq
  with_reducible repeat' first | assumption | intro _ | apply State.dilPlain_keeps | apply State.irq_keeps | apply Keeps.out

theorem execAnd_keeps {s0 : State} {a : Fin 8} {s : State} (hs : Keeps s0 s) : KeepsOut s0 (execAnd a s) := by
  unfold execAnd
  with_reducible repeat' first | assumption | intro _ | apply State.alu_keeps | apply Keeps.out

theorem execEvtClr_keeps {s0 : State} {m : Master} {a : Fin 8} {mask : BitVec 16} {s : State} (hs : Keeps s0 s) : KeepsOut s0 (execEvtClr m a mask s) := by
  unfold execEvtClr
  with_reducible repeat' first | assumption | intro _ | apply State.regCmd_keeps | apply State.setReg_keeps | apply Keeps.out

theorem execLdAddr_keeps {s0 : State} {m : Master} {a : Fin 8} {space : BitVec 2} {addr : BitVec 13} {s : State} (hs : Keeps s0 s) : KeepsOut s0 (execLdAddr m a space addr s) := by
  unfold execLdAddr
  with_reducible repeat' first | assumption | intro _ | apply State.regCmd_keeps | apply State.setDil_keeps | apply State.setReg_keeps | apply Keeps.out | (extract_lets +onlyGivenNames x; clear_value x)

theorem execWadd_keeps {s0 : State} {a : Fin 8} {s : State} (hs : Keeps s0 s) : KeepsOut s0 (execWadd a s) := by
  unfold execWadd
  with_reducible repeat' first | assumption | intro _ | apply State.dilPlain_keeps | apply State.dilResult_keeps | apply Keeps.out | (extract_lets +onlyGivenNames x; clear_value x)

theorem execSar_keeps {s0 : State} {a : Fin 8} {s : State} (hs : Keeps s0 s) : KeepsOut s0 (execSar a s) := by
  unfold execSar
  with_reducible repeat' first | assumption | intro _ | apply State.aluShift_keeps | apply Keeps.out

theorem execTimeRev_keeps {s0 : State} {a : Fin 8} {s : State} (hs : Keeps s0 s) : KeepsOut s0 (execTimeRev a s) := by
  unfold execTimeRev
  with_reducible repeat' first | assumption | intro _ | apply State.timeOp_keeps | apply Keeps.out

theorem execAdd_keeps {s0 : State} {a : Fin 8} {s : State} (hs : Keeps s0 s) : KeepsOut s0 (execAdd a s) := by
  unfold execAdd
  with_reducible repeat' first | assumption | intro _ | apply State.alu_keeps | apply Keeps.out

theorem execRet_keeps {s0 : State} {a : Fin 8} {s : State} (hs : Keeps s0 s) : KeepsOut s0 (execRet a s) := by
  unfold execRet
  with_reducible repeat' first | assumption | intro _ | apply State.dilNext_keeps | apply State.dilFault_keeps | apply State.dilTransfer_keeps | apply State.dilPop_keeps | apply Keeps.out | split

theorem State.setSrv_keeps {s0 : State} {s : State} {a : Nat} {v : Srv} (hs : Keeps s0 s) : Keeps s0 (State.setSrv s a v) := by
  unfold State.setSrv
  with_reducible repeat' first | assumption | intro _ | (refine keeps_mk ?_ rfl ?_; rotate_left; (intro hk; cases hk; constructor <;> first | assumption | exact tabPut_sorted (by assumption) | exact filter_sorted (by assumption) | exact tabSorted_nil | exact foldl_tabPut_sorted (by assumption)))

theorem State.windowWake_keeps {s0 : State} {s : State} {h : Nat} (hs : Keeps s0 s) : Keeps s0 (State.windowWake s h) := by
  unfold State.windowWake
  with_reducible repeat' first | assumption | intro _ | apply State.lateWake_keeps | apply State.setAfe_keeps | (extract_lets +onlyGivenNames x; first | (refine keeps_cut (s := s0) (t := x) ?_ (fun hx => ?_); unfold x; clear x; rotate_left; clear_value x; rotate_right) | clear_value x) | split

theorem State.fracPos_keeps {s0 : State} {s : State} {aN : Int} {aQ : Int} (hs : Keeps s0 s) : Keeps s0 (State.fracPos s aN aQ).1 := by
  unfold State.fracPos
  with_reducible repeat' first | assumption | apply State.drew_keeps | apply State.roundFree_keeps | dsimp -zeta only | refine keeps_of_fst ?_ (by assumption) | refine keeps_of_snd ?_ (by assumption) | (extract_lets +onlyGivenNames x; clear_value x) | split

theorem State.pickTrack_keeps {s0 : State} {s : State} {id : Int} {f : Int} {pred : Int} (hs : Keeps s0 s) : Keeps s0 (State.pickTrack s id f pred).1 := by
  unfold State.pickTrack
  with_reducible repeat' first | assumption | apply State.drew_keeps | dsimp -zeta only | refine keeps_of_fst ?_ (by assumption) | refine keeps_of_snd ?_ (by assumption) | (extract_lets +onlyGivenNames x; clear_value x) | split

theorem State.demodulate_keeps {s0 : State} {s : State} {a : Nat} {k : Nat} {x : ServoHead} (hs : Keeps s0 s) : Keeps s0 (State.demodulate s a k x).1 := by
  unfold State.demodulate
  with_reducible repeat' first | assumption | intro _ | apply State.fracPos_keeps | apply State.pickTrack_keeps | dsimp -zeta only | refine keeps_of_fst ?_ (by assumption) | refine keeps_of_snd ?_ (by assumption) | (extract_lets +onlyGivenNames x; first | (refine keeps_cut_fst (s := s0) (x := x) ?_ (fun hx => ?_); unfold x; clear x; rotate_left; clear_value x; rotate_right) | (refine keeps_cut_snd (s := s0) (x := x) ?_ (fun hx => ?_); unfold x; clear x; rotate_left; clear_value x; rotate_right) | clear_value x) | split

theorem State.setSrvHead_keeps {s0 : State} {s : State} {h : Nat} {v : SrvHead} (hs : Keeps s0 s) : Keeps s0 (State.setSrvHead s h v) := by
  unfold State.setSrvHead
  with_reducible repeat' first | assumption | intro _ | (refine keeps_mk ?_ rfl ?_; rotate_left; (intro hk; cases hk; constructor <;> first | assumption | exact tabPut_sorted (by assumption) | exact filter_sorted (by assumption) | exact tabSorted_nil | exact foldl_tabPut_sorted (by assumption)))

theorem State.setGuard_keeps {s0 : State} {s : State} {h : Nat} {g : PesGuard} (hs : Keeps s0 s) : Keeps s0 (State.setGuard s h g) := by
  unfold State.setGuard
  with_reducible repeat' first | assumption | intro _ | (refine keeps_mk ?_ rfl ?_; rotate_left; (intro hk; cases hk; constructor <;> first | assumption | exact tabPut_sorted (by assumption) | exact filter_sorted (by assumption) | exact tabSorted_nil | exact foldl_tabPut_sorted (by assumption)))

theorem State.pesExceeds_keeps {s0 : State} {s : State} {a : Nat} {k : Nat} (hs : Keeps s0 s) : Keeps s0 (State.pesExceeds s a k) := by
  unfold State.pesExceeds
  with_reducible repeat' first | assumption | intro _ | apply State.setGuard_keeps | apply State.dilRaise_keeps | apply State.noteInhibit_keeps | apply State.irq_keeps | apply State.inc_keeps | apply State.put_keeps | (extract_lets +onlyGivenNames x; first | (refine keeps_cut (s := s0) (t := x) ?_ (fun hx => ?_); unfold x; clear x; rotate_left; clear_value x; rotate_right) | clear_value x) | split

theorem State.guardPes_keeps {s0 : State} {s : State} {a : Nat} {k : Nat} {good : Bool} {pes : Int} (hs : Keeps s0 s) : Keeps s0 (State.guardPes s a k good pes) := by
  unfold State.guardPes
  with_reducible repeat' first | assumption | intro _ | apply State.setGuard_keeps | apply State.pesExceeds_keeps | apply State.put_keeps | (extract_lets +onlyGivenNames x; first | (refine keeps_cut (s := s0) (t := x) ?_ (fun hx => ?_); unfold x; clear x; rotate_left; clear_value x; rotate_right) | clear_value x) | split

theorem State.headSample_keeps {s0 : State} {s : State} {a : Nat} {k : Nat} {o : HeadOut} (hs : Keeps s0 s) : Keeps s0 (State.headSample s a k o) := by
  unfold State.headSample
  with_reducible repeat' first | assumption | intro _ | apply State.put_keeps | apply State.putB_keeps | apply State.drew_keeps | apply State.setSrvHead_keeps | apply State.inc_keeps | apply State.guardPes_keeps | (extract_lets +onlyGivenNames x; first | (refine keeps_cut (s := s0) (t := x) ?_ (fun hx => ?_); unfold x; clear x; rotate_left; clear_value x; rotate_right) | clear_value x) | split

theorem State.pesCapture_keeps {s0 : State} {s : State} {a : Nat} {wedge : Nat} {tref : Nat} (hs : Keeps s0 s) : Keeps s0 (State.pesCapture s a wedge tref) := by
  unfold State.pesCapture
  with_reducible repeat' first | assumption | intro _ | apply State.setSrv_keeps | apply State.inc_keeps | apply foldl_keeps | apply foldl_keeps_fst | apply foldl_keeps_snd | (extract_lets +onlyGivenNames x; clear_value x) | split

theorem State.deliverReference_keeps {s0 : State} {s : State} {a : Nat} {os : List HeadOut} (hs : Keeps s0 s) : Keeps s0 (State.deliverReference s a os) := by
  unfold State.deliverReference
  with_reducible repeat' first | assumption | intro _ | apply State.roundNear_keeps | apply State.drew_keeps | apply State.putB_keeps | apply State.put_keeps | apply State.irq_keeps | apply State.inc_keeps | apply State.setSrv_keeps | apply State.pesCapture_keeps | dsimp -zeta only | refine keeps_of_fst ?_ (by assumption) | refine keeps_of_snd ?_ (by assumption) | (extract_lets +onlyGivenNames x; first | (refine keeps_cut (s := s0) (t := x) ?_ (fun hx => ?_); unfold x; clear x; rotate_left; clear_value x; rotate_right) | (refine keeps_cut_fst (s := s0) (x := x) ?_ (fun hx => ?_); unfold x; clear x; rotate_left; clear_value x; rotate_right) | (refine keeps_cut_snd (s := s0) (x := x) ?_ (fun hx => ?_); unfold x; clear x; rotate_left; clear_value x; rotate_right) | clear_value x) | split | (refine keeps_mk ?_ rfl ?_; rotate_left; (intro hk; cases hk; constructor <;> first | assumption | exact tabPut_sorted (by assumption) | exact filter_sorted (by assumption) | exact tabSorted_nil | exact foldl_tabPut_sorted (by assumption)))

theorem execServoSample_keeps {s0 : State} {a : Fin 8} {rdA : List ServoHead} {rdB : List ServoHead} {s : State} (hs : Keeps s0 s) : KeepsOut s0 (execServoSample a rdA rdB s) := by
  unfold execServoSample
  with_reducible repeat' first | assumption | intro _ | apply State.demodulate_keeps | apply State.headSample_keeps | apply State.dilRaise_keeps | apply State.deliverReference_keeps | apply State.dropGates_keeps | apply State.windowWake_keeps | dsimp -zeta only | refine keeps_of_fst ?_ (by assumption) | refine keeps_of_snd ?_ (by assumption) | apply foldl_keeps | apply foldl_keeps_fst | apply foldl_keeps_snd | apply Keeps.out | (extract_lets +onlyGivenNames x; first | (refine keeps_cut (s := s0) (t := x) ?_ (fun hx => ?_); unfold x; clear x; rotate_left; clear_value x; rotate_right) | (refine keeps_cut_fst (s := s0) (x := x) ?_ (fun hx => ?_); unfold x; clear x; rotate_left; clear_value x; rotate_right) | (refine keeps_cut_snd (s := s0) (x := x) ?_ (fun hx => ?_); unfold x; clear x; rotate_left; clear_value x; rotate_right) | clear_value x) | split

theorem State.pcapTaken_keeps {s0 : State} {s : State} {a : Nat} (hs : Keeps s0 s) : Keeps s0 (State.pcapTaken s a) := by
  unfold State.pcapTaken
  with_reducible repeat' first | assumption | apply State.setSrv_keeps | (extract_lets +onlyGivenNames x; clear_value x)

theorem pcapEnd_keeps {s0 : State} {p : Nat} {wr : Nat} {r : State × Bool} (hr : Keeps s0 r.1) : Keeps s0 (pcapEnd p wr r) := by
  unfold pcapEnd
  with_reducible repeat' first | assumption | apply State.irq_keeps | apply State.put_keeps | apply State.inc_keeps | split

theorem State.pcapStore_keeps {s0 : State} {s : State} {a : Nat} {i : Nat} {ws : List Nat} (hs : Keeps s0 s) : Keeps s0 (State.pcapStore s a i ws).1 := by
  unfold State.pcapStore
  with_reducible repeat' first | assumption | intro _ | apply State.bufWrite_keeps | dsimp -zeta only | refine keeps_of_fst ?_ (by assumption) | refine keeps_of_snd ?_ (by assumption)

theorem State.serveCapture_keeps {s0 : State} {s : State} {a : Nat} (hs : Keeps s0 s) : Keeps s0 (State.serveCapture s a) := by
  unfold State.serveCapture
  with_reducible repeat' first | assumption | apply State.pcapTaken_keeps | apply State.inc_keeps | apply pcapEnd_keeps | apply State.pcapStore_keeps | dsimp -zeta only | refine keeps_of_fst ?_ (by assumption) | refine keeps_of_snd ?_ (by assumption) | (extract_lets +onlyGivenNames x; first | (refine keeps_cut (s := s0) (t := x) ?_ (fun hx => ?_); unfold x; clear x; rotate_left; clear_value x; rotate_right) | clear_value x) | split

theorem State.idle_keeps {s0 : State} {s : State} (hs : Keeps s0 s) : Keeps s0 (State.idle s) := by
  unfold State.idle
  with_reducible repeat' first | assumption | intro _ | apply State.idleTick_keeps | apply State.serveCapture_keeps | apply each_keeps

theorem State.dramCe_keeps {s0 : State} {s : State} {l : Nat} (hs : Keeps s0 s) : Keeps s0 (State.dramCe s l) := by
  unfold State.dramCe
  with_reducible repeat' first | assumption | apply State.raise_keeps | apply State.inc_keeps | apply State.put_keeps | (extract_lets +onlyGivenNames x; clear_value x)

theorem State.lineCe_keeps {s0 : State} {s : State} {l : Nat} (hs : Keeps s0 s) : Keeps s0 (State.lineCe s l) := by
  unfold State.lineCe
  with_reducible repeat' first | assumption | intro _ | apply State.dramCe_keeps | apply State.raise_keeps | split

theorem State.markBad_keeps {s0 : State} {s : State} {l : Nat} (hs : Keeps s0 s) : Keeps s0 (State.markBad s l) := by
  unfold State.markBad
  with_reducible repeat' first | assumption | intro _ | split | (refine keeps_mk ?_ rfl ?_; rotate_left; (intro hk; cases hk; constructor <;> first | assumption | exact tabPut_sorted (by assumption) | exact filter_sorted (by assumption) | exact tabSorted_nil | exact foldl_tabPut_sorted (by assumption)))

theorem State.applyErr_keeps {s0 : State} {s : State} {l : Nat} {e : WordErr} (hs : Keeps s0 s) : Keeps s0 (State.applyErr s l e) := by
  unfold State.applyErr
  with_reducible repeat' first | assumption | intro _ | apply State.lineCe_keeps | apply State.markBad_keeps | split

end Sys2Proof.Machine
end

