-- ==== Sys2Proof/Laws/KeepsTiller.lean ====
section
/-! SUPPORT. The operations of Tiller, Spindle keep what `Keeps` says. -/

namespace Sys2Proof.Machine

theorem State.setLoop_keeps {s0 : State} {s : State} {a : Nat} {j : Nat} {v : TilLoop} (hs : Keeps s0 s) : Keeps s0 (State.setLoop s a j v) := by
  unfold State.setLoop
  with_reducible repeat' first | assumption | intro _ | (refine keeps_mk ?_ rfl ?_; rotate_left; (intro hk; cases hk; constructor <;> first | assumption | exact tabPut_sorted (by assumption) | exact filter_sorted (by assumption) | exact tabSorted_nil | exact foldl_tabPut_sorted (by assumption)))

theorem State.stampLoop_keeps {s0 : State} {s : State} {a : Nat} {j : Nat} (hs : Keeps s0 s) : Keeps s0 (State.stampLoop s a j) := by
  unfold State.stampLoop
  with_reducible repeat' first | assumption | apply State.setLoop_keeps | (extract_lets +onlyGivenNames x; clear_value x)

theorem State.missLoop_keeps {s0 : State} {s : State} {a : Nat} {j : Nat} (hs : Keeps s0 s) : Keeps s0 (State.missLoop s a j) := by
  unfold State.missLoop
  with_reducible repeat' first | assumption | apply State.stampLoop_keeps | apply State.inc_keeps | apply State.addSat_keeps

theorem State.fitErr_keeps {s0 : State} {s : State} {e : Int} (hs : Keeps s0 s) : Keeps s0 (State.fitErr s e).1 := by
  unfold State.fitErr
  with_reducible repeat' first | assumption | apply State.drew_keeps | dsimp -zeta only | refine keeps_of_fst ?_ (by assumption) | refine keeps_of_snd ?_ (by assumption) | split

theorem State.toDac_keeps {s0 : State} {s : State} {a : Nat} {j : Nat} {u : Int} (hs : Keeps s0 s) : Keeps s0 (State.toDac s a j u).1 := by
  unfold State.toDac
  with_reducible repeat' first | assumption | apply State.putB_keeps | apply State.irq_keeps | apply State.inc_keeps | apply State.put_keeps | dsimp -zeta only | refine keeps_of_fst ?_ (by assumption) | refine keeps_of_snd ?_ (by assumption) | (extract_lets +onlyGivenNames x; first | (refine keeps_cut (s := s0) (t := x) ?_ (fun hx => ?_); unfold x; clear x; rotate_left; clear_value x; rotate_right) | clear_value x) | split

theorem State.noteWraps_keeps {s0 : State} {s : State} {a : Nat} {j : Nat} {o : LoopOut} (hs : Keeps s0 s) : Keeps s0 (State.noteWraps s a j o) := by
  unfold State.noteWraps
  with_reducible repeat' first | assumption | apply State.raise_keeps | apply State.inc_keeps | apply State.put_keeps | (extract_lets +onlyGivenNames x; first | (refine keeps_cut (s := s0) (t := x) ?_ (fun hx => ?_); unfold x; clear x; rotate_left; clear_value x; rotate_right) | clear_value x) | split

theorem State.setTil_keeps {s0 : State} {s : State} {a : Nat} {v : Til} (hs : Keeps s0 s) : Keeps s0 (State.setTil s a v) := by
  unfold State.setTil
  with_reducible repeat' first | assumption | intro _ | (refine keeps_mk ?_ rfl ?_; rotate_left; (intro hk; cases hk; constructor <;> first | assumption | exact tabPut_sorted (by assumption) | exact filter_sorted (by assumption) | exact tabSorted_nil | exact foldl_tabPut_sorted (by assumption)))

theorem State.noteReady_keeps {s0 : State} {s : State} {a : Nat} {t : Nat} (hs : Keeps s0 s) : Keeps s0 (State.noteReady s a t) := by
  unfold State.noteReady
  with_reducible repeat' first | assumption | apply State.putMax_keeps | apply State.put_keeps | apply State.setTil_keeps | (extract_lets +onlyGivenNames x; first | (refine keeps_cut (s := s0) (t := x) ?_ (fun hx => ?_); unfold x; clear x; rotate_left; clear_value x; rotate_right) | clear_value x) | split

theorem State.finishLoop_keeps {s0 : State} {s : State} {a : Nat} {j : Nat} {m : Nat} {corr : Nat} {o : LoopOut} (hs : Keeps s0 s) : Keeps s0 (State.finishLoop s a j m corr o) := by
  unfold State.finishLoop
  with_reducible repeat' first | assumption | intro _ | apply State.put_keeps | apply State.toDac_keeps | apply State.noteWraps_keeps | apply State.noteReady_keeps | apply State.setLoop_keeps | dsimp -zeta only | refine keeps_of_fst ?_ (by assumption) | refine keeps_of_snd ?_ (by assumption) | (extract_lets +onlyGivenNames x; first | (refine keeps_cut (s := s0) (t := x) ?_ (fun hx => ?_); unfold x; clear x; rotate_left; clear_value x; rotate_right) | (refine keeps_cut_fst (s := s0) (x := x) ?_ (fun hx => ?_); unfold x; clear x; rotate_left; clear_value x; rotate_right) | (refine keeps_cut_snd (s := s0) (x := x) ?_ (fun hx => ?_); unfold x; clear x; rotate_left; clear_value x; rotate_right) | clear_value x) | split

theorem State.sampleClosed_keeps {s0 : State} {s : State} {a : Nat} {j : Nat} {corr : Nat} (hs : Keeps s0 s) : Keeps s0 (State.sampleClosed s a j corr) := by
  unfold State.sampleClosed
  with_reducible repeat' first | assumption | intro _ | apply State.stampLoop_keeps | apply State.missLoop_keeps | apply State.fitErr_keeps | apply State.finishLoop_keeps | dsimp -zeta only | refine keeps_of_fst ?_ (by assumption) | refine keeps_of_snd ?_ (by assumption) | (extract_lets +onlyGivenNames x; first | (refine keeps_cut_fst (s := s0) (x := x) ?_ (fun hx => ?_); unfold x; clear x; rotate_left; clear_value x; rotate_right) | (refine keeps_cut_snd (s := s0) (x := x) ?_ (fun hx => ?_); unfold x; clear x; rotate_left; clear_value x; rotate_right) | clear_value x) | split

theorem execMissLimit_keeps {s0 : State} {a : Fin 8} {j : Fin 13} {s : State} (hs : Keeps s0 s) : KeepsOut s0 (execMissLimit a j s) := by
  unfold execMissLimit
  with_reducible repeat' first | assumption | apply State.setLoop_keeps | apply State.raiseSub_keeps | apply State.raise_keeps | apply Keeps.out | (extract_lets +onlyGivenNames x; first | (refine keeps_cut (s := s0) (t := x) ?_ (fun hx => ?_); unfold x; clear x; rotate_left; clear_value x; rotate_right) | clear_value x) | split

theorem eachLoop_keeps {s0 : State} {mask : Nat} {s : State} {f : State → Nat → State} (hs : Keeps s0 s) (hf : ∀ y0 y1, Keeps s0 y0 → Keeps s0 (f y0 y1)) : Keeps s0 (eachLoop mask s f) := by
  unfold eachLoop
  with_reducible repeat' first | assumption | intro _ | apply each_keeps | apply hf

theorem State.setPend_keeps {s0 : State} {s : State} {a : Nat} {j : Nat} {i : Nat} {b : Bool} (hs : Keeps s0 s) : Keeps s0 (State.setPend s a j i b) := by
  unfold State.setPend
  with_reducible repeat' first | assumption | apply State.put_keeps

theorem execOpenSet_keeps {s0 : State} {m : Master} {a : Fin 8} {mask : BitVec 13} {s : State} (hs : Keeps s0 s) : KeepsOut s0 (execOpenSet m a mask s) := by
  unfold execOpenSet
  with_reducible repeat' first | assumption | intro _ | apply State.regCmd_keeps | apply eachLoop_keeps | apply State.setPend_keeps | apply Keeps.out

theorem State.noteHold_keeps {s0 : State} {s : State} {a : Nat} (hs : Keeps s0 s) : Keeps s0 (State.noteHold s a) := by
  unfold State.noteHold
  with_reducible repeat' first | assumption | apply State.put_keeps

theorem State.setPrf_keeps {s0 : State} {s : State} {a : Nat} {v : Prf} (hs : Keeps s0 s) : Keeps s0 (State.setPrf s a v) := by
  unfold State.setPrf
  with_reducible repeat' first | assumption | intro _ | (refine keeps_mk ?_ rfl ?_; rotate_left; (intro hk; cases hk; constructor <;> first | assumption | exact tabPut_sorted (by assumption) | exact filter_sorted (by assumption) | exact tabSorted_nil | exact foldl_tabPut_sorted (by assumption)))

theorem State.dropSeekRequests_keeps {s0 : State} {s : State} {a : Nat} (hs : Keeps s0 s) : Keeps s0 (State.dropSeekRequests s a) := by
  unfold State.dropSeekRequests
  with_reducible repeat' first | assumption | intro _ | apply State.put_keeps | apply each_keeps

theorem State.seekEnd_keeps {s0 : State} {s : State} {a : Nat} {last : Nat} (hs : Keeps s0 s) : Keeps s0 (State.seekEnd s a last) := by
  unfold State.seekEnd
  with_reducible repeat' first | assumption | intro _ | apply State.noteHold_keeps | apply State.irq_keeps | apply State.put_keeps | apply State.setPrf_keeps | apply State.dropSeekRequests_keeps | (extract_lets +onlyGivenNames x; clear_value x) | split

theorem State.seekCheck_keeps {s0 : State} {s : State} {a : Nat} (hs : Keeps s0 s) : Keeps s0 (State.seekCheck s a) := by
  unfold State.seekCheck
  with_reducible repeat' first | assumption | intro _ | apply State.inc_keeps | apply State.irq_keeps | apply State.seekEnd_keeps | apply State.dilRaise_keeps | (extract_lets +onlyGivenNames x; first | (refine keeps_cut (s := s0) (t := x) ?_ (fun hx => ?_); unfold x; clear x; rotate_left; clear_value x; rotate_right) | clear_value x) | split

theorem State.noteHo_keeps {s0 : State} {s : State} {a : Nat} {j : Nat} {irq : Nat} {f : Fld} (hs : Keeps s0 s) : Keeps s0 (State.noteHo s a j irq f) := by
  unfold State.noteHo
  with_reducible repeat' first | assumption | apply State.put_keeps | apply State.setTil_keeps | apply State.irq_keeps | (extract_lets +onlyGivenNames x; first | (refine keeps_cut (s := s0) (t := x) ?_ (fun hx => ?_); unfold x; clear x; rotate_left; clear_value x; rotate_right) | clear_value x) | split

theorem State.hoDone_keeps {s0 : State} {s : State} {a : Nat} {j : Nat} {m : Nat} (hs : Keeps s0 s) : Keeps s0 (State.hoDone s a j m) := by
  unfold State.hoDone
  with_reducible repeat' first | assumption | apply State.noteHo_keeps | apply State.put_keeps | apply State.setPend_keeps

theorem State.requestMode_keeps {s0 : State} {s : State} {a : Nat} {j : Nat} {m : Nat} {from_ : Nat} {fw : Bool} (hs : Keeps s0 s) : Keeps s0 (State.requestMode s a j m from_ fw) := by
  unfold State.requestMode
  with_reducible repeat' first | assumption | apply State.setPend_keeps | apply State.setLoop_keeps | apply State.put_keeps | (extract_lets +onlyGivenNames x; clear_value x) | split

theorem State.seekFenced_keeps {s0 : State} {s : State} {a : Nat} (hs : Keeps s0 s) : Keeps s0 (State.seekFenced s a) := by
  unfold State.seekFenced
  with_reducible repeat' first | assumption | apply State.setPrf_keeps | apply State.seekEnd_keeps | (extract_lets +onlyGivenNames x; first | (refine keeps_cut (s := s0) (t := x) ?_ (fun hx => ?_); unfold x; clear x; rotate_left; clear_value x; rotate_right) | clear_value x) | split

theorem State.openOut_keeps {s0 : State} {s : State} {a : Nat} {j : Nat} (hs : Keeps s0 s) : Keeps s0 (State.openOut s a j) := by
  unfold State.openOut
  with_reducible repeat' first | assumption | intro _ | apply State.toDac_keeps | apply State.stampLoop_keeps | apply State.setLoop_keeps | dsimp -zeta only | refine keeps_of_fst ?_ (by assumption) | refine keeps_of_snd ?_ (by assumption) | (extract_lets +onlyGivenNames x; first | (refine keeps_cut_fst (s := s0) (x := x) ?_ (fun hx => ?_); unfold x; clear x; rotate_left; clear_value x; rotate_right) | (refine keeps_cut_snd (s := s0) (x := x) ?_ (fun hx => ?_); unfold x; clear x; rotate_left; clear_value x; rotate_right) | clear_value x) | split

theorem State.addRef_keeps {s0 : State} {s : State} {a : Nat} {k : Nat} {w : List Int} {d : List Int} (hs : Keeps s0 s) : Keeps s0 (State.addRef s a k w d) := by
  unfold State.addRef
  with_reducible repeat' first | assumption | intro _ | apply State.put_keeps | apply State.setLoop_keeps | apply foldl_keeps | apply foldl_keeps_fst | apply foldl_keeps_snd | (extract_lets +onlyGivenNames x; clear_value x) | split

theorem execMaOffset_keeps {s0 : State} {a : Fin 8} {s : State} (hs : Keeps s0 s) : KeepsOut s0 (execMaOffset a s) := by
  unfold execMaOffset
  with_reducible repeat' first | assumption | intro _ | apply State.retireOne_keeps | apply State.addRef_keeps | apply Keeps.out | split

theorem State.frameLoop_keeps {s0 : State} {s : State} {a : Nat} {j : Nat} (hs : Keeps s0 s) : Keeps s0 (State.frameLoop s a j) := by
  unfold State.frameLoop
  with_reducible repeat' first | assumption | intro _ | apply State.toDac_keeps | apply State.setLoop_keeps | apply State.put_keeps | apply State.addSat_keeps | apply State.inc_keeps | dsimp -zeta only | refine keeps_of_fst ?_ (by assumption) | refine keeps_of_snd ?_ (by assumption) | (extract_lets +onlyGivenNames x; first | (refine keeps_cut (s := s0) (t := x) ?_ (fun hx => ?_); unfold x; clear x; rotate_left; clear_value x; rotate_right) | (refine keeps_cut_fst (s := s0) (x := x) ?_ (fun hx => ?_); unfold x; clear x; rotate_left; clear_value x; rotate_right) | (refine keeps_cut_snd (s := s0) (x := x) ?_ (fun hx => ?_); unfold x; clear x; rotate_left; clear_value x; rotate_right) | clear_value x) | split

theorem execOutputFrame_keeps {s0 : State} {a : Fin 8} {s : State} (hs : Keeps s0 s) : KeepsOut s0 (execOutputFrame a s) := by
  unfold execOutputFrame
  with_reducible repeat' first | assumption | intro _ | apply State.frameLoop_keeps | apply State.raise_keeps | apply State.irq_keeps | apply State.setTil_keeps | apply each_keeps | apply Keeps.out | (extract_lets +onlyGivenNames x; first | (refine keeps_cut (s := s0) (t := x) ?_ (fun hx => ?_); unfold x; clear x; rotate_left; clear_value x; rotate_right) | clear_value x) | split

theorem execHandover_keeps {s0 : State} {m : Master} {a : Fin 8} {mode : BitVec 2} {mask : BitVec 13} {s : State} (hs : Keeps s0 s) : KeepsOut s0 (execHandover m a mode mask s) := by
  unfold execHandover
  with_reducible repeat' first | assumption | intro _ | apply State.regCmd_keeps | apply eachLoop_keeps | apply State.requestMode_keeps | apply Keeps.out | split

theorem State.fwTook_keeps {s0 : State} {s : State} {a : Nat} {j : Nat} (hs : Keeps s0 s) : Keeps s0 (State.fwTook s a j) := by
  unfold State.fwTook
  with_reducible repeat' first | assumption | apply State.seekEnd_keeps | split

theorem State.hoRefused_keeps {s0 : State} {s : State} {a : Nat} {j : Nat} (hs : Keeps s0 s) : Keeps s0 (State.hoRefused s a j) := by
  unfold State.hoRefused
  with_reducible repeat' first | assumption | apply State.raise_keeps | apply State.noteHo_keeps | apply State.put_keeps | apply State.setPend_keeps

theorem State.sampleHand_keeps {s0 : State} {s : State} {a : Nat} {j : Nat} {m' : Nat} {corr : Nat} (hs : Keeps s0 s) : Keeps s0 (State.sampleHand s a j m' corr) := by
  unfold State.sampleHand
  with_reducible repeat' first | assumption | intro _ | apply State.fwTook_keeps | apply State.stampLoop_keeps | apply State.hoRefused_keeps | apply State.finishLoop_keeps | apply State.hoDone_keeps | apply State.missLoop_keeps | apply State.sampleClosed_keeps | apply State.fitErr_keeps | dsimp -zeta only | refine keeps_of_fst ?_ (by assumption) | refine keeps_of_snd ?_ (by assumption) | (extract_lets +onlyGivenNames x; first | (refine keeps_cut_fst (s := s0) (x := x) ?_ (fun hx => ?_); unfold x; clear x; rotate_left; clear_value x; rotate_right) | (refine keeps_cut_snd (s := s0) (x := x) ?_ (fun hx => ?_); unfold x; clear x; rotate_left; clear_value x; rotate_right) | (have hf : ∀ y, x y = x y := fun _ => rfl; clear hf; unfold x; clear x) | clear_value x) | split

theorem State.sampleOpen_keeps {s0 : State} {s : State} {a : Nat} {j : Nat} {corr : Nat} (hs : Keeps s0 s) : Keeps s0 (State.sampleOpen s a j corr) := by
  unfold State.sampleOpen
  with_reducible repeat' first | assumption | intro _ | apply State.openOut_keeps | apply State.fwTook_keeps | apply State.setPend_keeps | apply State.put_keeps | apply State.fitErr_keeps | apply State.raise_keeps | apply State.finishLoop_keeps | dsimp -zeta only | refine keeps_of_fst ?_ (by assumption) | refine keeps_of_snd ?_ (by assumption) | (extract_lets +onlyGivenNames x; first | (refine keeps_cut (s := s0) (t := x) ?_ (fun hx => ?_); unfold x; clear x; rotate_left; clear_value x; rotate_right) | (refine keeps_cut_fst (s := s0) (x := x) ?_ (fun hx => ?_); unfold x; clear x; rotate_left; clear_value x; rotate_right) | (refine keeps_cut_snd (s := s0) (x := x) ?_ (fun hx => ?_); unfold x; clear x; rotate_left; clear_value x; rotate_right) | clear_value x) | split

theorem execMaRef_keeps {s0 : State} {m : Master} {a : Fin 8} {j : Fin 13} {v : BitVec 16} {s : State} (hs : Keeps s0 s) : KeepsOut s0 (execMaRef m a j v s) := by
  unfold execMaRef
  with_reducible repeat' first | assumption | intro _ | apply State.regCmd_keeps | apply State.addRef_keeps | apply Keeps.out | split

theorem execOverrunLimit_keeps {s0 : State} {a : Fin 8} {s : State} (hs : Keeps s0 s) : KeepsOut s0 (execOverrunLimit a s) := by
  unfold execOverrunLimit
  with_reducible repeat' first | assumption | apply State.raise_keeps | apply State.setTil_keeps | apply Keeps.out | (extract_lets +onlyGivenNames x; clear_value x) | split

theorem execCloseSet_keeps {s0 : State} {m : Master} {a : Fin 8} {mask : BitVec 13} {s : State} (hs : Keeps s0 s) : KeepsOut s0 (execCloseSet m a mask s) := by
  unfold execCloseSet
  with_reducible repeat' first | assumption | intro _ | apply State.regCmd_keeps | apply eachLoop_keeps | apply State.setPend_keeps | apply State.setLoop_keeps | apply Keeps.out | (extract_lets +onlyGivenNames x; clear_value x)

theorem execTillerCompute_keeps {s0 : State} {a : Fin 8} {j : Fin 13} {corrected : BitVec 6} {s : State} (hs : Keeps s0 s) : KeepsOut s0 (execTillerCompute a j corrected s) := by
  unfold execTillerCompute
  with_reducible repeat' first | assumption | intro _ | apply State.raise_keeps | apply State.stampLoop_keeps | apply State.put_keeps | apply State.seekCheck_keeps | apply State.openOut_keeps | apply State.fwTook_keeps | apply State.setPend_keeps | apply State.sampleClosed_keeps | apply State.sampleHand_keeps | apply State.sampleOpen_keeps | apply Keeps.out | (extract_lets +onlyGivenNames x; first | (refine keeps_cut (s := s0) (t := x) ?_ (fun hx => ?_); unfold x; clear x; rotate_left; clear_value x; rotate_right) | clear_value x) | split

theorem State.speedLost_keeps {s0 : State} {s : State} (hs : Keeps s0 s) : Keeps s0 (State.speedLost s) := by
  unfold State.speedLost
  with_reducible repeat' first | assumption | intro _ | apply State.trackerIdle_keeps | apply State.put_keeps | split

theorem State.spnGo_keeps {s0 : State} {s : State} {st : Nat} (hs : Keeps s0 s) : Keeps s0 (State.spnGo s st) := by
  unfold State.spnGo
  with_reducible repeat' first | assumption | intro _ | apply State.irq_keeps | apply State.put_keeps | apply State.speedLost_keeps | (extract_lets +onlyGivenNames x; first | (refine keeps_cut (s := s0) (t := x) ?_ (fun hx => ?_); unfold x; clear x; rotate_left; clear_value x; rotate_right) | clear_value x) | split | (refine keeps_mk ?_ rfl ?_; rotate_left; (intro hk; cases hk; constructor <;> first | assumption | exact tabPut_sorted (by assumption) | exact filter_sorted (by assumption) | exact tabSorted_nil | exact foldl_tabPut_sorted (by assumption)))

theorem State.startAlign_keeps {s0 : State} {s : State} (hs : Keeps s0 s) : Keeps s0 (State.startAlign s) := by
  unfold State.startAlign
  with_reducible repeat' first | assumption | intro _ | apply State.put_keeps | apply State.spnGo_keeps | (extract_lets +onlyGivenNames x; first | (refine keeps_cut (s := s0) (t := x) ?_ (fun hx => ?_); unfold x; clear x; rotate_left; clear_value x; rotate_right) | clear_value x) | (refine keeps_mk ?_ rfl ?_; rotate_left; (intro hk; cases hk; constructor <;> first | assumption | exact tabPut_sorted (by assumption) | exact filter_sorted (by assumption) | exact tabSorted_nil | exact foldl_tabPut_sorted (by assumption)))

theorem State.spnOutcome_keeps {s0 : State} {s : State} {o : Nat} (hs : Keeps s0 s) : Keeps s0 (State.spnOutcome s o) := by
  unfold State.spnOutcome
  with_reducible repeat' first | assumption | apply State.irq_keeps | apply State.put_keeps

theorem State.rpmNow_keeps {s0 : State} {s : State} (hs : Keeps s0 s) : Keeps s0 (State.rpmNow s).1 := by
  unfold State.rpmNow
  with_reducible repeat' first | assumption | apply State.roundFree_keeps | apply State.drew_keeps | dsimp -zeta only | refine keeps_of_fst ?_ (by assumption) | refine keeps_of_snd ?_ (by assumption) | (extract_lets +onlyGivenNames x; first | (refine keeps_cut_fst (s := s0) (x := x) ?_ (fun hx => ?_); unfold x; clear x; rotate_left; clear_value x; rotate_right) | (refine keeps_cut_snd (s := s0) (x := x) ?_ (fun hx => ?_); unfold x; clear x; rotate_left; clear_value x; rotate_right) | clear_value x) | split

theorem State.logBrake_keeps {s0 : State} {s : State} {cause : Nat} (hs : Keeps s0 s) : Keeps s0 (State.logBrake s cause) := by
  unfold State.logBrake
  with_reducible repeat' first | assumption | apply State.rpmNow_keeps | apply State.put_keeps | dsimp -zeta only | refine keeps_of_fst ?_ (by assumption) | refine keeps_of_snd ?_ (by assumption) | (extract_lets +onlyGivenNames x; first | (refine keeps_cut_fst (s := s0) (x := x) ?_ (fun hx => ?_); unfold x; clear x; rotate_left; clear_value x; rotate_right) | (refine keeps_cut_snd (s := s0) (x := x) ?_ (fun hx => ?_); unfold x; clear x; rotate_left; clear_value x; rotate_right) | clear_value x)

theorem State.preBrake_keeps {s0 : State} {s : State} {outcome : Nat} (hs : Keeps s0 s) : Keeps s0 (State.preBrake s outcome) := by
  unfold State.preBrake
  with_reducible repeat' first | assumption | apply State.spnOutcome_keeps | apply State.spnGo_keeps | apply State.logBrake_keeps | apply Keeps.out

theorem execSenseEnd_keeps {s0 : State} {amp : BitVec 16} {crossings : BitVec 8} {fwd : Bool} {per : Word} {next : Word} {step : Fin 6} {s : State} (hs : Keeps s0 s) : KeepsOut s0 (execSenseEnd amp crossings fwd per next step s) := by
  unfold execSenseEnd
  with_reducible repeat' first | assumption | intro _ | apply State.roundFree_keeps | apply State.put_keeps | apply State.startAlign_keeps | apply State.spnOutcome_keeps | apply State.preBrake_keeps | apply State.spnGo_keeps | dsimp -zeta only | refine keeps_of_fst ?_ (by assumption) | refine keeps_of_snd ?_ (by assumption) | apply Keeps.out | (extract_lets +onlyGivenNames x; first | (refine keeps_cut (s := s0) (t := x) ?_ (fun hx => ?_); unfold x; clear x; rotate_left; clear_value x; rotate_right) | (refine keeps_cut_fst (s := s0) (x := x) ?_ (fun hx => ?_); unfold x; clear x; rotate_left; clear_value x; rotate_right) | (refine keeps_cut_snd (s := s0) (x := x) ?_ (fun hx => ?_); unfold x; clear x; rotate_left; clear_value x; rotate_right) | clear_value x) | split | (refine keeps_mk ?_ rfl ?_; rotate_left; (intro hk; cases hk; constructor <;> first | assumption | exact tabPut_sorted (by assumption) | exact filter_sorted (by assumption) | exact tabSorted_nil | exact foldl_tabPut_sorted (by assumption)))

theorem State.shortBrake_keeps {s0 : State} {s : State} {cause : Nat} (hs : Keeps s0 s) : Keeps s0 (State.shortBrake s cause) := by
  unfold State.shortBrake
  with_reducible repeat' first | assumption | apply State.spnGo_keeps | apply State.logBrake_keeps

theorem execChopFail_keeps {s0 : State} {sense : BitVec 16} {s : State} (hs : Keeps s0 s) : KeepsOut s0 (execChopFail sense s) := by
  unfold execChopFail
  with_reducible repeat' first | assumption | intro _ | apply State.put_keeps | apply State.raise_keeps | apply State.shortBrake_keeps | apply Keeps.out | (extract_lets +onlyGivenNames x; first | (refine keeps_cut (s := s0) (t := x) ?_ (fun hx => ?_); unfold x; clear x; rotate_left; clear_value x; rotate_right) | clear_value x) | split

theorem State.putTq_keeps {s0 : State} {s : State} {x : Rat} (hs : Keeps s0 s) : Keeps s0 (State.putTq s x) := by
  unfold State.putTq
  with_reducible repeat' first | assumption | apply State.roundFree_keeps | apply State.put_keeps | dsimp -zeta only | refine keeps_of_fst ?_ (by assumption) | refine keeps_of_snd ?_ (by assumption) | (extract_lets +onlyGivenNames x; first | (refine keeps_cut_fst (s := s0) (x := x) ?_ (fun hx => ?_); unfold x; clear x; rotate_left; clear_value x; rotate_right) | (refine keeps_cut_snd (s := s0) (x := x) ?_ (fun hx => ?_); unfold x; clear x; rotate_left; clear_value x; rotate_right) | clear_value x)

theorem State.regulate_keeps {s0 : State} {s : State} {kp : Nat} {ki : Nat} {e : Rat} (hs : Keeps s0 s) : Keeps s0 (State.regulate s kp ki e) := by
  unfold State.regulate
  with_reducible repeat' first | assumption | intro _ | apply State.putTq_keeps | (extract_lets +onlyGivenNames x; first | (refine keeps_cut (s := s0) (t := x) ?_ (fun hx => ?_); unfold x; clear x; rotate_left; clear_value x; rotate_right) | clear_value x) | split | (refine keeps_mk ?_ rfl ?_; rotate_left; (intro hk; cases hk; constructor <;> first | assumption | exact tabPut_sorted (by assumption) | exact filter_sorted (by assumption) | exact tabSorted_nil | exact foldl_tabPut_sorted (by assumption)))

theorem execWedgeTimeToSpn_keeps {s0 : State} {s : State} (hs : Keeps s0 s) : KeepsOut s0 (execWedgeTimeToSpn s) := by
  unfold execWedgeTimeToSpn
  with_reducible repeat' first | assumption | intro _ | apply State.regulate_keeps | apply State.put_keeps | apply Keeps.out | (extract_lets +onlyGivenNames x; first | (refine keeps_cut (s := s0) (t := x) ?_ (fun hx => ?_); unfold x; clear x; rotate_left; clear_value x; rotate_right) | clear_value x) | split | (refine keeps_mk ?_ rfl ?_; rotate_left; (intro hk; cases hk; constructor <;> first | assumption | exact tabPut_sorted (by assumption) | exact filter_sorted (by assumption) | exact tabSorted_nil | exact foldl_tabPut_sorted (by assumption)))

theorem execSpeedLoss_keeps {s0 : State} {s : State} (hs : Keeps s0 s) : KeepsOut s0 (execSpeedLoss s) := by
  unfold execSpeedLoss
  with_reducible repeat' first | assumption | intro _ | apply State.speedLost_keeps | apply State.raise_keeps | apply State.irq_keeps | apply Keeps.out | (extract_lets +onlyGivenNames x; first | (refine keeps_cut (s := s0) (t := x) ?_ (fun hx => ?_); unfold x; clear x; rotate_left; clear_value x; rotate_right) | clear_value x) | split | (refine keeps_mk ?_ rfl ?_; rotate_left; (intro hk; cases hk; constructor <;> first | assumption | exact tabPut_sorted (by assumption) | exact filter_sorted (by assumption) | exact tabSorted_nil | exact foldl_tabPut_sorted (by assumption)))

theorem execRegenEnd_keeps {s0 : State} {s : State} (hs : Keeps s0 s) : KeepsOut s0 (execRegenEnd s) := by
  unfold execRegenEnd
  with_reducible repeat' first | assumption | apply State.shortBrake_keeps | apply Keeps.out | split

theorem execAlignEnd_keeps {s0 : State} {s : State} (hs : Keeps s0 s) : KeepsOut s0 (execAlignEnd s) := by
  unfold execAlignEnd
  with_reducible repeat' first | assumption | intro _ | apply State.spnGo_keeps | apply Keeps.out | (extract_lets +onlyGivenNames x; first | (refine keeps_cut (s := s0) (t := x) ?_ (fun hx => ?_); unfold x; clear x; rotate_left; clear_value x; rotate_right) | clear_value x) | split | (refine keeps_mk ?_ rfl ?_; rotate_left; (intro hk; cases hk; constructor <;> first | assumption | exact tabPut_sorted (by assumption) | exact filter_sorted (by assumption) | exact tabSorted_nil | exact foldl_tabPut_sorted (by assumption)))

theorem State.motCmd_keeps {s0 : State} {s : State} {m : Master} {p : Nat} {off : Nat} {k : State → State} (hs : Keeps s0 s) (hk : ∀ y0, Keeps s0 y0 → Keeps s0 (k y0)) : Keeps s0 (State.motCmd s m p off k) := by
  unfold State.motCmd
  with_reducible repeat' first | assumption | intro _ | apply State.regCmd_keeps | apply hk | split

theorem State.spnRefuse_keeps {s0 : State} {s : State} {reason : Nat} (hs : Keeps s0 s) : Keeps s0 (State.spnRefuse s reason) := by
  unfold State.spnRefuse
  with_reducible repeat' first | assumption | apply State.raise_keeps | apply State.irq_keeps | apply State.put_keeps

theorem execBrake_keeps {s0 : State} {m : Master} {s : State} (hs : Keeps s0 s) : KeepsOut s0 (execBrake m s) := by
  unfold execBrake
  with_reducible repeat' first | assumption | intro _ | apply State.motCmd_keeps | apply State.spnRefuse_keeps | apply State.shortBrake_keeps | apply State.spnOutcome_keeps | apply Keeps.out | (extract_lets +onlyGivenNames x; clear_value x) | split

theorem execSpnOvr_keeps {s0 : State} {s : State} (hs : Keeps s0 s) : KeepsOut s0 (execSpnOvr s) := by
  unfold execSpnOvr
  with_reducible repeat' first | assumption | intro _ | apply State.retireOne_keeps | apply State.launchSerial_keeps | apply Keeps.out | (extract_lets +onlyGivenNames x; first | (refine keeps_cut (s := s0) (t := x) ?_ (fun hx => ?_); unfold x; clear x; rotate_left; clear_value x; rotate_right) | clear_value x) | split | (refine keeps_mk ?_ rfl ?_; rotate_left; (intro hk; cases hk; constructor <;> first | assumption | exact tabPut_sorted (by assumption) | exact filter_sorted (by assumption) | exact tabSorted_nil | exact foldl_tabPut_sorted (by assumption)))

theorem execChopperOff_keeps {s0 : State} {s : State} (hs : Keeps s0 s) : KeepsOut s0 (execChopperOff s) := by
  unfold execChopperOff
  with_reducible repeat' first | assumption | intro _ | apply State.put_keeps | apply Keeps.out | split

theorem State.goCoast_keeps {s0 : State} {s : State} (hs : Keeps s0 s) : Keeps s0 (State.goCoast s) := by
  unfold State.goCoast
  with_reducible repeat' first | assumption | apply State.spnOutcome_keeps | apply State.spnGo_keeps | apply Keeps.out | (extract_lets +onlyGivenNames x; first | (refine keeps_cut (s := s0) (t := x) ?_ (fun hx => ?_); unfold x; clear x; rotate_left; clear_value x; rotate_right) | clear_value x) | split

theorem execCoast_keeps {s0 : State} {m : Master} {s : State} (hs : Keeps s0 s) : KeepsOut s0 (execCoast m s) := by
  unfold execCoast
  with_reducible repeat' first | assumption | intro _ | apply State.motCmd_keeps | apply State.spnRefuse_keeps | apply State.goCoast_keeps | apply Keeps.out | split

theorem execAtSpeedSet_keeps {s0 : State} {s : State} (hs : Keeps s0 s) : KeepsOut s0 (execAtSpeedSet s) := by
  unfold execAtSpeedSet
  with_reducible repeat' first | assumption | intro _ | apply State.irq_keeps | apply State.put_keeps | apply State.spnGo_keeps | apply State.trackerStart_keeps | apply Keeps.out | (extract_lets +onlyGivenNames x; first | (refine keeps_cut (s := s0) (t := x) ?_ (fun hx => ?_); unfold x; clear x; rotate_left; clear_value x; rotate_right) | clear_value x) | split

theorem State.emergencyStop_keeps {s0 : State} {s : State} (hs : Keeps s0 s) : Keeps s0 (State.emergencyStop s) := by
  unfold State.emergencyStop
  with_reducible repeat' first | assumption | intro _ | apply State.spnOutcome_keeps | apply State.spnGo_keeps | apply Keeps.out | (extract_lets +onlyGivenNames x; first | (refine keeps_cut (s := s0) (t := x) ?_ (fun hx => ?_); unfold x; clear x; rotate_left; clear_value x; rotate_right) | clear_value x) | split | (refine keeps_mk ?_ rfl ?_; rotate_left; (intro hk; cases hk; constructor <;> first | assumption | exact tabPut_sorted (by assumption) | exact filter_sorted (by assumption) | exact tabSorted_nil | exact foldl_tabPut_sorted (by assumption)))

theorem execEmergencyStop_keeps {s0 : State} {s : State} (hs : Keeps s0 s) : KeepsOut s0 (execEmergencyStop s) := by
  unfold execEmergencyStop
  with_reducible repeat' first | assumption | apply State.emergencyStop_keeps | apply Keeps.out | split

theorem execSpnStart_keeps {s0 : State} {m : Master} {s : State} (hs : Keeps s0 s) : KeepsOut s0 (execSpnStart m s) := by
  unfold execSpnStart
  with_reducible repeat' first | assumption | intro _ | apply State.motCmd_keeps | apply State.spnRefuse_keeps | apply State.spnGo_keeps | apply Keeps.out | (extract_lets +onlyGivenNames x; first | (refine keeps_cut (s := s0) (t := x) ?_ (fun hx => ?_); unfold x; clear x; rotate_left; clear_value x; rotate_right) | clear_value x) | split | (refine keeps_mk ?_ rfl ?_; rotate_left; (intro hk; cases hk; constructor <;> first | assumption | exact tabPut_sorted (by assumption) | exact filter_sorted (by assumption) | exact tabSorted_nil | exact foldl_tabPut_sorted (by assumption)))

theorem State.noteSamples_keeps {s0 : State} {s : State} {xs : List BemfSample} (hs : Keeps s0 s) : Keeps s0 (State.noteSamples s xs) := by
  unfold State.noteSamples
  with_reducible repeat' first | assumption | intro _ | apply State.inc_keeps | apply each_keeps | (extract_lets +onlyGivenNames x; first | (refine keeps_cut (s := s0) (t := x) ?_ (fun hx => ?_); unfold x; clear x; rotate_left; clear_value x; rotate_right) | clear_value x) | split | (refine keeps_mk ?_ rfl ?_; rotate_left; (intro hk; cases hk; constructor <;> first | assumption | exact tabPut_sorted (by assumption) | exact filter_sorted (by assumption) | exact tabSorted_nil | exact foldl_tabPut_sorted (by assumption)))

theorem execZeroCrossing_keeps {s0 : State} {xs : List BemfSample} {s : State} (hs : Keeps s0 s) : KeepsOut s0 (execZeroCrossing xs s) := by
  unfold execZeroCrossing
  with_reducible repeat' first | assumption | intro _ | apply State.noteSamples_keeps | apply State.roundFree_keeps | apply State.put_keeps | dsimp -zeta only | refine keeps_of_fst ?_ (by assumption) | refine keeps_of_snd ?_ (by assumption) | apply Keeps.out | (extract_lets +onlyGivenNames x; first | (refine keeps_cut (s := s0) (t := x) ?_ (fun hx => ?_); unfold x; clear x; rotate_left; clear_value x; rotate_right) | (refine keeps_cut_fst (s := s0) (x := x) ?_ (fun hx => ?_); unfold x; clear x; rotate_left; clear_value x; rotate_right) | (refine keeps_cut_snd (s := s0) (x := x) ?_ (fun hx => ?_); unfold x; clear x; rotate_left; clear_value x; rotate_right) | clear_value x) | split | (refine keeps_mk ?_ rfl ?_; rotate_left; (intro hk; cases hk; constructor <;> first | assumption | exact tabPut_sorted (by assumption) | exact filter_sorted (by assumption) | exact tabSorted_nil | exact foldl_tabPut_sorted (by assumption)))

theorem State.motionReset_keeps {s0 : State} {sA : State} {keep : Nat → Nat → Bool} (hsA : Keeps s0 sA) : Keeps s0 (State.motionReset sA keep) := by
  unfold State.motionReset
  with_reducible repeat' first | assumption | intro _ | apply State.speedLost_keeps | apply State.put_keeps | (extract_lets +onlyGivenNames x; first | (refine keeps_cut (s := s0) (t := x) ?_ (fun hx => ?_); unfold x; clear x; rotate_left; clear_value x; rotate_right) | clear_value x) | (refine keeps_mk ?_ rfl ?_; rotate_left; (intro hk; cases hk; constructor <;> first | assumption | exact tabPut_sorted (by assumption) | exact filter_sorted (by assumption) | exact tabSorted_nil | exact foldl_tabPut_sorted (by assumption)))

theorem execRampStep_keeps {s0 : State} {s : State} (hs : Keeps s0 s) : KeepsOut s0 (execRampStep s) := by
  unfold execRampStep
  with_reducible repeat' first | assumption | intro _ | apply State.put_keeps | apply State.spnGo_keeps | apply Keeps.out | (extract_lets +onlyGivenNames x; first | (refine keeps_cut (s := s0) (t := x) ?_ (fun hx => ?_); unfold x; clear x; rotate_left; clear_value x; rotate_right) | clear_value x) | split | (refine keeps_mk ?_ rfl ?_; rotate_left; (intro hk; cases hk; constructor <;> first | assumption | exact tabPut_sorted (by assumption) | exact filter_sorted (by assumption) | exact tabSorted_nil | exact foldl_tabPut_sorted (by assumption)))

theorem State.bridgeTrip_keeps {s0 : State} {s : State} (hs : Keeps s0 s) : Keeps s0 (State.bridgeTrip s) := by
  unfold State.bridgeTrip
  with_reducible repeat' first | assumption | intro _ | apply State.spnGo_keeps | apply State.logBrake_keeps | apply State.put_keeps | (extract_lets +onlyGivenNames x; first | (refine keeps_cut (s := s0) (t := x) ?_ (fun hx => ?_); unfold x; clear x; rotate_left; clear_value x; rotate_right) | clear_value x) | split | (refine keeps_mk ?_ rfl ?_; rotate_left; (intro hk; cases hk; constructor <;> first | assumption | exact tabPut_sorted (by assumption) | exact filter_sorted (by assumption) | exact tabSorted_nil | exact foldl_tabPut_sorted (by assumption)))

theorem State.endRev_keeps {s0 : State} {s : State} {rev : Rat} (hs : Keeps s0 s) : Keeps s0 (State.endRev s rev) := by
  unfold State.endRev
  with_reducible repeat' first | assumption | intro _ | apply State.roundFree_keeps | apply State.putMax_keeps | apply State.put_keeps | dsimp -zeta only | refine keeps_of_fst ?_ (by assumption) | refine keeps_of_snd ?_ (by assumption) | (extract_lets +onlyGivenNames x; first | (refine keeps_cut (s := s0) (t := x) ?_ (fun hx => ?_); unfold x; clear x; rotate_left; clear_value x; rotate_right) | (refine keeps_cut_fst (s := s0) (x := x) ?_ (fun hx => ?_); unfold x; clear x; rotate_left; clear_value x; rotate_right) | (refine keeps_cut_snd (s := s0) (x := x) ?_ (fun hx => ?_); unfold x; clear x; rotate_left; clear_value x; rotate_right) | clear_value x) | split | (refine keeps_mk ?_ rfl ?_; rotate_left; (intro hk; cases hk; constructor <;> first | assumption | exact tabPut_sorted (by assumption) | exact filter_sorted (by assumption) | exact tabSorted_nil | exact foldl_tabPut_sorted (by assumption)))

theorem State.endElec_keeps {s0 : State} {s : State} (hs : Keeps s0 s) : Keeps s0 (State.endElec s) := by
  unfold State.endElec
  with_reducible repeat' first | assumption | intro _ | apply State.put_keeps | apply State.inc_keeps | apply State.endRev_keeps | (extract_lets +onlyGivenNames x; first | (refine keeps_cut (s := s0) (t := x) ?_ (fun hx => ?_); unfold x; clear x; rotate_left; clear_value x; rotate_right) | clear_value x) | split | (refine keeps_mk ?_ rfl ?_; rotate_left; (intro hk; cases hk; constructor <;> first | assumption | exact tabPut_sorted (by assumption) | exact filter_sorted (by assumption) | exact tabSorted_nil | exact foldl_tabPut_sorted (by assumption)))

theorem State.commutate_keeps {s0 : State} {s : State} {t : Int} (hs : Keeps s0 s) : Keeps s0 (State.commutate s t) := by
  unfold State.commutate
  with_reducible repeat' first | assumption | intro _ | apply State.put_keeps | apply State.regulate_keeps | apply State.endElec_keeps | (extract_lets +onlyGivenNames x; first | (refine keeps_cut (s := s0) (t := x) ?_ (fun hx => ?_); unfold x; clear x; rotate_left; clear_value x; rotate_right) | clear_value x) | split | (refine keeps_mk ?_ rfl ?_; rotate_left; (intro hk; cases hk; constructor <;> first | assumption | exact tabPut_sorted (by assumption) | exact filter_sorted (by assumption) | exact tabSorted_nil | exact foldl_tabPut_sorted (by assumption)))

theorem execCommutation_keeps {s0 : State} {rest : List BemfSample} {s : State} (hs : Keeps s0 s) : KeepsOut s0 (execCommutation rest s) := by
  unfold execCommutation
  with_reducible repeat' first | assumption | apply State.commutate_keeps | apply State.noteSamples_keeps | apply Keeps.out | split

theorem execD2dLoss_keeps {s0 : State} {s : State} (hs : Keeps s0 s) : KeepsOut s0 (execD2dLoss s) := by
  unfold execD2dLoss
  with_reducible repeat' first | assumption | intro _ | apply State.noteInhibit_keeps | apply State.raise_keeps | apply State.dropGates_keeps | apply each_keeps | apply Keeps.out | (extract_lets +onlyGivenNames x; first | (refine keeps_cut (s := s0) (t := x) ?_ (fun hx => ?_); unfold x; clear x; rotate_left; clear_value x; rotate_right) | clear_value x) | split | (refine keeps_mk ?_ rfl ?_; rotate_left; (intro hk; cases hk; constructor <;> first | assumption | exact tabPut_sorted (by assumption) | exact filter_sorted (by assumption) | exact tabSorted_nil | exact foldl_tabPut_sorted (by assumption)))

theorem execPrebrakeEnd_keeps {s0 : State} {amp : BitVec 16} {s : State} (hs : Keeps s0 s) : KeepsOut s0 (execPrebrakeEnd amp s) := by
  unfold execPrebrakeEnd
  with_reducible repeat' first | assumption | apply State.startAlign_keeps | apply Keeps.out | split

theorem execBridgeOc_keeps {s0 : State} {s : State} (hs : Keeps s0 s) : KeepsOut s0 (execBridgeOc s) := by
  unfold execBridgeOc
  with_reducible repeat' first | assumption | apply State.bridgeTrip_keeps | apply State.raise_keeps | apply Keeps.out

theorem State.askEmergency_keeps {s0 : State} {s : State} (hs : Keeps s0 s) : Keeps s0 (State.askEmergency s) := by
  unfold State.askEmergency
  with_reducible repeat' first | assumption | intro _ | (extract_lets +onlyGivenNames x; clear_value x) | (refine keeps_mk ?_ rfl ?_; rotate_left; (intro hk; cases hk; constructor <;> first | assumption | exact tabPut_sorted (by assumption) | exact filter_sorted (by assumption) | exact tabSorted_nil | exact foldl_tabPut_sorted (by assumption)))

theorem execChopperOn_keeps {s0 : State} {s : State} (hs : Keeps s0 s) : KeepsOut s0 (execChopperOn s) := by
  unfold execChopperOn
  with_reducible repeat' first | assumption | intro _ | apply State.irq_keeps | apply State.put_keeps | apply Keeps.out | (extract_lets +onlyGivenNames x; first | (refine keeps_cut (s := s0) (t := x) ?_ (fun hx => ?_); unfold x; clear x; rotate_left; clear_value x; rotate_right) | clear_value x) | split | (refine keeps_mk ?_ rfl ?_; rotate_left; (intro hk; cases hk; constructor <;> first | assumption | exact tabPut_sorted (by assumption) | exact filter_sorted (by assumption) | exact tabSorted_nil | exact foldl_tabPut_sorted (by assumption)))

theorem execVmSample_keeps {s0 : State} {vm : BitVec 13} {s : State} (hs : Keeps s0 s) : KeepsOut s0 (execVmSample vm s) := by
  unfold execVmSample
  with_reducible repeat' first | assumption | intro _ | apply State.putMax_keeps | apply State.put_keeps | apply State.putTq_keeps | apply State.putB_keeps | apply Keeps.out | (extract_lets +onlyGivenNames x; first | (refine keeps_cut (s := s0) (t := x) ?_ (fun hx => ?_); unfold x; clear x; rotate_left; clear_value x; rotate_right) | clear_value x) | split | (refine keeps_mk ?_ rfl ?_; rotate_left; (intro hk; cases hk; constructor <;> first | assumption | exact tabPut_sorted (by assumption) | exact filter_sorted (by assumption) | exact tabSorted_nil | exact foldl_tabPut_sorted (by assumption)))

theorem execStartTimeout_keeps {s0 : State} {s : State} (hs : Keeps s0 s) : KeepsOut s0 (execStartTimeout s) := by
  unfold execStartTimeout
  with_reducible repeat' first | assumption | intro _ | apply State.spnGo_keeps | apply State.raise_keeps | apply State.spnOutcome_keeps | apply Keeps.out | (extract_lets +onlyGivenNames x; clear_value x) | split

theorem State.askRetract_keeps {s0 : State} {s : State} {c : Nat} (hs : Keeps s0 s) : Keeps s0 (State.askRetract s c) := by
  unfold State.askRetract
  with_reducible repeat' first | assumption | intro _ | (extract_lets +onlyGivenNames x; clear_value x) | split | (refine keeps_mk ?_ rfl ?_; rotate_left; (intro hk; cases hk; constructor <;> first | assumption | exact tabPut_sorted (by assumption) | exact filter_sorted (by assumption) | exact tabSorted_nil | exact foldl_tabPut_sorted (by assumption)))

theorem execMotionEmergency_keeps {s0 : State} {s : State} (hs : Keeps s0 s) : KeepsOut s0 (execMotionEmergency s) := by
  unfold execMotionEmergency
  with_reducible repeat' first | assumption | apply State.askEmergency_keeps | apply State.askRetract_keeps | apply Keeps.out

theorem execZcMiss_keeps {s0 : State} {xs : List BemfSample} {s : State} (hs : Keeps s0 s) : KeepsOut s0 (execZcMiss xs s) := by
  unfold execZcMiss
  with_reducible repeat' first | assumption | intro _ | apply State.inc_keeps | apply State.noteSamples_keeps | apply State.preBrake_keeps | apply State.commutate_keeps | apply State.raise_keeps | apply Keeps.out | (extract_lets +onlyGivenNames x; first | (refine keeps_cut (s := s0) (t := x) ?_ (fun hx => ?_); unfold x; clear x; rotate_left; clear_value x; rotate_right) | clear_value x) | split | (refine keeps_mk ?_ rfl ?_; rotate_left; (intro hk; cases hk; constructor <;> first | assumption | exact tabPut_sorted (by assumption) | exact filter_sorted (by assumption) | exact tabSorted_nil | exact foldl_tabPut_sorted (by assumption)))

theorem State.setMact_keeps {s0 : State} {s : State} {a : Nat} {v : Mact} (hs : Keeps s0 s) : Keeps s0 (State.setMact s a v) := by
  unfold State.setMact
  with_reducible repeat' first | assumption | intro _ | (refine keeps_mk ?_ rfl ?_; rotate_left; (intro hk; cases hk; constructor <;> first | assumption | exact tabPut_sorted (by assumption) | exact filter_sorted (by assumption) | exact tabSorted_nil | exact foldl_tabPut_sorted (by assumption)))

theorem State.motionSettle_keeps {s0 : State} {s : State} (hs : Keeps s0 s) : Keeps s0 (State.motionSettle s) := by
  unfold State.motionSettle
  with_reducible repeat' first | assumption | intro _ | apply State.motionReset_keeps | split

theorem execSpnStop_keeps {s0 : State} {m : Master} {s : State} (hs : Keeps s0 s) : KeepsOut s0 (execSpnStop m s) := by
  unfold execSpnStop
  with_reducible repeat' first | assumption | intro _ | apply State.motCmd_keeps | apply State.spnRefuse_keeps | apply State.spnGo_keeps | apply State.put_keeps | apply State.shortBrake_keeps | apply State.spnOutcome_keeps | apply Keeps.out | (extract_lets +onlyGivenNames x; first | (refine keeps_cut (s := s0) (t := x) ?_ (fun hx => ?_); unfold x; clear x; rotate_left; clear_value x; rotate_right) | clear_value x) | split | (refine keeps_mk ?_ rfl ?_; rotate_left; (intro hk; cases hk; constructor <;> first | assumption | exact tabPut_sorted (by assumption) | exact filter_sorted (by assumption) | exact tabSorted_nil | exact foldl_tabPut_sorted (by assumption)))

theorem execSpinStopped_keeps {s0 : State} {amp : BitVec 16} {s : State} (hs : Keeps s0 s) : KeepsOut s0 (execSpinStopped amp s) := by
  unfold execSpinStopped
  with_reducible repeat' first | assumption | intro _ | apply State.spnGo_keeps | apply State.motionSettle_keeps | apply Keeps.out | (extract_lets +onlyGivenNames x; first | (refine keeps_cut (s := s0) (t := x) ?_ (fun hx => ?_); unfold x; clear x; rotate_left; clear_value x; rotate_right) | clear_value x) | split | (refine keeps_mk ?_ rfl ?_; rotate_left; (intro hk; cases hk; constructor <;> first | assumption | exact tabPut_sorted (by assumption) | exact filter_sorted (by assumption) | exact tabSorted_nil | exact foldl_tabPut_sorted (by assumption)))

theorem State.retractEnded_keeps {s0 : State} {s : State} (hs : Keeps s0 s) : Keeps s0 (State.retractEnded s) := by
  unfold State.retractEnded
  with_reducible repeat' first | assumption | apply State.emergencyStop_keeps | apply State.shortBrake_keeps | (extract_lets +onlyGivenNames x; first | (refine keeps_cut (s := s0) (t := x) ?_ (fun hx => ?_); unfold x; clear x; rotate_left; clear_value x; rotate_right) | clear_value x) | split

theorem execOvrApply_keeps {s0 : State} {s : State} (hs : Keeps s0 s) : KeepsOut s0 (execOvrApply s) := by
  unfold execOvrApply
  with_reducible repeat' first | assumption | intro _ | apply State.raise_keeps | apply State.inc_keeps | apply State.put_keeps | apply Keeps.out | (extract_lets +onlyGivenNames x; first | (refine keeps_cut (s := s0) (t := x) ?_ (fun hx => ?_); unfold x; clear x; rotate_left; clear_value x; rotate_right) | clear_value x) | split | (refine keeps_mk ?_ rfl ?_; rotate_left; (intro hk; cases hk; constructor <;> first | assumption | exact tabPut_sorted (by assumption) | exact filter_sorted (by assumption) | exact tabSorted_nil | exact foldl_tabPut_sorted (by assumption)))

end Sys2Proof.Machine
end

