-- ==== Sys2Proof/Laws/KeepsSeek.lean ====
section
/-! SUPPORT. The operations of Seek, BufferManager keep what `Keeps` says. -/

namespace Sys2Proof.Machine

theorem State.noteVhold_keeps {s0 : State} {s : State} {v : Nat} (hs : Keeps s0 s) : Keeps s0 (State.noteVhold s v) := by
  unfold State.noteVhold
  with_reducible repeat' first | assumption | apply State.put_keeps | (extract_lets +onlyGivenNames x; first | (refine keeps_cut (s := s0) (t := x) ?_ (fun hx => ?_); unfold x; clear x; rotate_left; clear_value x; rotate_right) | clear_value x) | split

theorem State.noteCoil_keeps {s0 : State} {s : State} {a : Nat} {xs : List CoilSample} (hs : Keeps s0 s) : Keeps s0 (State.noteCoil s a xs) := by
  unfold State.noteCoil
  with_reducible repeat' first | assumption | intro _ | apply State.setReg_keeps | split

theorem execRetractPhase1End_keeps {s0 : State} {a : Fin 8} {xs : List CoilSample} {vhold : BitVec 16} {s : State} (hs : Keeps s0 s) : KeepsOut s0 (execRetractPhase1End a xs vhold s) := by
  unfold execRetractPhase1End
  with_reducible repeat' first | assumption | intro _ | apply State.noteVhold_keeps | apply State.noteCoil_keeps | apply State.setMact_keeps | apply State.put_keeps | apply Keeps.out | (extract_lets +onlyGivenNames x; first | (refine keeps_cut (s := s0) (t := x) ?_ (fun hx => ?_); unfold x; clear x; rotate_left; clear_value x; rotate_right) | clear_value x) | split

theorem execSettleRequest_keeps {s0 : State} {a : Fin 8} {s : State} (hs : Keeps s0 s) : KeepsOut s0 (execSettleRequest a s) := by
  unfold execSettleRequest
  with_reducible repeat' first | assumption | intro _ | apply State.put_keeps | apply State.setPrf_keeps | apply State.irq_keeps | apply State.requestMode_keeps | apply each_keeps | apply Keeps.out | (extract_lets +onlyGivenNames x; first | (refine keeps_cut (s := s0) (t := x) ?_ (fun hx => ?_); unfold x; clear x; rotate_left; clear_value x; rotate_right) | clear_value x) | split

theorem State.rampGo_keeps {s0 : State} {s : State} {a : Nat} {st : Nat} (hs : Keeps s0 s) : Keeps s0 (State.rampGo s a st) := by
  unfold State.rampGo
  with_reducible repeat' first | assumption | apply State.setMact_keeps | apply State.put_keeps | apply State.irq_keeps | (extract_lets +onlyGivenNames x; first | (refine keeps_cut (s := s0) (t := x) ?_ (fun hx => ?_); unfold x; clear x; rotate_left; clear_value x; rotate_right) | clear_value x) | split

theorem execServoFound_keeps {s0 : State} {a : Fin 8} {s : State} (hs : Keeps s0 s) : KeepsOut s0 (execServoFound a s) := by
  unfold execServoFound
  with_reducible repeat' first | assumption | apply State.rampGo_keeps | apply Keeps.out | split

theorem State.rampRefuse_keeps {s0 : State} {s : State} {a : Nat} (hs : Keeps s0 s) : Keeps s0 (State.rampRefuse s a) := by
  unfold State.rampRefuse
  with_reducible repeat' first | assumption | apply State.irq_keeps | apply State.put_keeps

theorem execLoad_keeps {s0 : State} {m : Master} {a : Fin 8} {s : State} (hs : Keeps s0 s) : KeepsOut s0 (execLoad m a s) := by
  unfold execLoad
  with_reducible repeat' first | assumption | intro _ | apply State.motCmd_keeps | apply State.rampGo_keeps | apply State.put_keeps | apply State.rampRefuse_keeps | apply Keeps.out | split

theorem State.parkFailed_keeps {s0 : State} {s : State} {a : Nat} (hs : Keeps s0 s) : Keeps s0 (State.parkFailed s a) := by
  unfold State.parkFailed
  with_reducible repeat' first | assumption | apply State.raise_keeps | apply State.rampGo_keeps

theorem execVcmFault_keeps {s0 : State} {a : Fin 8} {s : State} (hs : Keeps s0 s) : KeepsOut s0 (execVcmFault a s) := by
  unfold execVcmFault
  with_reducible repeat' first | assumption | apply State.parkFailed_keeps | apply State.put_keeps | apply State.raise_keeps | apply Keeps.out | split

theorem State.retractCheck_keeps {s0 : State} {s : State} (hs : Keeps s0 s) : Keeps s0 (State.retractCheck s) := by
  unfold State.retractCheck
  with_reducible repeat' first | assumption | apply State.retractEnded_keeps | split

theorem execRetractStart_keeps {s0 : State} {vhold : BitVec 16} {s : State} (hs : Keeps s0 s) : KeepsOut s0 (execRetractStart vhold s) := by
  unfold execRetractStart
  with_reducible repeat' first | assumption | intro _ | apply State.put_keeps | apply State.noteVhold_keeps | apply State.seekFenced_keeps | apply State.rampGo_keeps | apply State.setMact_keeps | apply State.retractCheck_keeps | apply each_keeps | apply Keeps.out | (extract_lets +onlyGivenNames x; first | (refine keeps_cut (s := s0) (t := x) ?_ (fun hx => ?_); unfold x; clear x; rotate_left; clear_value x; rotate_right) | clear_value x) | split | (refine keeps_mk ?_ rfl ?_; rotate_left; (intro hk; cases hk; constructor <;> first | assumption | exact tabPut_sorted (by assumption) | exact filter_sorted (by assumption) | exact tabSorted_nil | exact foldl_tabPut_sorted (by assumption)))

theorem State.seekRefuse_keeps {s0 : State} {s : State} {a : Nat} {last : Nat} (hs : Keeps s0 s) : Keeps s0 (State.seekRefuse s a last) := by
  unfold State.seekRefuse
  with_reducible repeat' first | assumption | apply State.raise_keeps | apply State.irq_keeps | apply State.put_keeps | apply State.setPrf_keeps | (extract_lets +onlyGivenNames x; clear_value x)

theorem State.seekBegin_keeps {s0 : State} {s : State} {a : Nat} {k : Nat} {ws : List Word} {x0 : Int} (hs : Keeps s0 s) : Keeps s0 (State.seekBegin s a k ws x0) := by
  unfold State.seekBegin
  with_reducible repeat' first | assumption | intro _ | apply State.setPrf_keeps | apply State.requestMode_keeps | apply State.put_keeps | apply State.drew_keeps | apply each_keeps | (extract_lets +onlyGivenNames x; first | (refine keeps_cut (s := s0) (t := x) ?_ (fun hx => ?_); unfold x; clear x; rotate_left; clear_value x; rotate_right) | clear_value x) | split

theorem execSeekStart_keeps {s0 : State} {a : Fin 8} {s : State} (hs : Keeps s0 s) : KeepsOut s0 (execSeekStart a s) := by
  unfold execSeekStart
  with_reducible repeat' first | assumption | intro _ | apply State.seekRefuse_keeps | apply State.setPrf_keeps | apply State.hoRefused_keeps | apply State.seekBegin_keeps | apply Keeps.out | (extract_lets +onlyGivenNames x; first | (refine keeps_cut (s := s0) (t := x) ?_ (fun hx => ?_); unfold x; clear x; rotate_left; clear_value x; rotate_right) | clear_value x) | split

theorem execBoostFail_keeps {s0 : State} {s : State} (hs : Keeps s0 s) : KeepsOut s0 (execBoostFail s) := by
  unfold execBoostFail
  with_reducible repeat' first | assumption | apply State.raise_keeps | apply State.put_keeps | apply Keeps.out | split

theorem execStopAchieved_keeps {s0 : State} {a : Fin 8} {code : BitVec 16} {xs : List CoilSample} {s : State} (hs : Keeps s0 s) : KeepsOut s0 (execStopAchieved a code xs s) := by
  unfold execStopAchieved
  with_reducible repeat' first | assumption | apply State.noteCoil_keeps | apply State.put_keeps | apply State.rampGo_keeps | apply State.setPrf_keeps | apply State.setMact_keeps | apply State.noteHold_keeps | apply State.setPend_keeps | apply State.setLoop_keeps | apply Keeps.out | (extract_lets +onlyGivenNames x; first | (refine keeps_cut (s := s0) (t := x) ?_ (fun hx => ?_); unfold x; clear x; rotate_left; clear_value x; rotate_right) | clear_value x) | split

theorem execUnload_keeps {s0 : State} {m : Master} {a : Fin 8} {s : State} (hs : Keeps s0 s) : KeepsOut s0 (execUnload m a s) := by
  unfold execUnload
  with_reducible repeat' first | assumption | intro _ | apply State.motCmd_keeps | apply State.rampGo_keeps | apply State.put_keeps | apply State.seekEnd_keeps | apply State.rampRefuse_keeps | apply Keeps.out | (extract_lets +onlyGivenNames x; first | (refine keeps_cut (s := s0) (t := x) ?_ (fun hx => ?_); unfold x; clear x; rotate_left; clear_value x; rotate_right) | clear_value x) | split

theorem execRetractEnd_keeps {s0 : State} {a : Fin 8} {vhold : BitVec 16} {s : State} (hs : Keeps s0 s) : KeepsOut s0 (execRetractEnd a vhold s) := by
  unfold execRetractEnd
  with_reducible repeat' first | assumption | intro _ | apply State.noteVhold_keeps | apply State.motionSettle_keeps | apply State.retractCheck_keeps | apply State.rampGo_keeps | apply Keeps.out | (extract_lets +onlyGivenNames x; first | (refine keeps_cut (s := s0) (t := x) ?_ (fun hx => ?_); unfold x; clear x; rotate_left; clear_value x; rotate_right) | clear_value x) | split

theorem execProfileStart_keeps {s0 : State} {a : Fin 8} {s : State} (hs : Keeps s0 s) : KeepsOut s0 (execProfileStart a s) := by
  unfold execProfileStart
  with_reducible repeat' first | assumption | intro _ | apply State.retireOne_keeps | apply State.setPrf_keeps | apply Keeps.out | (extract_lets +onlyGivenNames x; first | (refine keeps_cut (s := s0) (t := x) ?_ (fun hx => ?_); unfold x; clear x; rotate_left; clear_value x; rotate_right) | clear_value x) | split

theorem execBoostReady_keeps {s0 : State} {s : State} (hs : Keeps s0 s) : KeepsOut s0 (execBoostReady s) := by
  unfold execBoostReady
  with_reducible repeat' first | assumption | intro _ | apply State.put_keeps | apply Keeps.out | split

theorem execFenceUnload_keeps {s0 : State} {a : Fin 8} {s : State} (hs : Keeps s0 s) : KeepsOut s0 (execFenceUnload a s) := by
  unfold execFenceUnload
  with_reducible repeat' first | assumption | intro _ | apply State.rampGo_keeps | apply Keeps.out | (extract_lets +onlyGivenNames x; first | (refine keeps_cut (s := s0) (t := x) ?_ (fun hx => ?_); unfold x; clear x; rotate_left; clear_value x; rotate_right) | clear_value x) | split | (refine keeps_mk ?_ rfl ?_; rotate_left; (intro hk; cases hk; constructor <;> first | assumption | exact tabPut_sorted (by assumption) | exact filter_sorted (by assumption) | exact tabSorted_nil | exact foldl_tabPut_sorted (by assumption)))

theorem State.setReference_keeps {s0 : State} {s : State} {a : Nat} {f : Prf} {x : Rat × Rat × Rat} {exact : Bool} (hs : Keeps s0 s) : Keeps s0 (State.setReference s a f x exact) := by
  unfold State.setReference
  with_reducible repeat' first | assumption | apply State.drew_keeps | apply State.roundFree_keeps | apply State.put_keeps | apply State.setPrf_keeps | dsimp -zeta only | refine keeps_of_fst ?_ (by assumption) | refine keeps_of_snd ?_ (by assumption) | (extract_lets +onlyGivenNames x; first | (refine keeps_cut_fst (s := s0) (x := x) ?_ (fun hx => ?_); unfold x; clear x; rotate_left; clear_value x; rotate_right) | (refine keeps_cut_snd (s := s0) (x := x) ?_ (fun hx => ?_); unfold x; clear x; rotate_left; clear_value x; rotate_right) | clear_value x) | split

theorem State.askAgain_keeps {s0 : State} {s : State} {a : Nat} {m : Nat} (hs : Keeps s0 s) : Keeps s0 (State.askAgain s a m) := by
  unfold State.askAgain
  with_reducible repeat' first | assumption | intro _ | apply State.requestMode_keeps | apply each_keeps

theorem execProfileSample_keeps {s0 : State} {a : Fin 8} {s : State} (hs : Keeps s0 s) : KeepsOut s0 (execProfileSample a s) := by
  unfold execProfileSample
  with_reducible repeat' first | assumption | intro _ | apply State.put_keeps | apply State.seekEnd_keeps | apply State.setPrf_keeps | apply State.setReference_keeps | apply State.askAgain_keeps | apply Keeps.out | (extract_lets +onlyGivenNames x; first | (refine keeps_cut (s := s0) (t := x) ?_ (fun hx => ?_); unfold x; clear x; rotate_left; clear_value x; rotate_right) | clear_value x) | split

theorem execOutputApply_keeps {s0 : State} {a : Fin 8} {s : State} (hs : Keeps s0 s) : KeepsOut s0 (execOutputApply a s) := by
  unfold execOutputApply
  with_reducible repeat' first | assumption | intro _ | apply State.setTil_keeps | apply State.setMact_keeps | apply Keeps.out | (extract_lets +onlyGivenNames x; first | (refine keeps_cut (s := s0) (t := x) ?_ (fun hx => ?_); unfold x; clear x; rotate_left; clear_value x; rotate_right) | clear_value x) | split

theorem execSeekTimeout_keeps {s0 : State} {a : Fin 8} {s : State} (hs : Keeps s0 s) : KeepsOut s0 (execSeekTimeout a s) := by
  unfold execSeekTimeout
  with_reducible repeat' first | assumption | apply State.inc_keeps | apply State.seekEnd_keeps | apply Keeps.out | (extract_lets +onlyGivenNames x; clear_value x) | split

theorem execShockTrip_keeps {s0 : State} {n : Fin 4} {mag : BitVec 10} {s : State} (hs : Keeps s0 s) : KeepsOut s0 (execShockTrip n mag s) := by
  unfold execShockTrip
  with_reducible repeat' first | assumption | intro _ | apply State.putMax_keeps | apply State.irq_keeps | apply State.put_keeps | apply State.dilRaise_keeps | apply State.noteInhibit_keeps | apply State.inc_keeps | apply State.dropGates_keeps | apply each_keeps | apply Keeps.out | (extract_lets +onlyGivenNames x; first | (refine keeps_cut (s := s0) (t := x) ?_ (fun hx => ?_); unfold x; clear x; rotate_left; clear_value x; rotate_right) | clear_value x) | split | (refine keeps_mk ?_ rfl ?_; rotate_left; (intro hk; cases hk; constructor <;> first | assumption | exact tabPut_sorted (by assumption) | exact filter_sorted (by assumption) | exact tabSorted_nil | exact foldl_tabPut_sorted (by assumption)))

theorem execBoostEn_keeps {s0 : State} {m : Master} {en : Bool} {s : State} (hs : Keeps s0 s) : KeepsOut s0 (execBoostEn m en s) := by
  unfold execBoostEn
  with_reducible repeat' first | assumption | intro _ | apply State.motCmd_keeps | apply State.putB_keeps | apply State.put_keeps | apply Keeps.out | (extract_lets +onlyGivenNames x; first | (refine keeps_cut (s := s0) (t := x) ?_ (fun hx => ?_); unfold x; clear x; rotate_left; clear_value x; rotate_right) | clear_value x) | split | (refine keeps_mk ?_ rfl ?_; rotate_left; (intro hk; cases hk; constructor <;> first | assumption | exact tabPut_sorted (by assumption) | exact filter_sorted (by assumption) | exact tabSorted_nil | exact foldl_tabPut_sorted (by assumption)))

theorem execRampStop_keeps {s0 : State} {a : Fin 8} {xs : List CoilSample} {s : State} (hs : Keeps s0 s) : KeepsOut s0 (execRampStop a xs s) := by
  unfold execRampStop
  with_reducible repeat' first | assumption | apply State.noteCoil_keeps | apply State.rampGo_keeps | apply Keeps.out | (extract_lets +onlyGivenNames x; first | (refine keeps_cut (s := s0) (t := x) ?_ (fun hx => ?_); unfold x; clear x; rotate_left; clear_value x; rotate_right) | clear_value x) | split

theorem execPushDone_keeps {s0 : State} {a : Fin 8} {s : State} (hs : Keeps s0 s) : KeepsOut s0 (execPushDone a s) := by
  unfold execPushDone
  with_reducible repeat' first | assumption | apply State.rampGo_keeps | apply Keeps.out | split

theorem execRampTimeout_keeps {s0 : State} {a : Fin 8} {s : State} (hs : Keeps s0 s) : KeepsOut s0 (execRampTimeout a s) := by
  unfold execRampTimeout
  with_reducible repeat' first | assumption | apply State.rampGo_keeps | apply State.raise_keeps | apply State.parkFailed_keeps | apply Keeps.out | split

theorem execStopComplete_keeps {s0 : State} {a : Fin 8} {s : State} (hs : Keeps s0 s) : KeepsOut s0 (execStopComplete a s) := by
  unfold execStopComplete
  with_reducible repeat' first | assumption | intro _ | apply State.seekEnd_keeps | apply Keeps.out | (extract_lets +onlyGivenNames x; clear_value x) | split

theorem execAbort_keeps {s0 : State} {m : Master} {a : Fin 8} {s : State} (hs : Keeps s0 s) : KeepsOut s0 (execAbort m a s) := by
  unfold execAbort
  with_reducible repeat' first | assumption | intro _ | apply State.regCmd_keeps | apply State.setPrf_keeps | apply Keeps.out | (extract_lets +onlyGivenNames x; clear_value x) | split

theorem execFollowRequest_keeps {s0 : State} {a : Fin 8} {s : State} (hs : Keeps s0 s) : KeepsOut s0 (execFollowRequest a s) := by
  unfold execFollowRequest
  with_reducible repeat' first | assumption | intro _ | apply State.setPrf_keeps | apply State.seekCheck_keeps | apply State.requestMode_keeps | apply each_keeps | apply Keeps.out | (extract_lets +onlyGivenNames x; first | (refine keeps_cut (s := s0) (t := x) ?_ (fun hx => ?_); unfold x; clear x; rotate_left; clear_value x; rotate_right) | clear_value x) | split

theorem State.respond_keeps {s0 : State} {s : State} {m : Master} {v : Nat} {err : Bool} (hs : Keeps s0 s) : Keeps s0 (State.respond s m v err) := by
  unfold State.respond
  with_reducible repeat' first | assumption | intro _ | (extract_lets +onlyGivenNames x; clear_value x) | (refine keeps_mk ?_ rfl ?_; rotate_left; (intro hk; cases hk; constructor <;> first | assumption | exact tabPut_sorted (by assumption) | exact filter_sorted (by assumption) | exact tabSorted_nil | exact foldl_tabPut_sorted (by assumption)))

theorem State.setDramState_keeps {s0 : State} {s : State} {v : Nat} (hs : Keeps s0 s) : Keeps s0 (State.setDramState s v) := by
  unfold State.setDramState
  with_reducible repeat' first | assumption | apply State.put_keeps

theorem State.zeroRange_keeps {s0 : State} {s : State} {lo hi : Nat} (hs : Keeps s0 s) : Keeps s0 (State.zeroRange s lo hi) :=
  keeps_mk hs rfl (fun h => { h with mem := filter_wf h.mem })

theorem State.discardDram_keeps {s0 : State} {s : State} (hs : Keeps s0 s) : Keeps s0 (State.discardDram s) := by
  unfold State.discardDram
  with_reducible repeat' first | assumption | apply State.zeroRange_keeps

theorem execDramFillDone_keeps {s0 : State} {s : State} (hs : Keeps s0 s) : KeepsOut s0 (execDramFillDone s) := by
  unfold execDramFillDone
  with_reducible repeat' first | assumption | apply State.irq_keeps | apply State.setDramState_keeps | apply State.discardDram_keeps | apply Keeps.out | split

theorem execCheck_keeps {s0 : State} {m : Master} {s : State} (hs : Keeps s0 s) : KeepsOut s0 (execCheck m s) := by
  unfold execCheck
  with_reducible repeat' first | assumption | intro _ | apply State.regCmd_keeps | apply State.setReg_keeps | apply Keeps.out | (extract_lets +onlyGivenNames x; first | (refine keeps_cut (s := s0) (t := x) ?_ (fun hx => ?_); unfold x; clear x; rotate_left; clear_value x; rotate_right) | clear_value x) | (refine keeps_mk ?_ rfl ?_; rotate_left; (intro hk; cases hk; constructor <;> first | assumption | exact tabPut_sorted (by assumption) | exact filter_sorted (by assumption) | exact tabSorted_nil | exact foldl_tabPut_sorted (by assumption)))

theorem State.setBufq_keeps {s0 : State} {s : State} {r : Nat} {q : List BufReq} (hs : Keeps s0 s) : Keeps s0 (State.setBufq s r q) := by
  unfold State.setBufq
  with_reducible repeat' first | assumption | intro _ | (refine keeps_mk ?_ rfl ?_; rotate_left; (intro hk; cases hk; constructor <;> first | assumption | exact tabPut_sorted (by assumption) | exact filter_sorted (by assumption) | exact tabSorted_nil | exact foldl_tabPut_sorted (by assumption)))

theorem State.noteSrt_keeps {s0 : State} {s : State} (hs : Keeps s0 s) : Keeps s0 (State.noteSrt s) := by
  unfold State.noteSrt
  with_reducible repeat' first | assumption | intro _ | apply State.put_keeps | apply State.putB_keeps | split

theorem execSrtShift_keeps {s0 : State} {m : Master} {index : BitVec 16} {dir : Bool} {s : State} (hs : Keeps s0 s) : KeepsOut s0 (execSrtShift m index dir s) := by
  unfold execSrtShift
  with_reducible repeat' first | assumption | intro _ | apply State.regCmd_keeps | apply State.raise_keeps | apply State.put_keeps | apply State.noteSrt_keeps | apply Keeps.out | (extract_lets +onlyGivenNames x; first | (refine keeps_cut (s := s0) (t := x) ?_ (fun hx => ?_); unfold x; clear x; rotate_left; clear_value x; rotate_right) | clear_value x) | split | (refine keeps_mk ?_ rfl ?_; rotate_left; (intro hk; cases hk; constructor <;> first | assumption | exact tabPut_sorted (by assumption) | exact filter_sorted (by assumption) | exact tabSorted_nil | exact foldl_tabPut_sorted (by assumption)))

theorem execSelfRefreshExited_keeps {s0 : State} {s : State} (hs : Keeps s0 s) : KeepsOut s0 (execSelfRefreshExited s) := by
  unfold execSelfRefreshExited
  with_reducible repeat' first | assumption | intro _ | apply State.irq_keeps | apply State.setDramState_keeps | apply State.put_keeps | apply each_keeps | apply Keeps.out | split

theorem State.srtNext_keeps {s0 : State} {s : State} (hs : Keeps s0 s) : Keeps s0 (State.srtNext s) := by
  unfold State.srtNext
  with_reducible repeat' first | assumption | intro _ | apply State.noteSrt_keeps | (extract_lets +onlyGivenNames x; clear_value x) | split | (refine keeps_mk ?_ rfl ?_; rotate_left; (intro hk; cases hk; constructor <;> first | assumption | exact tabPut_sorted (by assumption) | exact filter_sorted (by assumption) | exact tabSorted_nil | exact foldl_tabPut_sorted (by assumption)))

theorem execFreeze_keeps {s0 : State} {m : Master} {on_ : Bool} {s : State} (hs : Keeps s0 s) : KeepsOut s0 (execFreeze m on_ s) := by
  unfold execFreeze
  with_reducible repeat' first | assumption | intro _ | apply State.regCmd_keeps | apply State.srtNext_keeps | apply State.putB_keeps | apply Keeps.out

theorem execRfmRequest_keeps {s0 : State} {c : Fin 12} {s : State} (hs : Keeps s0 s) : KeepsOut s0 (execRfmRequest c s) := by
  unfold execRfmRequest
  with_reducible repeat' first | assumption | apply State.inc_keeps | apply Keeps.out | split

theorem execArbiterGrant_keeps {s0 : State} {r : Fin 28} {e : WordErr} {s : State} (hs : Keeps s0 s) : KeepsOut s0 (execArbiterGrant r e s) := by
  unfold execArbiterGrant
  with_reducible repeat' first | assumption | intro _ | apply State.setBufq_keeps | apply State.inc_keeps | apply State.putMax_keeps | apply State.applyErr_keeps | apply State.bufWrite_keeps | apply State.respond_keeps | apply State.bufRead_keeps | dsimp -zeta only | refine keeps_of_fst ?_ (by assumption) | refine keeps_of_snd ?_ (by assumption) | apply Keeps.out | (extract_lets +onlyGivenNames x; first | (refine keeps_cut (s := s0) (t := x) ?_ (fun hx => ?_); unfold x; clear x; rotate_left; clear_value x; rotate_right) | (refine keeps_cut_fst (s := s0) (x := x) ?_ (fun hx => ?_); unfold x; clear x; rotate_left; clear_value x; rotate_right) | (refine keeps_cut_snd (s := s0) (x := x) ?_ (fun hx => ?_); unfold x; clear x; rotate_left; clear_value x; rotate_right) | clear_value x) | split | (refine keeps_mk ?_ rfl ?_; rotate_left; (intro hk; cases hk; constructor <;> first | assumption | exact tabPut_sorted (by assumption) | exact filter_sorted (by assumption) | exact tabSorted_nil | exact foldl_tabPut_sorted (by assumption)))

theorem execSrReq_keeps {s0 : State} {m : Master} {on_ : Bool} {s : State} (hs : Keeps s0 s) : KeepsOut s0 (execSrReq m on_ s) := by
  unfold execSrReq
  with_reducible repeat' first | assumption | intro _ | apply State.regCmd_keeps | apply State.putB_keeps | apply Keeps.out

theorem State.dramOff_keeps {s0 : State} {s : State} (hs : Keeps s0 s) : Keeps s0 (State.dramOff s) := by
  unfold State.dramOff
  with_reducible repeat' first | assumption | intro _ | apply State.put_keeps | apply State.discardDram_keeps | apply State.setDramState_keeps | apply each_keeps | (extract_lets +onlyGivenNames x; first | (refine keeps_cut (s := s0) (t := x) ?_ (fun hx => ?_); unfold x; clear x; rotate_left; clear_value x; rotate_right) | clear_value x) | (refine keeps_mk ?_ rfl ?_; rotate_left; (intro hk; cases hk; constructor <;> first | assumption | exact tabPut_sorted (by assumption) | exact filter_sorted (by assumption) | exact tabSorted_nil | exact foldl_tabPut_sorted (by assumption)))

theorem State.srtResult_keeps {s0 : State} {s : State} {m : Master} {res : Nat} {idx : Nat} (hs : Keeps s0 s) : Keeps s0 (State.srtResult s m res idx) := by
  unfold State.srtResult
  with_reducible repeat' first | assumption | apply State.inc_keeps | apply State.setMreg_keeps

theorem State.srtHit_keeps {s0 : State} {s : State} {m : Master} {i : Nat} {k : Nat} (hs : Keeps s0 s) : Keeps s0 (State.srtHit s m i k) := by
  unfold State.srtHit
  with_reducible repeat' first | assumption | intro _ | apply State.setMreg_keeps | apply State.srtResult_keeps | apply each_keeps | (extract_lets +onlyGivenNames x; first | (refine keeps_cut (s := s0) (t := x) ?_ (fun hx => ?_); unfold x; clear x; rotate_left; clear_value x; rotate_right) | clear_value x) | split

theorem execCheckDone_keeps {s0 : State} {s : State} (hs : Keeps s0 s) : KeepsOut s0 (execCheckDone s) := by
  unfold execCheckDone
  with_reducible repeat' first | assumption | intro _ | apply State.irq_keeps | apply State.setReg_keeps | apply Keeps.out | (extract_lets +onlyGivenNames x; first | (refine keeps_cut (s := s0) (t := x) ?_ (fun hx => ?_); unfold x; clear x; rotate_left; clear_value x; rotate_right) | clear_value x) | split | (refine keeps_mk ?_ rfl ?_; rotate_left; (intro hk; cases hk; constructor <;> first | assumption | exact tabPut_sorted (by assumption) | exact filter_sorted (by assumption) | exact tabSorted_nil | exact foldl_tabPut_sorted (by assumption)))

theorem execBufferRequest_keeps {s0 : State} {m : Master} {write : Bool} {addr : BitVec 48} {len : BitVec 7} {data : List Byte} {s : State} (hs : Keeps s0 s) : KeepsOut s0 (execBufferRequest m write addr len data s) := by
  unfold execBufferRequest
  with_reducible repeat' first | assumption | intro _ | apply State.respond_keeps | apply State.raiseRefusal_keeps | apply State.setBufq_keeps | apply Keeps.out | (extract_lets +onlyGivenNames x; clear_value x) | split

theorem execDramPhyFault_keeps {s0 : State} {c : Fin 12} {s : State} (hs : Keeps s0 s) : KeepsOut s0 (execDramPhyFault c s) := by
  unfold execDramPhyFault
  with_reducible repeat' first | assumption | apply State.raise_keeps | apply Keeps.out | split

theorem execDramEn_keeps {s0 : State} {m : Master} {en : Bool} {s : State} (hs : Keeps s0 s) : KeepsOut s0 (execDramEn m en s) := by
  unfold execDramEn
  with_reducible repeat' first | assumption | intro _ | apply State.regCmd_keeps | apply State.setDramState_keeps | apply State.put_keeps | apply State.raise_keeps | apply State.dramOff_keeps | apply Keeps.out | split

theorem State.srtBegin_keeps {s0 : State} {s : State} {m : Master} {hi : Nat} (hs : Keeps s0 s) : Keeps s0 (State.srtBegin s m hi) := by
  unfold State.srtBegin
  with_reducible repeat' first | assumption | intro _ | apply State.setMreg_keeps | apply State.srtNext_keeps | (extract_lets +onlyGivenNames x; first | (refine keeps_cut (s := s0) (t := x) ?_ (fun hx => ?_); unfold x; clear x; rotate_left; clear_value x; rotate_right) | clear_value x) | split | (refine keeps_mk ?_ rfl ?_; rotate_left; (intro hk; cases hk; constructor <;> first | assumption | exact tabPut_sorted (by assumption) | exact filter_sorted (by assumption) | exact tabSorted_nil | exact foldl_tabPut_sorted (by assumption)))

theorem execSrtLookup_keeps {s0 : State} {m : Master} {hi : BitVec 16} {s : State} (hs : Keeps s0 s) : KeepsOut s0 (execSrtLookup m hi s) := by
  unfold execSrtLookup
  with_reducible repeat' first | assumption | intro _ | apply State.regCmd_keeps | apply State.srtBegin_keeps | apply Keeps.out | split

theorem execTrainingDone_keeps {s0 : State} {fails : BitVec 12} {eyes : List (BitVec 24)} {s : State} (hs : Keeps s0 s) : KeepsOut s0 (execTrainingDone fails eyes s) := by
  unfold execTrainingDone
  with_reducible repeat' first | assumption | intro _ | apply State.setReg_keeps | apply State.put_keeps | apply State.raise_keeps | apply State.irq_keeps | apply State.setDramState_keeps | apply each_keeps | apply Keeps.out | (extract_lets +onlyGivenNames x; first | (refine keeps_cut (s := s0) (t := x) ?_ (fun hx => ?_); unfold x; clear x; rotate_left; clear_value x; rotate_right) | clear_value x) | split

theorem State.srtNoIndex_keeps {s0 : State} {s : State} {m : Master} {res : Nat} (hs : Keeps s0 s) : Keeps s0 (State.srtNoIndex s m res) := by
  unfold State.srtNoIndex
  with_reducible repeat' first | assumption | apply State.srtResult_keeps | apply State.drew_keeps

theorem execSrtLookupEnd_keeps {s0 : State} {s : State} (hs : Keeps s0 s) : KeepsOut s0 (execSrtLookupEnd s) := by
  unfold execSrtLookupEnd
  with_reducible repeat' first | assumption | intro _ | apply State.srtNoIndex_keeps | apply State.raise_keeps | apply State.srtResult_keeps | apply State.srtHit_keeps | apply State.srtNext_keeps | apply Keeps.out | (extract_lets +onlyGivenNames x; first | (refine keeps_cut (s := s0) (t := x) ?_ (fun hx => ?_); unfold x; clear x; rotate_left; clear_value x; rotate_right) | clear_value x) | split | (refine keeps_mk ?_ rfl ?_; rotate_left; (intro hk; cases hk; constructor <;> first | assumption | exact tabPut_sorted (by assumption) | exact filter_sorted (by assumption) | exact tabSorted_nil | exact foldl_tabPut_sorted (by assumption)))

theorem execSelfRefreshEntered_keeps {s0 : State} {s : State} (hs : Keeps s0 s) : KeepsOut s0 (execSelfRefreshEntered s) := by
  unfold execSelfRefreshEntered
  with_reducible repeat' first | assumption | intro _ | apply State.irq_keeps | apply State.setDramState_keeps | apply State.put_keeps | apply each_keeps | apply Keeps.out | split

theorem execShiftDone_keeps {s0 : State} {s : State} (hs : Keeps s0 s) : KeepsOut s0 (execShiftDone s) := by
  unfold execShiftDone
  with_reducible repeat' first | assumption | intro _ | apply State.put_keeps | apply State.storeBytes_keeps | apply State.noteSrt_keeps | apply Keeps.out | (extract_lets +onlyGivenNames x; first | (refine keeps_cut (s := s0) (t := x) ?_ (fun hx => ?_); unfold x; clear x; rotate_left; clear_value x; rotate_right) | clear_value x) | split | (refine keeps_mk ?_ rfl ?_; rotate_left; (intro hk; cases hk; constructor <;> first | assumption | exact tabPut_sorted (by assumption) | exact filter_sorted (by assumption) | exact tabSorted_nil | exact foldl_tabPut_sorted (by assumption)))

theorem execMr4Poll_keeps {s0 : State} {c : Fin 12} {code : BitVec 3} {hot : Bool} {s : State} (hs : Keeps s0 s) : KeepsOut s0 (execMr4Poll c code hot s) := by
  unfold execMr4Poll
  with_reducible repeat' first | assumption | apply State.put_keeps | apply State.raise_keeps | apply State.irq_keeps | apply Keeps.out | (extract_lets +onlyGivenNames x; first | (refine keeps_cut (s := s0) (t := x) ?_ (fun hx => ?_); unfold x; clear x; rotate_left; clear_value x; rotate_right) | clear_value x) | split

end Sys2Proof.Machine
end

