-- ==== Sys2Proof/Laws/KeepsMetadataCache.lean ====
section
/-! SUPPORT. The operations of MetadataCache, Gleaner, Dma keep what `Keeps` says. -/

namespace Sys2Proof.Machine

theorem State.mdcNoAlloc_keeps {s0 : State} {s : State} {f : MdcFill → Bool} (hs : Keeps s0 s) : Keeps s0 (State.mdcNoAlloc s f) := by
  unfold State.mdcNoAlloc
  with_reducible repeat' first | assumption | intro _ | (extract_lets +onlyGivenNames x; clear_value x) | split | (refine keeps_mk ?_ rfl ?_; rotate_left; (intro hk; cases hk; constructor <;> first | assumption | exact tabPut_sorted (by assumption) | exact filter_sorted (by assumption) | exact tabSorted_nil | exact foldl_tabPut_sorted (by assumption)))

theorem State.setMdcEnt_keeps {s0 : State} {s : State} {e : Nat} {v : MdcEntry} (hs : Keeps s0 s) : Keeps s0 (State.setMdcEnt s e v) := by
  unfold State.setMdcEnt
  with_reducible repeat' first | assumption | intro _ | (extract_lets +onlyGivenNames x; clear_value x) | (refine keeps_mk ?_ rfl ?_; rotate_left; (intro hk; cases hk; constructor <;> first | assumption | exact tabPut_sorted (by assumption) | exact filter_sorted (by assumption) | exact tabSorted_nil | exact foldl_tabPut_sorted (by assumption)))

theorem State.mdcDrop_keeps {s0 : State} {s : State} {e : Nat} (hs : Keeps s0 s) : Keeps s0 (State.mdcDrop s e) := by
  unfold State.mdcDrop
  with_reducible repeat' first | assumption | intro _ | apply State.setMdcEnt_keeps

theorem State.mdcWriteLine_keeps {s0 : State} {s : State} {l : Nat} {d : List Byte} (hs : Keeps s0 s) : Keeps s0 (State.mdcWriteLine s l d) := by
  unfold State.mdcWriteLine
  with_reducible repeat' first | assumption | intro _ | apply State.bufWrite_keeps | dsimp -zeta only | refine keeps_of_fst ?_ (by assumption) | refine keeps_of_snd ?_ (by assumption) | apply each_keeps

theorem State.mdcClean_keeps {s0 : State} {s : State} {e : Nat} (hs : Keeps s0 s) : Keeps s0 (State.mdcClean s e) := by
  unfold State.mdcClean
  with_reducible repeat' first | assumption | intro _ | apply State.setMdcEnt_keeps | apply State.mdcWriteLine_keeps | (extract_lets +onlyGivenNames x; clear_value x) | split

theorem State.mdcCleanInvAll_keeps {s0 : State} {s : State} (hs : Keeps s0 s) : Keeps s0 (State.mdcCleanInvAll s) := by
  unfold State.mdcCleanInvAll
  with_reducible repeat' first | assumption | intro _ | apply State.mdcNoAlloc_keeps | apply State.mdcDrop_keeps | apply State.mdcClean_keeps | apply each_keeps

theorem State.noteMdc_keeps {s0 : State} {s : State} (hs : Keeps s0 s) : Keeps s0 (State.noteMdc s) := by
  unfold State.noteMdc
  with_reducible repeat' first | assumption | intro _ | apply State.put_keeps | apply State.mdcCleanInvAll_keeps | (extract_lets +onlyGivenNames x; first | (refine keeps_cut (s := s0) (t := x) ?_ (fun hx => ?_); unfold x; clear x; rotate_left; clear_value x; rotate_right) | clear_value x) | split

theorem State.mdcDrainVictims_keeps {s0 : State} {s : State} (hs : Keeps s0 s) : Keeps s0 (State.mdcDrainVictims s) := by
  unfold State.mdcDrainVictims
  with_reducible repeat' first | assumption | intro _ | apply State.mdcWriteLine_keeps | apply each_keeps | (extract_lets +onlyGivenNames x; first | (refine keeps_cut (s := s0) (t := x) ?_ (fun hx => ?_); unfold x; clear x; rotate_left; clear_value x; rotate_right) | clear_value x) | (refine keeps_mk ?_ rfl ?_; rotate_left; (intro hk; cases hk; constructor <;> first | assumption | exact tabPut_sorted (by assumption) | exact filter_sorted (by assumption) | exact tabSorted_nil | exact foldl_tabPut_sorted (by assumption)))

theorem State.mdcOff_keeps {s0 : State} {s : State} (hs : Keeps s0 s) : Keeps s0 (State.mdcOff s) := by
  unfold State.mdcOff
  with_reducible repeat' first | assumption | apply State.noteMdc_keeps | apply State.put_keeps | apply State.mdcDrainVictims_keeps | apply State.mdcCleanInvAll_keeps

theorem State.mdcWait_keeps {s0 : State} {s : State} {r : MdcReq} (hs : Keeps s0 s) : Keeps s0 (State.mdcWait s r) := by
  unfold State.mdcWait
  with_reducible repeat' first | assumption | intro _ | (extract_lets +onlyGivenNames x; clear_value x) | (refine keeps_mk ?_ rfl ?_; rotate_left; (intro hk; cases hk; constructor <;> first | assumption | exact tabPut_sorted (by assumption) | exact filter_sorted (by assumption) | exact tabSorted_nil | exact foldl_tabPut_sorted (by assumption)))

theorem State.mdcDirect_keeps {s0 : State} {s : State} {r : MdcReq} (hs : Keeps s0 s) : Keeps s0 (State.mdcDirect s r) := by
  unfold State.mdcDirect
  with_reducible repeat' first | assumption | intro _ | apply State.setBufq_keeps | apply State.bufWrite_keeps | apply State.respond_keeps | apply State.bufRead_keeps | dsimp -zeta only | refine keeps_of_fst ?_ (by assumption) | refine keeps_of_snd ?_ (by assumption) | (extract_lets +onlyGivenNames x; first | (refine keeps_cut_fst (s := s0) (x := x) ?_ (fun hx => ?_); unfold x; clear x; rotate_left; clear_value x; rotate_right) | (refine keeps_cut_snd (s := s0) (x := x) ?_ (fun hx => ?_); unfold x; clear x; rotate_left; clear_value x; rotate_right) | clear_value x) | split

theorem State.mdcServe_keeps {s0 : State} {s : State} {e : Nat} {r : MdcReq} (hs : Keeps s0 s) : Keeps s0 (State.mdcServe s e r) := by
  unfold State.mdcServe
  with_reducible repeat' first | assumption | intro _ | apply State.mdcDirect_keeps | apply State.setMdcEnt_keeps | apply State.respond_keeps | (extract_lets +onlyGivenNames x; first | (refine keeps_cut (s := s0) (t := x) ?_ (fun hx => ?_); unfold x; clear x; rotate_left; clear_value x; rotate_right) | clear_value x) | split | (refine keeps_mk ?_ rfl ?_; rotate_left; (intro hk; cases hk; constructor <;> first | assumption | exact tabPut_sorted (by assumption) | exact filter_sorted (by assumption) | exact tabSorted_nil | exact foldl_tabPut_sorted (by assumption)))

theorem State.mdcFill_keeps {s0 : State} {s : State} {l : Nat} {rs : List MdcReq} {pf : Bool} (hs : Keeps s0 s) : KeepsOpt s0 (State.mdcFill s l rs pf) := by
  unfold State.mdcFill
  with_reducible repeat' first | assumption | intro _ | apply State.mdcDrop_keeps | apply keeps_some | apply keeps_none | (extract_lets +onlyGivenNames x; first | (refine keeps_cut (s := s0) (t := x) ?_ (fun hx => ?_); unfold x; clear x; rotate_left; clear_value x; rotate_right) | clear_value x) | split | (refine keeps_mk ?_ rfl ?_; rotate_left; (intro hk; cases hk; constructor <;> first | assumption | exact tabPut_sorted (by assumption) | exact filter_sorted (by assumption) | exact tabSorted_nil | exact foldl_tabPut_sorted (by assumption)))

theorem State.mdcPrefetch_keeps {s0 : State} {s : State} {a : Nat} (hs : Keeps s0 s) : Keeps s0 (State.mdcPrefetch s a) := by
  unfold State.mdcPrefetch
  with_reducible repeat' first | assumption | intro _ | apply State.mdcFill_keeps | apply State.inc_keeps | refine keeps_of_some ?_ (by assumption) | (extract_lets +onlyGivenNames x; clear_value x) | split

theorem State.mdcAccept_keeps {s0 : State} {s : State} {r : MdcReq} (hs : Keeps s0 s) : Keeps s0 (State.mdcAccept s r) := by
  unfold State.mdcAccept
  with_reducible repeat' first | assumption | intro _ | apply State.mdcWait_keeps | apply State.respond_keeps | apply State.raiseBy_keeps | apply State.inc_keeps | apply State.mdcServe_keeps | apply State.mdcDirect_keeps | apply State.mdcFill_keeps | apply State.mdcPrefetch_keeps | refine keeps_of_some ?_ (by assumption) | (extract_lets +onlyGivenNames x; first | (refine keeps_cut (s := s0) (t := x) ?_ (fun hx => ?_); unfold x; clear x; rotate_left; clear_value x; rotate_right) | clear_value x) | split | (refine keeps_mk ?_ rfl ?_; rotate_left; (intro hk; cases hk; constructor <;> first | assumption | exact tabPut_sorted (by assumption) | exact filter_sorted (by assumption) | exact tabSorted_nil | exact foldl_tabPut_sorted (by assumption)))

theorem State.mdcRetry_keeps {s0 : State} {s : State} (hs : Keeps s0 s) : Keeps s0 (State.mdcRetry s) := by
  unfold State.mdcRetry
  with_reducible repeat' first | assumption | intro _ | apply State.noteMdc_keeps | apply State.mdcAccept_keeps | apply each_keeps | (extract_lets +onlyGivenNames x; first | (refine keeps_cut (s := s0) (t := x) ?_ (fun hx => ?_); unfold x; clear x; rotate_left; clear_value x; rotate_right) | clear_value x) | split | (refine keeps_mk ?_ rfl ?_; rotate_left; (intro hk; cases hk; constructor <;> first | assumption | exact tabPut_sorted (by assumption) | exact filter_sorted (by assumption) | exact tabSorted_nil | exact foldl_tabPut_sorted (by assumption)))

theorem State.maintBegin_keeps {s0 : State} {s : State} (hs : Keeps s0 s) : Keeps s0 (State.maintBegin s) := by
  unfold State.maintBegin
  with_reducible repeat' first | assumption | intro _ | apply State.mdcNoAlloc_keeps | apply State.mdcClean_keeps | apply State.mdcDrop_keeps | apply State.addSat_keeps | apply State.noteMdc_keeps | apply each_keeps | (extract_lets +onlyGivenNames x; first | (refine keeps_cut (s := s0) (t := x) ?_ (fun hx => ?_); unfold x; clear x; rotate_left; clear_value x; rotate_right) | clear_value x) | split | (refine keeps_mk ?_ rfl ?_; rotate_left; (intro hk; cases hk; constructor <;> first | assumption | exact tabPut_sorted (by assumption) | exact filter_sorted (by assumption) | exact tabSorted_nil | exact foldl_tabPut_sorted (by assumption)))

theorem State.setMaintStat_keeps {s0 : State} {s : State} {m : Master} {v : Nat} (hs : Keeps s0 s) : Keeps s0 (State.setMaintStat s m v) := by
  unfold State.setMaintStat
  with_reducible repeat' first | assumption | apply State.setMreg_keeps

theorem execMaintDone_keeps {s0 : State} {s : State} (hs : Keeps s0 s) : KeepsOut s0 (execMaintDone s) := by
  unfold execMaintDone
  with_reducible repeat' first | assumption | intro _ | apply State.mdcRetry_keeps | apply State.maintBegin_keeps | apply State.irq_keeps | apply State.setMaintStat_keeps | apply Keeps.out | (extract_lets +onlyGivenNames x; first | (refine keeps_cut (s := s0) (t := x) ?_ (fun hx => ?_); unfold x; clear x; rotate_left; clear_value x; rotate_right) | clear_value x) | split | (refine keeps_mk ?_ rfl ?_; rotate_left; (intro hk; cases hk; constructor <;> first | assumption | exact tabPut_sorted (by assumption) | exact filter_sorted (by assumption) | exact tabSorted_nil | exact foldl_tabPut_sorted (by assumption)))

theorem State.mdcDeliver_keeps {s0 : State} {s : State} {d : List Byte} {rs : List MdcReq} (hs : Keeps s0 s) : Keeps s0 (State.mdcDeliver s d rs) := by
  unfold State.mdcDeliver
  with_reducible repeat' first | assumption | intro _ | apply State.mdcDirect_keeps | apply State.respond_keeps | apply foldl_keeps | apply foldl_keeps_fst | apply foldl_keeps_snd | split

theorem State.setMdcDis_keeps {s0 : State} {s : State} {e : Nat} {b : Bool} (hs : Keeps s0 s) : Keeps s0 (State.setMdcDis s e b) := by
  unfold State.setMdcDis
  with_reducible repeat' first | assumption | apply State.put_keeps | split

theorem State.mdcTake_keeps {s0 : State} {s : State} {e : Nat} {ue : Bool} (hs : Keeps s0 s) : Keeps s0 (State.mdcTake s e ue) := by
  unfold State.mdcTake
  with_reducible repeat' first | assumption | intro _ | apply State.inc_keeps | apply State.markBad_keeps | apply State.bufWrite_keeps | apply State.mdcWriteLine_keeps | apply State.irq_keeps | apply State.setMdcDis_keeps | apply State.mdcDrop_keeps | dsimp -zeta only | refine keeps_of_fst ?_ (by assumption) | refine keeps_of_snd ?_ (by assumption) | apply each_keeps | (extract_lets +onlyGivenNames x; first | (refine keeps_cut (s := s0) (t := x) ?_ (fun hx => ?_); unfold x; clear x; rotate_left; clear_value x; rotate_right) | clear_value x) | split | (refine keeps_mk ?_ rfl ?_; rotate_left; (intro hk; cases hk; constructor <;> first | assumption | exact tabPut_sorted (by assumption) | exact filter_sorted (by assumption) | exact tabSorted_nil | exact foldl_tabPut_sorted (by assumption)))

theorem State.mdcDisable_keeps {s0 : State} {s : State} {e : Nat} {b : Nat} {ue : Bool} (hs : Keeps s0 s) : Keeps s0 (State.mdcDisable s e b ue) := by
  unfold State.mdcDisable
  with_reducible repeat' first | assumption | apply State.raiseSub_keeps | apply State.mdcTake_keeps

theorem State.mdcCe_keeps {s0 : State} {s : State} {e : Nat} {b : Nat} (hs : Keeps s0 s) : Keeps s0 (State.mdcCe s e b) := by
  unfold State.mdcCe
  with_reducible repeat' first | assumption | apply State.raise_keeps | apply State.inc_keeps | apply State.setMdcEnt_keeps | apply State.mdcDisable_keeps | (extract_lets +onlyGivenNames x; first | (refine keeps_cut (s := s0) (t := x) ?_ (fun hx => ?_); unfold x; clear x; rotate_left; clear_value x; rotate_right) | clear_value x) | split

theorem State.mdcTagUe_keeps {s0 : State} {s : State} {e : Nat} (hs : Keeps s0 s) : Keeps s0 (State.mdcTagUe s e) := by
  unfold State.mdcTagUe
  with_reducible repeat' first | assumption | apply State.inc_keeps | apply State.mdcDrop_keeps | apply State.raise_keeps

theorem State.mdcUe_keeps {s0 : State} {s : State} {e : Nat} (hs : Keeps s0 s) : Keeps s0 (State.mdcUe s e) := by
  unfold State.mdcUe
  with_reducible repeat' first | assumption | apply State.mdcDisable_keeps | split

theorem State.mdcRequest_keeps {s0 : State} {s : State} {r : MdcReq} {f : MdcFind} (hs : Keeps s0 s) : Keeps s0 (State.mdcRequest s r f) := by
  unfold State.mdcRequest
  with_reducible repeat' first | assumption | intro _ | apply State.noteMdc_keeps | apply State.mdcAccept_keeps | apply State.mdcCe_keeps | apply State.mdcTagUe_keeps | apply State.respond_keeps | apply State.mdcUe_keeps | split

theorem execMdcRequest_keeps {s0 : State} {m : Master} {write : Bool} {addr : BitVec 48} {len : BitVec 7} {data : List Byte} {find : MdcFind} {s : State} (hs : Keeps s0 s) : KeepsOut s0 (execMdcRequest m write addr len data find s) := by
  unfold execMdcRequest
  with_reducible repeat' first | assumption | apply State.mdcRequest_keeps | apply State.mdcDirect_keeps | apply Keeps.out | (extract_lets +onlyGivenNames x; clear_value x) | split

theorem State.reportUnnamed_keeps {s0 : State} {s : State} {p : Nat} {cls : Nat} {base : Nat} {d : Detail} (hs : Keeps s0 s) : Keeps s0 (State.reportUnnamed s p cls base d) := by
  unfold State.reportUnnamed
  with_reducible repeat' first | assumption | intro _ | apply State.drew_keeps | (extract_lets +onlyGivenNames x; first | (refine keeps_cut (s := s0) (t := x) ?_ (fun hx => ?_); unfold x; clear x; rotate_left; clear_value x; rotate_right) | clear_value x) | split | (refine keeps_mk ?_ rfl ?_; rotate_left; (intro hk; cases hk; constructor <;> first | assumption | exact tabPut_sorted (by assumption) | exact filter_sorted (by assumption) | exact tabSorted_nil | exact foldl_tabPut_sorted (by assumption)))

theorem State.maintRefused_keeps {s0 : State} {s : State} {m : Master} (hs : Keeps s0 s) : Keeps s0 (State.maintRefused s m) := by
  unfold State.maintRefused
  with_reducible repeat' first | assumption | intro _ | apply State.reportUnnamed_keeps | apply State.irq_keeps | apply State.setMaintStat_keeps

theorem State.maintWrite_keeps {s0 : State} {s : State} {m : Master} {op : Nat} (hs : Keeps s0 s) : Keeps s0 (State.maintWrite s m op) := by
  unfold State.maintWrite
  with_reducible repeat' first | assumption | intro _ | apply State.regCmd_keeps | apply State.maintRefused_keeps | apply State.setMaintStat_keeps | apply State.maintBegin_keeps | (extract_lets +onlyGivenNames x; first | (refine keeps_cut (s := s0) (t := x) ?_ (fun hx => ?_); unfold x; clear x; rotate_left; clear_value x; rotate_right) | clear_value x) | split | (refine keeps_mk ?_ rfl ?_; rotate_left; (intro hk; cases hk; constructor <;> first | assumption | exact tabPut_sorted (by assumption) | exact filter_sorted (by assumption) | exact tabSorted_nil | exact foldl_tabPut_sorted (by assumption)))

theorem execCleanAddr_keeps {s0 : State} {m : Master} {s : State} (hs : Keeps s0 s) : KeepsOut s0 (execCleanAddr m s) := by
  unfold execCleanAddr
  with_reducible repeat' first | assumption | apply State.maintWrite_keeps | apply Keeps.out

theorem State.mdcNewPeriod_keeps {s0 : State} {s : State} (hs : Keeps s0 s) : Keeps s0 (State.mdcNewPeriod s) := by
  unfold State.mdcNewPeriod
  with_reducible repeat' first | assumption | intro _ | apply foldl_keeps | apply foldl_keeps_fst | apply foldl_keeps_snd | (extract_lets +onlyGivenNames x; clear_value x) | (refine keeps_mk ?_ rfl ?_; rotate_left; (intro hk; cases hk; constructor <;> first | assumption | exact tabPut_sorted (by assumption) | exact filter_sorted (by assumption) | exact tabSorted_nil | exact foldl_tabPut_sorted (by assumption)))

theorem execInvAddr_keeps {s0 : State} {m : Master} {s : State} (hs : Keeps s0 s) : KeepsOut s0 (execInvAddr m s) := by
  unfold execInvAddr
  with_reducible repeat' first | assumption | apply State.maintWrite_keeps | apply Keeps.out

theorem execInvAll_keeps {s0 : State} {m : Master} {s : State} (hs : Keeps s0 s) : KeepsOut s0 (execInvAll m s) := by
  unfold execInvAll
  with_reducible repeat' first | assumption | apply State.maintWrite_keeps | apply Keeps.out

theorem State.mdcFilled_keeps {s0 : State} {s : State} {f : MdcFill} (hs : Keeps s0 s) : Keeps s0 (State.mdcFilled s f) := by
  unfold State.mdcFilled
  with_reducible repeat' first | assumption | intro _ | apply State.bufRead_keeps | apply State.respond_keeps | apply State.raise_keeps | apply State.setMdcEnt_keeps | apply State.mdcServe_keeps | apply State.mdcDeliver_keeps | dsimp -zeta only | refine keeps_of_fst ?_ (by assumption) | refine keeps_of_snd ?_ (by assumption) | apply each_keeps | apply foldl_keeps | apply foldl_keeps_fst | apply foldl_keeps_snd | (extract_lets +onlyGivenNames x; first | (refine keeps_cut (s := s0) (t := x) ?_ (fun hx => ?_); unfold x; clear x; rotate_left; clear_value x; rotate_right) | (refine keeps_cut_fst (s := s0) (x := x) ?_ (fun hx => ?_); unfold x; clear x; rotate_left; clear_value x; rotate_right) | (refine keeps_cut_snd (s := s0) (x := x) ?_ (fun hx => ?_); unfold x; clear x; rotate_left; clear_value x; rotate_right) | clear_value x) | split | (refine keeps_mk ?_ rfl ?_; rotate_left; (intro hk; cases hk; constructor <;> first | assumption | exact tabPut_sorted (by assumption) | exact filter_sorted (by assumption) | exact tabSorted_nil | exact foldl_tabPut_sorted (by assumption)))

theorem State.mdcNow_keeps {s0 : State} {s : State} {r : MdcReq} (hs : Keeps s0 s) : Keeps s0 (State.mdcNow s r) := by
  unfold State.mdcNow
  with_reducible repeat' first | assumption | intro _ | apply State.mdcRequest_keeps | apply State.mdcRetry_keeps | apply State.mdcFilled_keeps | (extract_lets +onlyGivenNames x; first | (refine keeps_cut (s := s0) (t := x) ?_ (fun hx => ?_); unfold x; clear x; rotate_left; clear_value x; rotate_right) | clear_value x) | split

theorem execCleanAll_keeps {s0 : State} {m : Master} {s : State} (hs : Keeps s0 s) : KeepsOut s0 (execCleanAll m s) := by
  unfold execCleanAll
  with_reducible repeat' first | assumption | apply State.maintWrite_keeps | apply Keeps.out

theorem execVictimWritebackDone_keeps {s0 : State} {i : Fin 4} {s : State} (hs : Keeps s0 s) : KeepsOut s0 (execVictimWritebackDone i s) := by
  unfold execVictimWritebackDone
  with_reducible repeat' first | assumption | intro _ | apply State.mdcRetry_keeps | apply State.mdcWriteLine_keeps | apply Keeps.out | (extract_lets +onlyGivenNames x; first | (refine keeps_cut (s := s0) (t := x) ?_ (fun hx => ?_); unfold x; clear x; rotate_left; clear_value x; rotate_right) | clear_value x) | split | (refine keeps_mk ?_ rfl ?_; rotate_left; (intro hk; cases hk; constructor <;> first | assumption | exact tabPut_sorted (by assumption) | exact filter_sorted (by assumption) | exact tabSorted_nil | exact foldl_tabPut_sorted (by assumption)))

theorem execCleanInvAddr_keeps {s0 : State} {m : Master} {s : State} (hs : Keeps s0 s) : KeepsOut s0 (execCleanInvAddr m s) := by
  unfold execCleanInvAddr
  with_reducible repeat' first | assumption | apply State.maintWrite_keeps | apply Keeps.out

theorem execBypassEntered_keeps {s0 : State} {s : State} (hs : Keeps s0 s) : KeepsOut s0 (execBypassEntered s) := by
  unfold execBypassEntered
  with_reducible repeat' first | assumption | intro _ | apply State.mdcRetry_keeps | apply State.raise_keeps | apply State.irq_keeps | apply State.put_keeps | apply Keeps.out | split

theorem execBypassReq_keeps {s0 : State} {m : Master} {on_ : Bool} {s : State} (hs : Keeps s0 s) : KeepsOut s0 (execBypassReq m on_ s) := by
  unfold execBypassReq
  with_reducible repeat' first | assumption | intro _ | apply State.regCmd_keeps | apply State.noteMdc_keeps | apply State.putB_keeps | apply Keeps.out

theorem execMdcFillReturn_keeps {s0 : State} {i : Fin 8} {beat : Fin 4} {e : WordErr} {s : State} (hs : Keeps s0 s) : KeepsOut s0 (execMdcFillReturn i beat e s) := by
  unfold execMdcFillReturn
  with_reducible repeat' first | assumption | intro _ | apply State.mdcRetry_keeps | apply State.mdcFilled_keeps | apply State.applyErr_keeps | apply Keeps.out | split

theorem execCleanInvAll_keeps {s0 : State} {m : Master} {s : State} (hs : Keeps s0 s) : KeepsOut s0 (execCleanInvAll m s) := by
  unfold execCleanInvAll
  with_reducible repeat' first | assumption | apply State.maintWrite_keeps | apply Keeps.out

theorem State.selfTestFault_keeps {s0 : State} {s : State} {p : Nat} (hs : Keeps s0 s) : Keeps s0 (State.selfTestFault s p) := by
  unfold State.selfTestFault
  with_reducible repeat' first | assumption | intro _ | apply State.reportUnnamed_keeps | split

theorem State.selfTest_keeps {s0 : State} {s : State} {found : List (Nat × Nat)} (hs : Keeps s0 s) : Keeps s0 (State.selfTest s found) := by
  unfold State.selfTest
  with_reducible repeat' first | assumption | intro _ | apply State.setReg_keeps | apply State.irq_keeps | apply State.raise_keeps | apply State.selfTestFault_keeps | dsimp -zeta only | refine keeps_of_fst ?_ (by assumption) | refine keeps_of_snd ?_ (by assumption) | apply each_keeps | (extract_lets +onlyGivenNames x; first | (refine keeps_cut (s := s0) (t := x) ?_ (fun hx => ?_); unfold x; clear x; rotate_left; clear_value x; rotate_right) | clear_value x) | split

theorem execStRerun_keeps {s0 : State} {m : Master} {page : BitVec 9} {fails : List (BitVec 8)} {s : State} (hs : Keeps s0 s) : KeepsOut s0 (execStRerun m page fails s) := by
  unfold execStRerun
  with_reducible repeat' first | assumption | intro _ | apply State.regCmd_keeps | apply State.selfTest_keeps | apply State.put_keeps | apply Keeps.out | (extract_lets +onlyGivenNames x; clear_value x) | split

theorem State.setDramPos_keeps {s0 : State} {s : State} {o : Nat} (hs : Keeps s0 s) : Keeps s0 (State.setDramPos s o) := by
  unfold State.setDramPos
  with_reducible repeat' first | assumption | apply State.setReg_keeps

theorem State.dramLapStart_keeps {s0 : State} {s : State} (hs : Keeps s0 s) : Keeps s0 (State.dramLapStart s) := by
  unfold State.dramLapStart
  with_reducible repeat' first | assumption | intro _ | apply State.setReg_keeps | (extract_lets +onlyGivenNames x; first | (refine keeps_cut (s := s0) (t := x) ?_ (fun hx => ?_); unfold x; clear x; rotate_left; clear_value x; rotate_right) | clear_value x) | (refine keeps_mk ?_ rfl ?_; rotate_left; (intro hk; cases hk; constructor <;> first | assumption | exact tabPut_sorted (by assumption) | exact filter_sorted (by assumption) | exact tabSorted_nil | exact foldl_tabPut_sorted (by assumption)))

theorem State.sramLapStart_keeps {s0 : State} {s : State} (hs : Keeps s0 s) : Keeps s0 (State.sramLapStart s) := by
  unfold State.sramLapStart
  with_reducible repeat' first | assumption | intro _ | apply State.setReg_keeps | apply State.mdcNewPeriod_keeps | (extract_lets +onlyGivenNames x; first | (refine keeps_cut (s := s0) (t := x) ?_ (fun hx => ?_); unfold x; clear x; rotate_left; clear_value x; rotate_right) | clear_value x) | split | (refine keeps_mk ?_ rfl ?_; rotate_left; (intro hk; cases hk; constructor <;> first | assumption | exact tabPut_sorted (by assumption) | exact filter_sorted (by assumption) | exact tabSorted_nil | exact foldl_tabPut_sorted (by assumption)))

theorem State.glnSlot_keeps {s0 : State} {s : State} {r : Nat} {a : Nat} (hs : Keeps s0 s) : KeepsOpt s0 (State.glnSlot s r a) := by
  unfold State.glnSlot
  with_reducible repeat' first | assumption | intro _ | apply State.setBufq_keeps | apply State.inc_keeps | apply keeps_some | apply keeps_none | (extract_lets +onlyGivenNames x; first | (refine keeps_cut (s := s0) (t := x) ?_ (fun hx => ?_); unfold x; clear x; rotate_left; clear_value x; rotate_right) | clear_value x) | split | (refine keeps_mk ?_ rfl ?_; rotate_left; (intro hk; cases hk; constructor <;> first | assumption | exact tabPut_sorted (by assumption) | exact filter_sorted (by assumption) | exact tabSorted_nil | exact foldl_tabPut_sorted (by assumption)))

theorem State.glnRaise_keeps {s0 : State} {s : State} {p : Nat} {b : Nat} {sub : Option Nat} {a : Nat} (hs : Keeps s0 s) : Keeps s0 (State.glnRaise s p b sub a) := by
  unfold State.glnRaise
  with_reducible repeat' first | assumption | intro _ | apply State.raiseWith_keeps

theorem State.glnSramOwner_keeps {s0 : State} {s : State} {a : Nat} {ue : Bool} {spot : Option GlnSpot} (hs : Keeps s0 s) : Keeps s0 (State.glnSramOwner s a ue spot) := by
  unfold State.glnSramOwner
  with_reducible repeat' first | assumption | intro _ | apply State.glnRaise_keeps | (extract_lets +onlyGivenNames x; clear_value x) | split

theorem State.glnBack_keeps {s0 : State} {s : State} {raced : Bool} (hs : Keeps s0 s) : Keeps s0 (State.glnBack s raced) := by
  unfold State.glnBack
  with_reducible repeat' first | assumption | apply State.inc_keeps | split

theorem State.glnErr_keeps {s0 : State} {s : State} {lo : Nat} {hi : Nat} {syn : Nat} {region : Nat} {ue : Bool} (hs : Keeps s0 s) : Keeps s0 (State.glnErr s lo hi syn region ue) := by
  unfold State.glnErr
  with_reducible repeat' first | assumption | apply State.setReg_keeps | apply State.irq_keeps | apply State.inc_keeps | (extract_lets +onlyGivenNames x; first | (refine keeps_cut (s := s0) (t := x) ?_ (fun hx => ?_); unfold x; clear x; rotate_left; clear_value x; rotate_right) | clear_value x) | split

theorem State.glnLine_keeps {s0 : State} {s : State} {a : Nat} {region : Nat} {e : WordErr} {raced : Bool} {spot : Option GlnSpot} (hs : Keeps s0 s) : Keeps s0 (State.glnLine s a region e raced spot) := by
  unfold State.glnLine
  with_reducible repeat' first | assumption | intro _ | apply State.drew_keeps | apply State.dramUe_keeps | apply State.dramCe_keeps | apply State.glnSramOwner_keeps | apply State.glnBack_keeps | apply State.glnErr_keeps | apply State.markBad_keeps | (extract_lets +onlyGivenNames x; first | (refine keeps_cut (s := s0) (t := x) ?_ (fun hx => ?_); unfold x; clear x; rotate_left; clear_value x; rotate_right) | (have hf : ∀ y, x y = x y := fun _ => rfl; clear hf; unfold x; clear x) | clear_value x) | split

theorem State.glnInternal_keeps {s0 : State} {s : State} {sp : GlnSpot} {e : WordErr} {raced : Bool} (hs : Keeps s0 s) : Keeps s0 (State.glnInternal s sp e raced) := by
  unfold State.glnInternal
  with_reducible repeat' first | assumption | intro _ | apply State.noteMdc_keeps | apply State.mdcTagUe_keeps | apply State.mdcCe_keeps | apply State.mdcUe_keeps | apply State.glnRaise_keeps | apply State.glnBack_keeps | apply State.glnErr_keeps | (extract_lets +onlyGivenNames x; first | (have hf : ∀ y, x y = x y := fun _ => rfl; clear hf; unfold x; clear x) | clear_value x) | split

theorem execGleanerBeat_keeps {s0 : State} {dram : Bool} {e : WordErr} {raced : Bool} {spot : Option GlnSpot} {s : State} (hs : Keeps s0 s) : KeepsOut s0 (execGleanerBeat dram e raced spot s) := by
  unfold execGleanerBeat
  with_reducible repeat' first | assumption | intro _ | apply State.dramLapStart_keeps | apply State.glnSlot_keeps | apply State.glnLine_keeps | apply State.setDramPos_keeps | apply State.sramLapStart_keeps | apply State.setReg_keeps | apply State.glnInternal_keeps | refine keeps_of_some ?_ (by assumption) | apply Keeps.out | (extract_lets +onlyGivenNames x; first | (refine keeps_cut (s := s0) (t := x) ?_ (fun hx => ?_); unfold x; clear x; rotate_left; clear_value x; rotate_right) | clear_value x) | split

theorem execLapLate_keeps {s0 : State} {dram : Bool} {s : State} (hs : Keeps s0 s) : KeepsOut s0 (execLapLate dram s) := by
  unfold execLapLate
  with_reducible repeat' first | assumption | intro _ | apply State.raise_keeps | apply Keeps.out | (extract_lets +onlyGivenNames x; clear_value x) | split | (refine keeps_mk ?_ rfl ?_; rotate_left; (intro hk; cases hk; constructor <;> first | assumption | exact tabPut_sorted (by assumption) | exact filter_sorted (by assumption) | exact tabSorted_nil | exact foldl_tabPut_sorted (by assumption)))

theorem execLapEnd_keeps {s0 : State} {dram : Bool} {s : State} (hs : Keeps s0 s) : KeepsOut s0 (execLapEnd dram s) := by
  unfold execLapEnd
  with_reducible repeat' first | assumption | intro _ | apply State.dramLapStart_keeps | apply State.irq_keeps | apply State.addWrap_keeps | apply State.putMax_keeps | apply State.put_keeps | apply State.sramLapStart_keeps | apply Keeps.out | (extract_lets +onlyGivenNames x; clear_value x) | split

theorem State.glnStop_keeps {s0 : State} {s : State} (hs : Keeps s0 s) : Keeps s0 (State.glnStop s) := by
  unfold State.glnStop
  with_reducible repeat' first | assumption | intro _ | (extract_lets +onlyGivenNames x; clear_value x) | (refine keeps_mk ?_ rfl ?_; rotate_left; (intro hk; cases hk; constructor <;> first | assumption | exact tabPut_sorted (by assumption) | exact filter_sorted (by assumption) | exact tabSorted_nil | exact foldl_tabPut_sorted (by assumption)))

theorem State.setCur_keeps {s0 : State} {s : State} {c : Nat} {a : Nat} (hs : Keeps s0 s) : Keeps s0 (State.setCur s c a) := by
  unfold State.setCur
  with_reducible repeat' first | assumption | apply State.put_keeps

theorem State.noteInUse_keeps {s0 : State} {s : State} (hs : Keeps s0 s) : Keeps s0 (State.noteInUse s) := by
  unfold State.noteInUse
  with_reducible repeat' first | assumption | intro _ | apply State.put_keeps | apply foldl_keeps | apply foldl_keeps_fst | apply foldl_keeps_snd | (extract_lets +onlyGivenNames x; clear_value x) | split

theorem State.noteCh_keeps {s0 : State} {s : State} {c : Nat} (hs : Keeps s0 s) : Keeps s0 (State.noteCh s c) := by
  unfold State.noteCh
  with_reducible repeat' first | assumption | apply State.noteInUse_keeps | apply State.put_keeps | (extract_lets +onlyGivenNames x; clear_value x)

theorem State.setChState_keeps {s0 : State} {s : State} {c : Nat} {v : Nat} (hs : Keeps s0 s) : Keeps s0 (State.setChState s c v) := by
  unfold State.setChState
  with_reducible repeat' first | assumption | apply State.put_keeps

theorem State.setDma_keeps {s0 : State} {s : State} {c : Nat} {v : DmaChan} (hs : Keeps s0 s) : Keeps s0 (State.setDma s c v) := by
  unfold State.setDma
  with_reducible repeat' first | assumption | intro _ | (refine keeps_mk ?_ rfl ?_; rotate_left; (intro hk; cases hk; constructor <;> first | assumption | exact tabPut_sorted (by assumption) | exact filter_sorted (by assumption) | exact tabSorted_nil | exact foldl_tabPut_sorted (by assumption)))

theorem execDmaAbort_keeps {s0 : State} {m : Master} {c : Fin 32} {s : State} (hs : Keeps s0 s) : KeepsOut s0 (execDmaAbort m c s) := by
  unfold execDmaAbort
  with_reducible repeat' first | assumption | intro _ | apply State.regCmd_keeps | apply State.setChState_keeps | apply State.put_keeps | apply State.setDma_keeps | apply Keeps.out | (extract_lets +onlyGivenNames x; clear_value x) | split

theorem State.setDesc_keeps {s0 : State} {s : State} {c : Nat} {i : Nat} {d : DmaDesc} (hs : Keeps s0 s) : Keeps s0 (State.setDesc s c i d) := by
  unfold State.setDesc
  with_reducible repeat' first | assumption | apply State.setDma_keeps | (extract_lets +onlyGivenNames x; clear_value x)

theorem State.xtsPart_keeps {s0 : State} {s : State} {d : DmaDesc} {enc : Bool} {u : Nat} {j : Nat} {bs : List Byte} (hs : Keeps s0 s) : Keeps s0 (State.xtsPart s d enc u j bs).2 := by
  unfold State.xtsPart
  with_reducible repeat' first | assumption | apply State.addSat_keeps | dsimp -zeta only | refine keeps_of_fst ?_ (by assumption) | refine keeps_of_snd ?_ (by assumption)

theorem State.dmaSink_keeps {s0 : State} {s : State} {c : Nat} {d : DmaDesc} {off : Nat} {bs : List Byte} (hs : Keeps s0 s) : Keeps s0 (State.dmaSink s c d off bs).1 := by
  unfold State.dmaSink
  with_reducible repeat' first | assumption | intro _ | apply State.bufWrite_keeps | apply State.xtsPart_keeps | dsimp -zeta only | refine keeps_of_fst ?_ (by assumption) | refine keeps_of_snd ?_ (by assumption) | (extract_lets +onlyGivenNames x; first | (refine keeps_cut_fst (s := s0) (x := x) ?_ (fun hx => ?_); unfold x; clear x; rotate_left; clear_value x; rotate_right) | (refine keeps_cut_snd (s := s0) (x := x) ?_ (fun hx => ?_); unfold x; clear x; rotate_left; clear_value x; rotate_right) | (have hf : ∀ y, x y = x y := fun _ => rfl; clear hf; unfold x; clear x) | clear_value x) | split

theorem State.dmaArrive_keeps {s0 : State} {s : State} {c : Nat} {i : Nat} {d : DmaDesc} {off : Nat} {bs : List Byte} (hs : Keeps s0 s) : Keeps s0 (State.dmaArrive s c i d off bs) := by
  unfold State.dmaArrive
  with_reducible repeat' first | assumption | intro _ | apply State.dmaSink_keeps | apply State.setDesc_keeps | dsimp -zeta only | refine keeps_of_fst ?_ (by assumption) | refine keeps_of_snd ?_ (by assumption) | apply foldl_keeps | apply foldl_keeps_fst | apply foldl_keeps_snd | (extract_lets +onlyGivenNames x; first | (refine keeps_cut_fst (s := s0) (x := x) ?_ (fun hx => ?_); unfold x; clear x; rotate_left; clear_value x; rotate_right) | (refine keeps_cut_snd (s := s0) (x := x) ?_ (fun hx => ?_); unfold x; clear x; rotate_left; clear_value x; rotate_right) | clear_value x) | split

theorem State.hostData_keeps {s0 : State} {s : State} {c : Nat} {i : Nat} {status : Nat} {data : List Byte} (hs : Keeps s0 s) : Keeps s0 (State.hostData s c i status data) := by
  unfold State.hostData
  with_reducible repeat' first | assumption | intro _ | apply State.setDesc_keeps | apply State.dmaArrive_keeps | (extract_lets +onlyGivenNames x; first | (refine keeps_cut (s := s0) (t := x) ?_ (fun hx => ?_); unfold x; clear x; rotate_left; clear_value x; rotate_right) | clear_value x) | split

theorem State.setPort_keeps {s0 : State} {s : State} {p : Nat} {v : Port} (hs : Keeps s0 s) : Keeps s0 (State.setPort s p v) := by
  unfold State.setPort
  with_reducible repeat' first | assumption | intro _ | (refine keeps_mk ?_ rfl ?_; rotate_left; (intro hk; cases hk; constructor <;> first | assumption | exact tabPut_sorted (by assumption) | exact filter_sorted (by assumption) | exact tabSorted_nil | exact foldl_tabPut_sorted (by assumption)))

theorem State.noteTxq_keeps {s0 : State} {s : State} {p : Nat} (hs : Keeps s0 s) : Keeps s0 (State.noteTxq s p) := by
  unfold State.noteTxq
  with_reducible repeat' first | assumption | apply State.setPort_keeps | apply State.put_keeps | (extract_lets +onlyGivenNames x; first | (refine keeps_cut (s := s0) (t := x) ?_ (fun hx => ?_); unfold x; clear x; rotate_left; clear_value x; rotate_right) | clear_value x) | split

theorem State.dmaSource_keeps {s0 : State} {s : State} {c : Nat} {d : DmaDesc} {lo : Nat} {n : Nat} (hs : Keeps s0 s) : Keeps s0 (State.dmaSource s c d lo n).1 := by
  unfold State.dmaSource
  with_reducible repeat' first | assumption | intro _ | apply State.bufRead_keeps | apply State.xtsPart_keeps | dsimp -zeta only | refine keeps_of_fst ?_ (by assumption) | refine keeps_of_snd ?_ (by assumption) | (extract_lets +onlyGivenNames x; first | (refine keeps_cut_fst (s := s0) (x := x) ?_ (fun hx => ?_); unfold x; clear x; rotate_left; clear_value x; rotate_right) | (refine keeps_cut_snd (s := s0) (x := x) ?_ (fun hx => ?_); unfold x; clear x; rotate_left; clear_value x; rotate_right) | clear_value x) | split

theorem State.takeTlp_keeps {s0 : State} {s : State} {p : Nat} {t : Tlp} (hs : Keeps s0 s) : Keeps s0 (State.takeTlp s p t) := by
  unfold State.takeTlp
  with_reducible repeat' first | assumption | intro _ | apply State.noteTxq_keeps | apply State.setPort_keeps | (extract_lets +onlyGivenNames x; clear_value x)

theorem State.noteTrail_keeps {s0 : State} {s : State} {c : Nat} (hs : Keeps s0 s) : Keeps s0 (State.noteTrail s c) := by
  unfold State.noteTrail
  with_reducible repeat' first | assumption | intro _ | apply State.put_keeps | (extract_lets +onlyGivenNames x; clear_value x) | split

theorem State.dmaIssue_keeps {s0 : State} {s : State} {c : Nat} {i : Nat} {d : DmaDesc} (hs : Keeps s0 s) : KeepsOpt s0 (State.dmaIssue s c i d) := by
  unfold State.dmaIssue
  with_reducible repeat' first | assumption | intro _ | apply State.setDesc_keeps | apply State.noteCh_keeps | apply State.dmaSource_keeps | apply State.takeTlp_keeps | apply State.noteTrail_keeps | apply State.setDma_keeps | apply State.dmaSink_keeps | dsimp -zeta only | refine keeps_of_fst ?_ (by assumption) | refine keeps_of_snd ?_ (by assumption) | apply keeps_some | apply keeps_none | (extract_lets +onlyGivenNames x; first | (refine keeps_cut (s := s0) (t := x) ?_ (fun hx => ?_); unfold x; clear x; rotate_left; clear_value x; rotate_right) | clear_value x) | split

theorem State.dmaPump_keeps {s0 : State} {s : State} {fuel c : Nat} (hs : Keeps s0 s) : Keeps s0 (State.dmaPump s fuel c) := by
  induction fuel generalizing s with
  | zero => exact hs
  | succ n ih =>
    unfold State.dmaPump
    split
    · exact hs
    · split
      · exact hs
      · split
        · exact hs
        · rename_i e; exact ih (keeps_of_some (State.dmaIssue_keeps hs) e)

theorem State.dmaRun_keeps {s0 : State} {s : State} {c : Nat} (hs : Keeps s0 s) : Keeps s0 (State.dmaRun s c) := by
  unfold State.dmaRun
  with_reducible repeat' first | assumption | apply State.dmaPump_keeps

theorem State.dmaRunPort_keeps {s0 : State} {s : State} {p : Nat} (hs : Keeps s0 s) : Keeps s0 (State.dmaRunPort s p) := by
  unfold State.dmaRunPort
  with_reducible repeat' first | assumption | intro _ | apply State.dmaRun_keeps | apply each_keeps

theorem execPostedAck_keeps {s0 : State} {p : Fin 2} {s : State} (hs : Keeps s0 s) : KeepsOut s0 (execPostedAck p s) := by
  unfold execPostedAck
  with_reducible repeat' first | assumption | intro _ | apply State.noteTxq_keeps | apply State.setPort_keeps | apply State.dmaRunPort_keeps | apply State.noteTrail_keeps | apply State.setDma_keeps | apply Keeps.out | (extract_lets +onlyGivenNames x; first | (refine keeps_cut (s := s0) (t := x) ?_ (fun hx => ?_); unfold x; clear x; rotate_left; clear_value x; rotate_right) | clear_value x) | split

theorem State.chRest_keeps {s0 : State} {s : State} {c : Nat} (hs : Keeps s0 s) : Keeps s0 (State.chRest s c) := by
  unfold State.chRest
  with_reducible repeat' first | assumption | intro _ | apply State.put_keeps | apply State.setChState_keeps | apply State.setDma_keeps | (extract_lets +onlyGivenNames x; clear_value x) | split

theorem execRun_keeps {s0 : State} {m : Master} {c : Fin 32} {on_ : Bool} {s : State} (hs : Keeps s0 s) : KeepsOut s0 (execRun m c on_ s) := by
  unfold execRun
  with_reducible repeat' first | assumption | intro _ | apply State.regCmd_keeps | apply State.putB_keeps | apply State.setChState_keeps | apply State.setCur_keeps | apply State.setDma_keeps | apply State.chRest_keeps | apply Keeps.out | (extract_lets +onlyGivenNames x; first | (refine keeps_cut (s := s0) (t := x) ?_ (fun hx => ?_); unfold x; clear x; rotate_left; clear_value x; rotate_right) | clear_value x) | split

theorem State.dmaUnfenced_keeps {s0 : State} {s : State} {c : Nat} (hs : Keeps s0 s) : Keeps s0 (State.dmaUnfenced s c) := by
  unfold State.dmaUnfenced
  with_reducible repeat' first | assumption | intro _ | apply State.setReg_keeps | apply State.put_keeps | apply State.setChState_keeps | apply State.setDma_keeps | apply each_keeps | (extract_lets +onlyGivenNames x; first | (refine keeps_cut (s := s0) (t := x) ?_ (fun hx => ?_); unfold x; clear x; rotate_left; clear_value x; rotate_right) | clear_value x)

theorem State.descCount_keeps {s0 : State} {s : State} {c : Nat} {d : DmaDesc} {st : Nat} (hs : Keeps s0 s) : Keeps s0 (State.descCount s c d st) := by
  unfold State.descCount
  with_reducible repeat' first | assumption | apply State.inc_keeps | apply State.put_keeps | apply State.irq_keeps | (extract_lets +onlyGivenNames x; first | (refine keeps_cut (s := s0) (t := x) ?_ (fun hx => ?_); unfold x; clear x; rotate_left; clear_value x; rotate_right) | clear_value x) | split

theorem State.descWrite_keeps {s0 : State} {s : State} {c : Nat} {d : DmaDesc} {st : Nat} {det : Nat} (hs : Keeps s0 s) : Keeps s0 (State.descWrite s c d st det) := by
  unfold State.descWrite
  with_reducible repeat' first | assumption | intro _ | apply State.bufWrite_keeps | dsimp -zeta only | refine keeps_of_fst ?_ (by assumption) | refine keeps_of_snd ?_ (by assumption) | (extract_lets +onlyGivenNames x; first | (refine keeps_cut (s := s0) (t := x) ?_ (fun hx => ?_); unfold x; clear x; rotate_left; clear_value x; rotate_right) | clear_value x)

theorem State.endAll_keeps {s0 : State} {s : State} {c : Nat} {st : Nat} {det : Nat} (hs : Keeps s0 s) : Keeps s0 (State.endAll s c st det) := by
  unfold State.endAll
  with_reducible repeat' first | assumption | intro _ | apply State.descCount_keeps | apply State.descWrite_keeps | apply State.noteCh_keeps | apply State.setDma_keeps | apply each_keeps | (extract_lets +onlyGivenNames x; first | (refine keeps_cut (s := s0) (t := x) ?_ (fun hx => ?_); unfold x; clear x; rotate_left; clear_value x; rotate_right) | clear_value x)

theorem State.dmaFenced_keeps {s0 : State} {s : State} {c : Nat} (hs : Keeps s0 s) : Keeps s0 (State.dmaFenced s c) := by
  unfold State.dmaFenced
  with_reducible repeat' first | assumption | apply State.setChState_keeps | apply State.endAll_keeps | apply State.setDma_keeps | (extract_lets +onlyGivenNames x; first | (refine keeps_cut (s := s0) (t := x) ?_ (fun hx => ?_); unfold x; clear x; rotate_left; clear_value x; rotate_right) | clear_value x)

theorem State.chErr_keeps {s0 : State} {s : State} {c : Nat} {st : Nat} {det : Nat} {seq : Nat} {a : Nat} (hs : Keeps s0 s) : Keeps s0 (State.chErr s c st det seq a) := by
  unfold State.chErr
  with_reducible repeat' first | assumption | apply State.put_keeps | apply State.irq_keeps | (extract_lets +onlyGivenNames x; first | (refine keeps_cut (s := s0) (t := x) ?_ (fun hx => ?_); unfold x; clear x; rotate_left; clear_value x; rotate_right) | clear_value x) | split

theorem State.chFault_keeps {s0 : State} {s : State} {c : Nat} {b : Nat} {st : Nat} {det : Nat} {seq : Nat} {a : Nat} {access : Nat} (hs : Keeps s0 s) : Keeps s0 (State.chFault s c b st det seq a access) := by
  unfold State.chFault
  with_reducible repeat' first | assumption | intro _ | apply State.raiseWith_keeps | apply State.chErr_keeps | apply State.setDma_keeps | (extract_lets +onlyGivenNames x; first | (refine keeps_cut (s := s0) (t := x) ?_ (fun hx => ?_); unfold x; clear x; rotate_left; clear_value x; rotate_right) | clear_value x) | split

theorem execDescriptorComplete_keeps {s0 : State} {c : Fin 32} {s : State} (hs : Keeps s0 s) : KeepsOut s0 (execDescriptorComplete c s) := by
  unfold execDescriptorComplete
  with_reducible repeat' first | assumption | intro _ | apply State.descCount_keeps | apply State.setDma_keeps | apply State.descWrite_keeps | apply State.put_keeps | apply State.irq_keeps | apply State.chFault_keeps | apply State.setCur_keeps | apply State.noteCh_keeps | apply State.dmaRun_keeps | apply State.chRest_keeps | apply Keeps.out | (extract_lets +onlyGivenNames x; first | (refine keeps_cut (s := s0) (t := x) ?_ (fun hx => ?_); unfold x; clear x; rotate_left; clear_value x; rotate_right) | clear_value x) | split

theorem execPostedLost_keeps {s0 : State} {c : Fin 32} {s : State} (hs : Keeps s0 s) : KeepsOut s0 (execPostedLost c s) := by
  unfold execPostedLost
  with_reducible repeat' first | assumption | intro _ | apply State.setDma_keeps | apply State.noteTrail_keeps | apply State.put_keeps | apply State.chFault_keeps | apply State.setCur_keeps | apply Keeps.out | (extract_lets +onlyGivenNames x; first | (refine keeps_cut (s := s0) (t := x) ?_ (fun hx => ?_); unfold x; clear x; rotate_left; clear_value x; rotate_right) | clear_value x) | split

theorem execAbortDrained_keeps {s0 : State} {c : Fin 32} {s : State} (hs : Keeps s0 s) : KeepsOut s0 (execAbortDrained c s) := by
  unfold execAbortDrained
  with_reducible repeat' first | assumption | apply State.endAll_keeps | apply State.put_keeps | apply State.setChState_keeps | apply State.setDma_keeps | apply Keeps.out | (extract_lets +onlyGivenNames x; first | (refine keeps_cut (s := s0) (t := x) ?_ (fun hx => ?_); unfold x; clear x; rotate_left; clear_value x; rotate_right) | clear_value x) | split

theorem execDescriptorTimeout_keeps {s0 : State} {c : Fin 32} {second : Bool} {s : State} (hs : Keeps s0 s) : KeepsOut s0 (execDescriptorTimeout c second s) := by
  unfold execDescriptorTimeout
  with_reducible repeat' first | assumption | intro _ | apply State.setDesc_keeps | apply Keeps.out | (extract_lets +onlyGivenNames x; clear_value x) | split

theorem execKick_keeps {s0 : State} {m : Master} {c : Fin 32} {s : State} (hs : Keeps s0 s) : KeepsOut s0 (execKick m c s) := by
  unfold execKick
  with_reducible repeat' first | assumption | intro _ | apply State.regCmd_keeps | apply State.setChState_keeps | apply Keeps.out | split

theorem State.resetChan_keeps {s0 : State} {s : State} {c : Nat} (hs : Keeps s0 s) : Keeps s0 (State.resetChan s c) := by
  unfold State.resetChan
  with_reducible repeat' first | assumption | intro _ | apply State.endAll_keeps | apply State.setReg_keeps | apply State.noteInUse_keeps | apply State.setDma_keeps | apply each_keeps | (extract_lets +onlyGivenNames x; first | (refine keeps_cut (s := s0) (t := x) ?_ (fun hx => ?_); unfold x; clear x; rotate_left; clear_value x; rotate_right) | clear_value x)

theorem execDescriptorFetch_keeps {s0 : State} {c : Fin 32} {s : State} (hs : Keeps s0 s) : KeepsOut s0 (execDescriptorFetch c s) := by
  unfold execDescriptorFetch
  with_reducible repeat' first | assumption | intro _ | apply State.bufRead_keeps | apply State.raiseWith_keeps | apply State.setCur_keeps | apply State.chErr_keeps | apply State.setDma_keeps | apply State.setChState_keeps | apply State.put_keeps | apply State.noteCh_keeps | apply State.dmaRun_keeps | dsimp -zeta only | refine keeps_of_fst ?_ (by assumption) | refine keeps_of_snd ?_ (by assumption) | apply Keeps.out | (extract_lets +onlyGivenNames x; first | (refine keeps_cut (s := s0) (t := x) ?_ (fun hx => ?_); unfold x; clear x; rotate_left; clear_value x; rotate_right) | clear_value x) | split

theorem State.dmaReset_keeps {s0 : State} {s : State} (hs : Keeps s0 s) : Keeps s0 (State.dmaReset s) := by
  unfold State.dmaReset
  with_reducible repeat' first | assumption | intro _ | apply State.resetChan_keeps | apply each_keeps

theorem execHostCompletion_keeps {s0 : State} {c : Fin 32} {i : BitVec 8} {status : Fin 3} {data : List Byte} {s : State} (hs : Keeps s0 s) : KeepsOut s0 (execHostCompletion c i status data s) := by
  unfold execHostCompletion
  with_reducible repeat' first | assumption | apply State.noteCh_keeps | apply State.dmaRun_keeps | apply State.hostData_keeps | apply Keeps.out | split

end Sys2Proof.Machine
end

