-- ==== Sys2Proof/Laws/KeepsSupply.lean ====
section
/-! SUPPORT. The operations of Supply, HostPorts keep what `Keeps` says. -/

namespace Sys2Proof.Machine

theorem State.supplyMeas_keeps {s0 : State} {s : State} {c : Nat} {mv : Nat} (hs : Keeps s0 s) : Keeps s0 (State.supplyMeas s c mv) := by
  unfold State.supplyMeas
  with_reducible repeat' first | assumption | intro _ | apply State.put_keeps | (extract_lets +onlyGivenNames x; first | (refine keeps_cut (s := s0) (t := x) ?_ (fun hx => ?_); unfold x; clear x; rotate_left; clear_value x; rotate_right) | clear_value x) | split | (refine keeps_mk ?_ rfl ?_; rotate_left; (intro hk; cases hk; constructor <;> first | assumption | exact tabPut_sorted (by assumption) | exact filter_sorted (by assumption) | exact tabSorted_nil | exact foldl_tabPut_sorted (by assumption)))

theorem execSupplyCauseArmed_keeps {s0 : State} {cause : Fin 4} {s : State} (hs : Keeps s0 s) : KeepsOut s0 (execSupplyCauseArmed cause s) := by
  unfold execSupplyCauseArmed
  with_reducible repeat' first | assumption | intro _ | apply State.put_keeps | apply Keeps.out | (extract_lets +onlyGivenNames x; first | (refine keeps_cut (s := s0) (t := x) ?_ (fun hx => ?_); unfold x; clear x; rotate_left; clear_value x; rotate_right) | clear_value x) | split | (refine keeps_mk ?_ rfl ?_; rotate_left; (intro hk; cases hk; constructor <;> first | assumption | exact tabPut_sorted (by assumption) | exact filter_sorted (by assumption) | exact tabSorted_nil | exact foldl_tabPut_sorted (by assumption)))

theorem State.supplyBad_keeps {s0 : State} {s : State} {c : Nat} {r : Nat} (hs : Keeps s0 s) : Keeps s0 (State.supplyBad s c r) := by
  unfold State.supplyBad
  with_reducible repeat' first | assumption | apply State.put_keeps | split

theorem State.noteAllInhibit_keeps {s0 : State} {s : State} {cause : Nat} (hs : Keeps s0 s) : Keeps s0 (State.noteAllInhibit s cause) := by
  unfold State.noteAllInhibit
  with_reducible repeat' first | assumption | intro _ | apply State.noteInhibit_keeps | apply each_keeps

theorem execWriteWindowClose_keeps {s0 : State} {s : State} (hs : Keeps s0 s) : KeepsOut s0 (execWriteWindowClose s) := by
  unfold execWriteWindowClose
  with_reducible repeat' first | assumption | intro _ | apply State.setWr_keeps | apply State.noteAllInhibit_keeps | apply State.askRetract_keeps | apply State.dropGates_keeps | apply each_keeps | apply Keeps.out | (extract_lets +onlyGivenNames x; first | (refine keeps_cut (s := s0) (t := x) ?_ (fun hx => ?_); unfold x; clear x; rotate_left; clear_value x; rotate_right) | clear_value x) | split | (refine keeps_mk ?_ rfl ?_; rotate_left; (intro hk; cases hk; constructor <;> first | assumption | exact tabPut_sorted (by assumption) | exact filter_sorted (by assumption) | exact tabSorted_nil | exact foldl_tabPut_sorted (by assumption)))

theorem State.supplyLoss_keeps {s0 : State} {s : State} {c : Nat} {r : Nat} (hs : Keeps s0 s) : Keeps s0 (State.supplyLoss s c r) := by
  unfold State.supplyLoss
  with_reducible repeat' first | assumption | intro _ | apply State.put_keeps | apply State.setReg_keeps | apply State.supplyGates_keeps | apply State.noteAllInhibit_keeps | apply State.irq_keeps | apply State.askEmergency_keeps | (extract_lets +onlyGivenNames x; first | (refine keeps_cut (s := s0) (t := x) ?_ (fun hx => ?_); unfold x; clear x; rotate_left; clear_value x; rotate_right) | clear_value x) | split | (refine keeps_mk ?_ rfl ?_; rotate_left; (intro hk; cases hk; constructor <;> first | assumption | exact tabPut_sorted (by assumption) | exact filter_sorted (by assumption) | exact tabSorted_nil | exact foldl_tabPut_sorted (by assumption)))

theorem execSupplyLossDecision_keeps {s0 : State} {cause : Fin 5} {mv : BitVec 16} {rail : Fin 6} {s : State} (hs : Keeps s0 s) : KeepsOut s0 (execSupplyLossDecision cause mv rail s) := by
  unfold execSupplyLossDecision
  with_reducible repeat' first | assumption | intro _ | apply State.supplyMeas_keeps | apply State.supplyBad_keeps | apply State.supplyLoss_keeps | apply State.raise_keeps | apply Keeps.out | (extract_lets +onlyGivenNames x; first | (refine keeps_cut (s := s0) (t := x) ?_ (fun hx => ?_); unfold x; clear x; rotate_left; clear_value x; rotate_right) | clear_value x) | split

theorem State.msixMessage_keeps {s0 : State} {s : State} {p : Nat} {v : Nat} (hs : Keeps s0 s) : Keeps s0 (State.msixMessage s p v) := by
  unfold State.msixMessage
  with_reducible repeat' first | assumption | apply State.takeTlp_keeps | (extract_lets +onlyGivenNames x; clear_value x)

theorem State.notePort_keeps {s0 : State} {sA : State} {p : Nat} (hsA : Keeps s0 sA) : Keeps s0 (State.notePort sA p) := by
  unfold State.notePort
  with_reducible repeat' first | assumption | intro _ | apply State.irq_keeps | apply State.putB_keeps | apply State.put_keeps | (extract_lets +onlyGivenNames x; first | (refine keeps_cut (s := s0) (t := x) ?_ (fun hx => ?_); unfold x; clear x; rotate_left; clear_value x; rotate_right) | clear_value x) | split

theorem execPbaSend_keeps {s0 : State} {p : Fin 2} {v : BitVec 8} {s : State} (hs : Keeps s0 s) : KeepsOut s0 (execPbaSend p v s) := by
  unfold execPbaSend
  with_reducible repeat' first | assumption | intro _ | apply State.msixMessage_keeps | apply State.notePort_keeps | apply State.setPort_keeps | apply Keeps.out | (extract_lets +onlyGivenNames x; clear_value x) | split

theorem State.setCfgDw_keeps {s0 : State} {s : State} {p : Nat} {i : Nat} {v : Word} {d : Word} (hs : Keeps s0 s) : Keeps s0 (State.setCfgDw s p i v d) := by
  unfold State.setCfgDw
  with_reducible repeat' first | assumption | apply State.setPort_keeps | (extract_lets +onlyGivenNames x; clear_value x)

theorem State.txqDiscard_keeps {s0 : State} {s : State} {p : Nat} (hs : Keeps s0 s) : Keeps s0 (State.txqDiscard s p) := by
  unfold State.txqDiscard
  with_reducible repeat' first | assumption | intro _ | apply State.noteTxq_keeps | apply State.setPort_keeps | apply State.setDma_keeps | apply each_keeps | (extract_lets +onlyGivenNames x; first | (refine keeps_cut (s := s0) (t := x) ?_ (fun hx => ?_); unfold x; clear x; rotate_left; clear_value x; rotate_right) | clear_value x) | split

theorem State.dropDoorbells_keeps {s0 : State} {s : State} {p : Nat} (hs : Keeps s0 s) : Keeps s0 (State.dropDoorbells s p) := by
  unfold State.dropDoorbells
  refine each_keeps (keeps_mk hs rfl ?_) (fun t c h => State.put_keeps h)
  intro hk; cases hk; constructor <;> first | assumption | exact filter_sorted (by assumption) | skip
  exact filter_sorted (map_sorted (fun _ => rfl) (by assumption))

theorem State.flrReset_keeps {s0 : State} {s : State} {p : Nat} (hs : Keeps s0 s) : Keeps s0 (State.flrReset s p) := by
  unfold State.flrReset
  with_reducible repeat' first | assumption | intro _ | apply State.resetChan_keeps | apply State.setShadowReg_keeps | apply State.setReg_keeps | apply State.disarm_keeps | apply State.notePort_keeps | apply State.dropDoorbells_keeps | apply State.setPort_keeps | apply each_keeps | apply foldl_keeps | apply foldl_keeps_fst | apply foldl_keeps_snd | (extract_lets +onlyGivenNames x; first | (refine keeps_cut (s := s0) (t := x) ?_ (fun hx => ?_); unfold x; clear x; rotate_left; clear_value x; rotate_right) | clear_value x)

theorem State.flrOver_keeps {s0 : State} {s : State} {p : Nat} (hs : Keeps s0 s) : Keeps s0 (State.flrOver s p) := by
  unfold State.flrOver
  with_reducible repeat' first | assumption | intro _ | apply State.setPort_keeps | apply State.put_keeps | (extract_lets +onlyGivenNames x; clear_value x)

theorem State.portReset_keeps {s0 : State} {s : State} {p : Nat} (hs : Keeps s0 s) : Keeps s0 (State.portReset s p) := by
  unfold State.portReset
  with_reducible repeat' first | assumption | intro _ | apply State.txqDiscard_keeps | apply State.flrReset_keeps | apply State.put_keeps | apply State.setDma_keeps | apply State.irq_keeps | apply State.flrOver_keeps | apply State.setPort_keeps | apply each_keeps | (extract_lets +onlyGivenNames x; first | (refine keeps_cut (s := s0) (t := x) ?_ (fun hx => ?_); unfold x; clear x; rotate_left; clear_value x; rotate_right) | clear_value x) | split

theorem execPerstAssert_keeps {s0 : State} {p : Fin 2} {s : State} (hs : Keeps s0 s) : KeepsOut s0 (execPerstAssert p s) := by
  unfold execPerstAssert
  with_reducible repeat' first | assumption | apply State.put_keeps | apply State.portReset_keeps | apply Keeps.out | (extract_lets +onlyGivenNames x; clear_value x) | split

theorem State.complete_keeps {s0 : State} {s : State} {p : Nat} {status : Nat} {data : List Byte} (hs : Keeps s0 s) : Keeps s0 (State.complete s p status data) := by
  unfold State.complete
  with_reducible repeat' first | assumption | intro _ | apply State.setPort_keeps | (extract_lets +onlyGivenNames x; first | (refine keeps_cut (s := s0) (t := x) ?_ (fun hx => ?_); unfold x; clear x; rotate_left; clear_value x; rotate_right) | clear_value x) | (refine keeps_mk ?_ rfl ?_; rotate_left; (intro hk; cases hk; constructor <;> first | assumption | exact tabPut_sorted (by assumption) | exact filter_sorted (by assumption) | exact tabSorted_nil | exact foldl_tabPut_sorted (by assumption)))

theorem State.cfgPut_keeps {s0 : State} {s : State} {p : Nat} {i : Nat} {v : Nat} (hs : Keeps s0 s) : Keeps s0 (State.cfgPut s p i v) := by
  unfold State.cfgPut
  with_reducible repeat' first | assumption | apply State.setCfgDw_keeps

theorem State.bmeOff_keeps {s0 : State} {s : State} {p : Nat} (hs : Keeps s0 s) : Keeps s0 (State.bmeOff s p) := by
  unfold State.bmeOff
  with_reducible repeat' first | assumption | intro _ | apply State.setDma_keeps | apply each_keeps | (extract_lets +onlyGivenNames x; clear_value x) | split

theorem State.cfgEffects_keeps {s0 : State} {s : State} {p : Nat} {bme : Bool} {d3 : Bool} (hs : Keeps s0 s) : Keeps s0 (State.cfgEffects s p bme d3) := by
  unfold State.cfgEffects
  with_reducible repeat' first | assumption | apply State.notePort_keeps | apply State.bmeOff_keeps | (extract_lets +onlyGivenNames x; first | (refine keeps_cut (s := s0) (t := x) ?_ (fun hx => ?_); unfold x; clear x; rotate_left; clear_value x; rotate_right) | clear_value x) | split

theorem State.flrBegin_keeps {s0 : State} {s : State} {p : Nat} (hs : Keeps s0 s) : Keeps s0 (State.flrBegin s p) := by
  unfold State.flrBegin
  with_reducible repeat' first | assumption | intro _ | apply State.irq_keeps | apply State.put_keeps | apply State.flrReset_keeps | apply State.inc_keeps | apply State.setPort_keeps | (extract_lets +onlyGivenNames x; first | (refine keeps_cut (s := s0) (t := x) ?_ (fun hx => ?_); unfold x; clear x; rotate_left; clear_value x; rotate_right) | clear_value x) | split

theorem State.cfgWrite_keeps {s0 : State} {s : State} {p : Nat} {i : Nat} {be : Nat} {v : Nat} (hs : Keeps s0 s) : Keeps s0 (State.cfgWrite s p i be v) := by
  unfold State.cfgWrite
  with_reducible repeat' first | assumption | intro _ | apply State.setPort_keeps | apply State.cfgPut_keeps | apply State.put_keeps | apply State.cfgEffects_keeps | apply State.flrBegin_keeps | (extract_lets +onlyGivenNames x; first | (refine keeps_cut (s := s0) (t := x) ?_ (fun hx => ?_); unfold x; clear x; rotate_left; clear_value x; rotate_right) | clear_value x) | split

theorem execConfigRequest_keeps {s0 : State} {p : Fin 2} {write : Bool} {i : BitVec 10} {be : BitVec 4} {v : Word} {s : State} (hs : Keeps s0 s) : KeepsOut s0 (execConfigRequest p write i be v s) := by
  unfold execConfigRequest
  with_reducible repeat' first | assumption | intro _ | apply State.complete_keeps | apply State.cfgWrite_keeps | apply Keeps.out | (extract_lets +onlyGivenNames x; clear_value x) | split

theorem State.setDbq_keeps {s0 : State} {s : State} {c : Nat} {q : List DbEvent} (hs : Keeps s0 s) : Keeps s0 (State.setDbq s c q) := by
  unfold State.setDbq
  with_reducible repeat' first | assumption | intro _ | apply State.put_keeps | (refine keeps_mk ?_ rfl ?_; rotate_left; (intro hk; cases hk; constructor <;> first | assumption | exact tabPut_sorted (by assumption) | exact filter_sorted (by assumption) | exact tabSorted_nil | exact foldl_tabPut_sorted (by assumption)))

theorem State.aerLog_keeps {s0 : State} {s : State} {p : Nat} {b : Nat} (hs : Keeps s0 s) : Keeps s0 (State.aerLog s p b) := by
  unfold State.aerLog
  with_reducible repeat' first | assumption | intro _ | apply State.cfgPut_keeps | apply State.drew_keeps | apply each_keeps | (extract_lets +onlyGivenNames x; first | (refine keeps_cut (s := s0) (t := x) ?_ (fun hx => ?_); unfold x; clear x; rotate_left; clear_value x; rotate_right) | clear_value x) | split

theorem State.unsupported_keeps {s0 : State} {s : State} {p : Nat} {write : Bool} (hs : Keeps s0 s) : Keeps s0 (State.unsupported s p write) := by
  unfold State.unsupported
  with_reducible repeat' first | assumption | apply State.inc_keeps | apply State.aerLog_keeps | apply State.complete_keeps | (extract_lets +onlyGivenNames x; first | (refine keeps_cut (s := s0) (t := x) ?_ (fun hx => ?_); unfold x; clear x; rotate_left; clear_value x; rotate_right) | clear_value x) | split

theorem State.dbErr_keeps {s0 : State} {s : State} {p : Nat} {d : Nat} {v : Nat} {cause : Nat} (hs : Keeps s0 s) : Keeps s0 (State.dbErr s p d v cause) := by
  unfold State.dbErr
  with_reducible repeat' first | assumption | apply State.inc_keeps | apply State.setReg_keeps

theorem State.setDb_keeps {s0 : State} {s : State} {k : Nat} {v : Doorbell} (hs : Keeps s0 s) : Keeps s0 (State.setDb s k v) := by
  unfold State.setDb
  with_reducible repeat' first | assumption | intro _ | (refine keeps_mk ?_ rfl ?_; rotate_left; (intro hk; cases hk; constructor <;> first | assumption | exact tabPut_sorted (by assumption) | exact filter_sorted (by assumption) | exact tabSorted_nil | exact foldl_tabPut_sorted (by assumption)))

theorem State.ringDoorbell_keeps {s0 : State} {s : State} {p : Nat} {o : Nat} {len : Nat} {full : Bool} {w : Nat} (hs : Keeps s0 s) : Keeps s0 (State.ringDoorbell s p o len full w) := by
  unfold State.ringDoorbell
  with_reducible repeat' first | assumption | intro _ | apply State.unsupported_keeps | apply State.dbErr_keeps | apply State.irq_keeps | apply State.setDbq_keeps | apply State.inc_keeps | apply State.setDb_keeps | (extract_lets +onlyGivenNames x; first | (refine keeps_cut (s := s0) (t := x) ?_ (fun hx => ?_); unfold x; clear x; rotate_left; clear_value x; rotate_right) | clear_value x) | split

theorem execDoorbellWrite_keeps {s0 : State} {p : Fin 2} {off : BitVec 12} {len : BitVec 4} {full : Bool} {v : Word} {s : State} (hs : Keeps s0 s) : KeepsOut s0 (execDoorbellWrite p off len full v s) := by
  unfold execDoorbellWrite
  with_reducible repeat' first | assumption | apply State.unsupported_keeps | apply State.ringDoorbell_keeps | apply Keeps.out | (extract_lets +onlyGivenNames x; clear_value x) | split

theorem execRemoved_keeps {s0 : State} {p : Fin 2} {s : State} (hs : Keeps s0 s) : KeepsOut s0 (execRemoved p s) := by
  unfold execRemoved
  with_reducible repeat' first | assumption | intro _ | apply State.raise_keeps | apply State.supplyLoss_keeps | apply State.put_keeps | apply Keeps.out | (extract_lets +onlyGivenNames x; clear_value x) | split

theorem execBmeClear_keeps {s0 : State} {p : Fin 2} {s : State} (hs : Keeps s0 s) : KeepsOut s0 (execBmeClear p s) := by
  unfold execBmeClear
  with_reducible repeat' first | assumption | apply State.cfgWrite_keeps | apply Keeps.out | (extract_lets +onlyGivenNames x; clear_value x) | split

theorem State.intxSend_keeps {s0 : State} {s : State} {p : Nat} (hs : Keeps s0 s) : Keeps s0 (State.intxSend s p) := by
  unfold State.intxSend
  with_reducible repeat' first | assumption | apply State.putB_keeps | apply State.takeTlp_keeps | apply State.setPort_keeps | (extract_lets +onlyGivenNames x; clear_value x) | split

theorem execIntxChange_keeps {s0 : State} {p : Fin 2} {s : State} (hs : Keeps s0 s) : KeepsOut s0 (execIntxChange p s) := by
  unfold execIntxChange
  with_reducible repeat' first | assumption | apply State.intxSend_keeps | apply Keeps.out

theorem State.readsEnd_keeps {s0 : State} {s : State} {p : Nat} {det : Nat} (hs : Keeps s0 s) : Keeps s0 (State.readsEnd s p det) := by
  unfold State.readsEnd
  with_reducible repeat' first | assumption | intro _ | apply State.noteCh_keeps | apply State.setDma_keeps | apply each_keeps | (extract_lets +onlyGivenNames x; clear_value x) | split

theorem State.linkEnd_keeps {s0 : State} {s : State} {p : Nat} {st : Nat} (hs : Keeps s0 s) : Keeps s0 (State.linkEnd s p st) := by
  unfold State.linkEnd
  with_reducible repeat' first | assumption | apply State.dmaRunPort_keeps | apply State.put_keeps | apply State.readsEnd_keeps | apply State.txqDiscard_keeps

theorem State.settlePort_keeps {s0 : State} {s : State} {p : Nat} (hs : Keeps s0 s) : Keeps s0 (State.settlePort s p) := by
  unfold State.settlePort
  with_reducible repeat' first | assumption | intro _ | apply State.setPort_keeps | apply State.put_keeps | apply State.linkEnd_keeps | (extract_lets +onlyGivenNames x; first | (refine keeps_cut (s := s0) (t := x) ?_ (fun hx => ?_); unfold x; clear x; rotate_left; clear_value x; rotate_right) | clear_value x) | split

theorem execHotReset_keeps {s0 : State} {p : Fin 2} {s : State} (hs : Keeps s0 s) : KeepsOut s0 (execHotReset p s) := by
  unfold execHotReset
  with_reducible repeat' first | assumption | apply State.settlePort_keeps | apply State.portReset_keeps | apply Keeps.out | split

theorem execPoisonedTlp_keeps {s0 : State} {p : Fin 2} {cpl : Option (Fin 32 × BitVec 8)} {s : State} (hs : Keeps s0 s) : KeepsOut s0 (execPoisonedTlp p cpl s) := by
  unfold execPoisonedTlp
  with_reducible repeat' first | assumption | intro _ | apply State.inc_keeps | apply State.aerLog_keeps | apply State.noteCh_keeps | apply State.hostData_keeps | apply Keeps.out | (extract_lets +onlyGivenNames x; first | (refine keeps_cut (s := s0) (t := x) ?_ (fun hx => ?_); unfold x; clear x; rotate_left; clear_value x; rotate_right) | clear_value x) | split

theorem execDoeObject_keeps {s0 : State} {p : Fin 2} {ws : List Word} {s : State} (hs : Keeps s0 s) : KeepsOut s0 (execDoeObject p ws s) := by
  unfold execDoeObject
  with_reducible repeat' first | assumption | intro _ | apply State.setPort_keeps | apply State.bufWrite_keeps | apply State.irq_keeps | apply State.put_keeps | dsimp -zeta only | refine keeps_of_fst ?_ (by assumption) | refine keeps_of_snd ?_ (by assumption) | apply Keeps.out | (extract_lets +onlyGivenNames x; first | (refine keeps_cut (s := s0) (t := x) ?_ (fun hx => ?_); unfold x; clear x; rotate_left; clear_value x; rotate_right) | clear_value x) | split

theorem State.winMiss_keeps {s0 : State} {s : State} {p : Nat} {write : Bool} {o : Nat} (hs : Keeps s0 s) : Keeps s0 (State.winMiss s p write o) := by
  unfold State.winMiss
  with_reducible repeat' first | assumption | apply State.unsupported_keeps | apply State.setReg_keeps | (extract_lets +onlyGivenNames x; clear_value x) | split

theorem execMsixSend_keeps {s0 : State} {m : Master} {p : Fin 2} {v : BitVec 8} {s : State} (hs : Keeps s0 s) : KeepsOut s0 (execMsixSend m p v s) := by
  unfold execMsixSend
  with_reducible repeat' first | assumption | intro _ | apply State.regCmd_keeps | apply State.irq_keeps | apply State.notePort_keeps | apply State.setPort_keeps | apply State.msixMessage_keeps | apply Keeps.out | (extract_lets +onlyGivenNames x; clear_value x) | split

theorem State.winTable_keeps {s0 : State} {s : State} {p : Nat} (hs : Keeps s0 s) : Keeps s0 (State.winTable s p) := by
  unfold State.winTable
  with_reducible repeat' first | assumption | apply State.beforeCopy_keeps

theorem execFlrAck_keeps {s0 : State} {m : Master} {p : Fin 2} {s : State} (hs : Keeps s0 s) : KeepsOut s0 (execFlrAck m p s) := by
  unfold execFlrAck
  with_reducible repeat' first | assumption | intro _ | apply State.regCmd_keeps | apply State.flrOver_keeps | apply Keeps.out | split

theorem execDState_keeps {s0 : State} {p : Fin 2} {d3 : Bool} {s : State} (hs : Keeps s0 s) : KeepsOut s0 (execDState p d3 s) := by
  unfold execDState
  with_reducible repeat' first | assumption | apply State.cfgWrite_keeps | apply Keeps.out | (extract_lets +onlyGivenNames x; clear_value x) | split

theorem execDoorbellClaim_keeps {s0 : State} {m : Master} {c : Fin 8} {s : State} (hs : Keeps s0 s) : KeepsOut s0 (execDoorbellClaim m c s) := by
  unfold execDoorbellClaim
  with_reducible repeat' first | assumption | intro _ | apply State.regRead_keeps | apply State.answer_keeps | apply State.setDbq_keeps | apply State.setDb_keeps | apply Keeps.out | (extract_lets +onlyGivenNames x; first | (refine keeps_cut (s := s0) (t := x) ?_ (fun hx => ?_); unfold x; clear x; rotate_left; clear_value x; rotate_right) | clear_value x) | split

theorem execRxDone_keeps {s0 : State} {m : Master} {p : Fin 2} {s : State} (hs : Keeps s0 s) : KeepsOut s0 (execRxDone m p s) := by
  unfold execRxDone
  with_reducible repeat' first | assumption | intro _ | apply State.regCmd_keeps | apply State.put_keeps | apply Keeps.out

theorem State.completerAbort_keeps {s0 : State} {s : State} {p : Nat} {write : Bool} (hs : Keeps s0 s) : Keeps s0 (State.completerAbort s p write) := by
  unfold State.completerAbort
  with_reducible repeat' first | assumption | apply State.inc_keeps | apply State.aerLog_keeps | apply State.complete_keeps | (extract_lets +onlyGivenNames x; first | (refine keeps_cut (s := s0) (t := x) ?_ (fun hx => ?_); unfold x; clear x; rotate_left; clear_value x; rotate_right) | clear_value x) | split

theorem execLinkUp_keeps {s0 : State} {p : Fin 2} {speed : BitVec 3} {width : BitVec 3} {s : State} (hs : Keeps s0 s) : KeepsOut s0 (execLinkUp p speed width s) := by
  unfold execLinkUp
  with_reducible repeat' first | assumption | intro _ | apply State.put_keeps | apply State.intxSend_keeps | apply State.irq_keeps | apply State.setPort_keeps | apply Keeps.out | (extract_lets +onlyGivenNames x; first | (refine keeps_cut (s := s0) (t := x) ?_ (fun hx => ?_); unfold x; clear x; rotate_left; clear_value x; rotate_right) | clear_value x) | split

theorem execLinkDown_keeps {s0 : State} {p : Fin 2} {disabled : Bool} {s : State} (hs : Keeps s0 s) : KeepsOut s0 (execLinkDown p disabled s) := by
  unfold execLinkDown
  with_reducible repeat' first | assumption | intro _ | apply State.raise_keeps | apply State.irq_keeps | apply State.inc_keeps | apply State.linkEnd_keeps | apply State.setPort_keeps | apply Keeps.out | (extract_lets +onlyGivenNames x; first | (refine keeps_cut (s := s0) (t := x) ?_ (fun hx => ?_); unfold x; clear x; rotate_left; clear_value x; rotate_right) | clear_value x) | split

theorem execTrainFail_keeps {s0 : State} {p : Fin 2} {s : State} (hs : Keeps s0 s) : KeepsOut s0 (execTrainFail p s) := by
  unfold execTrainFail
  with_reducible repeat' first | assumption | intro _ | apply State.raise_keeps | apply State.setPort_keeps | apply Keeps.out | (extract_lets +onlyGivenNames x; clear_value x) | split

theorem execCfgReady_keeps {s0 : State} {m : Master} {p : Fin 2} {on_ : Bool} {s : State} (hs : Keeps s0 s) : KeepsOut s0 (execCfgReady m p on_ s) := by
  unfold execCfgReady
  with_reducible repeat' first | assumption | intro _ | apply State.regCmd_keeps | apply State.putB_keeps | apply Keeps.out

theorem execUnsupportedRequest_keeps {s0 : State} {p : Fin 2} {posted : Bool} {s : State} (hs : Keeps s0 s) : KeepsOut s0 (execUnsupportedRequest p posted s) := by
  unfold execUnsupportedRequest
  with_reducible repeat' first | assumption | apply State.unsupported_keeps | apply Keeps.out | split

theorem execFlrTmo_keeps {s0 : State} {p : Fin 2} {s : State} (hs : Keeps s0 s) : KeepsOut s0 (execFlrTmo p s) := by
  unfold execFlrTmo
  with_reducible repeat' first | assumption | intro _ | apply State.raise_keeps | apply State.flrOver_keeps | apply Keeps.out | (extract_lets +onlyGivenNames x; clear_value x) | split

theorem execL0pNarrow_keeps {s0 : State} {p : Fin 2} {s : State} (hs : Keeps s0 s) : KeepsOut s0 (execL0pNarrow p s) := by
  unfold execL0pNarrow
  with_reducible repeat' first | assumption | intro _ | apply State.put_keeps | apply Keeps.out | (extract_lets +onlyGivenNames x; clear_value x) | split

theorem execDoeAbort_keeps {s0 : State} {p : Fin 2} {s : State} (hs : Keeps s0 s) : KeepsOut s0 (execDoeAbort p s) := by
  unfold execDoeAbort
  with_reducible repeat' first | assumption | apply State.setPort_keeps | apply State.irq_keeps | apply State.put_keeps | apply Keeps.out | (extract_lets +onlyGivenNames x; first | (refine keeps_cut (s := s0) (t := x) ?_ (fun hx => ?_); unfold x; clear x; rotate_left; clear_value x; rotate_right) | clear_value x) | split

theorem execMalformedTlp_keeps {s0 : State} {p : Fin 2} {s : State} (hs : Keeps s0 s) : KeepsOut s0 (execMalformedTlp p s) := by
  unfold execMalformedTlp
  with_reducible repeat' first | assumption | apply State.inc_keeps | apply State.aerLog_keeps | apply Keeps.out | split

theorem execFlr_keeps {s0 : State} {p : Fin 2} {s : State} (hs : Keeps s0 s) : KeepsOut s0 (execFlr p s) := by
  unfold execFlr
  with_reducible repeat' first | assumption | apply State.flrBegin_keeps | apply Keeps.out | split

theorem execCplTimeout_keeps {s0 : State} {c : Fin 32} {i : BitVec 8} {s : State} (hs : Keeps s0 s) : KeepsOut s0 (execCplTimeout c i s) := by
  unfold execCplTimeout
  with_reducible repeat' first | assumption | apply State.noteCh_keeps | apply State.inc_keeps | apply State.aerLog_keeps | apply State.hostData_keeps | apply Keeps.out | (extract_lets +onlyGivenNames x; clear_value x) | split

theorem execPerstDeassert_keeps {s0 : State} {p : Fin 2} {s : State} (hs : Keeps s0 s) : KeepsOut s0 (execPerstDeassert p s) := by
  unfold execPerstDeassert
  with_reducible repeat' first | assumption | apply State.settlePort_keeps | apply State.setPort_keeps | apply State.put_keeps | apply Keeps.out | (extract_lets +onlyGivenNames x; clear_value x) | split

theorem execUnexpectedCompletion_keeps {s0 : State} {p : Fin 2} {s : State} (hs : Keeps s0 s) : KeepsOut s0 (execUnexpectedCompletion p s) := by
  unfold execUnexpectedCompletion
  with_reducible repeat' first | assumption | apply State.inc_keeps | apply State.aerLog_keeps | apply Keeps.out | split

theorem execInboundWrite_keeps {s0 : State} {p : Fin 2} {off : BitVec 36} {data : List Byte} {sA : State} (hsA : Keeps s0 sA) : KeepsOut s0 (execInboundWrite p off data sA) := by
  unfold execInboundWrite
  with_reducible repeat' first | assumption | intro _ | apply State.settle_keeps | apply State.unsupported_keeps | apply State.winTable_keeps | apply State.winMiss_keeps | apply State.bufWrite_keeps | apply State.completerAbort_keeps | dsimp -zeta only | refine keeps_of_fst ?_ (by assumption) | refine keeps_of_snd ?_ (by assumption) | apply Keeps.out | (extract_lets +onlyGivenNames x; first | (refine keeps_cut (s := s0) (t := x) ?_ (fun hx => ?_); unfold x; clear x; rotate_left; clear_value x; rotate_right) | (refine keeps_cut_fst (s := s0) (x := x) ?_ (fun hx => ?_); unfold x; clear x; rotate_left; clear_value x; rotate_right) | (refine keeps_cut_snd (s := s0) (x := x) ?_ (fun hx => ?_); unfold x; clear x; rotate_left; clear_value x; rotate_right) | clear_value x) | split

theorem execDoeTx_keeps {s0 : State} {m : Master} {p : Fin 2} {len : BitVec 11} {s : State} (hs : Keeps s0 s) : KeepsOut s0 (execDoeTx m p len s) := by
  unfold execDoeTx
  with_reducible repeat' first | assumption | intro _ | apply State.regCmd_keeps | apply State.bufRead_keeps | apply State.put_keeps | apply State.setPort_keeps | dsimp -zeta only | refine keeps_of_fst ?_ (by assumption) | refine keeps_of_snd ?_ (by assumption) | apply Keeps.out | (extract_lets +onlyGivenNames x; clear_value x) | split

theorem execInboundRead_keeps {s0 : State} {p : Fin 2} {off : BitVec 36} {len : BitVec 13} {sA : State} (hsA : Keeps s0 sA) : KeepsOut s0 (execInboundRead p off len sA) := by
  unfold execInboundRead
  with_reducible repeat' first | assumption | intro _ | apply State.settle_keeps | apply State.unsupported_keeps | apply State.winTable_keeps | apply State.winMiss_keeps | apply State.bufRead_keeps | apply State.complete_keeps | apply State.completerAbort_keeps | dsimp -zeta only | refine keeps_of_fst ?_ (by assumption) | refine keeps_of_snd ?_ (by assumption) | apply Keeps.out | (extract_lets +onlyGivenNames x; first | (refine keeps_cut (s := s0) (t := x) ?_ (fun hx => ?_); unfold x; clear x; rotate_left; clear_value x; rotate_right) | clear_value x) | split

theorem State.setBar4Byte_keeps {s0 : State} {s : State} {p : Nat} {o : Nat} {b : Byte} (hs : Keeps s0 s) : Keeps s0 (State.setBar4Byte s p o b) := by
  unfold State.setBar4Byte
  with_reducible repeat' first | assumption | apply State.setPort_keeps | (extract_lets +onlyGivenNames x; clear_value x) | split

theorem execMsixTableAccess_keeps {s0 : State} {p : Fin 2} {write : Bool} {off : BitVec 13} {len : BitVec 4} {data : List Byte} {s : State} (hs : Keeps s0 s) : KeepsOut s0 (execMsixTableAccess p write off len data s) := by
  unfold execMsixTableAccess
  with_reducible repeat' first | assumption | intro _ | apply State.unsupported_keeps | apply State.setBar4Byte_keeps | apply State.complete_keeps | apply foldl_keeps | apply foldl_keeps_fst | apply foldl_keeps_snd | apply Keeps.out | (extract_lets +onlyGivenNames x; clear_value x) | split

theorem execBar0Slot_keeps {s0 : State} {m : Master} {p : Fin 2} {n : Fin 64} {v : Word} {s : State} (hs : Keeps s0 s) : KeepsOut s0 (execBar0Slot m p n v s) := by
  unfold execBar0Slot
  with_reducible repeat' first | assumption | intro _ | apply State.regCmd_keeps | apply State.raise_keeps | apply State.setReg_keeps | apply Keeps.out | (extract_lets +onlyGivenNames x; clear_value x) | split

theorem execPmeReq_keeps {s0 : State} {m : Master} {p : Fin 2} {s : State} (hs : Keeps s0 s) : KeepsOut s0 (execPmeReq m p s) := by
  unfold execPmeReq
  with_reducible repeat' first | assumption | intro _ | apply State.regCmd_keeps | apply State.takeTlp_keeps | apply State.setPort_keeps | apply Keeps.out | (extract_lets +onlyGivenNames x; clear_value x) | split

theorem execDbVal_keeps {s0 : State} {m : Master} {v : BitVec 16} {s : State} (hs : Keeps s0 s) : KeepsOut s0 (execDbVal m v s) := by
  unfold execDbVal
  with_reducible repeat' first | assumption | intro _ | apply State.regCmd_keeps | apply State.setDb_keeps | apply Keeps.out | (extract_lets +onlyGivenNames x; clear_value x)

end Sys2Proof.Machine
end

