-- ==== Sys2Proof/Laws/KeepsSerialFlash.lean ====
section
/-! SUPPORT. The operations of SerialFlash, Security, Smbus keep what `Keeps` says. -/

namespace Sys2Proof.Machine

theorem State.nvsView_keeps {s0 : State} {s : State} (hs : Keeps s0 s) : Keeps s0 (State.nvsView s) := by
  unfold State.nvsView
  with_reducible repeat' first | assumption | intro _ | apply State.putB_keeps | apply State.put_keeps | (extract_lets +onlyGivenNames x; first | (refine keeps_cut (s := s0) (t := x) ?_ (fun hx => ?_); unfold x; clear x; rotate_left; clear_value x; rotate_right) | clear_value x) | split

theorem State.norAuto_keeps {s0 : State} {s : State} (hs : Keeps s0 s) : Keeps s0 (State.norAuto s) := by
  unfold State.norAuto
  with_reducible repeat' first | assumption | intro _ | (extract_lets +onlyGivenNames x; clear_value x) | split | (refine keeps_mk ?_ rfl ?_; rotate_left; (intro hk; cases hk; constructor <;> first | assumption | exact tabPut_sorted (by assumption) | exact filter_sorted (by assumption) | exact tabSorted_nil | exact foldl_tabPut_sorted (by assumption)))

theorem State.showNvs_keeps {s0 : State} {s : State} (hs : Keeps s0 s) : Keeps s0 (State.showNvs s) := by
  unfold State.showNvs
  with_reducible repeat' first | assumption | apply State.nvsView_keeps | apply State.norAuto_keeps

theorem State.norSuspendNow_keeps {s0 : State} {s : State} (hs : Keeps s0 s) : Keeps s0 (State.norSuspendNow s) := by
  unfold State.norSuspendNow
  with_reducible repeat' first | assumption | intro _ | (extract_lets +onlyGivenNames x; clear_value x) | split | (refine keeps_mk ?_ rfl ?_; rotate_left; (intro hk; cases hk; constructor <;> first | assumption | exact tabPut_sorted (by assumption) | exact filter_sorted (by assumption) | exact tabSorted_nil | exact foldl_tabPut_sorted (by assumption)))

theorem State.norTrySuspend_keeps {s0 : State} {s : State} (hs : Keeps s0 s) : Keeps s0 (State.norTrySuspend s) := by
  unfold State.norTrySuspend
  with_reducible repeat' first | assumption | apply State.norSuspendNow_keeps | apply State.norAuto_keeps

theorem State.norResume_keeps {s0 : State} {s : State} (hs : Keeps s0 s) : Keeps s0 (State.norResume s) := by
  unfold State.norResume
  with_reducible repeat' first | assumption | intro _ | (extract_lets +onlyGivenNames x; clear_value x) | split | (refine keeps_mk ?_ rfl ?_; rotate_left; (intro hk; cases hk; constructor <;> first | assumption | exact tabPut_sorted (by assumption) | exact filter_sorted (by assumption) | exact tabSorted_nil | exact foldl_tabPut_sorted (by assumption)))

theorem State.norTryResume_keeps {s0 : State} {s : State} (hs : Keeps s0 s) : Keeps s0 (State.norTryResume s) := by
  unfold State.norTryResume
  with_reducible repeat' first | assumption | intro _ | apply State.norResume_keeps | split

theorem State.setNorOp_keeps {s0 : State} {s : State} {o : Option NorOp} (hs : Keeps s0 s) : Keeps s0 (State.setNorOp s o) := by
  unfold State.setNorOp
  with_reducible repeat' first | assumption | intro _ | (extract_lets +onlyGivenNames x; clear_value x) | (refine keeps_mk ?_ rfl ?_; rotate_left; (intro hk; cases hk; constructor <;> first | assumption | exact tabPut_sorted (by assumption) | exact filter_sorted (by assumption) | exact tabSorted_nil | exact foldl_tabPut_sorted (by assumption)))

theorem State.norEnd_keeps {s0 : State} {s : State} {o : NorOp} {st : Nat} (hs : Keeps s0 s) : Keeps s0 (State.norEnd s o st) := by
  unfold State.norEnd
  with_reducible repeat' first | assumption | intro _ | apply State.setNorOp_keeps

theorem State.norIssue_keeps {s0 : State} {s : State} {o : NorOp} (hs : Keeps s0 s) : Keeps s0 (State.norIssue s o) := by
  unfold State.norIssue
  with_reducible repeat' first | assumption | intro _ | apply State.norEnd_keeps | apply State.setNorOp_keeps | apply State.bufRead_keeps | dsimp -zeta only | refine keeps_of_fst ?_ (by assumption) | refine keeps_of_snd ?_ (by assumption) | (extract_lets +onlyGivenNames x; clear_value x) | split

theorem State.norAccept_keeps {s0 : State} {s : State} {c : Nat} (hs : Keeps s0 s) : Keeps s0 (State.norAccept s c) := by
  unfold State.norAccept
  with_reducible repeat' first | assumption | intro _ | apply State.norTrySuspend_keeps | apply State.norTryResume_keeps | apply State.put_keeps | apply State.norIssue_keeps | apply State.setNorOp_keeps | (extract_lets +onlyGivenNames x; first | (refine keeps_cut (s := s0) (t := x) ?_ (fun hx => ?_); unfold x; clear x; rotate_left; clear_value x; rotate_right) | clear_value x) | split | (refine keeps_mk ?_ rfl ?_; rotate_left; (intro hk; cases hk; constructor <;> first | assumption | exact tabPut_sorted (by assumption) | exact filter_sorted (by assumption) | exact tabSorted_nil | exact foldl_tabPut_sorted (by assumption)))

theorem State.nvsCommand_keeps {s0 : State} {s : State} {m : Master} {c : Nat} (hs : Keeps s0 s) : Keeps s0 (State.nvsCommand s m c) := by
  unfold State.nvsCommand
  with_reducible repeat' first | assumption | intro _ | apply State.regCmd_keeps | apply State.put_keeps | apply State.showNvs_keeps | apply State.norAccept_keeps | apply State.raise_keeps | apply State.irq_keeps | (extract_lets +onlyGivenNames x; first | (refine keeps_cut (s := s0) (t := x) ?_ (fun hx => ?_); unfold x; clear x; rotate_left; clear_value x; rotate_right) | clear_value x) | split

theorem execJscan_keeps {s0 : State} {m : Master} {s : State} (hs : Keeps s0 s) : KeepsOut s0 (execJscan m s) := by
  unfold execJscan
  with_reducible repeat' first | assumption | apply State.nvsCommand_keeps | apply Keeps.out

theorem State.norReport_keeps {s0 : State} {s : State} {st : Nat} (hs : Keeps s0 s) : Keeps s0 (State.norReport s st) := by
  unfold State.norReport
  with_reducible repeat' first | assumption | apply State.irq_keeps | apply State.put_keeps

theorem State.norBlur_keeps {s0 : State} {s : State} {a : Nat} {n : Nat} (hs : Keeps s0 s) : Keeps s0 (State.norBlur s a n) := by
  unfold State.norBlur
  with_reducible repeat' first | assumption | intro _ | split | (refine keeps_mk ?_ rfl ?_; rotate_left; (intro hk; cases hk; constructor <;> first | assumption | exact tabPut_sorted (by assumption) | exact filter_sorted (by assumption) | exact tabSorted_nil | exact foldl_tabPut_sorted (by assumption)))

theorem State.norFail_keeps {s0 : State} {s : State} {o : NorOp} (hs : Keeps s0 s) : Keeps s0 (State.norFail s o) := by
  unfold State.norFail
  with_reducible repeat' first | assumption | intro _ | apply State.norBlur_keeps | apply State.raise_keeps | apply State.norEnd_keeps | (extract_lets +onlyGivenNames x; first | (refine keeps_cut (s := s0) (t := x) ?_ (fun hx => ?_); unfold x; clear x; rotate_left; clear_value x; rotate_right) | clear_value x) | split | (refine keeps_mk ?_ rfl ?_; rotate_left; (intro hk; cases hk; constructor <;> first | assumption | exact tabPut_sorted (by assumption) | exact filter_sorted (by assumption) | exact tabSorted_nil | exact foldl_tabPut_sorted (by assumption)))

theorem State.norBad_keeps {s0 : State} {s : State} {o : NorOp} (hs : Keeps s0 s) : Keeps s0 (State.norBad s o) := by
  unfold State.norBad
  with_reducible repeat' first | assumption | intro _ | apply State.norFail_keeps | apply State.setNorOp_keeps | apply State.put_keeps | apply State.inc_keeps | (extract_lets +onlyGivenNames x; first | (refine keeps_cut (s := s0) (t := x) ?_ (fun hx => ?_); unfold x; clear x; rotate_left; clear_value x; rotate_right) | clear_value x) | split | (refine keeps_mk ?_ rfl ?_; rotate_left; (intro hk; cases hk; constructor <;> first | assumption | exact tabPut_sorted (by assumption) | exact filter_sorted (by assumption) | exact tabSorted_nil | exact foldl_tabPut_sorted (by assumption)))

theorem State.norReadDone_keeps {s0 : State} {s : State} (hs : Keeps s0 s) : Keeps s0 (State.norReadDone s) := by
  unfold State.norReadDone
  with_reducible repeat' first | assumption | intro _ | split | (refine keeps_mk ?_ rfl ?_; rotate_left; (intro hk; cases hk; constructor <;> first | assumption | exact tabPut_sorted (by assumption) | exact filter_sorted (by assumption) | exact tabSorted_nil | exact foldl_tabPut_sorted (by assumption)))

theorem State.showSuspects_keeps {s0 : State} {s : State} (hs : Keeps s0 s) : Keeps s0 (State.showSuspects s) := by
  unfold State.showSuspects
  with_reducible repeat' first | assumption | intro _ | apply State.put_keeps | apply State.setReg_keeps | apply each_keeps | (extract_lets +onlyGivenNames x; first | (refine keeps_cut (s := s0) (t := x) ?_ (fun hx => ?_); unfold x; clear x; rotate_left; clear_value x; rotate_right) | clear_value x) | split

theorem State.addSuspect_keeps {s0 : State} {s : State} {k : Nat} (hs : Keeps s0 s) : Keeps s0 (State.addSuspect s k) := by
  unfold State.addSuspect
  with_reducible repeat' first | assumption | intro _ | apply State.showSuspects_keeps | (extract_lets +onlyGivenNames x; clear_value x) | (refine keeps_mk ?_ rfl ?_; rotate_left; (intro hk; cases hk; constructor <;> first | assumption | exact tabPut_sorted (by assumption) | exact filter_sorted (by assumption) | exact tabSorted_nil | exact foldl_tabPut_sorted (by assumption)))

theorem State.norScan_keeps {s0 : State} {s : State} (hs : Keeps s0 s) : Keeps s0 (State.norScan s) := by
  unfold State.norScan
  with_reducible repeat' first | assumption | intro _ | apply State.norReadDone_keeps | apply State.put_keeps | apply State.addSuspect_keeps | apply State.raise_keeps | apply State.addSat_keeps | apply each_keeps | (extract_lets +onlyGivenNames x; first | (refine keeps_cut (s := s0) (t := x) ?_ (fun hx => ?_); unfold x; clear x; rotate_left; clear_value x; rotate_right) | clear_value x) | split

theorem execBlankCheck_keeps {s0 : State} {m : Master} {s : State} (hs : Keeps s0 s) : KeepsOut s0 (execBlankCheck m s) := by
  unfold execBlankCheck
  with_reducible repeat' first | assumption | apply State.nvsCommand_keeps | apply Keeps.out

theorem execWpLock_keeps {s0 : State} {_m : Master} {v : Bool} {s : State} (hs : Keeps s0 s) : KeepsOut s0 (execWpLock _m v s) := by
  unfold execWpLock
  with_reducible repeat' first | assumption | apply State.put_keeps | apply Keeps.out | split

theorem State.norCut_keeps {s0 : State} {s : State} {o : NorOp} {suspect : Bool} (hs : Keeps s0 s) : Keeps s0 (State.norCut s o suspect) := by
  unfold State.norCut
  with_reducible repeat' first | assumption | intro _ | apply State.addSuspect_keeps | apply State.norBlur_keeps | (extract_lets +onlyGivenNames x; first | (refine keeps_cut (s := s0) (t := x) ?_ (fun hx => ?_); unfold x; clear x; rotate_left; clear_value x; rotate_right) | clear_value x) | split

theorem State.norDropReads_keeps {s0 : State} {s : State} (hs : Keeps s0 s) : Keeps s0 (State.norDropReads s) := by
  unfold State.norDropReads
  with_reducible repeat' first | assumption | intro _ | apply State.respond_keeps | apply each_keeps | (extract_lets +onlyGivenNames x; first | (refine keeps_cut (s := s0) (t := x) ?_ (fun hx => ?_); unfold x; clear x; rotate_left; clear_value x; rotate_right) | clear_value x) | (refine keeps_mk ?_ rfl ?_; rotate_left; (intro hk; cases hk; constructor <;> first | assumption | exact tabPut_sorted (by assumption) | exact filter_sorted (by assumption) | exact tabSorted_nil | exact foldl_tabPut_sorted (by assumption)))

theorem State.nvsOff_keeps {s0 : State} {s : State} (hs : Keeps s0 s) : Keeps s0 (State.nvsOff s) := by
  unfold State.nvsOff
  with_reducible repeat' first | assumption | intro _ | apply State.norCut_keeps | apply State.norDropReads_keeps | (extract_lets +onlyGivenNames x; first | (refine keeps_cut (s := s0) (t := x) ?_ (fun hx => ?_); unfold x; clear x; rotate_left; clear_value x; rotate_right) | clear_value x) | split | (refine keeps_mk ?_ rfl ?_; rotate_left; (intro hk; cases hk; constructor <;> first | assumption | exact tabPut_sorted (by assumption) | exact filter_sorted (by assumption) | exact tabSorted_nil | exact foldl_tabPut_sorted (by assumption)))

theorem State.nvsStop_keeps {s0 : State} {s : State} (hs : Keeps s0 s) : Keeps s0 (State.nvsStop s) := by
  unfold State.nvsStop
  with_reducible repeat' first | assumption | intro _ | apply State.norReport_keeps | apply State.norCut_keeps | apply State.showNvs_keeps | apply State.norDropReads_keeps | (extract_lets +onlyGivenNames x; first | (refine keeps_cut (s := s0) (t := x) ?_ (fun hx => ?_); unfold x; clear x; rotate_left; clear_value x; rotate_right) | clear_value x) | split | (refine keeps_mk ?_ rfl ?_; rotate_left; (intro hk; cases hk; constructor <;> first | assumption | exact tabPut_sorted (by assumption) | exact filter_sorted (by assumption) | exact tabSorted_nil | exact foldl_tabPut_sorted (by assumption)))

theorem State.norErase_keeps {s0 : State} {s : State} {k : Nat} (hs : Keeps s0 s) : Keeps s0 (State.norErase s k) := by
  unfold State.norErase
  with_reducible repeat' first | assumption | intro _ | (refine keeps_mk ?_ rfl ?_; rotate_left; (intro hk; cases hk; constructor <;> first | assumption | exact tabPut_sorted (by assumption) | exact filter_sorted (by assumption) | exact tabSorted_nil | exact foldl_tabPut_sorted (by assumption)))

theorem State.norProgram_keeps {s0 : State} {s : State} {a : Nat} {bs : List Byte} (hs : Keeps s0 s) : Keeps s0 (State.norProgram s a bs) := by
  induction bs generalizing s a with
  | nil => exact hs
  | cons b r ih => exact ih (keeps_mk hs rfl (fun h => { h with nor := tabPut_sorted h.nor }))

theorem State.norEffect_keeps {s0 : State} {s : State} {o : NorOp} {t : NorStep} (hs : Keeps s0 s) : Keeps s0 (State.norEffect s o t) := by
  unfold State.norEffect
  with_reducible repeat' first | assumption | intro _ | apply State.norErase_keeps | apply State.norProgram_keeps | apply State.put_keeps | (extract_lets +onlyGivenNames x; first | (refine keeps_cut (s := s0) (t := x) ?_ (fun hx => ?_); unfold x; clear x; rotate_left; clear_value x; rotate_right) | clear_value x) | split

theorem State.norGood_keeps {s0 : State} {s : State} {o : NorOp} (hs : Keeps s0 s) : Keeps s0 (State.norGood s o) := by
  unfold State.norGood
  with_reducible repeat' first | assumption | intro _ | apply State.norEffect_keeps | apply State.norIssue_keeps | (extract_lets +onlyGivenNames x; first | (refine keeps_cut (s := s0) (t := x) ?_ (fun hx => ?_); unfold x; clear x; rotate_left; clear_value x; rotate_right) | clear_value x) | split | (refine keeps_mk ?_ rfl ?_; rotate_left; (intro hk; cases hk; constructor <;> first | assumption | exact tabPut_sorted (by assumption) | exact filter_sorted (by assumption) | exact tabSorted_nil | exact foldl_tabPut_sorted (by assumption)))

theorem execNorProbe_keeps {s0 : State} {ok0 : Bool} {ok1 : Bool} {s : State} (hs : Keeps s0 s) : KeepsOut s0 (execNorProbe ok0 ok1 s) := by
  unfold execNorProbe
  with_reducible repeat' first | assumption | intro _ | apply Keeps.out | (extract_lets +onlyGivenNames x; clear_value x) | split | (refine keeps_mk ?_ rfl ?_; rotate_left; (intro hk; cases hk; constructor <;> first | assumption | exact tabPut_sorted (by assumption) | exact filter_sorted (by assumption) | exact tabSorted_nil | exact foldl_tabPut_sorted (by assumption)))

theorem State.norSuspended_keeps {s0 : State} {s : State} {o : NorOp} (hs : Keeps s0 s) : Keeps s0 (State.norSuspended s o) := by
  unfold State.norSuspended
  with_reducible repeat' first | assumption | intro _ | apply State.irq_keeps | (extract_lets +onlyGivenNames x; clear_value x) | (refine keeps_mk ?_ rfl ?_; rotate_left; (intro hk; cases hk; constructor <;> first | assumption | exact tabPut_sorted (by assumption) | exact filter_sorted (by assumption) | exact tabSorted_nil | exact foldl_tabPut_sorted (by assumption)))

theorem execStatusPoll_keeps {s0 : State} {status : BitVec 8} {complete : Bool} {wrong : Bool} {s : State} (hs : Keeps s0 s) : KeepsOut s0 (execStatusPoll status complete wrong s) := by
  unfold execStatusPoll
  with_reducible repeat' first | assumption | intro _ | apply State.showNvs_keeps | apply State.norSuspended_keeps | apply State.norBad_keeps | apply State.norGood_keeps | apply Keeps.out | (extract_lets +onlyGivenNames x; clear_value x) | split

theorem execProbeDone_keeps {s0 : State} {s : State} (hs : Keeps s0 s) : KeepsOut s0 (execProbeDone s) := by
  unfold execProbeDone
  with_reducible repeat' first | assumption | intro _ | apply State.put_keeps | apply State.raise_keeps | apply Keeps.out | (extract_lets +onlyGivenNames x; first | (refine keeps_cut (s := s0) (t := x) ?_ (fun hx => ?_); unfold x; clear x; rotate_left; clear_value x; rotate_right) | clear_value x) | split | (refine keeps_mk ?_ rfl ?_; rotate_left; (intro hk; cases hk; constructor <;> first | assumption | exact tabPut_sorted (by assumption) | exact filter_sorted (by assumption) | exact tabSorted_nil | exact foldl_tabPut_sorted (by assumption)))

theorem State.nvsProbe_keeps {s0 : State} {s : State} (hs : Keeps s0 s) : Keeps s0 (State.nvsProbe s) := by
  unfold State.nvsProbe
  with_reducible repeat' first | assumption | intro _ | apply State.put_keeps | (extract_lets +onlyGivenNames x; clear_value x) | (refine keeps_mk ?_ rfl ?_; rotate_left; (intro hk; cases hk; constructor <;> first | assumption | exact tabPut_sorted (by assumption) | exact filter_sorted (by assumption) | exact tabSorted_nil | exact foldl_tabPut_sorted (by assumption)))

theorem State.dropSuspect_keeps {s0 : State} {s : State} {k : Nat} (hs : Keeps s0 s) : Keeps s0 (State.dropSuspect s k) := by
  unfold State.dropSuspect
  with_reducible repeat' first | assumption | intro _ | apply State.showSuspects_keeps | (extract_lets +onlyGivenNames x; clear_value x) | (refine keeps_mk ?_ rfl ?_; rotate_left; (intro hk; cases hk; constructor <;> first | assumption | exact tabPut_sorted (by assumption) | exact filter_sorted (by assumption) | exact tabSorted_nil | exact foldl_tabPut_sorted (by assumption)))

theorem execNvsResume_keeps {s0 : State} {m : Master} {s : State} (hs : Keeps s0 s) : KeepsOut s0 (execNvsResume m s) := by
  unfold execNvsResume
  with_reducible repeat' first | assumption | apply State.nvsCommand_keeps | apply Keeps.out

theorem execNorRead_keeps {s0 : State} {m : Master} {write : Bool} {addr : BitVec 48} {len : BitVec 7} {s : State} (hs : Keeps s0 s) : KeepsOut s0 (execNorRead m write addr len s) := by
  unfold execNorRead
  with_reducible repeat' first | assumption | intro _ | apply State.answer_keeps | apply State.raiseBy_keeps | apply State.answerErr_keeps | apply State.raiseAccess_keeps | apply State.showNvs_keeps | apply State.norTrySuspend_keeps | apply Keeps.out | (extract_lets +onlyGivenNames x; first | (refine keeps_cut (s := s0) (t := x) ?_ (fun hx => ?_); unfold x; clear x; rotate_left; clear_value x; rotate_right) | clear_value x) | split | (refine keeps_mk ?_ rfl ?_; rotate_left; (intro hk; cases hk; constructor <;> first | assumption | exact tabPut_sorted (by assumption) | exact filter_sorted (by assumption) | exact tabSorted_nil | exact foldl_tabPut_sorted (by assumption)))

theorem execAutoResume_keeps {s0 : State} {s : State} (hs : Keeps s0 s) : KeepsOut s0 (execAutoResume s) := by
  unfold execAutoResume
  with_reducible repeat' first | assumption | apply State.showNvs_keeps | apply State.norTryResume_keeps | apply Keeps.out

theorem State.nvsFenced_keeps {s0 : State} {s : State} (hs : Keeps s0 s) : Keeps s0 (State.nvsFenced s) := by
  unfold State.nvsFenced
  with_reducible repeat' first | assumption | apply State.nvsStop_keeps | apply State.put_keeps | (extract_lets +onlyGivenNames x; first | (refine keeps_cut (s := s0) (t := x) ?_ (fun hx => ?_); unfold x; clear x; rotate_left; clear_value x; rotate_right) | clear_value x) | split

theorem execWpWrite_keeps {s0 : State} {_m : Master} {n : Fin 512} {v : Word} {s : State} (hs : Keeps s0 s) : KeepsOut s0 (execWpWrite _m n v s) := by
  unfold execWpWrite
  with_reducible repeat' first | assumption | intro _ | apply State.setReg_keeps | apply Keeps.out | (extract_lets +onlyGivenNames x; clear_value x) | split

theorem execSuspendIssue_keeps {s0 : State} {s : State} (hs : Keeps s0 s) : KeepsOut s0 (execSuspendIssue s) := by
  unfold execSuspendIssue
  with_reducible repeat' first | assumption | apply State.showNvs_keeps | apply State.norTrySuspend_keeps | apply Keeps.out

theorem execNorOpDone_keeps {s0 : State} {s : State} (hs : Keeps s0 s) : KeepsOut s0 (execNorOpDone s) := by
  unfold execNorOpDone
  with_reducible repeat' first | assumption | intro _ | apply State.setNorOp_keeps | apply State.addWrap_keeps | apply State.dropSuspect_keeps | apply State.norReadDone_keeps | apply State.putB_keeps | apply State.norScan_keeps | apply State.showNvs_keeps | apply State.norTryResume_keeps | apply State.norReport_keeps | apply Keeps.out | (extract_lets +onlyGivenNames x; first | (refine keeps_cut (s := s0) (t := x) ?_ (fun hx => ?_); unfold x; clear x; rotate_left; clear_value x; rotate_right) | clear_value x) | split

theorem execEraseBr_keeps {s0 : State} {m : Master} {s : State} (hs : Keeps s0 s) : KeepsOut s0 (execEraseBr m s) := by
  unfold execEraseBr
  with_reducible repeat' first | assumption | apply State.nvsCommand_keeps | apply Keeps.out

theorem execNorReadDone_keeps {s0 : State} {lost : Bool} {s : State} (hs : Keeps s0 s) : KeepsOut s0 (execNorReadDone lost s) := by
  unfold execNorReadDone
  with_reducible repeat' first | assumption | intro _ | apply State.showNvs_keeps | apply State.norTryResume_keeps | apply State.respond_keeps | apply State.raiseBy_keeps | apply State.raise_keeps | apply State.inc_keeps | apply State.norReadDone_keeps | apply Keeps.out | (extract_lets +onlyGivenNames x; first | (refine keeps_cut (s := s0) (t := x) ?_ (fun hx => ?_); unfold x; clear x; rotate_left; clear_value x; rotate_right) | clear_value x) | split | (refine keeps_mk ?_ rfl ?_; rotate_left; (intro hk; cases hk; constructor <;> first | assumption | exact tabPut_sorted (by assumption) | exact filter_sorted (by assumption) | exact tabSorted_nil | exact foldl_tabPut_sorted (by assumption)))

theorem execNorOpTimeout_keeps {s0 : State} {s : State} (hs : Keeps s0 s) : KeepsOut s0 (execNorOpTimeout s) := by
  unfold execNorOpTimeout
  with_reducible repeat' first | assumption | intro _ | apply State.showNvs_keeps | apply State.norFail_keeps | apply State.put_keeps | apply State.inc_keeps | apply State.norBad_keeps | apply Keeps.out | (extract_lets +onlyGivenNames x; clear_value x) | split | (refine keeps_mk ?_ rfl ?_; rotate_left; (intro hk; cases hk; constructor <;> first | assumption | exact tabPut_sorted (by assumption) | exact filter_sorted (by assumption) | exact tabSorted_nil | exact foldl_tabPut_sorted (by assumption)))

theorem execProgram_keeps {s0 : State} {m : Master} {s : State} (hs : Keeps s0 s) : KeepsOut s0 (execProgram m s) := by
  unfold execProgram
  with_reducible repeat' first | assumption | apply State.nvsCommand_keeps | apply Keeps.out

theorem execErase_keeps {s0 : State} {m : Master} {s : State} (hs : Keeps s0 s) : KeepsOut s0 (execErase m s) := by
  unfold execErase
  with_reducible repeat' first | assumption | apply State.nvsCommand_keeps | apply Keeps.out

theorem execNvsSuspend_keeps {s0 : State} {m : Master} {s : State} (hs : Keeps s0 s) : KeepsOut s0 (execNvsSuspend m s) := by
  unfold execNvsSuspend
  with_reducible repeat' first | assumption | apply State.nvsCommand_keeps | apply Keeps.out

theorem State.putBytes_keeps {s0 : State} {s : State} {p : Nat} {off : Nat} {bs : List Byte} (hs : Keeps s0 s) : Keeps s0 (State.putBytes s p off bs) := by
  unfold State.putBytes
  with_reducible repeat' first | assumption | intro _ | apply State.setReg_keeps | apply each_keeps

theorem State.secDefaults_keeps {s0 : State} {s : State} (hs : Keeps s0 s) : Keeps s0 (State.secDefaults s) := by
  unfold State.secDefaults
  with_reducible repeat' first | assumption | intro _ | apply State.put_keeps | apply State.setReg_keeps | apply State.putBytes_keeps | apply each_keeps | (extract_lets +onlyGivenNames x; first | (refine keeps_cut (s := s0) (t := x) ?_ (fun hx => ?_); unfold x; clear x; rotate_left; clear_value x; rotate_right) | clear_value x) | split

theorem State.latchFuses_keeps {s0 : State} {s : State} (hs : Keeps s0 s) : Keeps s0 (State.latchFuses s) := by
  unfold State.latchFuses
  with_reducible repeat' first | assumption | intro _ | exact keeps_mk (by assumption) rfl (by intro hk; cases hk; constructor <;> first | assumption | exact tabPut_sorted (by assumption) | exact filter_sorted (by assumption) | exact tabSorted_nil | exact foldl_tabPut_sorted (by assumption)) | (extract_lets +onlyGivenNames x; clear_value x) | (refine keeps_mk ?_ rfl ?_; rotate_left; (intro hk; cases hk; constructor <;> first | assumption | exact tabPut_sorted (by assumption) | exact filter_sorted (by assumption) | exact tabSorted_nil | exact foldl_tabPut_sorted (by assumption)))

theorem State.showSlots_keeps {s0 : State} {s : State} (hs : Keeps s0 s) : Keeps s0 (State.showSlots s) := by
  unfold State.showSlots
  with_reducible repeat' first | assumption | intro _ | apply State.put_keeps | apply foldl_keeps | apply foldl_keeps_fst | apply foldl_keeps_snd | (extract_lets +onlyGivenNames x; clear_value x)

theorem State.keysLost_keeps {s0 : State} {s : State} (hs : Keeps s0 s) : Keeps s0 (State.keysLost s) := by
  unfold State.keysLost
  with_reducible repeat' first | assumption | intro _ | apply State.showSlots_keeps | (extract_lets +onlyGivenNames x; first | (refine keeps_cut (s := s0) (t := x) ?_ (fun hx => ?_); unfold x; clear x; rotate_left; clear_value x; rotate_right) | clear_value x) | split | (refine keeps_mk ?_ rfl ?_; rotate_left; (intro hk; cases hk; constructor <;> first | assumption | exact tabPut_sorted (by assumption) | exact filter_sorted (by assumption) | exact tabSorted_nil | exact foldl_tabPut_sorted (by assumption)))

theorem State.secCommand_keeps {s0 : State} {s : State} {m : Master} {op meas : Nat} (hs : Keeps s0 s) : Keeps s0 (State.secCommand s m op meas) := by
  unfold State.secCommand
  refine State.regCmd_keeps hs (fun y hy => ?_)
  split
  · exact State.raise_keeps (State.put_keeps hy)
  · split
    · exact State.raise_keeps (State.irq_keeps (State.setReg_keeps hy))
    · exact State.setReg_keeps (keeps_mk hy rfl (fun h => { h with }))

theorem execSignId_keeps {s0 : State} {m : Master} {s : State} (hs : Keeps s0 s) : KeepsOut s0 (execSignId m s) := by
  unfold execSignId
  with_reducible repeat' first | assumption | apply State.secCommand_keeps | apply Keeps.out

theorem jobEnd_keeps {s0 : State} {r : State × Nat} (hr : Keeps s0 r.1) : Keeps s0 (jobEnd r) := by
  unfold jobEnd
  with_reducible repeat' first | assumption | apply State.irq_keeps | apply State.setReg_keeps | apply State.raise_keeps | dsimp -zeta only | refine keeps_of_fst ?_ (by assumption) | refine keeps_of_snd ?_ (by assumption) | (extract_lets +onlyGivenNames x; first | (refine keeps_cut (s := s0) (t := x) ?_ (fun hx => ?_); unfold x; clear x; rotate_left; clear_value x; rotate_right) | clear_value x) | split

theorem jobWrote_keeps {s0 : State} {r : State × Bool} (hr : Keeps s0 r.1) : Keeps s0 (jobWrote r).1 := by
  unfold jobWrote
  with_reducible repeat' first | assumption | dsimp -zeta only | refine keeps_of_fst ?_ (by assumption) | refine keeps_of_snd ?_ (by assumption) | split

theorem jobHash_keeps {s0 : State} {a : Nat} {r : State × Option (List Byte)} (hr : Keeps s0 r.1) : Keeps s0 (jobHash a r).1 := by
  unfold jobHash
  with_reducible repeat' first | assumption | intro _ | apply jobWrote_keeps | apply State.bufWrite_keeps | dsimp -zeta only | refine keeps_of_fst ?_ (by assumption) | refine keeps_of_snd ?_ (by assumption) | split

theorem State.trngDrew_keeps {s0 : State} {s : State} {n : Nat} (hs : Keeps s0 s) : Keeps s0 (State.trngDrew s n) := by
  unfold State.trngDrew
  with_reducible repeat' first | assumption | intro _ | (refine keeps_mk ?_ rfl ?_; rotate_left; (intro hk; cases hk; constructor <;> first | assumption | exact tabPut_sorted (by assumption) | exact filter_sorted (by assumption) | exact tabSorted_nil | exact foldl_tabPut_sorted (by assumption)))

theorem State.extend_keeps {s0 : State} {s : State} {n : Nat} {digest : List Byte} (hs : Keeps s0 s) : Keeps s0 (State.extend s n digest) := by
  unfold State.extend
  with_reducible repeat' first | assumption | apply State.putBytes_keeps

theorem jobOn_keeps {s0 : State} {a : Nat} {j : SecJob} {r : State × Option (List Byte)} (hr : Keeps s0 r.1) : Keeps s0 (jobOn a j r).1 := by
  unfold jobOn
  with_reducible repeat' first | assumption | intro _ | apply jobHash_keeps | apply State.bufRead_keeps | apply jobWrote_keeps | apply State.bufWrite_keeps | apply State.trngDrew_keeps | apply State.extend_keeps | dsimp -zeta only | refine keeps_of_fst ?_ (by assumption) | refine keeps_of_snd ?_ (by assumption) | (extract_lets +onlyGivenNames x; first | (refine keeps_cut (s := s0) (t := x) ?_ (fun hx => ?_); unfold x; clear x; rotate_left; clear_value x; rotate_right) | clear_value x) | split

theorem State.jobRun_keeps {s0 : State} {s : State} {j : SecJob} (hs : Keeps s0 s) : Keeps s0 (State.jobRun s j).1 := by
  unfold State.jobRun
  with_reducible repeat' first | assumption | intro _ | apply jobOn_keeps | apply State.bufRead_keeps | dsimp -zeta only | refine keeps_of_fst ?_ (by assumption) | refine keeps_of_snd ?_ (by assumption) | (extract_lets +onlyGivenNames x; clear_value x) | split

theorem execJobDone_keeps {s0 : State} {s : State} (hs : Keeps s0 s) : KeepsOut s0 (execJobDone s) := by
  unfold execJobDone
  split
  · exact hs.out
  · have h0 : Keeps s0 ({ s with sec := { s.sec with job := none } } : State) := keeps_mk hs rfl (fun h => { h with })
    revert h0
    generalize ({ s with sec := { s.sec with job := none } } : State) = t
    intro h0
    refine Keeps.out (jobEnd_keeps ?_)
    split
    · exact h0
    · exact State.jobRun_keeps h0

theorem execRngHealth_keeps {s0 : State} {pass : Bool} {s : State} (hs : Keeps s0 s) : KeepsOut s0 (execRngHealth pass s) := by
  unfold execRngHealth
  with_reducible repeat' first | assumption | intro _ | apply State.put_keeps | apply State.raise_keeps | apply Keeps.out | split

theorem execHash_keeps {s0 : State} {m : Master} {s : State} (hs : Keeps s0 s) : KeepsOut s0 (execHash m s) := by
  unfold execHash
  with_reducible repeat' first | assumption | apply State.secCommand_keeps | apply Keeps.out

theorem State.putKeySlot_keeps {s0 : State} {s : State} {k : Nat} {bs : List Byte} (hs : Keeps s0 s) : Keeps s0 (State.putKeySlot s k bs) := by
  unfold State.putKeySlot
  with_reducible repeat' first | assumption | intro _ | apply State.showSlots_keeps | (refine keeps_mk ?_ rfl ?_; rotate_left; (intro hk; cases hk; constructor <;> first | assumption | exact tabPut_sorted (by assumption) | exact filter_sorted (by assumption) | exact tabSorted_nil | exact foldl_tabPut_sorted (by assumption)))

theorem State.keyCommand_keeps {s0 : State} {s : State} {m : Master} {k : Nat} {op : Nat} (hs : Keeps s0 s) : Keeps s0 (State.keyCommand s m k op) := by
  unfold State.keyCommand
  with_reducible repeat' first | assumption | intro _ | apply State.regCmd_keeps | apply State.setReg_keeps | apply State.irq_keeps | apply State.raise_keeps | apply State.showSlots_keeps | apply State.putKeySlot_keeps | apply each_keeps | (extract_lets +onlyGivenNames x; first | (refine keeps_cut (s := s0) (t := x) ?_ (fun hx => ?_); unfold x; clear x; rotate_left; clear_value x; rotate_right) | clear_value x) | split | (refine keeps_mk ?_ rfl ?_; rotate_left; (intro hk; cases hk; constructor <;> first | assumption | exact tabPut_sorted (by assumption) | exact filter_sorted (by assumption) | exact tabSorted_nil | exact foldl_tabPut_sorted (by assumption)))

theorem execKeyLoadWrapped_keeps {s0 : State} {m : Master} {slot : Fin 64} {s : State} (hs : Keeps s0 s) : KeepsOut s0 (execKeyLoadWrapped m slot s) := by
  unfold execKeyLoadWrapped
  with_reducible repeat' first | assumption | apply State.keyCommand_keeps | apply Keeps.out

theorem execFuseCmd_keeps {s0 : State} {m : Master} {row : Fin 128} {key : BitVec 16} {s : State} (hs : Keeps s0 s) : KeepsOut s0 (execFuseCmd m row key s) := by
  unfold execFuseCmd
  refine Keeps.out (State.regCmd_keeps hs (fun y hy => ?_))
  split
  · exact hy
  · extract_lets p
    clear_value p
    split
    · exact State.setReg_keeps (keeps_mk hy rfl (fun h => { h with }))
    · exact State.irq_keeps (State.setReg_keeps hy)

theorem State.deriveKeys_keeps {s0 : State} {s : State} (hs : Keeps s0 s) : Keeps s0 (State.deriveKeys s) := by
  unfold State.deriveKeys
  dsimp only
  split
  · exact keeps_mk hs rfl (fun h => { h with })
  · exact keeps_mk hs rfl (fun h => { h with })

theorem execDbgDisable_keeps {s0 : State} {m : Master} {s : State} (hs : Keeps s0 s) : KeepsOut s0 (execDbgDisable m s) := by
  unfold execDbgDisable
  with_reducible repeat' first | assumption | intro _ | apply State.regCmd_keeps | apply State.put_keeps | apply Keeps.out

theorem State.slotLost_keeps {s0 : State} {s : State} {k : Nat} (hs : Keeps s0 s) : Keeps s0 (State.slotLost s k) := by
  unfold State.slotLost
  with_reducible repeat' first | assumption | apply State.putKeySlot_keeps | split

theorem execDebugUnlock_keeps {s0 : State} {pub : List Byte} {sig : List Byte} {s : State} (hs : Keeps s0 s) : KeepsOut s0 (execDebugUnlock pub sig s) := by
  unfold execDebugUnlock
  with_reducible repeat' first | assumption | intro _ | apply State.extend_keeps | apply State.put_keeps | apply State.raise_keeps | apply Keeps.out | (extract_lets +onlyGivenNames x; clear_value x) | split

theorem State.setFuse_keeps {s0 : State} {s : State} {r v : Nat} (hv : ∀ b, bit (s.fuse r) b = true → bit v b = true) (hs : Keeps s0 s) :
    Keeps s0 (State.setFuse s r v) := by
  refine hs.trans ⟨rfl, rfl, fun h => { h with fuses := tabPut_sorted h.fuses }, fun h r' b y => ?_⟩
  show bit (tabGet (tabPut s.sec.fuses r v _) r' (if r' = 2 then s.part.cap else 0)) b = true
  by_cases e : r' = r
  · subst e; rw [tabGet_tabPut_same]; exact hv b y
  · rw [tabGet_tabPut_ne e]; exact y

theorem execKeyLoad_keeps {s0 : State} {m : Master} {slot : Fin 64} {s : State} (hs : Keeps s0 s) : KeepsOut s0 (execKeyLoad m slot s) := by
  unfold execKeyLoad
  with_reducible repeat' first | assumption | apply State.keyCommand_keeps | apply Keeps.out

theorem execExtend_keeps {s0 : State} {m : Master} {meas : Fin 4} {s : State} (hs : Keeps s0 s) : KeepsOut s0 (execExtend m meas s) := by
  unfold execExtend
  with_reducible repeat' first | assumption | apply State.secCommand_keeps | apply Keeps.out

theorem State.rngRead_keeps {s0 : State} {s : State} (hs : Keeps s0 s) : Keeps s0 (State.rngRead s) := by
  unfold State.rngRead
  with_reducible repeat' first | assumption | intro _ | apply State.answer_keeps | apply State.drew_keeps | split

theorem execVerify_keeps {s0 : State} {m : Master} {s : State} (hs : Keeps s0 s) : KeepsOut s0 (execVerify m s) := by
  unfold execVerify
  with_reducible repeat' first | assumption | apply State.secCommand_keeps | apply Keeps.out

theorem execFuseProgDone_keeps {s0 : State} {back : BitVec 64} {s : State} (hs : Keeps s0 s) : KeepsOut s0 (execFuseProgDone back s) := by
  unfold execFuseProgDone
  split
  · exact hs.out
  · rename_i r old p _
    have h1 : Keeps s0 (({ s with sec := { s.sec with prog := none } } : State).setFuse r (Nat.lor (s.fuse r) back.toNat)) := by
      refine State.setFuse_keeps (fun b hb => ?_) (keeps_mk hs rfl (fun h => { h with }))
      exact bit_lor hb
    refine Keeps.out ?_
    split
    · exact State.irq_keeps (State.setReg_keeps h1)
    · exact State.raise_keeps (State.irq_keeps (State.setReg_keeps h1))

theorem execKeyEraseAll_keeps {s0 : State} {m : Master} {s : State} (hs : Keeps s0 s) : KeepsOut s0 (execKeyEraseAll m s) := by
  unfold execKeyEraseAll
  with_reducible repeat' first | assumption | apply State.keyCommand_keeps | apply Keeps.out

theorem State.debugReset_keeps {s0 : State} {s : State} (hs : Keeps s0 s) : Keeps s0 (State.debugReset s) := by
  unfold State.debugReset
  with_reducible repeat' first | assumption | apply State.setReg_keeps | apply State.trngDrew_keeps | apply State.putBytes_keeps | (extract_lets +onlyGivenNames x; first | (refine keeps_cut (s := s0) (t := x) ?_ (fun hx => ?_); unfold x; clear x; rotate_left; clear_value x; rotate_right) | clear_value x) | split

theorem execKeyErase_keeps {s0 : State} {m : Master} {slot : Fin 64} {s : State} (hs : Keeps s0 s) : KeepsOut s0 (execKeyErase m slot s) := by
  unfold execKeyErase
  with_reducible repeat' first | assumption | apply State.keyCommand_keeps | apply Keeps.out

theorem State.smbEnd_keeps {s0 : State} {s : State} {r : Nat} (hs : Keeps s0 s) : Keeps s0 (State.smbEnd s r) := by
  unfold State.smbEnd
  with_reducible repeat' first | assumption | intro _ | apply State.irq_keeps | apply State.put_keeps | (extract_lets +onlyGivenNames x; first | (refine keeps_cut (s := s0) (t := x) ?_ (fun hx => ?_); unfold x; clear x; rotate_left; clear_value x; rotate_right) | clear_value x) | split | (refine keeps_mk ?_ rfl ?_; rotate_left; (intro hk; cases hk; constructor <;> first | assumption | exact tabPut_sorted (by assumption) | exact filter_sorted (by assumption) | exact tabSorted_nil | exact foldl_tabPut_sorted (by assumption)))

theorem execSmbTimeout_keeps {s0 : State} {s : State} (hs : Keeps s0 s) : KeepsOut s0 (execSmbTimeout s) := by
  unfold execSmbTimeout
  with_reducible repeat' first | assumption | intro _ | apply State.smbEnd_keeps | apply State.irq_keeps | apply State.inc_keeps | apply Keeps.out | split

theorem execSmbTargetRead_keeps {s0 : State} {addr : BitVec 7} {n : BitVec 9} {s : State} (hs : Keeps s0 s) : KeepsOut s0 (execSmbTargetRead addr n s) := by
  unfold execSmbTargetRead
  with_reducible repeat' first | assumption | intro _ | apply State.answer_keeps | apply Keeps.out | split

theorem execSmbTx_keeps {s0 : State} {m : Master} {len : BitVec 9} {dest : BitVec 7} {s : State} (hs : Keeps s0 s) : KeepsOut s0 (execSmbTx m len dest s) := by
  unfold execSmbTx
  with_reducible repeat' first | assumption | intro _ | apply State.regCmd_keeps | apply State.put_keeps | apply Keeps.out | split | (refine keeps_mk ?_ rfl ?_; rotate_left; (intro hk; cases hk; constructor <;> first | assumption | exact tabPut_sorted (by assumption) | exact filter_sorted (by assumption) | exact tabSorted_nil | exact foldl_tabPut_sorted (by assumption)))

theorem execSmbRxDone_keeps {s0 : State} {m : Master} {s : State} (hs : Keeps s0 s) : KeepsOut s0 (execSmbRxDone m s) := by
  unfold execSmbRxDone
  with_reducible repeat' first | assumption | intro _ | apply State.regCmd_keeps | apply State.put_keeps | apply Keeps.out

theorem execSmbWriteReceived_keeps {s0 : State} {addr : BitVec 7} {data : List Byte} {pecOk : Bool} {s : State} (hs : Keeps s0 s) : KeepsOut s0 (execSmbWriteReceived addr data pecOk s) := by
  unfold execSmbWriteReceived
  with_reducible repeat' first | assumption | intro _ | apply State.inc_keeps | apply State.putBytes_keeps | apply State.putB_keeps | apply State.put_keeps | apply State.irq_keeps | apply Keeps.out | (extract_lets +onlyGivenNames x; first | (refine keeps_cut (s := s0) (t := x) ?_ (fun hx => ?_); unfold x; clear x; rotate_left; clear_value x; rotate_right) | clear_value x) | split

theorem execSmbTxEnd_keeps {s0 : State} {r : Fin 4} {s : State} (hs : Keeps s0 s) : KeepsOut s0 (execSmbTxEnd r s) := by
  unfold execSmbTxEnd
  with_reducible repeat' first | assumption | apply State.smbEnd_keeps | apply Keeps.out

end Sys2Proof.Machine
end

