-- ==== Sys2Proof/Laws/KeepsUnits.lean ====
section
/-! SUPPORT. The operations of Units, Faults, Power, Control keep what `Keeps` says. -/

namespace Sys2Proof.Machine

theorem State.noteDds_keeps {s0 : State} {s : State} (hs : Keeps s0 s) : Keeps s0 (State.noteDds s) := by
  unfold State.noteDds
  with_reducible repeat' first | assumption | intro _ | apply State.ddState_keeps | apply each_keeps | split

theorem State.refresh_keeps {s0 : State} {s : State} {p : Nat} (hs : Keeps s0 s) : Keeps s0 (State.refresh s p) := by
  unfold State.refresh
  with_reducible repeat' first | assumption | intro _ | apply State.noteDds_keeps | apply State.showSuspects_keeps | apply State.noteInUse_keeps | apply State.showSlots_keeps | apply State.noteMdc_keeps | apply State.put_keeps | apply State.retractCheck_keeps | apply State.putB_keeps | apply each_keeps | split

theorem State.unitDisabled_keeps {s0 : State} {s : State} {p : Nat} (hs : Keeps s0 s) : Keeps s0 (State.unitDisabled s p) := by
  unfold State.unitDisabled
  with_reducible repeat' first | assumption | intro _ | apply State.abortWrite_keeps | apply State.abortRead_keeps | apply State.dilStopWith_keeps | apply State.flushDrill_keeps | apply State.linkDrop_keeps | apply State.trackerIdle_keeps | apply State.nvsStop_keeps | apply State.glnStop_keeps | apply State.mdcOff_keeps | apply State.abortStripes_keeps | apply State.afmEndAll_keeps | apply State.dmaReset_keeps | split

theorem State.unitEnabled_keeps {s0 : State} {s : State} {p : Nat} (hs : Keeps s0 s) : Keeps s0 (State.unitEnabled s p) := by
  unfold State.unitEnabled
  with_reducible repeat' first | assumption | intro _ | apply State.put_keeps | apply State.noteMdc_keeps | apply State.trackerStart_keeps | split

theorem State.fenceWords_keeps {s0 : State} {s : State} {p : Nat} {lvl : Nat} {cls : Nat} {src : Nat} (hs : Keeps s0 s) : Keeps s0 (State.fenceWords s p lvl cls src) := by
  unfold State.fenceWords
  with_reducible repeat' first | assumption | apply State.put_keeps

theorem State.unitFenced_keeps {s0 : State} {s : State} {p : Nat} (hs : Keeps s0 s) : Keeps s0 (State.unitFenced s p) := by
  unfold State.unitFenced
  with_reducible repeat' first | assumption | intro _ | apply State.stpHeadFenced_keeps | apply State.abortWrite_keeps | apply State.abortRead_keeps | apply State.seekFenced_keeps | apply State.dilFenced_keeps | apply State.skipDrill_keeps | apply State.linkFenced_keeps | apply State.nvsFenced_keeps | apply State.glnStop_keeps | apply State.mdcOff_keeps | apply State.abortStripes_keeps | apply State.dropFilling_keeps | apply State.put_keeps | apply State.settlePort_keeps | (extract_lets +onlyGivenNames x; clear_value x) | split

theorem State.fencePage_keeps {s0 : State} {s : State} {p : Nat} {lvl : Nat} {cls : Nat} {src : Nat} (hs : Keeps s0 s) : Keeps s0 (State.fencePage s p lvl cls src) := by
  unfold State.fencePage
  with_reducible repeat' first | assumption | apply State.fenceWords_keeps | apply State.inc_keeps | apply State.put_keeps | apply State.disarm_keeps | apply State.unitFenced_keeps | apply State.irq_keeps | (extract_lets +onlyGivenNames x; first | (refine keeps_cut (s := s0) (t := x) ?_ (fun hx => ?_); unfold x; clear x; rotate_left; clear_value x; rotate_right) | clear_value x) | split

theorem State.unfenceSub_keeps {s0 : State} {s : State} {p : Nat} {sub : Nat} (hs : Keeps s0 s) : Keeps s0 (State.unfenceSub s p sub) := by
  unfold State.unfenceSub
  with_reducible repeat' first | assumption | intro _ | apply State.put_keeps | apply State.dmaUnfenced_keeps | apply State.setSlot_keeps | apply State.noteDds_keeps | apply State.noteMdc_keeps | apply State.setMdcEnt_keeps | apply State.setMdcDis_keeps | (extract_lets +onlyGivenNames x; first | (refine keeps_cut (s := s0) (t := x) ?_ (fun hx => ?_); unfold x; clear x; rotate_left; clear_value x; rotate_right) | clear_value x) | split | (refine keeps_mk ?_ rfl ?_; rotate_left; (intro hk; cases hk; constructor <;> first | assumption | exact tabPut_sorted (by assumption) | exact filter_sorted (by assumption) | exact tabSorted_nil | exact foldl_tabPut_sorted (by assumption)))

theorem State.unitClear_keeps {s0 : State} {s : State} {p : Nat} (hs : Keeps s0 s) : Keeps s0 (State.unitClear s p) := by
  unfold State.unitClear
  with_reducible repeat' first | assumption | intro _ | apply State.setDil_keeps | apply State.glnStop_keeps | apply foldl_keeps | apply foldl_keeps_fst | apply foldl_keeps_snd | (extract_lets +onlyGivenNames x; clear_value x) | split | (refine keeps_mk ?_ rfl ?_; rotate_left; (intro hk; cases hk; constructor <;> first | assumption | exact tabPut_sorted (by assumption) | exact filter_sorted (by assumption) | exact tabSorted_nil | exact foldl_tabPut_sorted (by assumption)))

theorem State.clearRegs_keeps {s0 : State} {s : State} {p : Nat} {keep : Nat → Bool} (hs : Keeps s0 s) : Keeps s0 (State.clearRegs s p keep) := by
  unfold State.clearRegs
  with_reducible repeat' first | assumption | intro _ | (extract_lets +onlyGivenNames x; clear_value x) | (refine keeps_mk ?_ rfl ?_; rotate_left; (intro hk; cases hk; constructor <;> first | assumption | exact tabPut_sorted (by assumption) | exact filter_sorted (by assumption) | exact tabSorted_nil | exact foldl_tabPut_sorted (by assumption)))

theorem State.clearPage_keeps {s0 : State} {s : State} {p : Nat} {keep : Nat → Bool} (hs : Keeps s0 s) : Keeps s0 (State.clearPage s p keep) := by
  unfold State.clearPage
  with_reducible repeat' first | assumption | intro _ | apply State.clearRegs_keeps | apply State.put_keeps | (extract_lets +onlyGivenNames x; first | (refine keeps_cut (s := s0) (t := x) ?_ (fun hx => ?_); unfold x; clear x; rotate_left; clear_value x; rotate_right) | clear_value x) | split

theorem State.unitOff_keeps {s0 : State} {s : State} {p : Nat} (hs : Keeps s0 s) : Keeps s0 (State.unitOff s p) := by
  unfold State.unitOff
  with_reducible repeat' first | assumption | intro _ | apply State.setDrl_keeps | apply State.linkDrop_keeps | apply State.nvsOff_keeps | apply State.mdcOff_keeps | apply State.unitClear_keeps | apply State.dropFilling_keeps | apply State.dramOff_keeps | apply State.linkEnd_keeps | apply State.setReg_keeps | apply State.clearPage_keeps | (extract_lets +onlyGivenNames x; first | (refine keeps_cut (s := s0) (t := x) ?_ (fun hx => ?_); unfold x; clear x; rotate_left; clear_value x; rotate_right) | clear_value x) | split

theorem State.fenceLoop_keeps {s0 : State} {s : State} {a : Nat} {j : Nat} (hs : Keeps s0 s) : Keeps s0 (State.fenceLoop s a j) := by
  unfold State.fenceLoop
  with_reducible repeat' first | assumption | intro _ | apply State.irq_keeps | apply State.put_keeps | apply State.setLoop_keeps | (extract_lets +onlyGivenNames x; clear_value x) | split

theorem State.slotFenced_keeps {s0 : State} {s : State} {i : Nat} (hs : Keeps s0 s) : Keeps s0 (State.slotFenced s i) := by
  unfold State.slotFenced
  with_reducible repeat' first | assumption | intro _ | apply State.setAfm_keeps | apply State.jobDone_keeps | apply State.postJob_keeps | apply State.setSlot_keeps | apply State.finishRun_keeps | apply each_keeps | (extract_lets +onlyGivenNames x; first | (refine keeps_cut (s := s0) (t := x) ?_ (fun hx => ?_); unfold x; clear x; rotate_left; clear_value x; rotate_right) | clear_value x)

theorem State.fenceSub_keeps {s0 : State} {s : State} {p : Nat} {sub : Nat} {lvl : Nat} {cls : Nat} {src : Nat} (hs : Keeps s0 s) : Keeps s0 (State.fenceSub s p sub lvl cls src) := by
  unfold State.fenceSub
  with_reducible repeat' first | assumption | intro _ | apply State.fenceWords_keeps | apply State.irq_keeps | apply State.fenceLoop_keeps | apply State.dmaFenced_keeps | apply State.slotFenced_keeps | apply State.ddStopped_keeps | apply State.noteMdc_keeps | apply State.setMdcDis_keeps | (extract_lets +onlyGivenNames x; first | (refine keeps_cut (s := s0) (t := x) ?_ (fun hx => ?_); unfold x; clear x; rotate_left; clear_value x; rotate_right) | clear_value x) | split | (refine keeps_mk ?_ rfl ?_; rotate_left; (intro hk; cases hk; constructor <;> first | assumption | exact tabPut_sorted (by assumption) | exact filter_sorted (by assumption) | exact tabSorted_nil | exact foldl_tabPut_sorted (by assumption)))

theorem State.unitUnfenced_keeps {s0 : State} {s : State} {p : Nat} (hs : Keeps s0 s) : Keeps s0 (State.unitUnfenced s p) := by
  unfold State.unitUnfenced
  with_reducible repeat' first | assumption | intro _ | apply State.endRoutine_keeps | apply State.put_keeps | apply State.settlePort_keeps | apply State.nvsProbe_keeps | apply State.noteMdc_keeps | (extract_lets +onlyGivenNames x; first | (refine keeps_cut (s := s0) (t := x) ?_ (fun hx => ?_); unfold x; clear x; rotate_left; clear_value x; rotate_right) | clear_value x) | split

theorem State.unfencePage_keeps {s0 : State} {s : State} {p : Nat} (hs : Keeps s0 s) : Keeps s0 (State.unfencePage s p) := by
  unfold State.unfencePage
  with_reducible repeat' first | assumption | apply State.unitUnfenced_keeps | apply State.put_keeps | split

theorem State.unfenceActuator_keeps {s0 : State} {s : State} {a : Nat} (hs : Keeps s0 s) : Keeps s0 (State.unfenceActuator s a) := by
  unfold State.unfenceActuator
  with_reducible repeat' first | assumption | intro _ | apply State.unfencePage_keeps | apply State.unfenceSub_keeps | apply each_keeps | (extract_lets +onlyGivenNames x; first | (refine keeps_cut (s := s0) (t := x) ?_ (fun hx => ?_); unfold x; clear x; rotate_left; clear_value x; rotate_right) | clear_value x)

theorem State.bfmDrop_keeps {s0 : State} {s : State} (hs : Keeps s0 s) : Keeps s0 (State.bfmDrop s) := by
  unfold State.bfmDrop
  with_reducible repeat' first | assumption | intro _ | apply State.respond_keeps | apply each_keeps | (extract_lets +onlyGivenNames x; first | (refine keeps_cut (s := s0) (t := x) ?_ (fun hx => ?_); unfold x; clear x; rotate_left; clear_value x; rotate_right) | clear_value x) | (refine keeps_mk ?_ rfl ?_; rotate_left; (intro hk; cases hk; constructor <;> first | assumption | exact tabPut_sorted (by assumption) | exact filter_sorted (by assumption) | exact tabSorted_nil | exact foldl_tabPut_sorted (by assumption)))

theorem State.fuseDefaults_keeps {s0 : State} {s : State} {p : Nat} (hs : Keeps s0 s) : Keeps s0 (State.fuseDefaults s p) := by
  unfold State.fuseDefaults
  with_reducible repeat' first | assumption | intro _ | apply State.setReg_keeps | apply State.secDefaults_keeps | (extract_lets +onlyGivenNames x; first | (have hf : ∀ y, x y = x y := fun _ => rfl; clear hf; unfold x; clear x) | clear_value x) | split

theorem State.unitOn_keeps {s0 : State} {s : State} {p : Nat} (hs : Keeps s0 s) : Keeps s0 (State.unitOn s p) := by
  unfold State.unitOn
  with_reducible repeat' first | assumption | intro _ | apply State.refresh_keeps | apply State.fuseDefaults_keeps | apply State.nvsProbe_keeps | apply State.settlePort_keeps | (extract_lets +onlyGivenNames x; first | (refine keeps_cut (s := s0) (t := x) ?_ (fun hx => ?_); unfold x; clear x; rotate_left; clear_value x; rotate_right) | clear_value x) | split

theorem State.unitReset_keeps {s0 : State} {s : State} {p : Nat} (hs : Keeps s0 s) : Keeps s0 (State.unitReset s p) := by
  unfold State.unitReset
  split
  · exact State.setWr_keeps (State.unitClear_keeps (State.abortWrite_keeps (State.abortRead_keeps hs)))
  · exact State.unitClear_keeps (State.speedLost_keeps hs)
  · refine State.unitClear_keeps ?_
    split
    · exact hs
    · exact State.shockOver_keeps hs
  · exact State.resetDrill_keeps hs
  · split
    · exact hs
    · exact State.linkDrop_keeps hs
  · exact State.trackerIdle_keeps hs
  · exact State.nvsStop_keeps hs
  · exact State.mdcOff_keeps hs
  · exact State.unitClear_keeps (State.abortStripes_keeps hs)
  · exact State.unitClear_keeps (State.afmEndAll_keeps hs)
  · exact State.dmaReset_keeps hs
  · exact State.bfmDrop_keeps (State.dramOff_keeps hs)
  · exact keeps_mk hs rfl (fun h => { h with })
  · exact State.unitClear_keeps (State.linkEnd_keeps hs)
  · exact keeps_mk hs rfl (fun h => { h with })
  · exact State.unitClear_keeps hs

theorem State.fenceActuator_keeps {s0 : State} {s : State} {a : Nat} {lvl : Nat} {cls : Nat} {src : Nat} (hs : Keeps s0 s) : Keeps s0 (State.fenceActuator s a lvl cls src) := by
  unfold State.fenceActuator
  with_reducible repeat' first | assumption | intro _ | apply State.fencePage_keeps | apply State.fenceLoop_keeps | apply State.dropGates_keeps | apply State.noteInhibit_keeps | apply State.seekFenced_keeps | apply State.stpActFenced_keeps | apply each_keeps | (extract_lets +onlyGivenNames x; first | (refine keeps_cut (s := s0) (t := x) ?_ (fun hx => ?_); unfold x; clear x; rotate_left; clear_value x; rotate_right) | clear_value x) | split | (refine keeps_mk ?_ rfl ?_; rotate_left; (intro hk; cases hk; constructor <;> first | assumption | exact tabPut_sorted (by assumption) | exact filter_sorted (by assumption) | exact tabSorted_nil | exact foldl_tabPut_sorted (by assumption)))

theorem State.fltLatch_keeps {s0 : State} {s : State} (hs : Keeps s0 s) : Keeps s0 (State.fltLatch s) := by
  unfold State.fltLatch
  with_reducible repeat' first | assumption | apply State.irqBits_keeps

theorem execAck_keeps {s0 : State} {m : Master} {v : Word} {s : State} (hs : Keeps s0 s) : KeepsOut s0 (execAck m v s) := by
  unfold execAck
  with_reducible repeat' first | assumption | intro _ | apply State.regCmd_keeps | apply State.fltLatch_keeps | apply State.put_keeps | apply each_keeps | apply Keeps.out | (extract_lets +onlyGivenNames x; first | (refine keeps_cut (s := s0) (t := x) ?_ (fun hx => ?_); unfold x; clear x; rotate_left; clear_value x; rotate_right) | clear_value x)

theorem State.deviceInhibit_keeps {s0 : State} {s : State} (hs : Keeps s0 s) : Keeps s0 (State.deviceInhibit s) := by
  unfold State.deviceInhibit
  with_reducible repeat' first | assumption | intro _ | apply State.dropGates_keeps | apply State.noteAllInhibit_keeps | (extract_lets +onlyGivenNames x; first | (refine keeps_cut (s := s0) (t := x) ?_ (fun hx => ?_); unfold x; clear x; rotate_left; clear_value x; rotate_right) | clear_value x) | split | (refine keeps_mk ?_ rfl ?_; rotate_left; (intro hk; cases hk; constructor <;> first | assumption | exact tabPut_sorted (by assumption) | exact filter_sorted (by assumption) | exact tabSorted_nil | exact foldl_tabPut_sorted (by assumption)))

theorem State.degrade_keeps {s0 : State} {s : State} {cls : Nat} {seq : Nat} (hs : Keeps s0 s) : Keeps s0 (State.degrade s cls seq) := by
  unfold State.degrade
  with_reducible repeat' first | assumption | apply State.put_keeps | apply State.deviceInhibit_keeps | (extract_lets +onlyGivenNames x; first | (refine keeps_cut (s := s0) (t := x) ?_ (fun hx => ?_); unfold x; clear x; rotate_left; clear_value x; rotate_right) | (have hf : ∀ y, x y = x y := fun _ => rfl; clear hf; unfold x; clear x) | clear_value x) | split

theorem State.fenceUnit_keeps {s0 : State} {s : State} {u : FenceUnit} {lvl : Nat} {cls : Nat} {src : Nat} (hs : Keeps s0 s) : Keeps s0 (State.fenceUnit s u lvl cls src) := by
  unfold State.fenceUnit
  with_reducible repeat' first | assumption | apply State.fencePage_keeps | apply State.fenceSub_keeps | apply State.fenceActuator_keeps | split

theorem State.aliveStop_keeps {s0 : State} {s : State} {cause : Nat} {t : Nat} (hs : Keeps s0 s) : Keeps s0 (State.aliveStop s cause t) := by
  unfold State.aliveStop
  with_reducible repeat' first | assumption | intro _ | apply State.put_keeps | apply State.putB_keeps | (extract_lets +onlyGivenNames x; clear_value x) | split

theorem State.goSafe_keeps {s0 : State} {s : State} {r : Report} {seq : Nat} (hs : Keeps s0 s) : Keeps s0 (State.goSafe s r seq) := by
  unfold State.goSafe
  with_reducible repeat' first | assumption | intro _ | apply State.put_keeps | apply State.aliveStop_keeps | apply State.deviceInhibit_keeps | apply State.askEmergency_keeps | apply State.askRetract_keeps | (extract_lets +onlyGivenNames x; first | (refine keeps_cut (s := s0) (t := x) ?_ (fun hx => ?_); unfold x; clear x; rotate_left; clear_value x; rotate_right) | clear_value x) | split

theorem State.fltActions_keeps {s0 : State} {s : State} {r : Report} {lvl : Nat} {seq : Nat} (hs : Keeps s0 s) : Keeps s0 (State.fltActions s r lvl seq) := by
  unfold State.fltActions
  with_reducible repeat' first | assumption | intro _ | apply State.degrade_keeps | apply State.fenceUnit_keeps | apply State.goSafe_keeps | (extract_lets +onlyGivenNames x; first | (refine keeps_cut (s := s0) (t := x) ?_ (fun hx => ?_); unfold x; clear x; rotate_left; clear_value x; rotate_right) | (have hf : ∀ y, x y = x y := fun _ => rfl; clear hf; unfold x; clear x) | clear_value x) | split

theorem execClrDegraded_keeps {s0 : State} {m : Master} {s : State} (hs : Keeps s0 s) : KeepsOut s0 (execClrDegraded m s) := by
  unfold execClrDegraded
  with_reducible repeat' first | assumption | intro _ | apply State.regCmd_keeps | apply State.put_keeps | apply Keeps.out | (extract_lets +onlyGivenNames x; first | (refine keeps_cut (s := s0) (t := x) ?_ (fun hx => ?_); unfold x; clear x; rotate_left; clear_value x; rotate_right) | clear_value x) | split | (refine keeps_mk ?_ rfl ?_; rotate_left; (intro hk; cases hk; constructor <;> first | assumption | exact tabPut_sorted (by assumption) | exact filter_sorted (by assumption) | exact tabSorted_nil | exact foldl_tabPut_sorted (by assumption)))

theorem State.wdogExpire_keeps {s0 : State} {s : State} {t : Nat} (hs : Keeps s0 s) : Keeps s0 (State.wdogExpire s t) := by
  unfold State.wdogExpire
  with_reducible repeat' first | assumption | intro _ | apply State.fltLatch_keeps | apply State.aliveStop_keeps | apply State.put_keeps | (extract_lets +onlyGivenNames x; first | (refine keeps_cut (s := s0) (t := x) ?_ (fun hx => ?_); unfold x; clear x; rotate_left; clear_value x; rotate_right) | clear_value x) | (refine keeps_mk ?_ rfl ?_; rotate_left; (intro hk; cases hk; constructor <;> first | assumption | exact tabPut_sorted (by assumption) | exact filter_sorted (by assumption) | exact tabSorted_nil | exact foldl_tabPut_sorted (by assumption)))

theorem execWdogExpired_keeps {s0 : State} {s : State} (hs : Keeps s0 s) : KeepsOut s0 (execWdogExpired s) := by
  unfold execWdogExpired
  with_reducible repeat' first | assumption | intro _ | apply State.raise_keeps | apply State.wdogExpire_keeps | apply Keeps.out | split

theorem State.putWords_keeps {s0 : State} {s : State} {p : Nat} {off : Nat} {ws : List Nat} (hs : Keeps s0 s) : Keeps s0 (State.putWords s p off ws) := by
  unfold State.putWords
  with_reducible repeat' first | assumption | intro _ | apply State.setReg_keeps | apply each_keeps

theorem State.fltRecord_keeps {s0 : State} {s : State} {r : Report} {lvl : Nat} {esc : Bool} (hs : Keeps s0 s) : Keeps s0 (State.fltRecord s r lvl esc) := by
  unfold State.fltRecord
  with_reducible repeat' first | assumption | apply State.addSat_keeps | apply State.putWords_keeps | apply State.put_keeps | apply State.addWrap_keeps | (extract_lets +onlyGivenNames x; first | (refine keeps_cut (s := s0) (t := x) ?_ (fun hx => ?_); unfold x; clear x; rotate_left; clear_value x; rotate_right) | clear_value x) | split

theorem State.fltGrade_keeps {s0 : State} {s : State} {r : Report} (hs : Keeps s0 s) : Keeps s0 (State.fltGrade s r) := by
  unfold State.fltGrade
  with_reducible repeat' first | assumption | intro _ | apply State.fltLatch_keeps | apply State.fltActions_keeps | apply State.fltRecord_keeps | (extract_lets +onlyGivenNames x; clear_value x) | split

theorem execWdogEnable_keeps {s0 : State} {m : Master} {period : BitVec 16} {en : Bool} {s : State} (hs : Keeps s0 s) : KeepsOut s0 (execWdogEnable m period en s) := by
  unfold execWdogEnable
  with_reducible repeat' first | assumption | intro _ | apply State.regCmd_keeps | apply State.put_keeps | apply Keeps.out | (extract_lets +onlyGivenNames x; first | (refine keeps_cut (s := s0) (t := x) ?_ (fun hx => ?_); unfold x; clear x; rotate_left; clear_value x; rotate_right) | clear_value x) | split | (refine keeps_mk ?_ rfl ?_; rotate_left; (intro hk; cases hk; constructor <;> first | assumption | exact tabPut_sorted (by assumption) | exact filter_sorted (by assumption) | exact tabSorted_nil | exact foldl_tabPut_sorted (by assumption)))

theorem execAliveStart_keeps {s0 : State} {m : Master} {s : State} (hs : Keeps s0 s) : KeepsOut s0 (execAliveStart m s) := by
  unfold execAliveStart
  with_reducible repeat' first | assumption | intro _ | apply State.regCmd_keeps | apply State.put_keeps | apply Keeps.out | split | (refine keeps_mk ?_ rfl ?_; rotate_left; (intro hk; cases hk; constructor <;> first | assumption | exact tabPut_sorted (by assumption) | exact filter_sorted (by assumption) | exact tabSorted_nil | exact foldl_tabPut_sorted (by assumption)))

theorem State.detect_keeps {s0 : State} {s : State} {p : Nat} {b : Nat} {sub : Option Nat} (hs : Keeps s0 s) : Keeps s0 (State.detect s p b sub) := by
  unfold State.detect
  with_reducible repeat' first | assumption | intro _ | apply State.raise_keeps | apply State.slotLost_keeps | apply State.raiseWith_keeps | split

theorem execFaultEvent_keeps {s0 : State} {det : Option (Fin 352 × Fin 32 × Option (BitVec 8))} {s : State} (hs : Keeps s0 s) : KeepsOut s0 (execFaultEvent det s) := by
  unfold execFaultEvent
  with_reducible repeat' first | assumption | intro _ | apply State.detect_keeps | apply State.fltGrade_keeps | dsimp -zeta only | refine keeps_of_fst ?_ (by assumption) | refine keeps_of_snd ?_ (by assumption) | apply Keeps.out | (extract_lets +onlyGivenNames x; first | (refine keeps_cut (s := s0) (t := x) ?_ (fun hx => ?_); unfold x; clear x; rotate_left; clear_value x; rotate_right) | clear_value x) | split | (refine keeps_mk ?_ rfl ?_; rotate_left; (intro hk; cases hk; constructor <;> first | assumption | exact tabPut_sorted (by assumption) | exact filter_sorted (by assumption) | exact tabSorted_nil | exact foldl_tabPut_sorted (by assumption)))

theorem execUnfenceDone_keeps {s0 : State} {s : State} (hs : Keeps s0 s) : KeepsOut s0 (execUnfenceDone s) := by
  unfold execUnfenceDone
  with_reducible repeat' first | assumption | intro _ | apply State.unfenceSub_keeps | apply State.unfenceActuator_keeps | apply State.unfencePage_keeps | apply State.irq_keeps | apply State.put_keeps | apply Keeps.out | (extract_lets +onlyGivenNames x; first | (refine keeps_cut (s := s0) (t := x) ?_ (fun hx => ?_); unfold x; clear x; rotate_left; clear_value x; rotate_right) | clear_value x) | split | (refine keeps_mk ?_ rfl ?_; rotate_left; (intro hk; cases hk; constructor <;> first | assumption | exact tabPut_sorted (by assumption) | exact filter_sorted (by assumption) | exact tabSorted_nil | exact foldl_tabPut_sorted (by assumption)))

theorem execAliveEdge_keeps {s0 : State} {s : State} (hs : Keeps s0 s) : KeepsOut s0 (execAliveEdge s) := by
  unfold execAliveEdge
  with_reducible repeat' first | assumption | intro _ | apply State.putB_keeps | apply Keeps.out | split

theorem execUnfence_keeps {s0 : State} {m : Master} {page : BitVec 9} {sub : Option (BitVec 8)} {s : State} (hs : Keeps s0 s) : KeepsOut s0 (execUnfence m page sub s) := by
  unfold execUnfence
  with_reducible repeat' first | assumption | intro _ | apply State.regCmd_keeps | apply State.put_keeps | apply Keeps.out | (extract_lets +onlyGivenNames x; first | (refine keeps_cut (s := s0) (t := x) ?_ (fun hx => ?_); unfold x; clear x; rotate_left; clear_value x; rotate_right) | clear_value x) | split | (refine keeps_mk ?_ rfl ?_; rotate_left; (intro hk; cases hk; constructor <;> first | assumption | exact tabPut_sorted (by assumption) | exact filter_sorted (by assumption) | exact tabSorted_nil | exact foldl_tabPut_sorted (by assumption)))

theorem execWdogKick_keeps {s0 : State} {m : Master} {v : Word} {s : State} (hs : Keeps s0 s) : KeepsOut s0 (execWdogKick m v s) := by
  unfold execWdogKick
  with_reducible repeat' first | assumption | intro _ | apply State.regCmd_keeps | apply State.raiseBy_keeps | apply State.put_keeps | apply Keeps.out | split | (refine keeps_mk ?_ rfl ?_; rotate_left; (intro hk; cases hk; constructor <;> first | assumption | exact tabPut_sorted (by assumption) | exact filter_sorted (by assumption) | exact tabSorted_nil | exact foldl_tabPut_sorted (by assumption)))

theorem execOscStable_keeps {s0 : State} {s : State} (hs : Keeps s0 s) : KeepsOut s0 (execOscStable s) := by
  unfold execOscStable
  with_reducible repeat' first | assumption | intro _ | apply State.put_keeps | apply Keeps.out | (extract_lets +onlyGivenNames x; first | (refine keeps_cut (s := s0) (t := x) ?_ (fun hx => ?_); unfold x; clear x; rotate_left; clear_value x; rotate_right) | clear_value x) | split | (refine keeps_mk ?_ rfl ?_; rotate_left; (intro hk; cases hk; constructor <;> first | assumption | exact tabPut_sorted (by assumption) | exact filter_sorted (by assumption) | exact tabSorted_nil | exact foldl_tabPut_sorted (by assumption)))

theorem State.domFill_keeps {s0 : State} {s : State} {d : Nat} (hs : Keeps s0 s) : Keeps s0 (State.domFill s d) := by
  unfold State.domFill
  with_reducible repeat' first | assumption | apply State.zeroRange_keeps | split

theorem State.holdCore_keeps {s0 : State} {s : State} {d : Nat} (hs : Keeps s0 s) : Keeps s0 (State.holdCore s d) := by
  unfold State.holdCore
  with_reducible repeat' first | assumption | apply State.put_keeps | split

theorem execDomainFailed_keeps {s0 : State} {d : Fin 141} {s : State} (hs : Keeps s0 s) : KeepsOut s0 (execDomainFailed d s) := by
  unfold execDomainFailed
  with_reducible repeat' first | assumption | intro _ | apply State.setDom_keeps | apply State.holdCore_keeps | apply State.raiseWith_keeps | apply State.irq_keeps | apply Keeps.out | (extract_lets +onlyGivenNames x; first | (refine keeps_cut (s := s0) (t := x) ?_ (fun hx => ?_); unfold x; clear x; rotate_left; clear_value x; rotate_right) | clear_value x) | split

theorem State.domLost_keeps {s0 : State} {s : State} {d : Nat} (hs : Keeps s0 s) : Keeps s0 (State.domLost s d) := by
  unfold State.domLost
  with_reducible repeat' first | assumption | intro _ | apply State.unitOff_keeps | apply State.holdCore_keeps | apply State.ddStopped_keeps | apply State.keysLost_keeps | apply each_keeps | (extract_lets +onlyGivenNames x; first | (refine keeps_cut (s := s0) (t := x) ?_ (fun hx => ?_); unfold x; clear x; rotate_left; clear_value x; rotate_right) | clear_value x) | split

theorem State.domWithdraw_keeps {s0 : State} {s : State} {d : Nat} (hs : Keeps s0 s) : Keeps s0 (State.domWithdraw s d) := by
  unfold State.domWithdraw
  with_reducible repeat' first | assumption | intro _ | apply State.setDom_keeps | apply State.domLost_keeps | (extract_lets +onlyGivenNames x; first | (refine keeps_cut (s := s0) (t := x) ?_ (fun hx => ?_); unfold x; clear x; rotate_left; clear_value x; rotate_right) | clear_value x) | split | (refine keeps_mk ?_ rfl ?_; rotate_left; (intro hk; cases hk; constructor <;> first | assumption | exact tabPut_sorted (by assumption) | exact filter_sorted (by assumption) | exact tabSorted_nil | exact foldl_tabPut_sorted (by assumption)))

theorem State.domRequest_keeps {s0 : State} {s : State} {d : Nat} (hs : Keeps s0 s) : Keeps s0 (State.domRequest s d) := by
  unfold State.domRequest
  with_reducible repeat' first | assumption | intro _ | apply State.setDom_keeps | (extract_lets +onlyGivenNames x; first | (refine keeps_cut (s := s0) (t := x) ?_ (fun hx => ?_); unfold x; clear x; rotate_left; clear_value x; rotate_right) | clear_value x) | split | (refine keeps_mk ?_ rfl ?_; rotate_left; (intro hk; cases hk; constructor <;> first | assumption | exact tabPut_sorted (by assumption) | exact filter_sorted (by assumption) | exact tabSorted_nil | exact foldl_tabPut_sorted (by assumption)))

theorem execDomainOff_keeps {s0 : State} {d : Fin 141} {s : State} (hs : Keeps s0 s) : KeepsOut s0 (execDomainOff d s) := by
  unfold execDomainOff
  with_reducible repeat' first | assumption | apply State.setDom_keeps | apply State.domRequest_keeps | apply Keeps.out | (extract_lets +onlyGivenNames x; first | (refine keeps_cut (s := s0) (t := x) ?_ (fun hx => ?_); unfold x; clear x; rotate_left; clear_value x; rotate_right) | clear_value x) | split

theorem State.thmCheck_keeps {s0 : State} {s : State} {i : Nat} {thr : Nat} {t : Int} (hs : Keeps s0 s) : Keeps s0 (State.thmCheck s i thr t) := by
  unfold State.thmCheck
  with_reducible repeat' first | assumption | intro _ | apply State.raise_keeps | apply State.irq_keeps | split | (refine keeps_mk ?_ rfl ?_; rotate_left; (intro hk; cases hk; constructor <;> first | assumption | exact tabPut_sorted (by assumption) | exact filter_sorted (by assumption) | exact tabSorted_nil | exact foldl_tabPut_sorted (by assumption)))

theorem execPllLock_keeps {s0 : State} {us : BitVec 16} {s : State} (hs : Keeps s0 s) : KeepsOut s0 (execPllLock us s) := by
  unfold execPllLock
  with_reducible repeat' first | assumption | intro _ | apply State.irq_keeps | apply State.put_keeps | apply Keeps.out | (extract_lets +onlyGivenNames x; first | (have hf : ∀ y, x y = x y := fun _ => rfl; clear hf; unfold x; clear x) | clear_value x) | split | (refine keeps_mk ?_ rfl ?_; rotate_left; (intro hk; cases hk; constructor <;> first | assumption | exact tabPut_sorted (by assumption) | exact filter_sorted (by assumption) | exact tabSorted_nil | exact foldl_tabPut_sorted (by assumption)))

theorem State.clockLoss_keeps {s0 : State} {s : State} {b : Nat} (hs : Keeps s0 s) : Keeps s0 (State.clockLoss s b) := by
  unfold State.clockLoss
  with_reducible repeat' first | assumption | apply State.put_keeps | (extract_lets +onlyGivenNames x; first | (refine keeps_cut (s := s0) (t := x) ?_ (fun hx => ?_); unfold x; clear x; rotate_left; clear_value x; rotate_right) | clear_value x) | split

theorem execLockLoss_keeps {s0 : State} {s : State} (hs : Keeps s0 s) : KeepsOut s0 (execLockLoss s) := by
  unfold execLockLoss
  with_reducible repeat' first | assumption | apply State.raise_keeps | apply State.clockLoss_keeps | apply Keeps.out | split

theorem execTempSample_keeps {s0 : State} {ts : List (BitVec 16)} {s : State} (hs : Keeps s0 s) : KeepsOut s0 (execTempSample ts s) := by
  unfold execTempSample
  with_reducible repeat' first | assumption | intro _ | apply State.setReg_keeps | apply State.thmCheck_keeps | apply Keeps.out | (extract_lets +onlyGivenNames x; first | (refine keeps_cut (s := s0) (t := x) ?_ (fun hx => ?_); unfold x; clear x; rotate_left; clear_value x; rotate_right) | clear_value x) | split | (refine keeps_mk ?_ rfl ?_; rotate_left; (intro hk; cases hk; constructor <;> first | assumption | exact tabPut_sorted (by assumption) | exact filter_sorted (by assumption) | exact tabSorted_nil | exact foldl_tabPut_sorted (by assumption)))

theorem State.domBad_keeps {s0 : State} {s : State} {d : Nat} (hs : Keeps s0 s) : Keeps s0 (State.domBad s d) := by
  unfold State.domBad
  with_reducible repeat' first | assumption | intro _ | apply State.reportUnnamed_keeps | apply State.selfTestFault_keeps | apply State.irq_keeps | apply State.raise_keeps | (extract_lets +onlyGivenNames x; first | (refine keeps_cut (s := s0) (t := x) ?_ (fun hx => ?_); unfold x; clear x; rotate_left; clear_value x; rotate_right) | clear_value x) | split

theorem execDomainUp_keeps {s0 : State} {d : Fin 141} {phase : Fin 3} {bad : Bool} {s : State} (hs : Keeps s0 s) : KeepsOut s0 (execDomainUp d phase bad s) := by
  unfold execDomainUp
  with_reducible repeat' first | assumption | intro _ | apply State.setDom_keeps | apply State.domFill_keeps | apply State.domBad_keeps | apply State.holdCore_keeps | apply State.drew_keeps | apply State.unitOn_keeps | apply State.noteDds_keeps | apply State.irq_keeps | apply each_keeps | apply Keeps.out | (extract_lets +onlyGivenNames x; first | (refine keeps_cut (s := s0) (t := x) ?_ (fun hx => ?_); unfold x; clear x; rotate_left; clear_value x; rotate_right) | clear_value x) | split

theorem execXtalLoss_keeps {s0 : State} {s : State} (hs : Keeps s0 s) : KeepsOut s0 (execXtalLoss s) := by
  unfold execXtalLoss
  with_reducible repeat' first | assumption | apply State.raise_keeps | apply State.clockLoss_keeps | apply Keeps.out | split

theorem execDomainRampStart_keeps {s0 : State} {s : State} (hs : Keeps s0 s) : KeepsOut s0 (execDomainRampStart s) := by
  unfold execDomainRampStart
  with_reducible repeat' first | assumption | intro _ | apply State.setDom_keeps | apply Keeps.out | (extract_lets +onlyGivenNames x; first | (refine keeps_cut (s := s0) (t := x) ?_ (fun hx => ?_); unfold x; clear x; rotate_left; clear_value x; rotate_right) | clear_value x) | split | (refine keeps_mk ?_ rfl ?_; rotate_left; (intro hk; cases hk; constructor <;> first | assumption | exact tabPut_sorted (by assumption) | exact filter_sorted (by assumption) | exact tabSorted_nil | exact foldl_tabPut_sorted (by assumption)))

theorem execDomReq_keeps {s0 : State} {m : Master} {v : BitVec 17} {s : State} (hs : Keeps s0 s) : KeepsOut s0 (execDomReq m v s) := by
  unfold execDomReq
  with_reducible repeat' first | assumption | intro _ | apply State.regCmd_keeps | apply State.domRequest_keeps | apply State.domWithdraw_keeps | apply State.put_keeps | apply State.raiseBy_keeps | apply each_keeps | apply Keeps.out | (extract_lets +onlyGivenNames x; first | (refine keeps_cut (s := s0) (t := x) ?_ (fun hx => ?_); unfold x; clear x; rotate_left; clear_value x; rotate_right) | clear_value x) | split

theorem State.hdrOn_keeps {s0 : State} {s : State} {p : Nat} {k : State → State} (hs : Keeps s0 s) (hk : ∀ y0, Keeps s0 y0 → Keeps s0 (k y0)) : Keeps s0 (State.hdrOn s p k) := by
  unfold State.hdrOn
  with_reducible repeat' first | assumption | intro _ | apply State.hdrCmd_keeps | apply hk | split

theorem State.writeEnable_keeps {s0 : State} {s : State} {p : Nat} {on_ : Bool} (hs : Keeps s0 s) : Keeps s0 (State.writeEnable s p on_) := by
  unfold State.writeEnable
  with_reducible repeat' first | assumption | intro _ | apply State.unitEnabled_keeps | apply State.put_keeps | apply State.spnRefuse_keeps | apply State.goCoast_keeps | apply State.unitDisabled_keeps | split

theorem execEnable_keeps {s0 : State} {m : Master} {p : Fin 352} {on_ : Bool} {s : State} (hs : Keeps s0 s) : KeepsOut s0 (execEnable m p on_ s) := by
  unfold execEnable
  with_reducible repeat' first | assumption | intro _ | apply State.hdrOn_keeps | apply State.writeEnable_keeps | apply Keeps.out | (extract_lets +onlyGivenNames x; clear_value x)

theorem execIrqDone_keeps {s0 : State} {m : Master} {c : Fin 9} {n : BitVec 8} {s : State} (hs : Keeps s0 s) : KeepsOut s0 (execIrqDone m c n s) := by
  unfold execIrqDone
  with_reducible repeat' first | assumption | intro _ | apply State.regCmd_keeps | apply Keeps.out | (refine keeps_mk ?_ rfl ?_; rotate_left; (intro hk; cases hk; constructor <;> first | assumption | exact tabPut_sorted (by assumption) | exact filter_sorted (by assumption) | exact tabSorted_nil | exact foldl_tabPut_sorted (by assumption)))

theorem State.latchLevels_keeps {s0 : State} {s : State} {p : Nat} (hs : Keeps s0 s) : Keeps s0 (State.latchLevels s p) := by
  unfold State.latchLevels
  with_reducible repeat' first | assumption | apply State.irqBits_keeps | split

theorem execIrqClaim_keeps {s0 : State} {m : Master} {c : Fin 9} {s : State} (hs : Keeps s0 s) : KeepsOut s0 (execIrqClaim m c s) := by
  unfold execIrqClaim
  with_reducible repeat' first | assumption | intro _ | apply State.regRead_keeps | apply State.answer_keeps | apply Keeps.out | split | (refine keeps_mk ?_ rfl ?_; rotate_left; (intro hk; cases hk; constructor <;> first | assumption | exact tabPut_sorted (by assumption) | exact filter_sorted (by assumption) | exact tabSorted_nil | exact foldl_tabPut_sorted (by assumption)))

theorem execLock_keeps {s0 : State} {m : Master} {p : Fin 352} {v : BitVec 2} {s : State} (hs : Keeps s0 s) : KeepsOut s0 (execLock m p v s) := by
  unfold execLock
  with_reducible repeat' first | assumption | intro _ | apply State.setReg_keeps | apply Keeps.out | (extract_lets +onlyGivenNames x; clear_value x) | split

theorem State.raiseForced_keeps {s0 : State} {s : State} {p : Nat} {b : Nat} (hs : Keeps s0 s) : Keeps s0 (State.raiseForced s p b) := by
  unfold State.raiseForced
  with_reducible repeat' first | assumption | intro _ | apply State.raiseWith_keeps

theorem State.forceMemory_keeps {s0 : State} {s : State} {p : Nat} {b : Nat} (hs : Keeps s0 s) : Keeps s0 (State.forceMemory s p b) := by
  unfold State.forceMemory
  with_reducible repeat' first | assumption | intro _ | apply State.mdcTake_keeps | apply State.inc_keeps | apply State.mdcDrop_keeps | apply State.setMdcEnt_keeps | apply State.mdcDisable_keeps | apply State.irq_keeps | apply State.raise_keeps | apply State.put_keeps | apply State.norEnd_keeps | apply State.slotLost_keeps | (extract_lets +onlyGivenNames x; first | (refine keeps_cut (s := s0) (t := x) ?_ (fun hx => ?_); unfold x; clear x; rotate_left; clear_value x; rotate_right) | clear_value x) | split | (refine keeps_mk ?_ rfl ?_; rotate_left; (intro hk; cases hk; constructor <;> first | assumption | exact tabPut_sorted (by assumption) | exact filter_sorted (by assumption) | exact tabSorted_nil | exact foldl_tabPut_sorted (by assumption)))

theorem State.resetHeader_keeps {s0 : State} {s : State} {p : Nat} (hs : Keeps s0 s) : Keeps s0 (State.resetHeader s p) := by
  unfold State.resetHeader
  with_reducible repeat' first | assumption | intro _ | apply State.setReg_keeps | apply State.disarm_keeps | (extract_lets +onlyGivenNames x; first | (refine keeps_cut (s := s0) (t := x) ?_ (fun hx => ?_); unfold x; clear x; rotate_left; clear_value x; rotate_right) | clear_value x)

theorem State.resetPage_keeps {s0 : State} {s : State} {p : Nat} (hs : Keeps s0 s) : Keeps s0 (State.resetPage s p) := by
  unfold State.resetPage
  with_reducible repeat' first | assumption | intro _ | apply State.resetHeader_keeps | apply State.unitReset_keeps | apply State.refresh_keeps | apply State.fuseDefaults_keeps | apply State.clearPage_keeps | apply State.norReport_keeps | (extract_lets +onlyGivenNames x; first | (refine keeps_cut (s := s0) (t := x) ?_ (fun hx => ?_); unfold x; clear x; rotate_left; clear_value x; rotate_right) | clear_value x) | split | (refine keeps_mk ?_ rfl ?_; rotate_left; (intro hk; cases hk; constructor <;> first | assumption | exact tabPut_sorted (by assumption) | exact filter_sorted (by assumption) | exact tabSorted_nil | exact foldl_tabPut_sorted (by assumption)))

theorem State.forceDma_keeps {s0 : State} {s : State} {b : Nat} (hs : Keeps s0 s) : Keeps s0 (State.forceDma s b) := by
  unfold State.forceDma
  with_reducible repeat' first | assumption | intro _ | apply State.raiseWith_keeps | apply State.setDma_keeps | (extract_lets +onlyGivenNames x; first | (refine keeps_cut (s := s0) (t := x) ?_ (fun hx => ?_); unfold x; clear x; rotate_left; clear_value x; rotate_right) | clear_value x) | split

theorem execIrqPendClear_keeps {s0 : State} {m : Master} {p : Fin 352} {v : Word} {s : State} (hs : Keeps s0 s) : KeepsOut s0 (execIrqPendClear m p v s) := by
  unfold execIrqPendClear
  with_reducible repeat' first | assumption | intro _ | apply State.hdrOn_keeps | apply State.setReg_keeps | apply Keeps.out | (extract_lets +onlyGivenNames x; clear_value x)

theorem State.writePower_keeps {s0 : State} {s : State} {p : Nat} {on_ : Bool} (hs : Keeps s0 s) : Keeps s0 (State.writePower s p on_) := by
  unfold State.writePower
  with_reducible repeat' first | assumption | intro _ | apply State.domRequest_keeps | apply State.domWithdraw_keeps | split

theorem State.forceMotion_keeps {s0 : State} {s : State} {p : Nat} {b : Nat} (hs : Keeps s0 s) : Keeps s0 (State.forceMotion s p b) := by
  unfold State.forceMotion
  with_reducible repeat' first | assumption | intro _ | apply State.spnGo_keeps | apply State.spnOutcome_keeps | apply State.irq_keeps | apply State.speedLost_keeps | apply State.shortBrake_keeps | apply State.bridgeTrip_keeps | apply State.inc_keeps | apply State.rampGo_keeps | apply State.put_keeps | apply State.parkFailed_keeps | apply State.askEmergency_keeps | apply State.askRetract_keeps | apply State.supplyLoss_keeps | apply Keeps.out | (extract_lets +onlyGivenNames x; clear_value x) | split

theorem State.forceLoop_keeps {s0 : State} {s : State} {p : Nat} {j : Nat} {b : Nat} (hs : Keeps s0 s) : Keeps s0 (State.forceLoop s p j b) := by
  unfold State.forceLoop
  with_reducible repeat' first | assumption | apply State.inc_keeps | apply State.put_keeps | apply State.irq_keeps | apply State.addSat_keeps | split

theorem State.forceHead_keeps {s0 : State} {s : State} {h : Nat} {b : Nat} (hs : Keeps s0 s) : Keeps s0 (State.forceHead s h b) := by
  unfold State.forceHead
  with_reducible repeat' first | assumption | intro _ | apply State.irq_keeps | apply State.inc_keeps | apply State.abortWrite_keeps | apply State.dropGates_keeps | apply State.noteInhibit_keeps | apply State.put_keeps | (extract_lets +onlyGivenNames x; clear_value x) | split

theorem State.forceEffect_keeps {s0 : State} {s : State} {p : Nat} {b : Nat} (hs : Keeps s0 s) : Keeps s0 (State.forceEffect s p b) := by
  unfold State.forceEffect
  with_reducible repeat' first | assumption | intro _ | apply State.clockLoss_keeps | apply State.irq_keeps | apply State.holdCore_keeps | apply State.setDom_keeps | apply State.put_keeps | apply State.noteInhibit_keeps | apply State.abortWrite_keeps | apply State.wdogExpire_keeps | apply State.inc_keeps | apply State.forceMotion_keeps | apply State.linkEnd_keeps | apply State.setPort_keeps | apply State.flrOver_keeps | apply State.supplyLoss_keeps | apply State.forceLoop_keeps | apply State.endRoutine_keeps | apply State.setAlert_keeps | apply State.forceHead_keeps | apply State.forceMemory_keeps | apply each_keeps | (extract_lets +onlyGivenNames x; first | (refine keeps_cut (s := s0) (t := x) ?_ (fun hx => ?_); unfold x; clear x; rotate_left; clear_value x; rotate_right) | clear_value x) | split | (refine keeps_mk ?_ rfl ?_; rotate_left; (intro hk; cases hk; constructor <;> first | assumption | exact tabPut_sorted (by assumption) | exact filter_sorted (by assumption) | exact tabSorted_nil | exact foldl_tabPut_sorted (by assumption)))

theorem State.forceFault_keeps {s0 : State} {s : State} {p : Nat} {b : Nat} (hs : Keeps s0 s) : Keeps s0 (State.forceFault s p b) := by
  unfold State.forceFault
  with_reducible repeat' first | assumption | intro _ | apply State.forceDma_keeps | apply State.forceEffect_keeps | apply State.raiseForced_keeps | split

theorem execFltForce_keeps {s0 : State} {m : Master} {p : Fin 352} {v : Word} {s : State} (hs : Keeps s0 s) : KeepsOut s0 (execFltForce m p v s) := by
  unfold execFltForce
  with_reducible repeat' first | assumption | intro _ | apply State.hdrOn_keeps | apply State.forceFault_keeps | apply each_keeps | apply Keeps.out | (extract_lets +onlyGivenNames x; clear_value x) | split

theorem State.softReset_keeps {s0 : State} {s : State} {p : Nat} (hs : Keeps s0 s) : Keeps s0 (State.softReset s p) := by
  unfold State.softReset
  with_reducible repeat' first | assumption | intro _ | apply State.setReg_keeps | apply State.spnRefuse_keeps | apply State.put_keeps | apply State.clearRegs_keeps | apply State.resetPage_keeps | apply State.goCoast_keeps | (extract_lets +onlyGivenNames x; first | (refine keeps_cut (s := s0) (t := x) ?_ (fun hx => ?_); unfold x; clear x; rotate_left; clear_value x; rotate_right) | clear_value x) | split

theorem execSoftReset_keeps {s0 : State} {m : Master} {p : Fin 352} {pr : Bool} {s : State} (hs : Keeps s0 s) : KeepsOut s0 (execSoftReset m p pr s) := by
  unfold execSoftReset
  with_reducible repeat' first | assumption | intro _ | apply State.writePower_keeps | apply State.hdrOn_keeps | apply State.softReset_keeps | apply Keeps.out | (extract_lets +onlyGivenNames x; first | (refine keeps_cut (s := s0) (t := x) ?_ (fun hx => ?_); unfold x; clear x; rotate_left; clear_value x; rotate_right) | clear_value x) | split | (refine keeps_mk ?_ rfl ?_; rotate_left; (intro hk; cases hk; constructor <;> first | assumption | exact tabPut_sorted (by assumption) | exact filter_sorted (by assumption) | exact tabSorted_nil | exact foldl_tabPut_sorted (by assumption)))

theorem execSoftResetDone_keeps {s0 : State} {p : Fin 352} {s : State} (hs : Keeps s0 s) : KeepsOut s0 (execSoftResetDone p s) := by
  unfold execSoftResetDone
  with_reducible repeat' first | assumption | intro _ | apply State.nvsProbe_keeps | apply State.settlePort_keeps | apply Keeps.out | (extract_lets +onlyGivenNames x; first | (refine keeps_cut (s := s0) (t := x) ?_ (fun hx => ?_); unfold x; clear x; rotate_left; clear_value x; rotate_right) | clear_value x) | split | (refine keeps_mk ?_ rfl ?_; rotate_left; (intro hk; cases hk; constructor <;> first | assumption | exact tabPut_sorted (by assumption) | exact filter_sorted (by assumption) | exact tabSorted_nil | exact foldl_tabPut_sorted (by assumption)))

theorem execPowerReq_keeps {s0 : State} {m : Master} {p : Fin 352} {on_ : Bool} {s : State} (hs : Keeps s0 s) : KeepsOut s0 (execPowerReq m p on_ s) := by
  unfold execPowerReq
  with_reducible repeat' first | assumption | apply State.writePower_keeps | apply Keeps.out | (extract_lets +onlyGivenNames x; clear_value x) | split

end Sys2Proof.Machine
end

