-- ==== Sys2Proof/Laws/KeepsStartUp.lean ====
section
/-! SUPPORT. The operations of StartUp, Access, DillBus, HostBar keep what `Keeps` says. -/

namespace Sys2Proof.Machine

theorem State.dropAll_keeps {s0 : State} {s : State} (hs : Keeps s0 s) : Keeps s0 (State.dropAll s) := by
  unfold State.dropAll
  with_reducible repeat' first | assumption | intro _ | apply State.abortRead_keeps | apply State.abortWrite_keeps | apply State.dmaReset_keeps | apply State.portReset_keeps | apply each_keeps | (extract_lets +onlyGivenNames x; first | (refine keeps_cut (s := s0) (t := x) ?_ (fun hx => ?_); unfold x; clear x; rotate_left; clear_value x; rotate_right) | clear_value x)

theorem execMotionPowerOnReset_keeps {s0 : State} {v5 : BitVec 16} {vhold : BitVec 16} {s : State} (hs : Keeps s0 s) : KeepsOut s0 (execMotionPowerOnReset v5 vhold s) := by
  unfold execMotionPowerOnReset
  with_reducible repeat' first | assumption | intro _ | apply State.motionReset_keeps | apply State.put_keeps | apply Keeps.out | (extract_lets +onlyGivenNames x; first | (refine keeps_cut (s := s0) (t := x) ?_ (fun hx => ?_); unfold x; clear x; rotate_left; clear_value x; rotate_right) | clear_value x) | split | (refine keeps_mk ?_ rfl ?_; rotate_left; (intro hk; cases hk; constructor <;> first | assumption | exact tabPut_sorted (by assumption) | exact filter_sorted (by assumption) | exact tabSorted_nil | exact foldl_tabPut_sorted (by assumption)))

theorem State.warmCore_keeps {s0 : State} {s : State} (hs : Keeps s0 s) : Keeps s0 (State.warmCore s) := by
  unfold State.warmCore
  refine keeps_mk hs rfl ?_
  intro hk
  have h1 := filter_wf (p := fun c => decide (c.1 < dramBase)) hk.mem
  have h2 : tabSorted (keepRegs s.regs) = true := by
    unfold keepRegs
    exact filterMap_sorted (by intro e y hy; revert hy; dsimp only; split <;> simp; rintro rfl; rfl) hk.regs
  cases hk; constructor <;> first | assumption | exact tabSorted_nil | skip
  exact filterMap_sorted (by intro e y hy; revert hy; dsimp only; split <;> simp; rintro rfl; rfl) (by assumption)

theorem execInitFillDone_keeps {s0 : State} {rom : Bool} {fails : List (Fin 352 × BitVec 8)} {s : State} (hs : Keeps s0 s) : KeepsOut s0 (execInitFillDone rom fails s) := by
  unfold execInitFillDone
  with_reducible repeat' first | assumption | apply State.zeroRange_keeps | apply State.selfTest_keeps | apply State.domRequest_keeps | apply State.put_keeps | apply Keeps.out | (extract_lets +onlyGivenNames x; first | (refine keeps_cut (s := s0) (t := x) ?_ (fun hx => ?_); unfold x; clear x; rotate_left; clear_value x; rotate_right) | clear_value x) | split

theorem State.motionWarm_keeps {s0 : State} {s : State} (hs : Keeps s0 s) : Keeps s0 (State.motionWarm s) := by
  unfold State.motionWarm
  with_reducible repeat' first | assumption | intro _ | apply State.motionReset_keeps | apply State.askEmergency_keeps | apply State.askRetract_keeps | (extract_lets +onlyGivenNames x; first | (refine keeps_cut (s := s0) (t := x) ?_ (fun hx => ?_); unfold x; clear x; rotate_left; clear_value x; rotate_right) | clear_value x) | split | (refine keeps_mk ?_ rfl ?_; rotate_left; (intro hk; cases hk; constructor <;> first | assumption | exact tabPut_sorted (by assumption) | exact filter_sorted (by assumption) | exact tabSorted_nil | exact foldl_tabPut_sorted (by assumption)))

theorem execWarmReset_keeps {s0 : State} {s : State} (hs : Keeps s0 s) : KeepsOut s0 (execWarmReset s) := by
  unfold execWarmReset
  with_reducible repeat' first | assumption | intro _ | apply State.motionWarm_keeps | apply State.warmCore_keeps | apply State.nvsOff_keeps | apply State.dropAll_keeps | apply State.put_keeps | apply State.inc_keeps | apply State.debugReset_keeps | apply State.secDefaults_keeps | apply Keeps.out | (extract_lets +onlyGivenNames x; first | (refine keeps_cut (s := s0) (t := x) ?_ (fun hx => ?_); unfold x; clear x; rotate_left; clear_value x; rotate_right) | clear_value x) | split | (refine keeps_mk ?_ rfl ?_; rotate_left; (intro hk; cases hk; constructor <;> first | assumption | exact tabPut_sorted (by assumption) | exact filter_sorted (by assumption) | exact tabSorted_nil | exact foldl_tabPut_sorted (by assumption)))

theorem State.warmAsk_keeps {s0 : State} {s : State} {b : Nat} {stopped : Bool} (hs : Keeps s0 s) : Keeps s0 (State.warmAsk s b stopped) := by
  unfold State.warmAsk
  with_reducible repeat' first | assumption | intro _ | apply State.put_keeps | split | (refine keeps_mk ?_ rfl ?_; rotate_left; (intro hk; cases hk; constructor <;> first | assumption | exact tabPut_sorted (by assumption) | exact filter_sorted (by assumption) | exact tabSorted_nil | exact foldl_tabPut_sorted (by assumption)))

theorem execJtagWarmReset_keeps {s0 : State} {s : State} (hs : Keeps s0 s) : KeepsOut s0 (execJtagWarmReset s) := by
  unfold execJtagWarmReset
  with_reducible repeat' first | assumption | intro _ | apply State.warmAsk_keeps | apply Keeps.out | (extract_lets +onlyGivenNames x; clear_value x) | split

theorem execFuseRead_keeps {s0 : State} {ue : Bool} {s : State} (hs : Keeps s0 s) : KeepsOut s0 (execFuseRead ue s) := by
  unfold execFuseRead
  with_reducible repeat' first | assumption | apply State.setReg_keeps | apply State.put_keeps | apply State.deriveKeys_keeps | apply State.latchFuses_keeps | apply State.debugReset_keeps | apply State.secDefaults_keeps | apply Keeps.out | (extract_lets +onlyGivenNames x; first | (refine keeps_cut (s := s0) (t := x) ?_ (fun hx => ?_); unfold x; clear x; rotate_left; clear_value x; rotate_right) | clear_value x) | split

theorem execCoreHold_keeps {s0 : State} {m : Master} {v : BitVec 8} {s : State} (hs : Keeps s0 s) : KeepsOut s0 (execCoreHold m v s) := by
  unfold execCoreHold
  with_reducible repeat' first | assumption | intro _ | apply State.regCmd_keeps | apply State.put_keeps | apply each_keeps | apply Keeps.out | (extract_lets +onlyGivenNames x; clear_value x) | split

theorem execRstCtrlWarm_keeps {s0 : State} {m : Master} {key : BitVec 16} {warm : Bool} {s : State} (hs : Keeps s0 s) : KeepsOut s0 (execRstCtrlWarm m key warm s) := by
  unfold execRstCtrlWarm
  with_reducible repeat' first | assumption | intro _ | apply State.regCmd_keeps | apply State.raiseBy_keeps | apply State.warmAsk_keeps | apply Keeps.out | split

theorem execPowerOnReset_keeps {s0 : State} {test : Bool} {s : State} (hs : Keeps s0 s) : KeepsOut s0 (execPowerOnReset test s) := by
  unfold execPowerOnReset
  refine Keeps.out (State.motionWarm_keeps (keeps_mk hs rfl ?_))
  intro hk; cases hk; constructor <;> first | assumption | exact tabSorted_nil | exact filter_sorted (by assumption) | skip
  · rfl
  · exact filter_sorted (map_sorted (fun _ => rfl) (by assumption))

theorem State.forcedInhibit_keeps {s0 : State} {s : State} {hd : List Nat} (hs : Keeps s0 s) : Keeps s0 (State.forcedInhibit s hd) := by
  unfold State.forcedInhibit
  with_reducible repeat' first | assumption | intro _ | apply State.dropGates_keeps | apply State.noteInhibit_keeps | apply each_keeps | split

theorem outState_keeps {s0 : State} {o : Out} {s : State} (ho : KeepsOut s0 o) (hs : Keeps s0 s) : Keeps s0 (outState o s) := by
  unfold outState
  split
  · exact ho
  · exact hs

theorem State.dozeSet_keeps {s0 : State} {s : State} {p : Nat} {old : Word} (hs : Keeps s0 s) : Keeps s0 (State.dozeSet s p old) := by
  unfold State.dozeSet
  with_reducible repeat' first | assumption | intro _ | apply State.setAfe_keeps | (extract_lets +onlyGivenNames x; clear_value x) | split

theorem State.writeHdr_keeps {s0 : State} {s : State} {m : Master} {p : Nat} {off : Nat} {v : Word} (hs : Keeps s0 s) : Keeps s0 (State.writeHdr s m p off v) := by
  unfold State.writeHdr
  with_reducible repeat' first | assumption | intro _ | apply outState_keeps | apply execSoftReset_keeps | apply execPowerReq_keeps | apply execEnable_keeps | apply State.dozeSet_keeps | apply State.setReg_keeps | apply State.hdrOn_keeps | apply execIrqPendClear_keeps | apply execFltForce_keeps | apply State.settle_keeps | apply State.writeArm_keeps | apply execLock_keeps | (extract_lets +onlyGivenNames x; first | (refine keeps_cut (s := s0) (t := x) ?_ (fun hx => ?_); unfold x; clear x; rotate_left; clear_value x; rotate_right) | clear_value x) | split

theorem State.afterWrite_keeps {s0 : State} {s : State} {old : State} {p : Nat} {off : Nat} {v : Word} (hs : Keeps s0 s) (hold : Keeps s0 old) : Keeps s0 (State.afterWrite s old p off v) := by
  unfold State.afterWrite
  with_reducible repeat' first | assumption | intro _ | apply State.forcedInhibit_keeps | apply State.setAfe_keeps | apply State.settlePort_keeps | apply State.setDb_keeps | (extract_lets +onlyGivenNames x; clear_value x) | split

theorem State.writeShadow_keeps {s0 : State} {s : State} {p : Nat} {off : Nat} {v : Word} (hs : Keeps s0 s) : Keeps s0 (State.writeShadow s p off v) := by
  unfold State.writeShadow
  with_reducible repeat' first | assumption | intro _ | apply State.shadowWrite_keeps | apply State.setShadowReg_keeps | (extract_lets +onlyGivenNames x; clear_value x) | split

theorem State.writeDenied_keeps {s0 : State} {s : State} {m : Master} {p : Nat} {off : Nat} (hs : Keeps s0 s) : Keeps s0 (State.writeDenied s m p off) := by
  unfold State.writeDenied
  with_reducible repeat' first | assumption | intro _ | apply State.raiseBy_keeps | split

theorem State.writePlain_keeps {s0 : State} {s : State} {m : Master} {p : Nat} {off : Nat} {v : Word} (hs : Keeps s0 s) : Keeps s0 (State.writePlain s m p off v) := by
  unfold State.writePlain
  with_reducible repeat' first | assumption | intro _ | apply State.setMreg_keeps | apply State.writeDenied_keeps | apply State.setReg_keeps | (extract_lets +onlyGivenNames x; clear_value x) | split

theorem State.onSet_keeps {s0 : State} {s : State} {b : Bool} {k : State → Out} (hs : Keeps s0 s) (hk : ∀ y0, Keeps s0 y0 → KeepsOut s0 (k y0)) : Keeps s0 (State.onSet s b k) := by
  unfold State.onSet
  with_reducible repeat' first | assumption | apply outState_keeps | apply hk | split

theorem State.onChange_keeps {s0 : State} {s : State} {p : Nat} {f : Fld} {b : Bool} {k : State → Out} (hs : Keeps s0 s) (hk : ∀ y0, Keeps s0 y0 → KeepsOut s0 (k y0)) : Keeps s0 (State.onChange s p f b k) := by
  unfold State.onChange
  with_reducible repeat' first | assumption | intro _ | apply outState_keeps | apply hk | split

theorem State.writeCmd_keeps {s0 : State} {s : State} {m : Master} {a : Fin 8} {v : Word} (hs : Keeps s0 s) : Keeps s0 (State.writeCmd s m a v) := by
  unfold State.writeCmd
  with_reducible repeat' first | assumption | intro _ | apply outState_keeps | apply execCmdWriteFrame_keeps | apply execCmdReadFrame_keeps | apply execCmdTypeRefused_keeps | apply execCmdStatusReq_keeps | (extract_lets +onlyGivenNames x; clear_value x) | split

theorem State.writeOwn_keeps {s0 : State} {s : State} {m : Master} {p : Nat} {off : Nat} {v : Word} (hs : Keeps s0 s) : Keeps s0 (State.writeOwn s m p off v) := by
  unfold State.writeOwn
  with_reducible repeat' first | assumption | intro _ | apply outState_keeps | apply execRstCtrlWarm_keeps | apply execCoreHold_keeps | apply State.onSet_keeps | apply execSmbRxDone_keeps | apply execSmbTx_keeps | apply execIrqDone_keeps | apply execDomReq_keeps | apply execClrDegraded_keeps | apply execAck_keeps | apply execUnfence_keeps | apply execWdogEnable_keeps | apply execWdogKick_keeps | apply execAliveStart_keeps | apply State.onChange_keeps | apply execTrackEn_keeps | apply execWedges_keeps | apply execDirectEnqueue_keeps | apply execFlush_keeps | apply execQCancel_keeps | apply execSpnStart_keeps | apply execSpnStop_keeps | apply execBrake_keeps | apply execCoast_keeps | apply State.motCmd_keeps | apply State.spnRefuse_keeps | apply execBoostEn_keeps | apply execLoad_keeps | apply execUnload_keeps | apply State.rampRefuse_keeps | apply execWpLock_keeps | apply State.nvsCommand_keeps | apply execWpWrite_keeps | apply execFuseCmd_keeps | apply State.secCommand_keeps | apply execDbgDisable_keeps | apply State.keyCommand_keeps | apply execStRerun_keeps | apply execBypassReq_keeps | apply State.maintRefused_keeps | apply State.maintWrite_keeps | apply execCancel_keeps | apply execRelease_keeps | apply State.submitJob_keeps | apply execDramEn_keeps | apply execSrReq_keeps | apply execFreeze_keeps | apply execCheck_keeps | apply execSrtShift_keeps | apply execSrtLookup_keeps | apply execRun_keeps | apply execDmaAbort_keeps | apply execKick_keeps | apply execCfgReady_keeps | apply execFlrAck_keeps | apply execMsixSend_keeps | apply execPmeReq_keeps | apply execDoeTx_keeps | apply execRxDone_keeps | apply execBar0Slot_keeps | apply execDbVal_keeps | apply execOpenSet_keeps | apply execCloseSet_keeps | apply execHandover_keeps | apply execMaRef_keeps | apply execAbort_keeps | apply execDilStart_keeps | apply execKill_keeps | apply execDilStop_keeps | apply execEvtSet_keeps | apply execEvtClr_keeps | apply execLdAddr_keeps | apply execLdData_keeps | apply State.writeCmd_keeps | apply execAlertUnmask_keeps | apply execZptSel_keeps | apply execWqWr_keeps | apply execFaultLatchClear_keeps | (extract_lets +onlyGivenNames x; clear_value x) | split

theorem State.writeReg_keeps {s0 : State} {s : State} {m : Master} {p : Nat} {off : Nat} {v : Word} (hs : Keeps s0 s) : Keeps s0 (State.writeReg s m p off v) := by
  unfold State.writeReg
  with_reducible repeat' first | assumption | apply State.latchLevels_keeps | apply State.writeHdr_keeps | apply State.raiseBy_keeps | apply State.afterWrite_keeps | apply State.writeShadow_keeps | apply State.writePlain_keeps | apply State.writeOwn_keeps | (extract_lets +onlyGivenNames x; first | (refine keeps_cut (s := s0) (t := x) ?_ (fun hx => ?_); unfold x; clear x; rotate_left; clear_value x; rotate_right) | clear_value x) | split

theorem State.readClear_keeps {s0 : State} {s : State} {p : Nat} {off : Nat} (hs : Keeps s0 s) : Keeps s0 (State.readClear s p off) := by
  unfold State.readClear
  with_reducible repeat' first | assumption | intro _ | apply State.setReg_keeps | (extract_lets +onlyGivenNames x; first | (refine keeps_cut (s := s0) (t := x) ?_ (fun hx => ?_); unfold x; clear x; rotate_left; clear_value x; rotate_right) | clear_value x) | split | (refine keeps_mk ?_ rfl ?_; rotate_left; (intro hk; cases hk; constructor <;> first | assumption | exact tabPut_sorted (by assumption) | exact filter_sorted (by assumption) | exact tabSorted_nil | exact foldl_tabPut_sorted (by assumption)))

theorem State.readReg_keeps {s0 : State} {s : State} {m : Master} {p : Nat} {off : Nat} (hs : Keeps s0 s) : Keeps s0 (State.readReg s m p off) := by
  unfold State.readReg
  with_reducible repeat' first | assumption | apply State.answer_keeps | apply State.drew_keeps | apply State.settle_keeps | apply State.raiseBy_keeps | apply outState_keeps | apply execTimeLoRead_keeps | apply execIrqClaim_keeps | apply execDoorbellClaim_keeps | apply State.rngRead_keeps | apply State.readClear_keeps | (extract_lets +onlyGivenNames x; first | (refine keeps_cut (s := s0) (t := x) ?_ (fun hx => ?_); unfold x; clear x; rotate_left; clear_value x; rotate_right) | clear_value x) | split

theorem State.regAccess_keeps {s0 : State} {s : State} {m : Master} {write : Bool} {len : Nat} {addr : Nat} {v : BitVec 64} (hs : Keeps s0 s) : Keeps s0 (State.regAccess s m write len addr v) := by
  unfold State.regAccess
  with_reducible repeat' first | assumption | intro _ | apply State.answer_keeps | apply State.writeReg_keeps | apply State.readReg_keeps | apply State.answerErr_keeps | apply State.raiseAccess_keeps | (extract_lets +onlyGivenNames x; first | (refine keeps_cut (s := s0) (t := x) ?_ (fun hx => ?_); unfold x; clear x; rotate_left; clear_value x; rotate_right) | clear_value x) | split

theorem execRegisterWrite_keeps {s0 : State} {m : Master} {write : Bool} {len : BitVec 4} {addr : BitVec 48} {v : BitVec 64} {s : State} (hs : Keeps s0 s) : KeepsOut s0 (execRegisterWrite m write len addr v s) := by
  unfold execRegisterWrite
  with_reducible repeat' first | assumption | apply State.regAccess_keeps | apply Keeps.out | split

theorem execRefusedAccess_keeps {s0 : State} {m : Master} {write : Bool} {addr : BitVec 48} {len : BitVec 7} {s : State} (hs : Keeps s0 s) : KeepsOut s0 (execRefusedAccess m write addr len s) := by
  unfold execRefusedAccess
  with_reducible repeat' first | assumption | intro _ | apply State.answerErr_keeps | apply State.raiseAccess_keeps | apply State.raiseRefusal_keeps | apply Keeps.out | (extract_lets +onlyGivenNames x; clear_value x) | split

theorem State.dilWrite_keeps {s0 : State} {s : State} {c : DilCtx} {f : State → Nat → Nat → State × Option Nat} (hs : Keeps s0 s) (hf : ∀ y0 y1 y2, Keeps s0 y0 → Keeps s0 (f y0 y1 y2).1) : Keeps s0 (State.dilWrite s c f).1 := by
  unfold State.dilWrite
  with_reducible repeat' first | assumption | intro _ | apply State.raiseBy_keeps | dsimp -zeta only | refine keeps_of_fst ?_ (by assumption) | refine keeps_of_snd ?_ (by assumption) | apply hf | (extract_lets +onlyGivenNames x; clear_value x) | split

theorem State.xrdEnd_keeps {s0 : State} {s : State} {a : Nat} {r : Resp} (hs : Keeps s0 s) : Keeps s0 (State.xrdEnd s a r) := by
  unfold State.xrdEnd
  with_reducible repeat' first | assumption | intro _ | apply State.dilOp_keeps | apply State.setDil_keeps | apply State.setG_keeps | (extract_lets +onlyGivenNames x; first | (refine keeps_cut (s := s0) (t := x) ?_ (fun hx => ?_); unfold x; clear x; rotate_left; clear_value x; rotate_right) | clear_value x) | split

theorem State.xrdNor_keeps {s0 : State} {s : State} {a : Nat} {ad : Nat} (hs : Keeps s0 s) : Keeps s0 (State.xrdNor s a ad) := by
  unfold State.xrdNor
  with_reducible repeat' first | assumption | intro _ | apply State.xrdEnd_keeps | apply outState_keeps | apply execNorRead_keeps | apply State.setDil_keeps | (extract_lets +onlyGivenNames x; first | (refine keeps_cut (s := s0) (t := x) ?_ (fun hx => ?_); unfold x; clear x; rotate_left; clear_value x; rotate_right) | (have hf : ∀ y, x y = x y := fun _ => rfl; clear hf; unfold x; clear x) | clear_value x) | split

theorem State.landWrites_keeps {s0 : State} {s : State} {a : Nat} {ws : List (Nat × Nat × Word)} (hs : Keeps s0 s) : Keeps s0 (State.landWrites s a ws) := by
  unfold State.landWrites
  with_reducible repeat' first | assumption | intro _ | apply State.writeReg_keeps | dsimp -zeta only | refine keeps_of_fst ?_ (by assumption) | refine keeps_of_snd ?_ (by assumption) | apply each_keeps

theorem execCommit_keeps {s0 : State} {a : Fin 8} {s : State} (hs : Keeps s0 s) : KeepsOut s0 (execCommit a s) := by
  unfold execCommit
  with_reducible repeat' first | assumption | intro _ | apply State.dilPlain_keeps | apply State.dropStaging_keeps | apply State.landWrites_keeps | apply State.setFlag_keeps | apply State.makeWay_keeps | apply State.admitBatch_keeps | apply State.dilVerdict_keeps | apply State.putBack_keeps | dsimp -zeta only | refine keeps_of_fst ?_ (by assumption) | refine keeps_of_snd ?_ (by assumption) | apply each_keeps | apply Keeps.out | (extract_lets +onlyGivenNames x; first | (refine keeps_cut (s := s0) (t := x) ?_ (fun hx => ?_); unfold x; clear x; rotate_left; clear_value x; rotate_right) | (refine keeps_cut_fst (s := s0) (x := x) ?_ (fun hx => ?_); unfold x; clear x; rotate_left; clear_value x; rotate_right) | (refine keeps_cut_snd (s := s0) (x := x) ?_ (fun hx => ?_); unfold x; clear x; rotate_left; clear_value x; rotate_right) | clear_value x) | split

theorem execPrd_keeps {s0 : State} {a : Fin 8} {s : State} (hs : Keeps s0 s) : KeepsOut s0 (execPrd a s) := by
  unfold execPrd
  with_reducible repeat' first | assumption | intro _ | apply State.dilOp_keeps | apply State.setG_keeps | apply State.readReg_keeps | apply State.raiseBy_keeps | apply Keeps.out | (extract_lets +onlyGivenNames x; first | (refine keeps_cut (s := s0) (t := x) ?_ (fun hx => ?_); unfold x; clear x; rotate_left; clear_value x; rotate_right) | (have hf : ∀ y, x y = x y := fun _ => rfl; clear hf; unfold x; clear x) | clear_value x) | split

theorem execPwr_keeps {s0 : State} {a : Fin 8} {s : State} (hs : Keeps s0 s) : KeepsOut s0 (execPwr a s) := by
  unfold execPwr
  with_reducible repeat' first | assumption | intro _ | apply State.dilOp_keeps | apply State.dilWrite_keeps | apply State.writeReg_keeps | dsimp -zeta only | refine keeps_of_fst ?_ (by assumption) | refine keeps_of_snd ?_ (by assumption) | apply Keeps.out

theorem execStw_keeps {s0 : State} {a : Fin 8} {s : State} (hs : Keeps s0 s) : KeepsOut s0 (execStw a s) := by
  unfold execStw
  with_reducible repeat' first | assumption | intro _ | apply State.dilOp_keeps | apply State.dilWrite_keeps | apply State.noteStg_keeps | apply State.setDil_keeps | dsimp -zeta only | refine keeps_of_fst ?_ (by assumption) | refine keeps_of_snd ?_ (by assumption) | apply Keeps.out | (extract_lets +onlyGivenNames x; clear_value x) | split

theorem State.xrdDram_keeps {s0 : State} {s : State} {r : MdcReq} (hs : Keeps s0 s) : Keeps s0 (State.xrdDram s r) := by
  unfold State.xrdDram
  with_reducible repeat' first | assumption | intro _ | apply State.mdcNow_keeps | apply State.mdcDirect_keeps | (extract_lets +onlyGivenNames x; first | (refine keeps_cut (s := s0) (t := x) ?_ (fun hx => ?_); unfold x; clear x; rotate_left; clear_value x; rotate_right) | clear_value x) | split | (refine keeps_mk ?_ rfl ?_; rotate_left; (intro hk; cases hk; constructor <;> first | assumption | exact tabPut_sorted (by assumption) | exact filter_sorted (by assumption) | exact tabSorted_nil | exact foldl_tabPut_sorted (by assumption)))

theorem execXrd_keeps {s0 : State} {a : Fin 8} {s : State} (hs : Keeps s0 s) : KeepsOut s0 (execXrd a s) := by
  unfold execXrd
  with_reducible repeat' first | assumption | intro _ | apply State.xrdNor_keeps | apply State.dilOp_keeps | apply State.setG_keeps | apply State.regAccess_keeps | apply State.xrdDram_keeps | apply State.bufRead_keeps | dsimp -zeta only | refine keeps_of_fst ?_ (by assumption) | refine keeps_of_snd ?_ (by assumption) | apply Keeps.out | (extract_lets +onlyGivenNames x; first | (refine keeps_cut (s := s0) (t := x) ?_ (fun hx => ?_); unfold x; clear x; rotate_left; clear_value x; rotate_right) | (have hf : ∀ y, x y = x y := fun _ => rfl; clear hf; unfold x; clear x) | clear_value x) | split

theorem State.bar0Page_keeps {s0 : State} {s : State} {p : Nat} {write : Bool} {slot : Nat} {o : Nat} {en : List Bool} {data : List Byte} (hs : Keeps s0 s) : Keeps s0 (State.bar0Page s p write slot o en data) := by
  unfold State.bar0Page
  with_reducible repeat' first | assumption | intro _ | apply State.unsupported_keeps | apply State.regAccess_keeps | apply State.complete_keeps | (extract_lets +onlyGivenNames x; first | (refine keeps_cut (s := s0) (t := x) ?_ (fun hx => ?_); unfold x; clear x; rotate_left; clear_value x; rotate_right) | clear_value x) | split

theorem State.bar0Mirror_keeps {s0 : State} {s : State} {p : Nat} {write : Bool} {slot : Nat} {o : Nat} {en : List Bool} {data : List Byte} (hs : Keeps s0 s) : Keeps s0 (State.bar0Mirror s p write slot o en data) := by
  unfold State.bar0Mirror
  with_reducible repeat' first | assumption | intro _ | apply State.unsupported_keeps | apply State.bufWrite_keeps | apply State.setReg_keeps | apply State.completerAbort_keeps | apply State.bufRead_keeps | apply State.complete_keeps | dsimp -zeta only | refine keeps_of_fst ?_ (by assumption) | refine keeps_of_snd ?_ (by assumption) | apply foldl_keeps | apply foldl_keeps_fst | apply foldl_keeps_snd | (extract_lets +onlyGivenNames x; first | (refine keeps_cut_fst (s := s0) (x := x) ?_ (fun hx => ?_); unfold x; clear x; rotate_left; clear_value x; rotate_right) | (refine keeps_cut_snd (s := s0) (x := x) ?_ (fun hx => ?_); unfold x; clear x; rotate_left; clear_value x; rotate_right) | clear_value x) | split

theorem execBar0Request_keeps {s0 : State} {p : Fin 2} {write : Bool} {off : BitVec 18} {en : List Bool} {data : List Byte} {s : State} (hs : Keeps s0 s) : KeepsOut s0 (execBar0Request p write off en data s) := by
  unfold execBar0Request
  with_reducible repeat' first | assumption | apply State.unsupported_keeps | apply State.bar0Page_keeps | apply State.bar0Mirror_keeps | apply State.ringDoorbell_keeps | apply State.complete_keeps | apply Keeps.out | (extract_lets +onlyGivenNames x; clear_value x) | split

end Sys2Proof.Machine
end

