-- ==== Sys2Proof/Laws/Registers.lean ====
section
/-! SUPPORT. Laws of registers and fields: what a read finds after a write to the same or to another place. -/

namespace Sys2Proof.Machine

/-- A field lies within 32 bits. -/
def Fld.fits (f : Fld) : Prop := f.lo + f.wd ≤ 32

theorem mask_testBit (f : Fld) (hf : f.lo + f.wd ≤ 32) (i : Nat) : f.mask.toNat.testBit i = (decide (f.lo ≤ i) && decide (i < f.lo + f.wd)) := by
  have h : (2 ^ f.wd - 1) * 2 ^ f.lo < 2 ^ 32 := by
    have h1 : 2 ^ f.wd * 2 ^ f.lo ≤ 2 ^ 32 := by rw [← Nat.pow_add]; exact Nat.pow_le_pow_right (by omega) (by omega)
    have h2 : (2 ^ f.wd - 1) * 2 ^ f.lo < 2 ^ f.wd * 2 ^ f.lo := Nat.mul_lt_mul_of_pos_right (by have := Nat.two_pow_pos f.wd; omega) (Nat.two_pow_pos _)
    omega
  rw [Fld.mask, BitVec.toNat_ofNat, Nat.mod_eq_of_lt h, Nat.testBit_mul_two_pow]
  by_cases hi : f.lo ≤ i
  · simp only [hi, decide_true, Bool.true_and, Nat.testBit_two_pow_sub_one]
    congr 1; exact propext ⟨fun h => by omega, fun h => by omega⟩
  · simp [hi]

theorem fldOf_testBit (w : Word) (f : Fld) (i : Nat) : (fldOf w f).testBit i = (decide (i < f.wd) && w.toNat.testBit (f.lo + i)) := by
  rw [fldOf, Nat.testBit_mod_two_pow, Nat.testBit_div_two_pow, Nat.add_comm]

theorem fldSet_testBit (w : Word) (f : Fld) (v : Nat) (hf : f.lo + f.wd ≤ 32) (i : Nat) :
    (fldSet w f v).toNat.testBit i =
      if f.lo ≤ i ∧ i < f.lo + f.wd then v.testBit (i - f.lo) else w.toNat.testBit i := by
  have hv : v % 2 ^ f.wd * 2 ^ f.lo < 2 ^ 32 := by
    have h1 : v % 2 ^ f.wd < 2 ^ f.wd := Nat.mod_lt _ (Nat.two_pow_pos _)
    have h2 : v % 2 ^ f.wd * 2 ^ f.lo < 2 ^ f.wd * 2 ^ f.lo := Nat.mul_lt_mul_of_pos_right h1 (Nat.two_pow_pos _)
    have h3 : 2 ^ f.wd * 2 ^ f.lo ≤ 2 ^ 32 := by rw [← Nat.pow_add]; exact Nat.pow_le_pow_right (by omega) (by omega)
    omega
  rw [fldSet, BitVec.toNat_or, BitVec.toNat_and, BitVec.toNat_ofNat, Nat.mod_eq_of_lt hv, Nat.testBit_or, Nat.testBit_and,
    BitVec.toNat_not, Nat.testBit_mul_two_pow, Nat.testBit_mod_two_pow]
  have hn : (2 ^ 32 - 1 - f.mask.toNat).testBit i = (decide (i < 32) && !f.mask.toNat.testBit i) := by
    rw [show 2 ^ 32 - 1 - f.mask.toNat = 2 ^ 32 - (f.mask.toNat + 1) by omega, Nat.testBit_two_pow_sub_succ f.mask.isLt]
  rw [hn, mask_testBit f hf]
  by_cases h1 : f.lo ≤ i
  · by_cases h2 : i < f.lo + f.wd
    · have h3 : i - f.lo < f.wd := by omega
      simp [h1, h2, h3]
    · have h3 : ¬ i - f.lo < f.wd := by omega
      simp only [h1, h2, h3, and_false, if_false, decide_true, decide_false, Bool.and_false, Bool.not_false, Bool.and_true, Bool.false_and, Bool.or_false]
      by_cases h4 : i < 32
      · simp [h4]
      · simp [h4, Nat.testBit_lt_two_pow (Nat.lt_of_lt_of_le w.isLt (Nat.pow_le_pow_right (by omega : 0 < 2) (by omega : 32 ≤ i)))]
  · simp only [h1, false_and, if_false, decide_false, Bool.false_and, Bool.not_false, Bool.and_true, Bool.or_false]
    by_cases h4 : i < 32
    · simp [h4]
    · simp [h4, Nat.testBit_lt_two_pow (Nat.lt_of_lt_of_le w.isLt (Nat.pow_le_pow_right (by omega : 0 < 2) (by omega : 32 ≤ i)))]

theorem fldOf_fldSet_same (w : Word) (f : Fld) (v : Nat) (hf : f.lo + f.wd ≤ 32) : fldOf (fldSet w f v) f = v % 2 ^ f.wd := by
  apply Nat.eq_of_testBit_eq
  intro i
  rw [fldOf_testBit, fldSet_testBit _ _ _ hf, Nat.testBit_mod_two_pow]
  by_cases h : i < f.wd
  · simp [h]
  · simp [h]

theorem fldOf_fldSet_ne (w : Word) (f g : Fld) (v : Nat) (hf : f.lo + f.wd ≤ 32) (h : g.lo + g.wd ≤ f.lo ∨ f.lo + f.wd ≤ g.lo) :
    fldOf (fldSet w f v) g = fldOf w g := by
  apply Nat.eq_of_testBit_eq
  intro i
  rw [fldOf_testBit, fldOf_testBit, fldSet_testBit _ _ _ hf]
  by_cases h1 : i < g.wd
  · have h2 : ¬ (f.lo ≤ g.lo + i ∧ g.lo + i < f.lo + f.wd) := by omega
    simp [h1, h2]
  · simp [h1]

variable {s : State} {p p' o o' v : Nat} {w : Word} {f g : Fld}

theorem reg_setReg_same : (s.setReg p o w).reg p o = w := tabGet_tabPut_same

theorem reg_setReg_ne (h : regKey p' o' ≠ regKey p o) : (s.setReg p o w).reg p' o' = s.reg p' o' := tabGet_tabPut_ne h

theorem get_setReg_same : (s.setReg p f.off w).get p f = fldOf w f := by
  rw [State.get, reg_setReg_same]

theorem get_setReg_ne (h : regKey p' f.off ≠ regKey p o) : (s.setReg p o w).get p' f = s.get p' f := by
  rw [State.get, reg_setReg_ne h]; rfl

theorem get_put_same (hf : f.lo + f.wd ≤ 32) : (s.put p f v).get p f = v % 2 ^ f.wd := by
  rw [State.put, get_setReg_same, fldOf_fldSet_same _ _ _ hf]

theorem get_put_ne (h : regKey p' g.off ≠ regKey p f.off) : (s.put p f v).get p' g = s.get p' g := by
  rw [State.put, get_setReg_ne h]

theorem get_put_field (hf : f.lo + f.wd ≤ 32) (he : g.off = f.off)
    (hd : g.lo + g.wd ≤ f.lo ∨ f.lo + f.wd ≤ g.lo) : (s.put p f v).get p g = s.get p g := by
  rw [State.put, State.get, he, reg_setReg_same, fldOf_fldSet_ne _ _ _ _ hf hd, State.get, he]

theorem reg_put_ne (h : regKey p' o' ≠ regKey p f.off) : (s.put p f v).reg p' o' = s.reg p' o' := by
  rw [State.put, reg_setReg_ne h]

theorem on_put_same (hf : f.lo + f.wd ≤ 32) : (s.put p f v).on p f = decide (v % 2 ^ f.wd = 1) := by
  rw [State.on, get_put_same hf]

theorem on_put_ne (h : regKey p' g.off ≠ regKey p f.off) : (s.put p f v).on p' g = s.on p' g := by
  rw [State.on, get_put_ne h]; rfl

theorem on_putB_same {b : Bool} (hf : f.lo + 1 ≤ 32) (hw : f.wd = 1) : (s.putB p f b).on p f = b := by
  rw [State.putB, on_put_same (by omega), hw]; cases b <;> rfl

theorem mreg_setMreg_same {m : Master} : (s.setMreg m p o w).mreg m p o = w := tabGet_tabPut_same

theorem setReg_sorted (h : tabSorted s.regs = true) : tabSorted (s.setReg p o w).regs = true := tabPut_sorted h

theorem put_sorted (h : tabSorted s.regs = true) : tabSorted (s.put p f v).regs = true := tabPut_sorted h

theorem byte_setByte_same {a : Nat} {b : Byte} : (s.setByte a b).byte a = b := tabGet_tabPut_same

theorem byte_setByte_ne {a a' : Nat} {b : Byte} (h : a' ≠ a) : (s.setByte a b).byte a' = s.byte a' := tabGet_tabPut_ne h

theorem setByte_wf {a : Nat} {b : Byte} (h : Memory.wf s.mem = true) : Memory.wf (s.setByte a b).mem = true := tabPut_wf h rfl

end Sys2Proof.Machine
end

