-- ==== Sys2Proof/Laws/State.lean ====
section
/-! SUPPORT. What the basic updates of the state leave: one lemma for each field. -/

namespace Sys2Proof.Machine

/-! ### setReg -/

@[simp] theorem State.setReg_pending (s : State) (p o : Nat) (v : Word) : (s.setReg p o v).pending = s.pending := rfl
@[simp] theorem State.setReg_time (s : State) (p o : Nat) (v : Word) : (s.setReg p o v).time = s.time := rfl
@[simp] theorem State.setReg_part (s : State) (p o : Nat) (v : Word) : (s.setReg p o v).part = s.part := rfl
@[simp] theorem State.setReg_shadow (s : State) (p o : Nat) (v : Word) : (s.setReg p o v).shadow = s.shadow := rfl
@[simp] theorem State.setReg_mregs (s : State) (p o : Nat) (v : Word) : (s.setReg p o v).mregs = s.mregs := rfl
@[simp] theorem State.setReg_mem (s : State) (p o : Nat) (v : Word) : (s.setReg p o v).mem = s.mem := rfl
@[simp] theorem State.setReg_zptOld (s : State) (p o : Nat) (v : Word) : (s.setReg p o v).zptOld = s.zptOld := rfl
@[simp] theorem State.setReg_resp (s : State) (p o : Nat) (v : Word) : (s.setReg p o v).resp = s.resp := rfl
@[simp] theorem State.setReg_badLines (s : State) (p o : Nat) (v : Word) : (s.setReg p o v).badLines = s.badLines := rfl
@[simp] theorem State.setReg_free (s : State) (p o : Nat) (v : Word) : (s.setReg p o v).free = s.free := rfl
@[simp] theorem State.setReg_fltq (s : State) (p o : Nat) (v : Word) : (s.setReg p o v).fltq = s.fltq := rfl
@[simp] theorem State.setReg_dom (s : State) (p o : Nat) (v : Word) : (s.setReg p o v).dom = s.dom := rfl
@[simp] theorem State.setReg_domWait (s : State) (p o : Nat) (v : Word) : (s.setReg p o v).domWait = s.domWait := rfl
@[simp] theorem State.setReg_resetting (s : State) (p o : Nat) (v : Word) : (s.setReg p o v).resetting = s.resetting := rfl
@[simp] theorem State.setReg_claims (s : State) (p o : Nat) (v : Word) : (s.setReg p o v).claims = s.claims := rfl
@[simp] theorem State.setReg_trk (s : State) (p o : Nat) (v : Word) : (s.setReg p o v).trk = s.trk := rfl
@[simp] theorem State.setReg_meas (s : State) (p o : Nat) (v : Word) : (s.setReg p o v).meas = s.meas := rfl
@[simp] theorem State.setReg_drl (s : State) (p o : Nat) (v : Word) : (s.setReg p o v).drl = s.drl := rfl
@[simp] theorem State.setReg_afe (s : State) (p o : Nat) (v : Word) : (s.setReg p o v).afe = s.afe := rfl
@[simp] theorem State.setReg_lnk (s : State) (p o : Nat) (v : Word) : (s.setReg p o v).lnk = s.lnk := rfl
@[simp] theorem State.setReg_rdh (s : State) (p o : Nat) (v : Word) : (s.setReg p o v).rdh = s.rdh := rfl
@[simp] theorem State.setReg_afm (s : State) (p o : Nat) (v : Word) : (s.setReg p o v).afm = s.afm := rfl
@[simp] theorem State.setReg_stpIn (s : State) (p o : Nat) (v : Word) : (s.setReg p o v).stpIn = s.stpIn := rfl
@[simp] theorem State.setReg_subFence (s : State) (p o : Nat) (v : Word) : (s.setReg p o v).subFence = s.subFence := rfl
@[simp] theorem State.setReg_commitAt (s : State) (p o : Nat) (v : Word) : (s.setReg p o v).commitAt = s.commitAt := rfl
@[simp] theorem State.setReg_lastCommit (s : State) (p o : Nat) (v : Word) : (s.setReg p o v).lastCommit = s.lastCommit := rfl
@[simp] theorem State.setReg_preCopy (s : State) (p o : Nat) (v : Word) : (s.setReg p o v).preCopy = s.preCopy := rfl
@[simp] theorem State.setReg_wrh (s : State) (p o : Nat) (v : Word) : (s.setReg p o v).wrh = s.wrh := rfl
@[simp] theorem State.setReg_pesGuard (s : State) (p o : Nat) (v : Word) : (s.setReg p o v).pesGuard = s.pesGuard := rfl
@[simp] theorem State.setReg_alertSt (s : State) (p o : Nat) (v : Word) : (s.setReg p o v).alertSt = s.alertSt := rfl
@[simp] theorem State.setReg_shockEnd (s : State) (p o : Nat) (v : Word) : (s.setReg p o v).shockEnd = s.shockEnd := rfl
@[simp] theorem State.setReg_shockSince (s : State) (p o : Nat) (v : Word) : (s.setReg p o v).shockSince = s.shockSince := rfl
@[simp] theorem State.setReg_supply (s : State) (p o : Nat) (v : Word) : (s.setReg p o v).supply = s.supply := rfl
@[simp] theorem State.setReg_windowClosed (s : State) (p o : Nat) (v : Word) : (s.setReg p o v).windowClosed = s.windowClosed := rfl
@[simp] theorem State.setReg_deviceInh (s : State) (p o : Nat) (v : Word) : (s.setReg p o v).deviceInh = s.deviceInh := rfl
@[simp] theorem State.setReg_d2dLost (s : State) (p o : Nat) (v : Word) : (s.setReg p o v).d2dLost = s.d2dLost := rfl
@[simp] theorem State.setReg_stripes (s : State) (p o : Nat) (v : Word) : (s.setReg p o v).stripes = s.stripes := rfl
@[simp] theorem State.setReg_stpReady (s : State) (p o : Nat) (v : Word) : (s.setReg p o v).stpReady = s.stpReady := rfl
@[simp] theorem State.setReg_stpSeq (s : State) (p o : Nat) (v : Word) : (s.setReg p o v).stpSeq = s.stpSeq := rfl
@[simp] theorem State.setReg_dil (s : State) (p o : Nat) (v : Word) : (s.setReg p o v).dil = s.dil := rfl
@[simp] theorem State.setReg_srvh (s : State) (p o : Nat) (v : Word) : (s.setReg p o v).srvh = s.srvh := rfl
@[simp] theorem State.setReg_srv (s : State) (p o : Nat) (v : Word) : (s.setReg p o v).srv = s.srv := rfl
@[simp] theorem State.setReg_loops (s : State) (p o : Nat) (v : Word) : (s.setReg p o v).loops = s.loops := rfl
@[simp] theorem State.setReg_til (s : State) (p o : Nat) (v : Word) : (s.setReg p o v).til = s.til := rfl
@[simp] theorem State.setReg_prf (s : State) (p o : Nat) (v : Word) : (s.setReg p o v).prf = s.prf := rfl
@[simp] theorem State.setReg_macts (s : State) (p o : Nat) (v : Word) : (s.setReg p o v).macts = s.macts := rfl
@[simp] theorem State.setReg_mot (s : State) (p o : Nat) (v : Word) : (s.setReg p o v).mot = s.mot := rfl
@[simp] theorem State.setReg_spn (s : State) (p o : Nat) (v : Word) : (s.setReg p o v).spn = s.spn := rfl
@[simp] theorem State.setReg_spnWedge (s : State) (p o : Nat) (v : Word) : (s.setReg p o v).spnWedge = s.spnWedge := rfl
@[simp] theorem State.setReg_bufq (s : State) (p o : Nat) (v : Word) : (s.setReg p o v).bufq = s.bufq := rfl
@[simp] theorem State.setReg_slots (s : State) (p o : Nat) (v : Word) : (s.setReg p o v).slots = s.slots := rfl
@[simp] theorem State.setReg_lastGrant (s : State) (p o : Nat) (v : Word) : (s.setReg p o v).lastGrant = s.lastGrant := rfl
@[simp] theorem State.setReg_mresp (s : State) (p o : Nat) (v : Word) : (s.setReg p o v).mresp = s.mresp := rfl
@[simp] theorem State.setReg_srt (s : State) (p o : Nat) (v : Word) : (s.setReg p o v).srt = s.srt := rfl
@[simp] theorem State.setReg_gln (s : State) (p o : Nat) (v : Word) : (s.setReg p o v).gln = s.gln := rfl
@[simp] theorem State.setReg_mdc (s : State) (p o : Nat) (v : Word) : (s.setReg p o v).mdc = s.mdc := rfl
@[simp] theorem State.setReg_dma (s : State) (p o : Nat) (v : Word) : (s.setReg p o v).dma = s.dma := rfl
@[simp] theorem State.setReg_ports (s : State) (p o : Nat) (v : Word) : (s.setReg p o v).ports = s.ports := rfl
@[simp] theorem State.setReg_keys (s : State) (p o : Nat) (v : Word) : (s.setReg p o v).keys = s.keys := rfl
@[simp] theorem State.setReg_dbs (s : State) (p o : Nat) (v : Word) : (s.setReg p o v).dbs = s.dbs := rfl
@[simp] theorem State.setReg_dbq (s : State) (p o : Nat) (v : Word) : (s.setReg p o v).dbq = s.dbq := rfl
@[simp] theorem State.setReg_supArmed (s : State) (p o : Nat) (v : Word) : (s.setReg p o v).supArmed = s.supArmed := rfl
@[simp] theorem State.setReg_nor (s : State) (p o : Nat) (v : Word) : (s.setReg p o v).nor = s.nor := rfl
@[simp] theorem State.setReg_norUnsure (s : State) (p o : Nat) (v : Word) : (s.setReg p o v).norUnsure = s.norUnsure := rfl
@[simp] theorem State.setReg_nvs (s : State) (p o : Nat) (v : Word) : (s.setReg p o v).nvs = s.nvs := rfl
@[simp] theorem State.setReg_sec (s : State) (p o : Nat) (v : Word) : (s.setReg p o v).sec = s.sec := rfl
@[simp] theorem State.setReg_smbTx (s : State) (p o : Nat) (v : Word) : (s.setReg p o v).smbTx = s.smbTx := rfl
@[simp] theorem State.setReg_smbOut (s : State) (p o : Nat) (v : Word) : (s.setReg p o v).smbOut = s.smbOut := rfl
@[simp] theorem State.setReg_unfencing (s : State) (p o : Nat) (v : Word) : (s.setReg p o v).unfencing = s.unfencing := rfl
@[simp] theorem State.setReg_wdog (s : State) (p o : Nat) (v : Word) : (s.setReg p o v).wdog = s.wdog := rfl
@[simp] theorem State.setReg_aliveStart (s : State) (p o : Nat) (v : Word) : (s.setReg p o v).aliveStart = s.aliveStart := rfl
@[simp] theorem State.setReg_oscStable (s : State) (p o : Nat) (v : Word) : (s.setReg p o v).oscStable = s.oscStable := rfl
@[simp] theorem State.setReg_testHeld (s : State) (p o : Nat) (v : Word) : (s.setReg p o v).testHeld = s.testHeld := rfl
@[simp] theorem State.setReg_relock (s : State) (p o : Nat) (v : Word) : (s.setReg p o v).relock = s.relock := rfl
@[simp] theorem State.setReg_thmTold (s : State) (p o : Nat) (v : Word) : (s.setReg p o v).thmTold = s.thmTold := rfl
@[simp] theorem State.setReg_thmSeen (s : State) (p o : Nat) (v : Word) : (s.setReg p o v).thmSeen = s.thmSeen := rfl
@[simp] theorem State.setReg_warmReq (s : State) (p o : Nat) (v : Word) : (s.setReg p o v).warmReq = s.warmReq := rfl
@[simp] theorem State.setReg_motionDue (s : State) (p o : Nat) (v : Word) : (s.setReg p o v).motionDue = s.motionDue := rfl

/-! ### put -/

@[simp] theorem State.put_pending (s : State) (p : Nat) (f : Fld) (v : Nat) : (s.put p f v).pending = s.pending := rfl
@[simp] theorem State.put_time (s : State) (p : Nat) (f : Fld) (v : Nat) : (s.put p f v).time = s.time := rfl
@[simp] theorem State.put_part (s : State) (p : Nat) (f : Fld) (v : Nat) : (s.put p f v).part = s.part := rfl
@[simp] theorem State.put_shadow (s : State) (p : Nat) (f : Fld) (v : Nat) : (s.put p f v).shadow = s.shadow := rfl
@[simp] theorem State.put_mregs (s : State) (p : Nat) (f : Fld) (v : Nat) : (s.put p f v).mregs = s.mregs := rfl
@[simp] theorem State.put_mem (s : State) (p : Nat) (f : Fld) (v : Nat) : (s.put p f v).mem = s.mem := rfl
@[simp] theorem State.put_zptOld (s : State) (p : Nat) (f : Fld) (v : Nat) : (s.put p f v).zptOld = s.zptOld := rfl
@[simp] theorem State.put_resp (s : State) (p : Nat) (f : Fld) (v : Nat) : (s.put p f v).resp = s.resp := rfl
@[simp] theorem State.put_badLines (s : State) (p : Nat) (f : Fld) (v : Nat) : (s.put p f v).badLines = s.badLines := rfl
@[simp] theorem State.put_free (s : State) (p : Nat) (f : Fld) (v : Nat) : (s.put p f v).free = s.free := rfl
@[simp] theorem State.put_fltq (s : State) (p : Nat) (f : Fld) (v : Nat) : (s.put p f v).fltq = s.fltq := rfl
@[simp] theorem State.put_dom (s : State) (p : Nat) (f : Fld) (v : Nat) : (s.put p f v).dom = s.dom := rfl
@[simp] theorem State.put_domWait (s : State) (p : Nat) (f : Fld) (v : Nat) : (s.put p f v).domWait = s.domWait := rfl
@[simp] theorem State.put_resetting (s : State) (p : Nat) (f : Fld) (v : Nat) : (s.put p f v).resetting = s.resetting := rfl
@[simp] theorem State.put_claims (s : State) (p : Nat) (f : Fld) (v : Nat) : (s.put p f v).claims = s.claims := rfl
@[simp] theorem State.put_trk (s : State) (p : Nat) (f : Fld) (v : Nat) : (s.put p f v).trk = s.trk := rfl
@[simp] theorem State.put_meas (s : State) (p : Nat) (f : Fld) (v : Nat) : (s.put p f v).meas = s.meas := rfl
@[simp] theorem State.put_drl (s : State) (p : Nat) (f : Fld) (v : Nat) : (s.put p f v).drl = s.drl := rfl
@[simp] theorem State.put_afe (s : State) (p : Nat) (f : Fld) (v : Nat) : (s.put p f v).afe = s.afe := rfl
@[simp] theorem State.put_lnk (s : State) (p : Nat) (f : Fld) (v : Nat) : (s.put p f v).lnk = s.lnk := rfl
@[simp] theorem State.put_rdh (s : State) (p : Nat) (f : Fld) (v : Nat) : (s.put p f v).rdh = s.rdh := rfl
@[simp] theorem State.put_afm (s : State) (p : Nat) (f : Fld) (v : Nat) : (s.put p f v).afm = s.afm := rfl
@[simp] theorem State.put_stpIn (s : State) (p : Nat) (f : Fld) (v : Nat) : (s.put p f v).stpIn = s.stpIn := rfl
@[simp] theorem State.put_subFence (s : State) (p : Nat) (f : Fld) (v : Nat) : (s.put p f v).subFence = s.subFence := rfl
@[simp] theorem State.put_commitAt (s : State) (p : Nat) (f : Fld) (v : Nat) : (s.put p f v).commitAt = s.commitAt := rfl
@[simp] theorem State.put_lastCommit (s : State) (p : Nat) (f : Fld) (v : Nat) : (s.put p f v).lastCommit = s.lastCommit := rfl
@[simp] theorem State.put_preCopy (s : State) (p : Nat) (f : Fld) (v : Nat) : (s.put p f v).preCopy = s.preCopy := rfl
@[simp] theorem State.put_wrh (s : State) (p : Nat) (f : Fld) (v : Nat) : (s.put p f v).wrh = s.wrh := rfl
@[simp] theorem State.put_pesGuard (s : State) (p : Nat) (f : Fld) (v : Nat) : (s.put p f v).pesGuard = s.pesGuard := rfl
@[simp] theorem State.put_alertSt (s : State) (p : Nat) (f : Fld) (v : Nat) : (s.put p f v).alertSt = s.alertSt := rfl
@[simp] theorem State.put_shockEnd (s : State) (p : Nat) (f : Fld) (v : Nat) : (s.put p f v).shockEnd = s.shockEnd := rfl
@[simp] theorem State.put_shockSince (s : State) (p : Nat) (f : Fld) (v : Nat) : (s.put p f v).shockSince = s.shockSince := rfl
@[simp] theorem State.put_supply (s : State) (p : Nat) (f : Fld) (v : Nat) : (s.put p f v).supply = s.supply := rfl
@[simp] theorem State.put_windowClosed (s : State) (p : Nat) (f : Fld) (v : Nat) : (s.put p f v).windowClosed = s.windowClosed := rfl
@[simp] theorem State.put_deviceInh (s : State) (p : Nat) (f : Fld) (v : Nat) : (s.put p f v).deviceInh = s.deviceInh := rfl
@[simp] theorem State.put_d2dLost (s : State) (p : Nat) (f : Fld) (v : Nat) : (s.put p f v).d2dLost = s.d2dLost := rfl
@[simp] theorem State.put_stripes (s : State) (p : Nat) (f : Fld) (v : Nat) : (s.put p f v).stripes = s.stripes := rfl
@[simp] theorem State.put_stpReady (s : State) (p : Nat) (f : Fld) (v : Nat) : (s.put p f v).stpReady = s.stpReady := rfl
@[simp] theorem State.put_stpSeq (s : State) (p : Nat) (f : Fld) (v : Nat) : (s.put p f v).stpSeq = s.stpSeq := rfl
@[simp] theorem State.put_dil (s : State) (p : Nat) (f : Fld) (v : Nat) : (s.put p f v).dil = s.dil := rfl
@[simp] theorem State.put_srvh (s : State) (p : Nat) (f : Fld) (v : Nat) : (s.put p f v).srvh = s.srvh := rfl
@[simp] theorem State.put_srv (s : State) (p : Nat) (f : Fld) (v : Nat) : (s.put p f v).srv = s.srv := rfl
@[simp] theorem State.put_loops (s : State) (p : Nat) (f : Fld) (v : Nat) : (s.put p f v).loops = s.loops := rfl
@[simp] theorem State.put_til (s : State) (p : Nat) (f : Fld) (v : Nat) : (s.put p f v).til = s.til := rfl
@[simp] theorem State.put_prf (s : State) (p : Nat) (f : Fld) (v : Nat) : (s.put p f v).prf = s.prf := rfl
@[simp] theorem State.put_macts (s : State) (p : Nat) (f : Fld) (v : Nat) : (s.put p f v).macts = s.macts := rfl
@[simp] theorem State.put_mot (s : State) (p : Nat) (f : Fld) (v : Nat) : (s.put p f v).mot = s.mot := rfl
@[simp] theorem State.put_spn (s : State) (p : Nat) (f : Fld) (v : Nat) : (s.put p f v).spn = s.spn := rfl
@[simp] theorem State.put_spnWedge (s : State) (p : Nat) (f : Fld) (v : Nat) : (s.put p f v).spnWedge = s.spnWedge := rfl
@[simp] theorem State.put_bufq (s : State) (p : Nat) (f : Fld) (v : Nat) : (s.put p f v).bufq = s.bufq := rfl
@[simp] theorem State.put_slots (s : State) (p : Nat) (f : Fld) (v : Nat) : (s.put p f v).slots = s.slots := rfl
@[simp] theorem State.put_lastGrant (s : State) (p : Nat) (f : Fld) (v : Nat) : (s.put p f v).lastGrant = s.lastGrant := rfl
@[simp] theorem State.put_mresp (s : State) (p : Nat) (f : Fld) (v : Nat) : (s.put p f v).mresp = s.mresp := rfl
@[simp] theorem State.put_srt (s : State) (p : Nat) (f : Fld) (v : Nat) : (s.put p f v).srt = s.srt := rfl
@[simp] theorem State.put_gln (s : State) (p : Nat) (f : Fld) (v : Nat) : (s.put p f v).gln = s.gln := rfl
@[simp] theorem State.put_mdc (s : State) (p : Nat) (f : Fld) (v : Nat) : (s.put p f v).mdc = s.mdc := rfl
@[simp] theorem State.put_dma (s : State) (p : Nat) (f : Fld) (v : Nat) : (s.put p f v).dma = s.dma := rfl
@[simp] theorem State.put_ports (s : State) (p : Nat) (f : Fld) (v : Nat) : (s.put p f v).ports = s.ports := rfl
@[simp] theorem State.put_keys (s : State) (p : Nat) (f : Fld) (v : Nat) : (s.put p f v).keys = s.keys := rfl
@[simp] theorem State.put_dbs (s : State) (p : Nat) (f : Fld) (v : Nat) : (s.put p f v).dbs = s.dbs := rfl
@[simp] theorem State.put_dbq (s : State) (p : Nat) (f : Fld) (v : Nat) : (s.put p f v).dbq = s.dbq := rfl
@[simp] theorem State.put_supArmed (s : State) (p : Nat) (f : Fld) (v : Nat) : (s.put p f v).supArmed = s.supArmed := rfl
@[simp] theorem State.put_nor (s : State) (p : Nat) (f : Fld) (v : Nat) : (s.put p f v).nor = s.nor := rfl
@[simp] theorem State.put_norUnsure (s : State) (p : Nat) (f : Fld) (v : Nat) : (s.put p f v).norUnsure = s.norUnsure := rfl
@[simp] theorem State.put_nvs (s : State) (p : Nat) (f : Fld) (v : Nat) : (s.put p f v).nvs = s.nvs := rfl
@[simp] theorem State.put_sec (s : State) (p : Nat) (f : Fld) (v : Nat) : (s.put p f v).sec = s.sec := rfl
@[simp] theorem State.put_smbTx (s : State) (p : Nat) (f : Fld) (v : Nat) : (s.put p f v).smbTx = s.smbTx := rfl
@[simp] theorem State.put_smbOut (s : State) (p : Nat) (f : Fld) (v : Nat) : (s.put p f v).smbOut = s.smbOut := rfl
@[simp] theorem State.put_unfencing (s : State) (p : Nat) (f : Fld) (v : Nat) : (s.put p f v).unfencing = s.unfencing := rfl
@[simp] theorem State.put_wdog (s : State) (p : Nat) (f : Fld) (v : Nat) : (s.put p f v).wdog = s.wdog := rfl
@[simp] theorem State.put_aliveStart (s : State) (p : Nat) (f : Fld) (v : Nat) : (s.put p f v).aliveStart = s.aliveStart := rfl
@[simp] theorem State.put_oscStable (s : State) (p : Nat) (f : Fld) (v : Nat) : (s.put p f v).oscStable = s.oscStable := rfl
@[simp] theorem State.put_testHeld (s : State) (p : Nat) (f : Fld) (v : Nat) : (s.put p f v).testHeld = s.testHeld := rfl
@[simp] theorem State.put_relock (s : State) (p : Nat) (f : Fld) (v : Nat) : (s.put p f v).relock = s.relock := rfl
@[simp] theorem State.put_thmTold (s : State) (p : Nat) (f : Fld) (v : Nat) : (s.put p f v).thmTold = s.thmTold := rfl
@[simp] theorem State.put_thmSeen (s : State) (p : Nat) (f : Fld) (v : Nat) : (s.put p f v).thmSeen = s.thmSeen := rfl
@[simp] theorem State.put_warmReq (s : State) (p : Nat) (f : Fld) (v : Nat) : (s.put p f v).warmReq = s.warmReq := rfl
@[simp] theorem State.put_motionDue (s : State) (p : Nat) (f : Fld) (v : Nat) : (s.put p f v).motionDue = s.motionDue := rfl

/-! ### setMreg -/

@[simp] theorem State.setMreg_pending (s : State) (m : Master) (p o : Nat) (v : Word) : (s.setMreg m p o v).pending = s.pending := rfl
@[simp] theorem State.setMreg_time (s : State) (m : Master) (p o : Nat) (v : Word) : (s.setMreg m p o v).time = s.time := rfl
@[simp] theorem State.setMreg_part (s : State) (m : Master) (p o : Nat) (v : Word) : (s.setMreg m p o v).part = s.part := rfl
@[simp] theorem State.setMreg_regs (s : State) (m : Master) (p o : Nat) (v : Word) : (s.setMreg m p o v).regs = s.regs := rfl
@[simp] theorem State.setMreg_shadow (s : State) (m : Master) (p o : Nat) (v : Word) : (s.setMreg m p o v).shadow = s.shadow := rfl
@[simp] theorem State.setMreg_mem (s : State) (m : Master) (p o : Nat) (v : Word) : (s.setMreg m p o v).mem = s.mem := rfl
@[simp] theorem State.setMreg_zptOld (s : State) (m : Master) (p o : Nat) (v : Word) : (s.setMreg m p o v).zptOld = s.zptOld := rfl
@[simp] theorem State.setMreg_resp (s : State) (m : Master) (p o : Nat) (v : Word) : (s.setMreg m p o v).resp = s.resp := rfl
@[simp] theorem State.setMreg_badLines (s : State) (m : Master) (p o : Nat) (v : Word) : (s.setMreg m p o v).badLines = s.badLines := rfl
@[simp] theorem State.setMreg_free (s : State) (m : Master) (p o : Nat) (v : Word) : (s.setMreg m p o v).free = s.free := rfl
@[simp] theorem State.setMreg_fltq (s : State) (m : Master) (p o : Nat) (v : Word) : (s.setMreg m p o v).fltq = s.fltq := rfl
@[simp] theorem State.setMreg_dom (s : State) (m : Master) (p o : Nat) (v : Word) : (s.setMreg m p o v).dom = s.dom := rfl
@[simp] theorem State.setMreg_domWait (s : State) (m : Master) (p o : Nat) (v : Word) : (s.setMreg m p o v).domWait = s.domWait := rfl
@[simp] theorem State.setMreg_resetting (s : State) (m : Master) (p o : Nat) (v : Word) : (s.setMreg m p o v).resetting = s.resetting := rfl
@[simp] theorem State.setMreg_claims (s : State) (m : Master) (p o : Nat) (v : Word) : (s.setMreg m p o v).claims = s.claims := rfl
@[simp] theorem State.setMreg_trk (s : State) (m : Master) (p o : Nat) (v : Word) : (s.setMreg m p o v).trk = s.trk := rfl
@[simp] theorem State.setMreg_meas (s : State) (m : Master) (p o : Nat) (v : Word) : (s.setMreg m p o v).meas = s.meas := rfl
@[simp] theorem State.setMreg_drl (s : State) (m : Master) (p o : Nat) (v : Word) : (s.setMreg m p o v).drl = s.drl := rfl
@[simp] theorem State.setMreg_afe (s : State) (m : Master) (p o : Nat) (v : Word) : (s.setMreg m p o v).afe = s.afe := rfl
@[simp] theorem State.setMreg_lnk (s : State) (m : Master) (p o : Nat) (v : Word) : (s.setMreg m p o v).lnk = s.lnk := rfl
@[simp] theorem State.setMreg_rdh (s : State) (m : Master) (p o : Nat) (v : Word) : (s.setMreg m p o v).rdh = s.rdh := rfl
@[simp] theorem State.setMreg_afm (s : State) (m : Master) (p o : Nat) (v : Word) : (s.setMreg m p o v).afm = s.afm := rfl
@[simp] theorem State.setMreg_stpIn (s : State) (m : Master) (p o : Nat) (v : Word) : (s.setMreg m p o v).stpIn = s.stpIn := rfl
@[simp] theorem State.setMreg_subFence (s : State) (m : Master) (p o : Nat) (v : Word) : (s.setMreg m p o v).subFence = s.subFence := rfl
@[simp] theorem State.setMreg_commitAt (s : State) (m : Master) (p o : Nat) (v : Word) : (s.setMreg m p o v).commitAt = s.commitAt := rfl
@[simp] theorem State.setMreg_lastCommit (s : State) (m : Master) (p o : Nat) (v : Word) : (s.setMreg m p o v).lastCommit = s.lastCommit := rfl
@[simp] theorem State.setMreg_preCopy (s : State) (m : Master) (p o : Nat) (v : Word) : (s.setMreg m p o v).preCopy = s.preCopy := rfl
@[simp] theorem State.setMreg_wrh (s : State) (m : Master) (p o : Nat) (v : Word) : (s.setMreg m p o v).wrh = s.wrh := rfl
@[simp] theorem State.setMreg_pesGuard (s : State) (m : Master) (p o : Nat) (v : Word) : (s.setMreg m p o v).pesGuard = s.pesGuard := rfl
@[simp] theorem State.setMreg_alertSt (s : State) (m : Master) (p o : Nat) (v : Word) : (s.setMreg m p o v).alertSt = s.alertSt := rfl
@[simp] theorem State.setMreg_shockEnd (s : State) (m : Master) (p o : Nat) (v : Word) : (s.setMreg m p o v).shockEnd = s.shockEnd := rfl
@[simp] theorem State.setMreg_shockSince (s : State) (m : Master) (p o : Nat) (v : Word) : (s.setMreg m p o v).shockSince = s.shockSince := rfl
@[simp] theorem State.setMreg_supply (s : State) (m : Master) (p o : Nat) (v : Word) : (s.setMreg m p o v).supply = s.supply := rfl
@[simp] theorem State.setMreg_windowClosed (s : State) (m : Master) (p o : Nat) (v : Word) : (s.setMreg m p o v).windowClosed = s.windowClosed := rfl
@[simp] theorem State.setMreg_deviceInh (s : State) (m : Master) (p o : Nat) (v : Word) : (s.setMreg m p o v).deviceInh = s.deviceInh := rfl
@[simp] theorem State.setMreg_d2dLost (s : State) (m : Master) (p o : Nat) (v : Word) : (s.setMreg m p o v).d2dLost = s.d2dLost := rfl
@[simp] theorem State.setMreg_stripes (s : State) (m : Master) (p o : Nat) (v : Word) : (s.setMreg m p o v).stripes = s.stripes := rfl
@[simp] theorem State.setMreg_stpReady (s : State) (m : Master) (p o : Nat) (v : Word) : (s.setMreg m p o v).stpReady = s.stpReady := rfl
@[simp] theorem State.setMreg_stpSeq (s : State) (m : Master) (p o : Nat) (v : Word) : (s.setMreg m p o v).stpSeq = s.stpSeq := rfl
@[simp] theorem State.setMreg_dil (s : State) (m : Master) (p o : Nat) (v : Word) : (s.setMreg m p o v).dil = s.dil := rfl
@[simp] theorem State.setMreg_srvh (s : State) (m : Master) (p o : Nat) (v : Word) : (s.setMreg m p o v).srvh = s.srvh := rfl
@[simp] theorem State.setMreg_srv (s : State) (m : Master) (p o : Nat) (v : Word) : (s.setMreg m p o v).srv = s.srv := rfl
@[simp] theorem State.setMreg_loops (s : State) (m : Master) (p o : Nat) (v : Word) : (s.setMreg m p o v).loops = s.loops := rfl
@[simp] theorem State.setMreg_til (s : State) (m : Master) (p o : Nat) (v : Word) : (s.setMreg m p o v).til = s.til := rfl
@[simp] theorem State.setMreg_prf (s : State) (m : Master) (p o : Nat) (v : Word) : (s.setMreg m p o v).prf = s.prf := rfl
@[simp] theorem State.setMreg_macts (s : State) (m : Master) (p o : Nat) (v : Word) : (s.setMreg m p o v).macts = s.macts := rfl
@[simp] theorem State.setMreg_mot (s : State) (m : Master) (p o : Nat) (v : Word) : (s.setMreg m p o v).mot = s.mot := rfl
@[simp] theorem State.setMreg_spn (s : State) (m : Master) (p o : Nat) (v : Word) : (s.setMreg m p o v).spn = s.spn := rfl
@[simp] theorem State.setMreg_spnWedge (s : State) (m : Master) (p o : Nat) (v : Word) : (s.setMreg m p o v).spnWedge = s.spnWedge := rfl
@[simp] theorem State.setMreg_bufq (s : State) (m : Master) (p o : Nat) (v : Word) : (s.setMreg m p o v).bufq = s.bufq := rfl
@[simp] theorem State.setMreg_slots (s : State) (m : Master) (p o : Nat) (v : Word) : (s.setMreg m p o v).slots = s.slots := rfl
@[simp] theorem State.setMreg_lastGrant (s : State) (m : Master) (p o : Nat) (v : Word) : (s.setMreg m p o v).lastGrant = s.lastGrant := rfl
@[simp] theorem State.setMreg_mresp (s : State) (m : Master) (p o : Nat) (v : Word) : (s.setMreg m p o v).mresp = s.mresp := rfl
@[simp] theorem State.setMreg_srt (s : State) (m : Master) (p o : Nat) (v : Word) : (s.setMreg m p o v).srt = s.srt := rfl
@[simp] theorem State.setMreg_gln (s : State) (m : Master) (p o : Nat) (v : Word) : (s.setMreg m p o v).gln = s.gln := rfl
@[simp] theorem State.setMreg_mdc (s : State) (m : Master) (p o : Nat) (v : Word) : (s.setMreg m p o v).mdc = s.mdc := rfl
@[simp] theorem State.setMreg_dma (s : State) (m : Master) (p o : Nat) (v : Word) : (s.setMreg m p o v).dma = s.dma := rfl
@[simp] theorem State.setMreg_ports (s : State) (m : Master) (p o : Nat) (v : Word) : (s.setMreg m p o v).ports = s.ports := rfl
@[simp] theorem State.setMreg_keys (s : State) (m : Master) (p o : Nat) (v : Word) : (s.setMreg m p o v).keys = s.keys := rfl
@[simp] theorem State.setMreg_dbs (s : State) (m : Master) (p o : Nat) (v : Word) : (s.setMreg m p o v).dbs = s.dbs := rfl
@[simp] theorem State.setMreg_dbq (s : State) (m : Master) (p o : Nat) (v : Word) : (s.setMreg m p o v).dbq = s.dbq := rfl
@[simp] theorem State.setMreg_supArmed (s : State) (m : Master) (p o : Nat) (v : Word) : (s.setMreg m p o v).supArmed = s.supArmed := rfl
@[simp] theorem State.setMreg_nor (s : State) (m : Master) (p o : Nat) (v : Word) : (s.setMreg m p o v).nor = s.nor := rfl
@[simp] theorem State.setMreg_norUnsure (s : State) (m : Master) (p o : Nat) (v : Word) : (s.setMreg m p o v).norUnsure = s.norUnsure := rfl
@[simp] theorem State.setMreg_nvs (s : State) (m : Master) (p o : Nat) (v : Word) : (s.setMreg m p o v).nvs = s.nvs := rfl
@[simp] theorem State.setMreg_sec (s : State) (m : Master) (p o : Nat) (v : Word) : (s.setMreg m p o v).sec = s.sec := rfl
@[simp] theorem State.setMreg_smbTx (s : State) (m : Master) (p o : Nat) (v : Word) : (s.setMreg m p o v).smbTx = s.smbTx := rfl
@[simp] theorem State.setMreg_smbOut (s : State) (m : Master) (p o : Nat) (v : Word) : (s.setMreg m p o v).smbOut = s.smbOut := rfl
@[simp] theorem State.setMreg_unfencing (s : State) (m : Master) (p o : Nat) (v : Word) : (s.setMreg m p o v).unfencing = s.unfencing := rfl
@[simp] theorem State.setMreg_wdog (s : State) (m : Master) (p o : Nat) (v : Word) : (s.setMreg m p o v).wdog = s.wdog := rfl
@[simp] theorem State.setMreg_aliveStart (s : State) (m : Master) (p o : Nat) (v : Word) : (s.setMreg m p o v).aliveStart = s.aliveStart := rfl
@[simp] theorem State.setMreg_oscStable (s : State) (m : Master) (p o : Nat) (v : Word) : (s.setMreg m p o v).oscStable = s.oscStable := rfl
@[simp] theorem State.setMreg_testHeld (s : State) (m : Master) (p o : Nat) (v : Word) : (s.setMreg m p o v).testHeld = s.testHeld := rfl
@[simp] theorem State.setMreg_relock (s : State) (m : Master) (p o : Nat) (v : Word) : (s.setMreg m p o v).relock = s.relock := rfl
@[simp] theorem State.setMreg_thmTold (s : State) (m : Master) (p o : Nat) (v : Word) : (s.setMreg m p o v).thmTold = s.thmTold := rfl
@[simp] theorem State.setMreg_thmSeen (s : State) (m : Master) (p o : Nat) (v : Word) : (s.setMreg m p o v).thmSeen = s.thmSeen := rfl
@[simp] theorem State.setMreg_warmReq (s : State) (m : Master) (p o : Nat) (v : Word) : (s.setMreg m p o v).warmReq = s.warmReq := rfl
@[simp] theorem State.setMreg_motionDue (s : State) (m : Master) (p o : Nat) (v : Word) : (s.setMreg m p o v).motionDue = s.motionDue := rfl

/-! ### setByte -/

@[simp] theorem State.setByte_pending (s : State) (a : Nat) (b : Byte) : (s.setByte a b).pending = s.pending := rfl
@[simp] theorem State.setByte_time (s : State) (a : Nat) (b : Byte) : (s.setByte a b).time = s.time := rfl
@[simp] theorem State.setByte_part (s : State) (a : Nat) (b : Byte) : (s.setByte a b).part = s.part := rfl
@[simp] theorem State.setByte_regs (s : State) (a : Nat) (b : Byte) : (s.setByte a b).regs = s.regs := rfl
@[simp] theorem State.setByte_shadow (s : State) (a : Nat) (b : Byte) : (s.setByte a b).shadow = s.shadow := rfl
@[simp] theorem State.setByte_mregs (s : State) (a : Nat) (b : Byte) : (s.setByte a b).mregs = s.mregs := rfl
@[simp] theorem State.setByte_zptOld (s : State) (a : Nat) (b : Byte) : (s.setByte a b).zptOld = s.zptOld := rfl
@[simp] theorem State.setByte_resp (s : State) (a : Nat) (b : Byte) : (s.setByte a b).resp = s.resp := rfl
@[simp] theorem State.setByte_badLines (s : State) (a : Nat) (b : Byte) : (s.setByte a b).badLines = s.badLines := rfl
@[simp] theorem State.setByte_free (s : State) (a : Nat) (b : Byte) : (s.setByte a b).free = s.free := rfl
@[simp] theorem State.setByte_fltq (s : State) (a : Nat) (b : Byte) : (s.setByte a b).fltq = s.fltq := rfl
@[simp] theorem State.setByte_dom (s : State) (a : Nat) (b : Byte) : (s.setByte a b).dom = s.dom := rfl
@[simp] theorem State.setByte_domWait (s : State) (a : Nat) (b : Byte) : (s.setByte a b).domWait = s.domWait := rfl
@[simp] theorem State.setByte_resetting (s : State) (a : Nat) (b : Byte) : (s.setByte a b).resetting = s.resetting := rfl
@[simp] theorem State.setByte_claims (s : State) (a : Nat) (b : Byte) : (s.setByte a b).claims = s.claims := rfl
@[simp] theorem State.setByte_trk (s : State) (a : Nat) (b : Byte) : (s.setByte a b).trk = s.trk := rfl
@[simp] theorem State.setByte_meas (s : State) (a : Nat) (b : Byte) : (s.setByte a b).meas = s.meas := rfl
@[simp] theorem State.setByte_drl (s : State) (a : Nat) (b : Byte) : (s.setByte a b).drl = s.drl := rfl
@[simp] theorem State.setByte_afe (s : State) (a : Nat) (b : Byte) : (s.setByte a b).afe = s.afe := rfl
@[simp] theorem State.setByte_lnk (s : State) (a : Nat) (b : Byte) : (s.setByte a b).lnk = s.lnk := rfl
@[simp] theorem State.setByte_rdh (s : State) (a : Nat) (b : Byte) : (s.setByte a b).rdh = s.rdh := rfl
@[simp] theorem State.setByte_afm (s : State) (a : Nat) (b : Byte) : (s.setByte a b).afm = s.afm := rfl
@[simp] theorem State.setByte_stpIn (s : State) (a : Nat) (b : Byte) : (s.setByte a b).stpIn = s.stpIn := rfl
@[simp] theorem State.setByte_subFence (s : State) (a : Nat) (b : Byte) : (s.setByte a b).subFence = s.subFence := rfl
@[simp] theorem State.setByte_commitAt (s : State) (a : Nat) (b : Byte) : (s.setByte a b).commitAt = s.commitAt := rfl
@[simp] theorem State.setByte_lastCommit (s : State) (a : Nat) (b : Byte) : (s.setByte a b).lastCommit = s.lastCommit := rfl
@[simp] theorem State.setByte_preCopy (s : State) (a : Nat) (b : Byte) : (s.setByte a b).preCopy = s.preCopy := rfl
@[simp] theorem State.setByte_wrh (s : State) (a : Nat) (b : Byte) : (s.setByte a b).wrh = s.wrh := rfl
@[simp] theorem State.setByte_pesGuard (s : State) (a : Nat) (b : Byte) : (s.setByte a b).pesGuard = s.pesGuard := rfl
@[simp] theorem State.setByte_alertSt (s : State) (a : Nat) (b : Byte) : (s.setByte a b).alertSt = s.alertSt := rfl
@[simp] theorem State.setByte_shockEnd (s : State) (a : Nat) (b : Byte) : (s.setByte a b).shockEnd = s.shockEnd := rfl
@[simp] theorem State.setByte_shockSince (s : State) (a : Nat) (b : Byte) : (s.setByte a b).shockSince = s.shockSince := rfl
@[simp] theorem State.setByte_supply (s : State) (a : Nat) (b : Byte) : (s.setByte a b).supply = s.supply := rfl
@[simp] theorem State.setByte_windowClosed (s : State) (a : Nat) (b : Byte) : (s.setByte a b).windowClosed = s.windowClosed := rfl
@[simp] theorem State.setByte_deviceInh (s : State) (a : Nat) (b : Byte) : (s.setByte a b).deviceInh = s.deviceInh := rfl
@[simp] theorem State.setByte_d2dLost (s : State) (a : Nat) (b : Byte) : (s.setByte a b).d2dLost = s.d2dLost := rfl
@[simp] theorem State.setByte_stripes (s : State) (a : Nat) (b : Byte) : (s.setByte a b).stripes = s.stripes := rfl
@[simp] theorem State.setByte_stpReady (s : State) (a : Nat) (b : Byte) : (s.setByte a b).stpReady = s.stpReady := rfl
@[simp] theorem State.setByte_stpSeq (s : State) (a : Nat) (b : Byte) : (s.setByte a b).stpSeq = s.stpSeq := rfl
@[simp] theorem State.setByte_dil (s : State) (a : Nat) (b : Byte) : (s.setByte a b).dil = s.dil := rfl
@[simp] theorem State.setByte_srvh (s : State) (a : Nat) (b : Byte) : (s.setByte a b).srvh = s.srvh := rfl
@[simp] theorem State.setByte_srv (s : State) (a : Nat) (b : Byte) : (s.setByte a b).srv = s.srv := rfl
@[simp] theorem State.setByte_loops (s : State) (a : Nat) (b : Byte) : (s.setByte a b).loops = s.loops := rfl
@[simp] theorem State.setByte_til (s : State) (a : Nat) (b : Byte) : (s.setByte a b).til = s.til := rfl
@[simp] theorem State.setByte_prf (s : State) (a : Nat) (b : Byte) : (s.setByte a b).prf = s.prf := rfl
@[simp] theorem State.setByte_macts (s : State) (a : Nat) (b : Byte) : (s.setByte a b).macts = s.macts := rfl
@[simp] theorem State.setByte_mot (s : State) (a : Nat) (b : Byte) : (s.setByte a b).mot = s.mot := rfl
@[simp] theorem State.setByte_spn (s : State) (a : Nat) (b : Byte) : (s.setByte a b).spn = s.spn := rfl
@[simp] theorem State.setByte_spnWedge (s : State) (a : Nat) (b : Byte) : (s.setByte a b).spnWedge = s.spnWedge := rfl
@[simp] theorem State.setByte_bufq (s : State) (a : Nat) (b : Byte) : (s.setByte a b).bufq = s.bufq := rfl
@[simp] theorem State.setByte_slots (s : State) (a : Nat) (b : Byte) : (s.setByte a b).slots = s.slots := rfl
@[simp] theorem State.setByte_lastGrant (s : State) (a : Nat) (b : Byte) : (s.setByte a b).lastGrant = s.lastGrant := rfl
@[simp] theorem State.setByte_mresp (s : State) (a : Nat) (b : Byte) : (s.setByte a b).mresp = s.mresp := rfl
@[simp] theorem State.setByte_srt (s : State) (a : Nat) (b : Byte) : (s.setByte a b).srt = s.srt := rfl
@[simp] theorem State.setByte_gln (s : State) (a : Nat) (b : Byte) : (s.setByte a b).gln = s.gln := rfl
@[simp] theorem State.setByte_mdc (s : State) (a : Nat) (b : Byte) : (s.setByte a b).mdc = s.mdc := rfl
@[simp] theorem State.setByte_dma (s : State) (a : Nat) (b : Byte) : (s.setByte a b).dma = s.dma := rfl
@[simp] theorem State.setByte_ports (s : State) (a : Nat) (b : Byte) : (s.setByte a b).ports = s.ports := rfl
@[simp] theorem State.setByte_keys (s : State) (a : Nat) (b : Byte) : (s.setByte a b).keys = s.keys := rfl
@[simp] theorem State.setByte_dbs (s : State) (a : Nat) (b : Byte) : (s.setByte a b).dbs = s.dbs := rfl
@[simp] theorem State.setByte_dbq (s : State) (a : Nat) (b : Byte) : (s.setByte a b).dbq = s.dbq := rfl
@[simp] theorem State.setByte_supArmed (s : State) (a : Nat) (b : Byte) : (s.setByte a b).supArmed = s.supArmed := rfl
@[simp] theorem State.setByte_nor (s : State) (a : Nat) (b : Byte) : (s.setByte a b).nor = s.nor := rfl
@[simp] theorem State.setByte_norUnsure (s : State) (a : Nat) (b : Byte) : (s.setByte a b).norUnsure = s.norUnsure := rfl
@[simp] theorem State.setByte_nvs (s : State) (a : Nat) (b : Byte) : (s.setByte a b).nvs = s.nvs := rfl
@[simp] theorem State.setByte_sec (s : State) (a : Nat) (b : Byte) : (s.setByte a b).sec = s.sec := rfl
@[simp] theorem State.setByte_smbTx (s : State) (a : Nat) (b : Byte) : (s.setByte a b).smbTx = s.smbTx := rfl
@[simp] theorem State.setByte_smbOut (s : State) (a : Nat) (b : Byte) : (s.setByte a b).smbOut = s.smbOut := rfl
@[simp] theorem State.setByte_unfencing (s : State) (a : Nat) (b : Byte) : (s.setByte a b).unfencing = s.unfencing := rfl
@[simp] theorem State.setByte_wdog (s : State) (a : Nat) (b : Byte) : (s.setByte a b).wdog = s.wdog := rfl
@[simp] theorem State.setByte_aliveStart (s : State) (a : Nat) (b : Byte) : (s.setByte a b).aliveStart = s.aliveStart := rfl
@[simp] theorem State.setByte_oscStable (s : State) (a : Nat) (b : Byte) : (s.setByte a b).oscStable = s.oscStable := rfl
@[simp] theorem State.setByte_testHeld (s : State) (a : Nat) (b : Byte) : (s.setByte a b).testHeld = s.testHeld := rfl
@[simp] theorem State.setByte_relock (s : State) (a : Nat) (b : Byte) : (s.setByte a b).relock = s.relock := rfl
@[simp] theorem State.setByte_thmTold (s : State) (a : Nat) (b : Byte) : (s.setByte a b).thmTold = s.thmTold := rfl
@[simp] theorem State.setByte_thmSeen (s : State) (a : Nat) (b : Byte) : (s.setByte a b).thmSeen = s.thmSeen := rfl
@[simp] theorem State.setByte_warmReq (s : State) (a : Nat) (b : Byte) : (s.setByte a b).warmReq = s.warmReq := rfl
@[simp] theorem State.setByte_motionDue (s : State) (a : Nat) (b : Byte) : (s.setByte a b).motionDue = s.motionDue := rfl

/-! ### answer -/

@[simp] theorem State.answer_pending (s : State) (v : Nat) : (s.answer v).pending = s.pending := rfl
@[simp] theorem State.answer_time (s : State) (v : Nat) : (s.answer v).time = s.time := rfl
@[simp] theorem State.answer_part (s : State) (v : Nat) : (s.answer v).part = s.part := rfl
@[simp] theorem State.answer_regs (s : State) (v : Nat) : (s.answer v).regs = s.regs := rfl
@[simp] theorem State.answer_shadow (s : State) (v : Nat) : (s.answer v).shadow = s.shadow := rfl
@[simp] theorem State.answer_mregs (s : State) (v : Nat) : (s.answer v).mregs = s.mregs := rfl
@[simp] theorem State.answer_mem (s : State) (v : Nat) : (s.answer v).mem = s.mem := rfl
@[simp] theorem State.answer_zptOld (s : State) (v : Nat) : (s.answer v).zptOld = s.zptOld := rfl
@[simp] theorem State.answer_badLines (s : State) (v : Nat) : (s.answer v).badLines = s.badLines := rfl
@[simp] theorem State.answer_free (s : State) (v : Nat) : (s.answer v).free = s.free := rfl
@[simp] theorem State.answer_fltq (s : State) (v : Nat) : (s.answer v).fltq = s.fltq := rfl
@[simp] theorem State.answer_dom (s : State) (v : Nat) : (s.answer v).dom = s.dom := rfl
@[simp] theorem State.answer_domWait (s : State) (v : Nat) : (s.answer v).domWait = s.domWait := rfl
@[simp] theorem State.answer_resetting (s : State) (v : Nat) : (s.answer v).resetting = s.resetting := rfl
@[simp] theorem State.answer_claims (s : State) (v : Nat) : (s.answer v).claims = s.claims := rfl
@[simp] theorem State.answer_trk (s : State) (v : Nat) : (s.answer v).trk = s.trk := rfl
@[simp] theorem State.answer_meas (s : State) (v : Nat) : (s.answer v).meas = s.meas := rfl
@[simp] theorem State.answer_drl (s : State) (v : Nat) : (s.answer v).drl = s.drl := rfl
@[simp] theorem State.answer_afe (s : State) (v : Nat) : (s.answer v).afe = s.afe := rfl
@[simp] theorem State.answer_lnk (s : State) (v : Nat) : (s.answer v).lnk = s.lnk := rfl
@[simp] theorem State.answer_rdh (s : State) (v : Nat) : (s.answer v).rdh = s.rdh := rfl
@[simp] theorem State.answer_afm (s : State) (v : Nat) : (s.answer v).afm = s.afm := rfl
@[simp] theorem State.answer_stpIn (s : State) (v : Nat) : (s.answer v).stpIn = s.stpIn := rfl
@[simp] theorem State.answer_subFence (s : State) (v : Nat) : (s.answer v).subFence = s.subFence := rfl
@[simp] theorem State.answer_commitAt (s : State) (v : Nat) : (s.answer v).commitAt = s.commitAt := rfl
@[simp] theorem State.answer_lastCommit (s : State) (v : Nat) : (s.answer v).lastCommit = s.lastCommit := rfl
@[simp] theorem State.answer_preCopy (s : State) (v : Nat) : (s.answer v).preCopy = s.preCopy := rfl
@[simp] theorem State.answer_wrh (s : State) (v : Nat) : (s.answer v).wrh = s.wrh := rfl
@[simp] theorem State.answer_pesGuard (s : State) (v : Nat) : (s.answer v).pesGuard = s.pesGuard := rfl
@[simp] theorem State.answer_alertSt (s : State) (v : Nat) : (s.answer v).alertSt = s.alertSt := rfl
@[simp] theorem State.answer_shockEnd (s : State) (v : Nat) : (s.answer v).shockEnd = s.shockEnd := rfl
@[simp] theorem State.answer_shockSince (s : State) (v : Nat) : (s.answer v).shockSince = s.shockSince := rfl
@[simp] theorem State.answer_supply (s : State) (v : Nat) : (s.answer v).supply = s.supply := rfl
@[simp] theorem State.answer_windowClosed (s : State) (v : Nat) : (s.answer v).windowClosed = s.windowClosed := rfl
@[simp] theorem State.answer_deviceInh (s : State) (v : Nat) : (s.answer v).deviceInh = s.deviceInh := rfl
@[simp] theorem State.answer_d2dLost (s : State) (v : Nat) : (s.answer v).d2dLost = s.d2dLost := rfl
@[simp] theorem State.answer_stripes (s : State) (v : Nat) : (s.answer v).stripes = s.stripes := rfl
@[simp] theorem State.answer_stpReady (s : State) (v : Nat) : (s.answer v).stpReady = s.stpReady := rfl
@[simp] theorem State.answer_stpSeq (s : State) (v : Nat) : (s.answer v).stpSeq = s.stpSeq := rfl
@[simp] theorem State.answer_dil (s : State) (v : Nat) : (s.answer v).dil = s.dil := rfl
@[simp] theorem State.answer_srvh (s : State) (v : Nat) : (s.answer v).srvh = s.srvh := rfl
@[simp] theorem State.answer_srv (s : State) (v : Nat) : (s.answer v).srv = s.srv := rfl
@[simp] theorem State.answer_loops (s : State) (v : Nat) : (s.answer v).loops = s.loops := rfl
@[simp] theorem State.answer_til (s : State) (v : Nat) : (s.answer v).til = s.til := rfl
@[simp] theorem State.answer_prf (s : State) (v : Nat) : (s.answer v).prf = s.prf := rfl
@[simp] theorem State.answer_macts (s : State) (v : Nat) : (s.answer v).macts = s.macts := rfl
@[simp] theorem State.answer_mot (s : State) (v : Nat) : (s.answer v).mot = s.mot := rfl
@[simp] theorem State.answer_spn (s : State) (v : Nat) : (s.answer v).spn = s.spn := rfl
@[simp] theorem State.answer_spnWedge (s : State) (v : Nat) : (s.answer v).spnWedge = s.spnWedge := rfl
@[simp] theorem State.answer_bufq (s : State) (v : Nat) : (s.answer v).bufq = s.bufq := rfl
@[simp] theorem State.answer_slots (s : State) (v : Nat) : (s.answer v).slots = s.slots := rfl
@[simp] theorem State.answer_lastGrant (s : State) (v : Nat) : (s.answer v).lastGrant = s.lastGrant := rfl
@[simp] theorem State.answer_mresp (s : State) (v : Nat) : (s.answer v).mresp = s.mresp := rfl
@[simp] theorem State.answer_srt (s : State) (v : Nat) : (s.answer v).srt = s.srt := rfl
@[simp] theorem State.answer_gln (s : State) (v : Nat) : (s.answer v).gln = s.gln := rfl
@[simp] theorem State.answer_mdc (s : State) (v : Nat) : (s.answer v).mdc = s.mdc := rfl
@[simp] theorem State.answer_dma (s : State) (v : Nat) : (s.answer v).dma = s.dma := rfl
@[simp] theorem State.answer_ports (s : State) (v : Nat) : (s.answer v).ports = s.ports := rfl
@[simp] theorem State.answer_keys (s : State) (v : Nat) : (s.answer v).keys = s.keys := rfl
@[simp] theorem State.answer_dbs (s : State) (v : Nat) : (s.answer v).dbs = s.dbs := rfl
@[simp] theorem State.answer_dbq (s : State) (v : Nat) : (s.answer v).dbq = s.dbq := rfl
@[simp] theorem State.answer_supArmed (s : State) (v : Nat) : (s.answer v).supArmed = s.supArmed := rfl
@[simp] theorem State.answer_nor (s : State) (v : Nat) : (s.answer v).nor = s.nor := rfl
@[simp] theorem State.answer_norUnsure (s : State) (v : Nat) : (s.answer v).norUnsure = s.norUnsure := rfl
@[simp] theorem State.answer_nvs (s : State) (v : Nat) : (s.answer v).nvs = s.nvs := rfl
@[simp] theorem State.answer_sec (s : State) (v : Nat) : (s.answer v).sec = s.sec := rfl
@[simp] theorem State.answer_smbTx (s : State) (v : Nat) : (s.answer v).smbTx = s.smbTx := rfl
@[simp] theorem State.answer_smbOut (s : State) (v : Nat) : (s.answer v).smbOut = s.smbOut := rfl
@[simp] theorem State.answer_unfencing (s : State) (v : Nat) : (s.answer v).unfencing = s.unfencing := rfl
@[simp] theorem State.answer_wdog (s : State) (v : Nat) : (s.answer v).wdog = s.wdog := rfl
@[simp] theorem State.answer_aliveStart (s : State) (v : Nat) : (s.answer v).aliveStart = s.aliveStart := rfl
@[simp] theorem State.answer_oscStable (s : State) (v : Nat) : (s.answer v).oscStable = s.oscStable := rfl
@[simp] theorem State.answer_testHeld (s : State) (v : Nat) : (s.answer v).testHeld = s.testHeld := rfl
@[simp] theorem State.answer_relock (s : State) (v : Nat) : (s.answer v).relock = s.relock := rfl
@[simp] theorem State.answer_thmTold (s : State) (v : Nat) : (s.answer v).thmTold = s.thmTold := rfl
@[simp] theorem State.answer_thmSeen (s : State) (v : Nat) : (s.answer v).thmSeen = s.thmSeen := rfl
@[simp] theorem State.answer_warmReq (s : State) (v : Nat) : (s.answer v).warmReq = s.warmReq := rfl
@[simp] theorem State.answer_motionDue (s : State) (v : Nat) : (s.answer v).motionDue = s.motionDue := rfl

/-! ### drew -/

@[simp] theorem State.drew_pending (s : State) : (s.drew).pending = s.pending := rfl
@[simp] theorem State.drew_time (s : State) : (s.drew).time = s.time := rfl
@[simp] theorem State.drew_part (s : State) : (s.drew).part = s.part := rfl
@[simp] theorem State.drew_regs (s : State) : (s.drew).regs = s.regs := rfl
@[simp] theorem State.drew_shadow (s : State) : (s.drew).shadow = s.shadow := rfl
@[simp] theorem State.drew_mregs (s : State) : (s.drew).mregs = s.mregs := rfl
@[simp] theorem State.drew_mem (s : State) : (s.drew).mem = s.mem := rfl
@[simp] theorem State.drew_zptOld (s : State) : (s.drew).zptOld = s.zptOld := rfl
@[simp] theorem State.drew_resp (s : State) : (s.drew).resp = s.resp := rfl
@[simp] theorem State.drew_badLines (s : State) : (s.drew).badLines = s.badLines := rfl
@[simp] theorem State.drew_fltq (s : State) : (s.drew).fltq = s.fltq := rfl
@[simp] theorem State.drew_dom (s : State) : (s.drew).dom = s.dom := rfl
@[simp] theorem State.drew_domWait (s : State) : (s.drew).domWait = s.domWait := rfl
@[simp] theorem State.drew_resetting (s : State) : (s.drew).resetting = s.resetting := rfl
@[simp] theorem State.drew_claims (s : State) : (s.drew).claims = s.claims := rfl
@[simp] theorem State.drew_trk (s : State) : (s.drew).trk = s.trk := rfl
@[simp] theorem State.drew_meas (s : State) : (s.drew).meas = s.meas := rfl
@[simp] theorem State.drew_drl (s : State) : (s.drew).drl = s.drl := rfl
@[simp] theorem State.drew_afe (s : State) : (s.drew).afe = s.afe := rfl
@[simp] theorem State.drew_lnk (s : State) : (s.drew).lnk = s.lnk := rfl
@[simp] theorem State.drew_rdh (s : State) : (s.drew).rdh = s.rdh := rfl
@[simp] theorem State.drew_afm (s : State) : (s.drew).afm = s.afm := rfl
@[simp] theorem State.drew_stpIn (s : State) : (s.drew).stpIn = s.stpIn := rfl
@[simp] theorem State.drew_subFence (s : State) : (s.drew).subFence = s.subFence := rfl
@[simp] theorem State.drew_commitAt (s : State) : (s.drew).commitAt = s.commitAt := rfl
@[simp] theorem State.drew_lastCommit (s : State) : (s.drew).lastCommit = s.lastCommit := rfl
@[simp] theorem State.drew_preCopy (s : State) : (s.drew).preCopy = s.preCopy := rfl
@[simp] theorem State.drew_wrh (s : State) : (s.drew).wrh = s.wrh := rfl
@[simp] theorem State.drew_pesGuard (s : State) : (s.drew).pesGuard = s.pesGuard := rfl
@[simp] theorem State.drew_alertSt (s : State) : (s.drew).alertSt = s.alertSt := rfl
@[simp] theorem State.drew_shockEnd (s : State) : (s.drew).shockEnd = s.shockEnd := rfl
@[simp] theorem State.drew_shockSince (s : State) : (s.drew).shockSince = s.shockSince := rfl
@[simp] theorem State.drew_supply (s : State) : (s.drew).supply = s.supply := rfl
@[simp] theorem State.drew_windowClosed (s : State) : (s.drew).windowClosed = s.windowClosed := rfl
@[simp] theorem State.drew_deviceInh (s : State) : (s.drew).deviceInh = s.deviceInh := rfl
@[simp] theorem State.drew_d2dLost (s : State) : (s.drew).d2dLost = s.d2dLost := rfl
@[simp] theorem State.drew_stripes (s : State) : (s.drew).stripes = s.stripes := rfl
@[simp] theorem State.drew_stpReady (s : State) : (s.drew).stpReady = s.stpReady := rfl
@[simp] theorem State.drew_stpSeq (s : State) : (s.drew).stpSeq = s.stpSeq := rfl
@[simp] theorem State.drew_dil (s : State) : (s.drew).dil = s.dil := rfl
@[simp] theorem State.drew_srvh (s : State) : (s.drew).srvh = s.srvh := rfl
@[simp] theorem State.drew_srv (s : State) : (s.drew).srv = s.srv := rfl
@[simp] theorem State.drew_loops (s : State) : (s.drew).loops = s.loops := rfl
@[simp] theorem State.drew_til (s : State) : (s.drew).til = s.til := rfl
@[simp] theorem State.drew_prf (s : State) : (s.drew).prf = s.prf := rfl
@[simp] theorem State.drew_macts (s : State) : (s.drew).macts = s.macts := rfl
@[simp] theorem State.drew_mot (s : State) : (s.drew).mot = s.mot := rfl
@[simp] theorem State.drew_spn (s : State) : (s.drew).spn = s.spn := rfl
@[simp] theorem State.drew_spnWedge (s : State) : (s.drew).spnWedge = s.spnWedge := rfl
@[simp] theorem State.drew_bufq (s : State) : (s.drew).bufq = s.bufq := rfl
@[simp] theorem State.drew_slots (s : State) : (s.drew).slots = s.slots := rfl
@[simp] theorem State.drew_lastGrant (s : State) : (s.drew).lastGrant = s.lastGrant := rfl
@[simp] theorem State.drew_mresp (s : State) : (s.drew).mresp = s.mresp := rfl
@[simp] theorem State.drew_srt (s : State) : (s.drew).srt = s.srt := rfl
@[simp] theorem State.drew_gln (s : State) : (s.drew).gln = s.gln := rfl
@[simp] theorem State.drew_mdc (s : State) : (s.drew).mdc = s.mdc := rfl
@[simp] theorem State.drew_dma (s : State) : (s.drew).dma = s.dma := rfl
@[simp] theorem State.drew_ports (s : State) : (s.drew).ports = s.ports := rfl
@[simp] theorem State.drew_keys (s : State) : (s.drew).keys = s.keys := rfl
@[simp] theorem State.drew_dbs (s : State) : (s.drew).dbs = s.dbs := rfl
@[simp] theorem State.drew_dbq (s : State) : (s.drew).dbq = s.dbq := rfl
@[simp] theorem State.drew_supArmed (s : State) : (s.drew).supArmed = s.supArmed := rfl
@[simp] theorem State.drew_nor (s : State) : (s.drew).nor = s.nor := rfl
@[simp] theorem State.drew_norUnsure (s : State) : (s.drew).norUnsure = s.norUnsure := rfl
@[simp] theorem State.drew_nvs (s : State) : (s.drew).nvs = s.nvs := rfl
@[simp] theorem State.drew_sec (s : State) : (s.drew).sec = s.sec := rfl
@[simp] theorem State.drew_smbTx (s : State) : (s.drew).smbTx = s.smbTx := rfl
@[simp] theorem State.drew_smbOut (s : State) : (s.drew).smbOut = s.smbOut := rfl
@[simp] theorem State.drew_unfencing (s : State) : (s.drew).unfencing = s.unfencing := rfl
@[simp] theorem State.drew_wdog (s : State) : (s.drew).wdog = s.wdog := rfl
@[simp] theorem State.drew_aliveStart (s : State) : (s.drew).aliveStart = s.aliveStart := rfl
@[simp] theorem State.drew_oscStable (s : State) : (s.drew).oscStable = s.oscStable := rfl
@[simp] theorem State.drew_testHeld (s : State) : (s.drew).testHeld = s.testHeld := rfl
@[simp] theorem State.drew_relock (s : State) : (s.drew).relock = s.relock := rfl
@[simp] theorem State.drew_thmTold (s : State) : (s.drew).thmTold = s.thmTold := rfl
@[simp] theorem State.drew_thmSeen (s : State) : (s.drew).thmSeen = s.thmSeen := rfl
@[simp] theorem State.drew_warmReq (s : State) : (s.drew).warmReq = s.warmReq := rfl
@[simp] theorem State.drew_motionDue (s : State) : (s.drew).motionDue = s.motionDue := rfl

end Sys2Proof.Machine
end

