-- ==== Sys2Proof/Laws/Reports.lean ====
section
/-! SUPPORT. What a report of a fault changes (R44, R45), and what the stores to buffer memory change. -/

namespace Sys2Proof.Machine

variable {s : State} {p p' b o' : Nat} {d : Detail}

/-- A report changes registers and the queue of reports alone. -/
theorem raiseWith_shape (s : State) (p b : Nat) (d : Detail) : ∃ r q, s.raiseWith p b d = { s with regs := r, fltq := q } := by
  unfold State.raiseWith
  split
  · exact ⟨s.regs, s.fltq, rfl⟩
  · split
    · exact ⟨_, _, rfl⟩
    · exact ⟨s.regs, s.fltq, rfl⟩

/-- An absent page has no source. -/
theorem raiseWith_absent (h : s.part.hasPage p = false) : s.raiseWith p b d = s := by
  unfold State.raiseWith; split <;> simp [h]

/-- A detection of a present page: its registers. -/
theorem raiseWith_regs {c l : Nat} (h : s.part.hasPage p = true) (k : faultGrade p b = some (c, l)) :
    (s.raiseWith p b d).regs = ((s.setReg p 0x1C (s.reg p 0x1C ||| BitVec.ofNat 32 (2 ^ b))).irq p 31).regs := by
  simp [State.raiseWith, h, k]

/-- A report touches FLT_STAT and IRQ_PEND of its page alone. -/
theorem raiseWith_reg_ne (h : regKey p' o' ≠ regKey p 0x1C) (k : regKey p' o' ≠ regKey p 0x18) : (s.raiseWith p b d).reg p' o' = s.reg p' o' := by
  unfold State.raiseWith
  split
  · rfl
  · split
    · show ((s.setReg p 0x1C _).irq p 31).reg p' o' = _
      rw [State.irq, State.irqBits, reg_setReg_ne k, reg_setReg_ne h]
    · rfl

theorem raiseWith_get_ne {f : Fld} (h : regKey p' f.off ≠ regKey p 0x1C) (k : regKey p' f.off ≠ regKey p 0x18) :
    (s.raiseWith p b d).get p' f = s.get p' f := by
  rw [State.get, raiseWith_reg_ne h k, State.get]

theorem irq_reg_ne (k : regKey p' o' ≠ regKey p 0x18) : (s.irq p b).reg p' o' = s.reg p' o' := by
  rw [State.irq, State.irqBits, reg_setReg_ne k]

theorem irq_get_ne {f : Fld} (k : regKey p' f.off ≠ regKey p 0x18) : (s.irq p b).get p' f = s.get p' f := by
  rw [State.get, irq_reg_ne k, State.get]

@[simp] theorem State.raiseWith_pending (s : State) (p b : Nat) (d : Detail) : (s.raiseWith p b d).pending = s.pending := by obtain ⟨_, _, h⟩ := raiseWith_shape s p b d; rw [h]
@[simp] theorem State.raiseWith_time (s : State) (p b : Nat) (d : Detail) : (s.raiseWith p b d).time = s.time := by obtain ⟨_, _, h⟩ := raiseWith_shape s p b d; rw [h]
@[simp] theorem State.raiseWith_part (s : State) (p b : Nat) (d : Detail) : (s.raiseWith p b d).part = s.part := by obtain ⟨_, _, h⟩ := raiseWith_shape s p b d; rw [h]
@[simp] theorem State.raiseWith_shadow (s : State) (p b : Nat) (d : Detail) : (s.raiseWith p b d).shadow = s.shadow := by obtain ⟨_, _, h⟩ := raiseWith_shape s p b d; rw [h]
@[simp] theorem State.raiseWith_mregs (s : State) (p b : Nat) (d : Detail) : (s.raiseWith p b d).mregs = s.mregs := by obtain ⟨_, _, h⟩ := raiseWith_shape s p b d; rw [h]
@[simp] theorem State.raiseWith_mem (s : State) (p b : Nat) (d : Detail) : (s.raiseWith p b d).mem = s.mem := by obtain ⟨_, _, h⟩ := raiseWith_shape s p b d; rw [h]
@[simp] theorem State.raiseWith_zptOld (s : State) (p b : Nat) (d : Detail) : (s.raiseWith p b d).zptOld = s.zptOld := by obtain ⟨_, _, h⟩ := raiseWith_shape s p b d; rw [h]
@[simp] theorem State.raiseWith_resp (s : State) (p b : Nat) (d : Detail) : (s.raiseWith p b d).resp = s.resp := by obtain ⟨_, _, h⟩ := raiseWith_shape s p b d; rw [h]
@[simp] theorem State.raiseWith_badLines (s : State) (p b : Nat) (d : Detail) : (s.raiseWith p b d).badLines = s.badLines := by obtain ⟨_, _, h⟩ := raiseWith_shape s p b d; rw [h]
@[simp] theorem State.raiseWith_free (s : State) (p b : Nat) (d : Detail) : (s.raiseWith p b d).free = s.free := by obtain ⟨_, _, h⟩ := raiseWith_shape s p b d; rw [h]
@[simp] theorem State.raiseWith_dom (s : State) (p b : Nat) (d : Detail) : (s.raiseWith p b d).dom = s.dom := by obtain ⟨_, _, h⟩ := raiseWith_shape s p b d; rw [h]
@[simp] theorem State.raiseWith_domWait (s : State) (p b : Nat) (d : Detail) : (s.raiseWith p b d).domWait = s.domWait := by obtain ⟨_, _, h⟩ := raiseWith_shape s p b d; rw [h]
@[simp] theorem State.raiseWith_resetting (s : State) (p b : Nat) (d : Detail) : (s.raiseWith p b d).resetting = s.resetting := by obtain ⟨_, _, h⟩ := raiseWith_shape s p b d; rw [h]
@[simp] theorem State.raiseWith_claims (s : State) (p b : Nat) (d : Detail) : (s.raiseWith p b d).claims = s.claims := by obtain ⟨_, _, h⟩ := raiseWith_shape s p b d; rw [h]
@[simp] theorem State.raiseWith_trk (s : State) (p b : Nat) (d : Detail) : (s.raiseWith p b d).trk = s.trk := by obtain ⟨_, _, h⟩ := raiseWith_shape s p b d; rw [h]
@[simp] theorem State.raiseWith_meas (s : State) (p b : Nat) (d : Detail) : (s.raiseWith p b d).meas = s.meas := by obtain ⟨_, _, h⟩ := raiseWith_shape s p b d; rw [h]
@[simp] theorem State.raiseWith_drl (s : State) (p b : Nat) (d : Detail) : (s.raiseWith p b d).drl = s.drl := by obtain ⟨_, _, h⟩ := raiseWith_shape s p b d; rw [h]
@[simp] theorem State.raiseWith_afe (s : State) (p b : Nat) (d : Detail) : (s.raiseWith p b d).afe = s.afe := by obtain ⟨_, _, h⟩ := raiseWith_shape s p b d; rw [h]
@[simp] theorem State.raiseWith_lnk (s : State) (p b : Nat) (d : Detail) : (s.raiseWith p b d).lnk = s.lnk := by obtain ⟨_, _, h⟩ := raiseWith_shape s p b d; rw [h]
@[simp] theorem State.raiseWith_rdh (s : State) (p b : Nat) (d : Detail) : (s.raiseWith p b d).rdh = s.rdh := by obtain ⟨_, _, h⟩ := raiseWith_shape s p b d; rw [h]
@[simp] theorem State.raiseWith_afm (s : State) (p b : Nat) (d : Detail) : (s.raiseWith p b d).afm = s.afm := by obtain ⟨_, _, h⟩ := raiseWith_shape s p b d; rw [h]
@[simp] theorem State.raiseWith_stpIn (s : State) (p b : Nat) (d : Detail) : (s.raiseWith p b d).stpIn = s.stpIn := by obtain ⟨_, _, h⟩ := raiseWith_shape s p b d; rw [h]
@[simp] theorem State.raiseWith_subFence (s : State) (p b : Nat) (d : Detail) : (s.raiseWith p b d).subFence = s.subFence := by obtain ⟨_, _, h⟩ := raiseWith_shape s p b d; rw [h]
@[simp] theorem State.raiseWith_commitAt (s : State) (p b : Nat) (d : Detail) : (s.raiseWith p b d).commitAt = s.commitAt := by obtain ⟨_, _, h⟩ := raiseWith_shape s p b d; rw [h]
@[simp] theorem State.raiseWith_lastCommit (s : State) (p b : Nat) (d : Detail) : (s.raiseWith p b d).lastCommit = s.lastCommit := by obtain ⟨_, _, h⟩ := raiseWith_shape s p b d; rw [h]
@[simp] theorem State.raiseWith_preCopy (s : State) (p b : Nat) (d : Detail) : (s.raiseWith p b d).preCopy = s.preCopy := by obtain ⟨_, _, h⟩ := raiseWith_shape s p b d; rw [h]
@[simp] theorem State.raiseWith_wrh (s : State) (p b : Nat) (d : Detail) : (s.raiseWith p b d).wrh = s.wrh := by obtain ⟨_, _, h⟩ := raiseWith_shape s p b d; rw [h]
@[simp] theorem State.raiseWith_pesGuard (s : State) (p b : Nat) (d : Detail) : (s.raiseWith p b d).pesGuard = s.pesGuard := by obtain ⟨_, _, h⟩ := raiseWith_shape s p b d; rw [h]
@[simp] theorem State.raiseWith_alertSt (s : State) (p b : Nat) (d : Detail) : (s.raiseWith p b d).alertSt = s.alertSt := by obtain ⟨_, _, h⟩ := raiseWith_shape s p b d; rw [h]
@[simp] theorem State.raiseWith_shockEnd (s : State) (p b : Nat) (d : Detail) : (s.raiseWith p b d).shockEnd = s.shockEnd := by obtain ⟨_, _, h⟩ := raiseWith_shape s p b d; rw [h]
@[simp] theorem State.raiseWith_shockSince (s : State) (p b : Nat) (d : Detail) : (s.raiseWith p b d).shockSince = s.shockSince := by obtain ⟨_, _, h⟩ := raiseWith_shape s p b d; rw [h]
@[simp] theorem State.raiseWith_supply (s : State) (p b : Nat) (d : Detail) : (s.raiseWith p b d).supply = s.supply := by obtain ⟨_, _, h⟩ := raiseWith_shape s p b d; rw [h]
@[simp] theorem State.raiseWith_windowClosed (s : State) (p b : Nat) (d : Detail) : (s.raiseWith p b d).windowClosed = s.windowClosed := by obtain ⟨_, _, h⟩ := raiseWith_shape s p b d; rw [h]
@[simp] theorem State.raiseWith_deviceInh (s : State) (p b : Nat) (d : Detail) : (s.raiseWith p b d).deviceInh = s.deviceInh := by obtain ⟨_, _, h⟩ := raiseWith_shape s p b d; rw [h]
@[simp] theorem State.raiseWith_d2dLost (s : State) (p b : Nat) (d : Detail) : (s.raiseWith p b d).d2dLost = s.d2dLost := by obtain ⟨_, _, h⟩ := raiseWith_shape s p b d; rw [h]
@[simp] theorem State.raiseWith_stripes (s : State) (p b : Nat) (d : Detail) : (s.raiseWith p b d).stripes = s.stripes := by obtain ⟨_, _, h⟩ := raiseWith_shape s p b d; rw [h]
@[simp] theorem State.raiseWith_stpReady (s : State) (p b : Nat) (d : Detail) : (s.raiseWith p b d).stpReady = s.stpReady := by obtain ⟨_, _, h⟩ := raiseWith_shape s p b d; rw [h]
@[simp] theorem State.raiseWith_stpSeq (s : State) (p b : Nat) (d : Detail) : (s.raiseWith p b d).stpSeq = s.stpSeq := by obtain ⟨_, _, h⟩ := raiseWith_shape s p b d; rw [h]
@[simp] theorem State.raiseWith_dil (s : State) (p b : Nat) (d : Detail) : (s.raiseWith p b d).dil = s.dil := by obtain ⟨_, _, h⟩ := raiseWith_shape s p b d; rw [h]
@[simp] theorem State.raiseWith_srvh (s : State) (p b : Nat) (d : Detail) : (s.raiseWith p b d).srvh = s.srvh := by obtain ⟨_, _, h⟩ := raiseWith_shape s p b d; rw [h]
@[simp] theorem State.raiseWith_srv (s : State) (p b : Nat) (d : Detail) : (s.raiseWith p b d).srv = s.srv := by obtain ⟨_, _, h⟩ := raiseWith_shape s p b d; rw [h]
@[simp] theorem State.raiseWith_loops (s : State) (p b : Nat) (d : Detail) : (s.raiseWith p b d).loops = s.loops := by obtain ⟨_, _, h⟩ := raiseWith_shape s p b d; rw [h]
@[simp] theorem State.raiseWith_til (s : State) (p b : Nat) (d : Detail) : (s.raiseWith p b d).til = s.til := by obtain ⟨_, _, h⟩ := raiseWith_shape s p b d; rw [h]
@[simp] theorem State.raiseWith_prf (s : State) (p b : Nat) (d : Detail) : (s.raiseWith p b d).prf = s.prf := by obtain ⟨_, _, h⟩ := raiseWith_shape s p b d; rw [h]
@[simp] theorem State.raiseWith_macts (s : State) (p b : Nat) (d : Detail) : (s.raiseWith p b d).macts = s.macts := by obtain ⟨_, _, h⟩ := raiseWith_shape s p b d; rw [h]
@[simp] theorem State.raiseWith_mot (s : State) (p b : Nat) (d : Detail) : (s.raiseWith p b d).mot = s.mot := by obtain ⟨_, _, h⟩ := raiseWith_shape s p b d; rw [h]
@[simp] theorem State.raiseWith_spn (s : State) (p b : Nat) (d : Detail) : (s.raiseWith p b d).spn = s.spn := by obtain ⟨_, _, h⟩ := raiseWith_shape s p b d; rw [h]
@[simp] theorem State.raiseWith_spnWedge (s : State) (p b : Nat) (d : Detail) : (s.raiseWith p b d).spnWedge = s.spnWedge := by obtain ⟨_, _, h⟩ := raiseWith_shape s p b d; rw [h]
@[simp] theorem State.raiseWith_bufq (s : State) (p b : Nat) (d : Detail) : (s.raiseWith p b d).bufq = s.bufq := by obtain ⟨_, _, h⟩ := raiseWith_shape s p b d; rw [h]
@[simp] theorem State.raiseWith_slots (s : State) (p b : Nat) (d : Detail) : (s.raiseWith p b d).slots = s.slots := by obtain ⟨_, _, h⟩ := raiseWith_shape s p b d; rw [h]
@[simp] theorem State.raiseWith_lastGrant (s : State) (p b : Nat) (d : Detail) : (s.raiseWith p b d).lastGrant = s.lastGrant := by obtain ⟨_, _, h⟩ := raiseWith_shape s p b d; rw [h]
@[simp] theorem State.raiseWith_mresp (s : State) (p b : Nat) (d : Detail) : (s.raiseWith p b d).mresp = s.mresp := by obtain ⟨_, _, h⟩ := raiseWith_shape s p b d; rw [h]
@[simp] theorem State.raiseWith_srt (s : State) (p b : Nat) (d : Detail) : (s.raiseWith p b d).srt = s.srt := by obtain ⟨_, _, h⟩ := raiseWith_shape s p b d; rw [h]
@[simp] theorem State.raiseWith_gln (s : State) (p b : Nat) (d : Detail) : (s.raiseWith p b d).gln = s.gln := by obtain ⟨_, _, h⟩ := raiseWith_shape s p b d; rw [h]
@[simp] theorem State.raiseWith_mdc (s : State) (p b : Nat) (d : Detail) : (s.raiseWith p b d).mdc = s.mdc := by obtain ⟨_, _, h⟩ := raiseWith_shape s p b d; rw [h]
@[simp] theorem State.raiseWith_dma (s : State) (p b : Nat) (d : Detail) : (s.raiseWith p b d).dma = s.dma := by obtain ⟨_, _, h⟩ := raiseWith_shape s p b d; rw [h]
@[simp] theorem State.raiseWith_ports (s : State) (p b : Nat) (d : Detail) : (s.raiseWith p b d).ports = s.ports := by obtain ⟨_, _, h⟩ := raiseWith_shape s p b d; rw [h]
@[simp] theorem State.raiseWith_keys (s : State) (p b : Nat) (d : Detail) : (s.raiseWith p b d).keys = s.keys := by obtain ⟨_, _, h⟩ := raiseWith_shape s p b d; rw [h]
@[simp] theorem State.raiseWith_dbs (s : State) (p b : Nat) (d : Detail) : (s.raiseWith p b d).dbs = s.dbs := by obtain ⟨_, _, h⟩ := raiseWith_shape s p b d; rw [h]
@[simp] theorem State.raiseWith_dbq (s : State) (p b : Nat) (d : Detail) : (s.raiseWith p b d).dbq = s.dbq := by obtain ⟨_, _, h⟩ := raiseWith_shape s p b d; rw [h]
@[simp] theorem State.raiseWith_supArmed (s : State) (p b : Nat) (d : Detail) : (s.raiseWith p b d).supArmed = s.supArmed := by obtain ⟨_, _, h⟩ := raiseWith_shape s p b d; rw [h]
@[simp] theorem State.raiseWith_nor (s : State) (p b : Nat) (d : Detail) : (s.raiseWith p b d).nor = s.nor := by obtain ⟨_, _, h⟩ := raiseWith_shape s p b d; rw [h]
@[simp] theorem State.raiseWith_norUnsure (s : State) (p b : Nat) (d : Detail) : (s.raiseWith p b d).norUnsure = s.norUnsure := by obtain ⟨_, _, h⟩ := raiseWith_shape s p b d; rw [h]
@[simp] theorem State.raiseWith_nvs (s : State) (p b : Nat) (d : Detail) : (s.raiseWith p b d).nvs = s.nvs := by obtain ⟨_, _, h⟩ := raiseWith_shape s p b d; rw [h]
@[simp] theorem State.raiseWith_sec (s : State) (p b : Nat) (d : Detail) : (s.raiseWith p b d).sec = s.sec := by obtain ⟨_, _, h⟩ := raiseWith_shape s p b d; rw [h]
@[simp] theorem State.raiseWith_smbTx (s : State) (p b : Nat) (d : Detail) : (s.raiseWith p b d).smbTx = s.smbTx := by obtain ⟨_, _, h⟩ := raiseWith_shape s p b d; rw [h]
@[simp] theorem State.raiseWith_smbOut (s : State) (p b : Nat) (d : Detail) : (s.raiseWith p b d).smbOut = s.smbOut := by obtain ⟨_, _, h⟩ := raiseWith_shape s p b d; rw [h]
@[simp] theorem State.raiseWith_unfencing (s : State) (p b : Nat) (d : Detail) : (s.raiseWith p b d).unfencing = s.unfencing := by obtain ⟨_, _, h⟩ := raiseWith_shape s p b d; rw [h]
@[simp] theorem State.raiseWith_wdog (s : State) (p b : Nat) (d : Detail) : (s.raiseWith p b d).wdog = s.wdog := by obtain ⟨_, _, h⟩ := raiseWith_shape s p b d; rw [h]
@[simp] theorem State.raiseWith_aliveStart (s : State) (p b : Nat) (d : Detail) : (s.raiseWith p b d).aliveStart = s.aliveStart := by obtain ⟨_, _, h⟩ := raiseWith_shape s p b d; rw [h]
@[simp] theorem State.raiseWith_oscStable (s : State) (p b : Nat) (d : Detail) : (s.raiseWith p b d).oscStable = s.oscStable := by obtain ⟨_, _, h⟩ := raiseWith_shape s p b d; rw [h]
@[simp] theorem State.raiseWith_testHeld (s : State) (p b : Nat) (d : Detail) : (s.raiseWith p b d).testHeld = s.testHeld := by obtain ⟨_, _, h⟩ := raiseWith_shape s p b d; rw [h]
@[simp] theorem State.raiseWith_relock (s : State) (p b : Nat) (d : Detail) : (s.raiseWith p b d).relock = s.relock := by obtain ⟨_, _, h⟩ := raiseWith_shape s p b d; rw [h]
@[simp] theorem State.raiseWith_thmTold (s : State) (p b : Nat) (d : Detail) : (s.raiseWith p b d).thmTold = s.thmTold := by obtain ⟨_, _, h⟩ := raiseWith_shape s p b d; rw [h]
@[simp] theorem State.raiseWith_thmSeen (s : State) (p b : Nat) (d : Detail) : (s.raiseWith p b d).thmSeen = s.thmSeen := by obtain ⟨_, _, h⟩ := raiseWith_shape s p b d; rw [h]
@[simp] theorem State.raiseWith_warmReq (s : State) (p b : Nat) (d : Detail) : (s.raiseWith p b d).warmReq = s.warmReq := by obtain ⟨_, _, h⟩ := raiseWith_shape s p b d; rw [h]
@[simp] theorem State.raiseWith_motionDue (s : State) (p b : Nat) (d : Detail) : (s.raiseWith p b d).motionDue = s.motionDue := by obtain ⟨_, _, h⟩ := raiseWith_shape s p b d; rw [h]

/-! ### Buffer memory -/

theorem byte_mem {s t : State} (h : t.mem = s.mem) (a : Nat) : t.byte a = s.byte a := by rw [State.byte, h, State.byte]

theorem raiseRefusal_mem (m : Option Master) (w : Bool) (r : Option Nat) (x : Nat) : (s.raiseRefusal m w r x).mem = s.mem := by
  unfold State.raiseRefusal State.raiseAccess; split <;> simp

theorem badRead_mem (m : Option Master) (w : Bool) (l : Nat) : (s.badRead m w l).mem = s.mem := by
  unfold State.badRead
  split
  · unfold State.dramUe
    dsimp only
    rw [apply_ite State.mem]
    simp only [State.raise, State.raiseWith_mem, State.irq, State.irqBits, State.inc, State.addSat, State.setReg_mem, State.put_mem, ite_self]
  · rfl

theorem countRmw_mem (a n : Nat) : (s.countRmw a n).mem = s.mem := by
  have h : ∀ (l : List Nat) (s : State), (s.each l (fun s l => s.inc (pDMC (s.chanOf l)) DMC.RMW_CNT)).mem = s.mem := by
    intro l; induction l with
    | nil => intro s; rfl
    | cons x r ih =>
      intro s
      show (State.each _ r _).mem = _
      rw [ih]; rfl
  unfold State.countRmw; exact h _ s

theorem storeBytes_byte_ne {a x : Nat} {bs : List Byte} (h : x < a ∨ a + bs.length ≤ x) : (s.storeBytes a bs).byte x = s.byte x := by
  induction bs generalizing s a with
  | nil => rfl
  | cons b r ih =>
    simp only [List.length_cons] at h
    rw [State.storeBytes, ih (by omega), byte_setByte_ne (by omega)]

theorem storeBytes_byte_in {a : Nat} {bs : List Byte} (i : Nat) (hi : i < bs.length) :
    (s.storeBytes a bs).byte (a + i) = bs[i] := by
  induction bs generalizing s a i with
  | nil => simp at hi
  | cons b r ih =>
    cases i with
    | zero => rw [State.storeBytes, storeBytes_byte_ne (by omega)]; simpa using byte_setByte_same
    | succ j =>
      have := ih (s := s.setByte a b) (a := a + 1) j (by simpa using hi)
      rw [State.storeBytes, show a + (j + 1) = a + 1 + j by omega, this]; rfl

end Sys2Proof.Machine
end

