-- ==== Sys2Proof/Tests/Slice0.lean ====
section
/-! SUPPORT. Tests of the model: ill-formed commands, the spec's worked examples, and for every obligation that has hypotheses a
named theorem that shows states and operands that meet them (`witness_<Obligation>`); each condition stands in the order in which
the obligation's clauses state it. -/

namespace Sys2Proof.Tests

open Sys2Proof.Machine

set_option Elab.async false

/-- A state with the domains `ds` on and time at 1,000,000 ft. -/
def st (ds : List Nat) : State := { State.reset with time := 64000000, dom := ds.map (fun d => (d, { req := true, st := 5 })) }

/-- `s` with pages `ps` enabled. -/
def en (s : State) (ps : List Nat) : State := s.each ps (fun s p => s.putB p HDR.CTRL_ENABLE true)

/-- Soundness, computed. -/
def soundB (s : State) : Bool :=
  Memory.wf s.mem && tabSorted s.regs && tabSorted s.shadow && tabSorted s.mregs && tabSorted s.dom && tabSorted s.drl && tabSorted s.afe &&
  tabSorted s.lnk && tabSorted s.rdh && tabSorted s.commitAt && tabSorted s.lastCommit && tabSorted s.wrh && tabSorted s.pesGuard &&
  tabSorted s.alertSt && tabSorted s.shockEnd && tabSorted s.stripes && tabSorted s.dil && tabSorted s.srvh && tabSorted s.srv && tabSorted s.loops &&
  tabSorted s.til && tabSorted s.prf && tabSorted s.macts && tabSorted s.bufq && tabSorted s.slots && tabSorted s.lastGrant && tabSorted s.mresp &&
  tabSorted s.dma && tabSorted s.ports && tabSorted s.keys && tabSorted s.dbs && tabSorted s.dbq && tabSorted s.nor && tabSorted s.sec.fuses

theorem soundB_sound {s : State} (h : soundB s = true) : Sound s := by
  simp only [soundB, Bool.and_eq_true] at h
  constructor <;> simp [h]

/-- Every condition of the list holds. -/
def allOf (l : List Bool) : Bool := l.all id

/-- A command that answers a next state for which `P` holds. -/
def does (c : Instr) (s : State) (P : State → Bool) : Bool := match exec c s with | .next t => P t | _ => false

/-! ### The spec's worked examples -/

/-- R9's example: SYS.CAP of an FS-9648, which stage FUSE reads from fuse row 2 (R5, R457), is 0x00300F0F, and the ID of the
absent HCH48 reads 0. -/
def s9648 : State := { State.reset with part := .fs9648 }
theorem test_cap_fs9648 : s9648.latchFuses.fuseUse 2 = 0x00300F0F := by decide +kernel
theorem test_absent_hch48 : does (.registerWrite .bsc false 4 0xF0130000 0) s9648 (fun t => decide (t.resp = { value := 0, err := false })) = true := by decide +kernel

/-- R83's example: 48 ANGLE write pairs over [0, 28,400 ft) refuse a 49th head at 28,400 ft and admit it at 28,464 ft. -/
def wPair (k : Nat) (angle : Bool) (t c : Int) : Entry :=
  { w0 := 0, w1 := BitVec.ofNat 32 (2 + 2048 * k + (if angle then 256 else 0)), w2 := 0, w3 := 0, t := t, c := c, lo := 0, fin := true, seq := 0, slot := 0, slotC := 0 }
def w48 : List (Nat × Entry) := (([0, 2, 4, 6] : List Nat).map (fun a => (List.range 12).map (fun k => (a, wPair k true 0 (28400 * 64))))).flatten
theorem test_write_limit : writeFits w48 1 (wPair 0 false (28400 * 64) (50000 * 64)) = false ∧ writeFits w48 1 (wPair 0 false (28464 * 64) (50000 * 64)) = true := by decide +kernel
theorem test_write_limit_angle : writeFits w48 1 (wPair 0 true (28464 * 64) (50000 * 64)) = false ∧ writeFits w48 1 (wPair 0 true (28528 * 64) (50000 * 64)) = true := by decide +kernel

/-- R102's example: the Z17 entry of h42 lies at ZPT_BASE + 0x34D50. -/
theorem test_zpt_address : zptAddr 42 17 = zptBase + 0x34D50 := by decide
/-- R137's example of Aftermath: slot 0 of h42 lies at AFM_BASE + 0xA80000. -/
theorem test_slot_address : slotAddr 42 0 = afmBase + 0xA80000 := by decide

/-- The example of the re-frame sweep: W0 and W2 of the final record. -/
theorem test_reframed_record : (({ sid := 0x31, status := 2, final := true, pinned := true, deep := true, markOfs := -2, reframe := 2, iter := 6, pass := 1, zone := 17, time := 0, land := 41, frags := 2, code := 0, tag := 0, unsat := 0, epoch := 0 } : StsRec).words 0).take 3 = [0x43020031, 0, 0x444602FE] := by decide +kernel

/-- The Dill example's micro-word at 0x0912: COND 0xA, TARGET 0x091B, NANO 0x20A, RA 20, RB 12. -/
theorem test_dill_word : mCond 0x0A291B4140A30000 = 0xA ∧ mTarget 0x0A291B4140A30000 = 0x091B ∧ mNano 0x0A291B4140A30000 = 0x20A ∧ mRa 0x0A291B4140A30000 = 20 ∧ mRb 0x0A291B4140A30000 = 12 ∧ mHold 0x0A291B4140A30000 = false := by decide
/-- The HEAT entry that it assembles for h41: nano-word 8, 0x103, 0xBB8, 0x17. -/
def sDill : State := (((st []).setG 3 20 0x66C00000).setG 3 12 0x0A290005).setG 3 21 0x40
def nHeat : Nat := 8 + 0x103 * 2 ^ 32 + 0xBB8 * 2 ^ 64 + 0x17 * 2 ^ 96
theorem test_dill_enq : sDill.assemble { a := 3, p := 0x912, w := 0x0A291B4140A30000, n := nHeat } = some (0x66C00000, 0x0A292903, 0x40, 0xBB8) := by decide +kernel

/-- R265's example: samples 1 and 2 of the SETTLE law (in 2^-16 code), and the notch of sample 1. -/
def kSettle : PidCoef := { kp := 0x30000000, ki := 0x04000000, kd := 0x48000000, ad := 0x20000000, osh := 0 }
theorem test_pid_sample1 : pidLaw kSettle 0 0 40 0 = (163840, 2949120, 5079040, false, false) := by decide +kernel
theorem test_pid_sample2 : pidLaw kSettle 163840 2949120 40 40 = (327680, 1474560, 3768320, false, false) := by decide +kernel
theorem test_notch_sample1 : notchRun [{ b0 := 0x38000000, b1 := 0, b2 := 0x38000000, a1 := 0, a2 := 0x30000000 }] [(0, 0)] 5079040 = (4444160, [(0, 1111040)], false) := by decide +kernel

/-- The seek example: a 90,112-track plan has tj 64, ta 192, tc 32 and takes 672 samples at a peak of 256 tracks a sample. -/
def seekSlot : List Word := [0x0607A960, 0x00010FFF, 0x00040000, 0x00010000, 0x01000000, 0x23280000, 0x0403019A, 0x50C800CD]
theorem test_seek_plan : (mkPlan seekSlot 90112).tj = 64 ∧ (mkPlan seekSlot 90112).ta = 192 ∧ (mkPlan seekSlot 90112).tc = 32 ∧ (mkPlan seekSlot 90112).vp = 256 ∧ (mkPlan seekSlot 90112).samples = 672 := by decide +kernel
theorem test_seek_slot : slotTarget seekSlot = 502112 ∧ slotRefK seekSlot = 6 ∧ slotHeads seekSlot = 0xFFF ∧ slotSetWin seekSlot = 410 ∧ slotSetCnt seekSlot = 3 ∧ slotFolCnt seekSlot = 4 ∧ slotTmo seekSlot = 200 := by decide +kernel

/-- R329's example: the rebuilt member at 0x120002100 of a module with twelve channels starts on DMC11 at 0x030C32C0. -/
def s24 : State := ((st []).put pBFM BFM.DRAM_CFG_CH_MASK 0xFFF).put pBFM BFM.DRAM_STAT_USABLE 21504
theorem test_dram_map : s24.chanOf 0x120002100 = 11 ∧ s24.chanAddr 0x120002100 = 0x030C32C0 := by decide +kernel

/-- The SRT example: the entry of LSTART 0x123400 finds K = 0x123456 at OFS 86, PSECT 86. -/
def sSrt : State :=
  let s := ((st []).put pBFM BFM.SRT_COUNT 1).storeBytes srtBase (wordBytes [0x00123400, 0x04000000, 0x00002901, 0x1107A960])
  { s with srt := { s.srt with run := some (.core 0, 0x123456) } }
theorem test_srt_lookup : does .srtLookupEnd sSrt (fun t => decide (t.mreg (.core 0) pBFM 0x11C = 0x80000000) && decide (t.mreg (.core 0) pBFM 0x120 = 0x00560056)) = true := by decide +kernel

/-- The fault example: W0 of HIST0, HIST1 and HIST2. -/
def rep (page b cls base : Nat) : Report := { time := 0, page := page, bit := b, cls := cls, base := base, sub := none, master := 0, access := 0, addr := 0, forced := false }
theorem test_hist_words : ((rep 0x30 0 8 0).words 0 false 0).head? = some 0x90300000 ∧ ((rep 0x20 1 7 1).words 1 false 0).head? = some 0x8E200111 ∧ ((rep 0x20 0 7 1).words 2 true 0).head? = some 0xCE200012 := by decide +kernel

/-- The DMA example: descriptor D0 reads 8,192 B through XTS with key 3 to host memory, D2 moves 16 B with END. -/
def dD0 : DmaDesc := { addr := 0, raw := leNat (wordBytes [0x82030809, 0x2000, 0x40054900, 1, 0x3A200000, 0x10, 0x12004040, 0, 0x123456, 0, 0x101]), seq := 0, since := 0 }
theorem test_dma_descriptor : dLen dD0 = 8192 ∧ dSrcIn dD0 = 0x140054900 ∧ dDst dD0 = 0x103A200000 ∧ dNext dD0 = 0x12004040 ∧ dXts dD0 ≠ 0 ∧ dKey dD0 = 3 ∧ dHost dD0 = true := by decide +kernel

/-- A codeword of code set A has 73,472 symbols (R117), and with its resync mark the stream of zone Z17 32 more. -/
theorem test_stream_symbols : streamSyms [0x880A0000, 0x7E6666, 0, 0, 0, 0, 0, 0, 0, 0, 0, 0x0B008F80] = 73504 := by decide +kernel

/-! Published vectors of the standards that the spec names: FIPS 180-4 SHA-512 of "abc", and FIPS 197 AES-256 of C.3. -/
theorem test_sha512_abc : beNat (sha512 [0x61, 0x62, 0x63]) = 0xddaf35a193617abacc417349ae20413112e6fa4e89a97ea20a9eeee64b55d39a2192992a274fc1a836ba3c23a3feebbd454d4423643ce80e2a9ac94fa54ca49f := by decide +kernel
theorem test_aes256 : aesEncrypt (aesKeys ((List.range 32).map (BitVec.ofNat 8))) ((List.range 16).map (fun i => BitVec.ofNat 8 (17 * i))) = beBytes 0x8ea2b7ca516745bfeafc49904b496089 16 := by decide +kernel

/-! ### Ill-formed commands, one for each check -/

theorem test_wf_block : wellFormed (.adaptBlock 0 [1] [] []) = false := by decide
theorem test_wf_blockLong : wellFormed (.adaptBlock 0 (List.replicate 513 0) (List.replicate 513 0) []) = false := by decide +kernel
theorem test_wf_blockSymbols : wellFormed (.adaptBlock 0 [1] [2] [⟨0, 0⟩, ⟨0, 0⟩]) = false := by decide
theorem test_wf_fragment (errs : List SymErr) (h : errs.length = 4194305) : wellFormed (.rgClose 0 errs) = false := by
  unfold wellFormed; exact decide_eq_false (by omega)
theorem test_wf_headsA : wellFormed (.servoSample 0 (List.replicate 13 {}) []) = false := by decide
theorem test_wf_headsB : wellFormed (.servoSample 0 [] (List.replicate 13 {})) = false := by decide
theorem test_wf_eyes : wellFormed (.trainingDone 0 (List.replicate 13 0)) = false := by decide
theorem test_wf_line : wellFormed (.bufferRequest .bsc false 60 8 []) = false := by decide
theorem test_wf_lineEmpty : wellFormed (.bufferRequest .bsc false 0 0 []) = false := by decide
theorem test_wf_lineData : wellFormed (.mdcRequest .bsc true 0 8 [1] .clean) = false := by decide
theorem test_wf_completion : wellFormed (.hostCompletion 0 0 1 [1]) = false := by decide
theorem test_wf_bar0 : wellFormed (.bar0Request 0 true 0 [true] []) = false := by decide
theorem test_wf_bar0Empty : wellFormed (.bar0Request 0 false 0 [] []) = false := by decide
theorem test_wf_posted : wellFormed (.inboundWrite 0 0 []) = false := by decide
theorem test_wf_sensors : wellFormed (.tempSample [0]) = false := by decide
theorem test_wf_point : wellFormed (.debugUnlock [] (List.replicate 132 0)) = false := by decide +kernel
theorem test_wf_signature : wellFormed (.debugUnlock (List.replicate 132 0) []) = false := by decide +kernel
theorem test_wf_msix : wellFormed (.msixTableAccess 0 true 0 4 []) = false := by decide
/-- A well-formed one of the same kinds. -/
theorem test_wf_good : wellFormed (.adaptBlock 0 [1] [2] [⟨0, 0⟩]) = true ∧ wellFormed (.bufferRequest .bsc true 56 8 (List.replicate 8 0)) = true ∧ wellFormed (.tempSample (List.replicate 8 0)) = true := by decide

/-! No row of the table gives bits, so no word spells a command, and the queue keeps its commands. -/
theorem test_no_word : decodeTableWord 32 0x12345678 = none ∧ (State.reset.withFetchWord 32 0x12345678).pending = [] := by decide +kernel

/-! ### Witnesses, part 00 -/

namespace W00

/-- A queue of one command, and an empty one with and without ROOT. -/
def sCmd : State := { State.reset with pending := [.oscStable, .warmReset] }
def sRoot : State := State.reset.put 1 CLK.PLL_STAT_LOCKED 1

theorem witness_StepRunsFrontCommand : sCmd.pending = .oscStable :: [.warmReset] := by decide +kernel
theorem witness_IdleStepTicks : sRoot.pending = [] ∧ sRoot.on 1 CLK.PLL_STAT_LOCKED = true ∧
    State.reset.pending = [] ∧ State.reset.on 1 CLK.PLL_STAT_LOCKED = false ∧ State.reset.on 1 CLK.PLL_STAT_HOLDOVER = false := by decide +kernel
theorem witness_StepKeepsSound : Sound sCmd ∧ ∃ t, step sCmd = .next t := ⟨soundB_sound (by decide +kernel), _, rfl⟩
theorem witness_StepKeepsFuses : Sound (sCmd.setFuse 3 5) ∧ bit ((sCmd.setFuse 3 5).fuse 3) 2 = true ∧ ∃ t, step (sCmd.setFuse 3 5) = .next t :=
  ⟨soundB_sound (by decide +kernel), by decide +kernel, _, rfl⟩
theorem witness_WritesReadBack : regKey 4 0x40 ≠ regKey 4 0x44 ∧ (FUR.TRK_STAT_STATE.lo + FUR.TRK_STAT_STATE.wd ≤ 32 ∧ FUR.TRK_STAT_STATE.off = FUR.TRK_STAT_NO_LOCK.off ∧
      FUR.TRK_STAT_STATE.lo + FUR.TRK_STAT_STATE.wd ≤ FUR.TRK_STAT_NO_LOCK.lo) ∧
    ((st []).bufWrite (some .bsc) stgBase [1, 2]).2 = true ∧ ((st []).bufWrite (some .bsc) 0x40000 [1, 2]).2 = false := by decide +kernel

end W00

/-! ### Witnesses, part 01 -/

namespace W01

/-- A state with page `p` on, enabled and with field `f` at `v`. -/
def sPg (p : Nat) (f : Fld) (v : Nat) : State := (en (st [96, 104, 118, 134]) [p]).put p f v

/-- The FS9624, which lacks actuators that the FS9600 has. -/
def sSmall : State := { State.reset with part := .fs9624 }

theorem witness_AbsentPage : allOf [
    sSmall.regMaster .bsc, !sSmall.present (pSRV 7), decide (0xF0000000 + 4096 * pSRV 7 < 0xF0200000),
    sSmall.present pSYS, !sSmall.motSilent pSYS] = true := by decide +kernel

theorem witness_RegisterAccess : allOf [
    soundB (sPg (pSRV 0) HDR.IRQ_EN 0), (sPg (pSRV 0) HDR.IRQ_EN 0).regMaster (.core 0), (st [96]).present (pSRV 0), (st [96]).powered (pSRV 0), !(st [96]).motSilent (pSRV 0), !(st [96]).isResetting (pSRV 0),
    decide (pageKind (pSRV 0) = some .srv), decide (accMask (pSRV 0) SRV.SAM_CFG_SAM_W.off .rw ≠ 0), decide (0x40 ≤ SRV.SAM_CFG_SAM_W.off), decide (SRV.SAM_CFG_SAM_W.off % 4 = 0),
    !(st []).powered (pSRV 0), !alwaysOn (pSRV 0) 0x40, !(st []).commitDue (pSRV 0) (st []).time] = true := by decide +kernel

theorem witness_ReportsRaise : allOf [
    soundB (st []), decide (faultGrade pFUR 0 = some (13, 0)), (st []).present pFUR, !sSmall.present (pSRV 7)] = true := by decide +kernel

theorem witness_EnableAndPower : allOf [
    soundB (st [96]), (st [96]).present (pSRV 0), !(st [96]).isResetting (pSRV 0), !(st [96]).motSilent (pSRV 0), (st [96]).powered (pSRV 0), !(st [96]).fenced (pSRV 0), !(st [96]).enabled (pSRV 0),
    decide (pageKind (pSRV 0) ≠ some .mdc), !(st []).powered (pSRV 0), (sPg (pSRV 0) HDR.FENCE_FENCED 1).fenced (pSRV 0), (sPg (pSRV 0) HDR.IRQ_EN 1).enabled (pSRV 0), decide (pageDom pFUR = none),
    decide (pageDom (pSRV 0) = some 96), (domPages 96).any (fun q => (sPg (pSRV 0) HDR.IRQ_EN 1).enabled q), (domPages 96).all (fun q => !(st [96]).enabled q), !(st [96]).closeHeld 96, ((st [96]).domOf 96).req, !((st []).domOf 96).req, soundB (st [])] = true := by decide +kernel

theorem witness_HeaderLatches : allOf [
    soundB (st []), (st []).present pFUR, !(st []).motSilent pFUR, !(st []).isResetting pFUR, (sPg pFUR HDR.LOCK_FORCE_LOCK 1).on pFUR HDR.LOCK_FORCE_LOCK, !(st []).on pFUR HDR.LOCK_FORCE_LOCK] = true := by decide +kernel

/-- SRV0 in its soft reset. -/
def sRst : State := { st [96] with resetting := [pSRV 0] }
theorem witness_SoftReset : allOf [
    soundB (st [96]), (st [96]).present (pSRV 0), !(st [96]).isResetting (pSRV 0), decide (pageKind (pSRV 0) = some .srv), soundB sRst, sRst.isResetting (pSRV 0), (sRst.writePower (pSRV 0) true).isResetting (pSRV 0),
    !(sRst.writePower (pSRV 0) true).motSilent (pSRV 0), decide (pageKind (pSRV 0) ≠ some .nvs), decide (pageKind (pSRV 0) ≠ some .hif)] = true := by decide +kernel

/-- FLT with a latched, enabled interrupt, routed to target 8 at priority 15. -/
def sIrq : State := (sPg pFLT HDR.IRQ_EN 1).put pFLT HDR.IRQ_PEND 1
theorem witness_InterruptRouter : allOf [
    !(st []).isResetting pSYS, (List.range 192).all (fun n => !(st []).irqEligible 0 n), sIrq.irqEligible 8 3, (List.range 192).all (fun k => !sIrq.irqEligible 8 k || decide (k = 3))] = true := by decide +kernel

/-- HCH0 armed with a commit due. -/
def sArm : State := (sPg (pHCH 0) HDR.SHADOW_CTL_ARM 1).setCommitTime (pHCH 0) 63999937
/-- HCH0 in its commit cycle. -/
def sCyc : State := { st [0] with lastCommit := [(pHCH 0, 333334)] }
theorem witness_ShadowCommit : allOf [
    soundB (st [0]), (st [0]).present (pHCH 0), !(st [0]).isResetting (pHCH 0), hasShadow (pHCH 0), !(st [0]).commitDue (pHCH 0) (st [0]).time, !(st [0]).on (pHCH 0) HDR.SHADOW_CTL_ARM,
    soundB sCyc, sCyc.inCommit (pHCH 0), !sCyc.commitDue (pHCH 0) sCyc.time, !sCyc.on (pHCH 0) HDR.SHADOW_CTL_ARM, !(st [0]).inCommit (pHCH 0), decide (0 ≤ ((st [0]).reg (pHCH 0) 0x2C - BitVec.ofNat 32 (st [0]).time).toInt) || decide (((st [0]).reg (pHCH 0) 0x2C - BitVec.ofNat 32 (st [0]).time).toInt < 0),
    soundB sArm, decide (0x100 ≤ pHCH 0), sArm.commitDue (pHCH 0) sArm.time] = true := by decide +kernel

end W01

/-! ### Witnesses, part 02 -/

namespace W02

open W00
def sDone : State := (st []).put pSYS SYS.BOOT_STAT_DONE 1
def sDbgOn : State := sDone.put pSEC SEC.DBG_STAT_UNLOCKED 1

theorem witness_WarmResetRequests : allOf [
    !(st []).isResetting pSYS, sDone.on pSYS SYS.BOOT_STAT_DONE, !(st []).on pSYS SYS.BOOT_STAT_DONE, decide ((0x57A4 : BitVec 16) ≠ 0), sDbgOn.on pSEC SEC.DBG_STAT_UNLOCKED, sDbgOn.on pSYS SYS.BOOT_STAT_DONE,
    !(st []).on pSEC SEC.DBG_STAT_UNLOCKED] = true := by decide +kernel

theorem witness_Resets : allOf [
    soundB (st []), decide ((2999 : BitVec 16).toNat < 3000), decide (3000 ≤ (3000 : BitVec 16).toNat), decide ((st []).warmReq = none), soundB { st [] with warmReq := some 1 },
    decide (({ st [] with warmReq := some 1 } : State).warmReq = some 1)] = true := by decide +kernel

/-- The oscillator stable, at stage CLOCK. -/
def sClk : State := { State.reset.put pSYS SYS.BOOT_STAT_STAGE 1 with oscStable := true }
theorem witness_ClockStart : allOf [
    soundB State.reset, !State.reset.oscStable, !State.reset.testHeld, decide (State.reset.get pSYS SYS.BOOT_STAT_STAGE = 0), ({ State.reset with testHeld := true } : State).testHeld,
    soundB sClk, !sClk.relock, sClk.oscStable, decide (sClk.get pSYS SYS.BOOT_STAT_STAGE = 1), !sClk.rootRuns, !State.reset.relock, soundB sRoot, sRoot.rootRuns] = true := by decide +kernel

/-- FUR enabled, with the tracker in state `k`. -/
def sTrk (k : Nat) (t : Tracker) : State := { (en (st []) [pFUR]).put pFUR FUR.TRK_STAT_STATE k with trk := t }

theorem witness_TimeRead : allOf [
    soundB (sTrk 0 {}), !(sTrk 0 {}).angleOk, soundB (sTrk 3 { period := 31250 * 64 }), (sTrk 3 { period := 31250 * 64 }).angleOk, decide (Master.code (.core 0) ≠ Master.code .bsc)] = true := by decide +kernel

theorem witness_WedgesWrite : allOf [
    soundB (sTrk 0 {}), !(sTrk 0 {}).isResetting pFUR, decide ((640 : BitVec 11).toNat % 4 = 0), decide (256 ≤ (256 : BitVec 11).toNat), decide ((1024 : BitVec 11).toNat ≤ 1024), decide ((sTrk 0 {}).get pFUR FUR.TRK_STAT_STATE = 0),
    decide ((642 : BitVec 11).toNat % 4 ≠ 0), decide ((252 : BitVec 11).toNat < 256), decide (1024 < (1028 : BitVec 11).toNat), decide ((sTrk 3 {}).get pFUR FUR.TRK_STAT_STATE ≠ 0)] = true := by decide +kernel

theorem witness_TrackerStates : allOf [
    soundB (sTrk 0 {}), !(sTrk 0 {}).isResetting pFUR, decide ((sTrk 0 {}).trkState = 0), (sTrk 0 {}).enabled pFUR, ((sTrk 0 {}).put pSPN SPN.SPN_STAT_AT_SPEED 1).on pSPN SPN.SPN_STAT_AT_SPEED, soundB ((sTrk 0 {}).put pSPN SPN.SPN_STAT_AT_SPEED 1),
    decide ((sTrk 1 {}).trkState = 1), decide ((sTrk 1 {}).meas = []), soundB (sTrk 1 { acq := [(4000000, 2), (2000000, 1), (0, 0)] }), decide ((sTrk 1 { acq := [(4000000, 2), (2000000, 1), (0, 0)] }).trk.acq = [(4000000, 2), (2000000, 1), (0, 0)]),
    soundB (sTrk 2 { good := 1000 }), decide ((sTrk 2 { good := 1000 }).trkState = 2), decide ((sTrk 2 { good := 1000 }).lockCount ≤ 1000), soundB (sTrk 4 { good := 1000 }), decide ((sTrk 4 { good := 1000 }).trkState = 4),
    soundB (sTrk 3 { bad := 2 }), decide ((sTrk 3 { bad := 2 }).trkState = 3), soundB (sTrk 4 { hold := 5000 }), decide ((sTrk 4 { hold := 5000 }).holdMax ≤ 5000), decide ((sTrk 4 { hold := 5000 }).trk.good < (sTrk 4 { hold := 5000 }).lockCount),
    decide ((sTrk 4 { good := 1000 }).lockCount ≤ (sTrk 4 { good := 1000 }).trk.good), soundB (sTrk 2 { miss := 2 }), decide ((sTrk 2 { miss := 2 }).trkState = 2), soundB (sTrk 2 { disagree := true }), (sTrk 2 { disagree := true }).trk.disagree,
    (let s : State := { sTrk 1 {} with time := 4000000000 }
     soundB s && decide (s.trkState = 1) && !s.trk.noLockTold && decide (s.trk.acqStart + 2 * s.get pFUR FUR.NOM_REV ≤ s.time)), (sTrk 1 { noLockTold := true }).trk.noLockTold, decide ((sTrk 5 {}).trkState = 5), soundB (sTrk 5 {})] = true := by decide +kernel

end W02

/-! ### Witnesses, part 03 -/

namespace W03

/-- Furrow time of `x` ft, as a word. -/
def ftW (x : Nat) : Word := BitVec.ofNat 32 (x * 64)
/-- DRL0 on and enabled, with everything DRL0's actions act on, holding the entries `es`. -/
def sDq (es : List Entry) : State :=
  (en (st [0, 96, 134]) [pDRL 0, pHCH 0, pLNK 0, pTIL 0, pPRF 0, pDIL 0, pSTP]).setDrl 0 { ents := es, seq := es.length }

/-- DRLD enabled, with APPLY to SYS-like pages and SPN_OVR. -/
def sDd (es : List Entry) : State := (en (st []) [pDRLD]).setDrl 8 { ents := es, seq := es.length }
/-- A single action, due at 1,000,000 ft, in queue order `n`. -/
def one (act tg arg slack : Nat) : Entry :=
  { w0 := ftW 1000000, w1 := BitVec.ofNat 32 (act + tg * 2048 + 0xABCD * 65536), w2 := BitVec.ofNat 32 arg, w3 := BitVec.ofNat 32 slack, t := 64000000, c := 0, lo := 0, fin := true, seq := 0, slot := 0, slotC := 0 }

/-- The enqueue words of a read gate of head 0 from 2,000,000 ft for 1,000 ft, as the master core 0. -/
def sEnq : State := ((sDq []).setMreg (.core 0) (pDRL 0) 0x40 (ftW 2000000)).setMreg (.core 0) (pDRL 0) 0x44 1
def eEnq (s : State) (w3 : Word) : Entry := s.makeEntry 0 (s.mreg (.core 0) (drlPage 0) 0x40) (s.mreg (.core 0) (drlPage 0) 0x44) (s.mreg (.core 0) (drlPage 0) 0x48) w3 s.time (48 * 64)

theorem witness_DirectEnqueue : allOf [
    soundB sEnq, sEnq.present (drlPage 0), sEnq.powered (drlPage 0), !sEnq.isResetting (drlPage 0), ownsEnq (.core 0) 0, !ownsEnq (.host 0) 0, (sEnq.put (drlPage 0) DRL.Q_CTRL_HOLD_ENQ 1).on (drlPage 0) DRL.Q_CTRL_HOLD_ENQ,
    !sEnq.on (drlPage 0) DRL.Q_CTRL_HOLD_ENQ, sEnq.enabled (drlPage 0),
    decide (sEnq.admitCheck 0 (eEnq sEnq (ftW 2001000)) sEnq.time (48 * 64) sEnq.allEntries (sEnq.drlOf 0).used = {}),
    !sEnq.commitDue (drlPage 0) sEnq.time, decide ((sEnq.drlOf 0).batch = none), decide (sEnq.reqsOf 0 (sEnq.time / 192) = []),
    (let s := sEnq.takeReq 0 { rank := 9, master := .bsc, w0 := 0, w1 := 0, w2 := 0, w3 := 0, now := 64000000 }
     soundB s && decide (enqRank (.core 0) < 9) && decide ((s.reqsOf 0 (s.time / 192)).length = 1)),
    decide ((sEnq.admitCheck 0 (eEnq sEnq (ftW 1999000)) sEnq.time (48 * 64) sEnq.allEntries (sEnq.drlOf 0).used).result = 1)] = true := by decide +kernel

theorem witness_AdmittedEntryIsSafe : allOf [
    decide ((sEnq.admitCheck 0 (eEnq sEnq (ftW 2001000)) sEnq.time (48 * 64) sEnq.allEntries 0).result = 0), decide ((one 11 0 0 0).action = 11), decide ((one aSPN 0 0 0).action = aSPN),
    decide ((one aMAOFS 12 0 0).target = 12), decide (drillUnits 0 (one aHEAT 0 0 0).action 0 0 ≠ none), (one aHEAT 0 0 0).serial, decide ((one aHEAT 0 0 0).slack = 0)] = true := by decide +kernel

/-- A staged batch of `n` entries, waiting since 1,000,000 ft: stage entry 0 is the read gate, or a nameless action. -/
def sBat (n w1 : Nat) : State :=
  let s := ((((sDq []).put (drlPage 0) DRL.STAGE_COUNT_COUNT n).setReg (drlPage 0) 0x200 (ftW 2000000)).setReg (drlPage 0) 0x204 (BitVec.ofNat 32 w1)).setReg (drlPage 0) 0x20C (ftW 2001000)
  s.setDrl 0 { s.drlOf 0 with batch := some (64000000, 9) }

/-- The state once the batch is taken, and the entry that stage entry 0 gives. -/
def noBatch (s : State) : State := s.setDrl 0 { s.drlOf 0 with batch := none }
def staged1 (s : State) : List Entry := [(noBatch s).makeEntry 0 (s.reg (drlPage 0) 0x200) (s.reg (drlPage 0) 0x204) (s.reg (drlPage 0) 0x208) (s.reg (drlPage 0) 0x20C) 64000000 (240 * 64)]

theorem witness_BatchAdmission : allOf [
    soundB (sDq []), decide (((sDq []).drlOf 0).batch = none), soundB (sBat 33 1), decide (((sBat 33 1).drlOf 0).batch = some (64000000, 9)), !(sBat 33 1).drlStopped 0, decide (32 < (sBat 33 1).get (drlPage 0) DRL.STAGE_COUNT_COUNT),
    soundB (sBat 1 11), !(sBat 1 11).drlStopped 0, decide ((sBat 1 11).get (drlPage 0) DRL.STAGE_COUNT_COUNT ≤ 32),
    decide ((noBatch (sBat 1 11)).batchFail 0 64000000 (240 * 64) [] (staged1 (sBat 1 11)) ((noBatch (sBat 1 11)).drlOf 0).used 0 = some (0, { result := 1, detail := 7, fault := some 2 })),
    decide ((noBatch (sBat 1 1)).batchFail 0 64000000 (240 * 64) [] (staged1 (sBat 1 1)) ((noBatch (sBat 1 1)).drlOf 0).used 0 = none), decide ((sBat 1 1).reqsOf 0 (64000000 / 192) = []),
    (let s := (sBat 1 1).takeReq 0 { rank := 1, master := .core 0, w0 := 0, w1 := 0, w2 := 0, w3 := 0, now := 64000000 }
     soundB s && decide (s.reqsOf 0 (64000000 / 192) ≠ []))] = true := by decide +kernel

theorem witness_DrillLaunches : allOf [
    decide ((sDq [one aAPPLY 0 0 0]).dueLane = some ⟨0, one aAPPLY 0 0 0, false, 64000000, 1⟩), decide ((sDq [one aAPPLY 0 0 0]).dueAction 0 aAPPLY false = some (one aAPPLY 0 0 0)), !(sDq [one aAPPLY 0 0 0]).fenced (applyPage 0 (one aAPPLY 0 0 0)),
    (let s := ((sDq [one aAPPLY 0 0 0]).put (pHCH 0) HDR.SHADOW_CTL_ARM 1).put (pHCH 0) HDR.SHADOW_CTL_SRC 1
     s.on (applyPage 0 (one aAPPLY 0 0 0)) HDR.SHADOW_CTL_ARM && decide (s.get (applyPage 0 (one aAPPLY 0 0 0)) HDR.SHADOW_CTL_SRC = 1) && decide (s.dueAction 0 aAPPLY false = some (one aAPPLY 0 0 0))),
    !(sDq [one aAPPLY 0 0 0]).on (pHCH 0) HDR.SHADOW_CTL_ARM,
    (let s := (sDq [one aAPPLY 0 0 0]).put (pHCH 0) HDR.FENCE_FENCED 1
     s.fenced (applyPage 0 (one aAPPLY 0 0 0)) && decide (s.dueAction 0 aAPPLY false = some (one aAPPLY 0 0 0))),
    decide ((sDq [one aMAOFS 3 5 0]).dueAction 0 aMAOFS false = some (one aMAOFS 3 5 0)), !(sDq [one aMAOFS 3 5 0]).drillFenced 0 aMAOFS 3 5, decide ((one aMAOFS 3 5 0).target = 3),
    decide ((sDq [one aPROF 0 1 0]).dueAction 0 aPROF false = some (one aPROF 0 1 0)), !(sDq []).drillFenced 0 aPROF 0 1, decide ((sDq [one aEVENT 0 4 0]).dueAction 0 aEVENT false = some (one aEVENT 0 4 0)), !(sDq []).fenced (pDIL 0),
    decide ((sDd [one aEVENT 0 4 0]).dueAction 8 aEVENT false = some (one aEVENT 0 4 0)), decide ((sDq [one aHEAT 0 4 100]).dueSerial 0 aHEAT = some (one aHEAT 0 4 100)), decide ((sDq [one aPRE 0 4 100]).dueSerial 0 aPRE = some (one aPRE 0 4 100)),
    !(sDq [one aHEAT 0 4 100]).drillFenced 0 aHEAT 0 4, ((sDq [one aHEAT 0 4 100]).put (pLNK 0) LNK.LINK_STAT_STATE 2).drillTurn 0,
    decide ((sDq [one aSTP 0 4 0]).dueAction 0 aSTP false = some (one aSTP 0 4 0)), !(sDq []).fenced pSTP, decide ((sDq []).time < edgeAfter (one aSTP 0 4 0).t.toNat), decide (edgeAfter (one aSTP 0 4 0).t.toNat ≤ ({ sDq [one aSTP 0 4 0] with time := 64000128 } : State).time), decide (({ sDq [one aSTP 0 4 0] with time := 64000128 } : State).dueAction 0 aSTP false = some (one aSTP 0 4 0)), ((sDq [one aSTP 0 4 0]).retireOne 0 (one aSTP 0 4 0) 0 0).running pSTP,
    decide ((sDd [one aSPN 0 4 100]).dueSerial 8 aSPN = some (one aSPN 0 4 100)), !(sDd []).drillFenced 8 aSPN 0 4, !(sDd []).d2dLost,
    (let s := { sDq [one aHEAT 0 4 100] with time := 65000000 }
     decide (s.missedSerial 0 = some (one aHEAT 0 4 100)) && !s.drillFenced 0 aHEAT 0 4), decide ((sDq []).dueAction 0 aAPPLY false = none), decide ((sDq []).missedSerial 0 = none), decide ((sDq []).dueSerial 0 aHEAT = none), decide ((sDd []).dueSerial 8 aSPN = none), (let s := (sDq [one aMAOFS 3 5 0]).put (pTIL 0) HDR.FENCE_FENCED 1
     s.drillFenced 0 aMAOFS 3 5 && decide (s.dueAction 0 aMAOFS false = some (one aMAOFS 3 5 0))),
    (let s := { sDd [one aSPN 0 4 100] with d2dLost := true }
     decide (s.dueSerial 8 aSPN = some (one aSPN 0 4 100)) && !s.drillFenced 8 aSPN 0 4 && s.d2dLost)] = true := by decide +kernel

/-- An ANGLE entry, not final yet, resolved to `t`. -/
def ang (t : Int) : Entry := { one aEVENT 0 4 0 with w1 := BitVec.ofNat 32 (aEVENT + 256), w0 := 0, fin := false, t := t }
def sAng (k : Nat) (t : Int) : State := { ((sDq [ang t]).put pFUR FUR.TRK_STAT_STATE k) with trk := { phase := 60000000, period := 31250 * 64 } }
theorem witness_DrillRemoval : allOf [
    (sDq []).present (drlPage 0), (sDq []).powered (drlPage 0), !(sDq []).isResetting (drlPage 0), ((sDq [one aEVENT 0 4 0]).drlOf 0).ents.all (fun e => decide (BitVec.ofNat 16 e.tag &&& (0xFFFF : BitVec 16) ≠ 0x1234 &&& 0xFFFF)),
    soundB (sDq [one aEVENT 0 4 0]), decide (((sDq [one aEVENT 0 4 0]).drlOf 0).ents = [one aEVENT 0 4 0]), !(one aEVENT 0 4 0).launched, !(one aEVENT 0 4 0).gate, decide (BitVec.ofNat 16 (one aEVENT 0 4 0).tag = 0xABCD),
    decide ((sAng 0 65000000).nextUnresolved 0 = some (ang 65000000)), decide ((ang 65000000).point ≤ ((sAng 0 65000000).time : Rat)), !(sAng 0 65000000).angleOk, (sAng 3 65000000).angleOk,
    decide ((sAng 3 65000000).nextUnresolved 0 = some (ang 65000000)), decide ((sDq []).nextUnresolved 0 = none), decide ((([one aEVENT 0 4 0] : List Entry).map (fun e => e.seq)).Nodup),
    (let e : Entry := { ang 69000000 with point := 68000000 }
     let s := { sDq [e] with trk := { phase := 60000000, period := 31250 * 64 } }
     decide (s.nextUnresolved 0 = some e) && decide ((s.time : Rat) < e.point)), (one aEVENT 0 4 0).quiet == false] = true := by decide +kernel

/-- DRL0's ring with 16 records in host staging: empty, or full. -/
def sRing (rd : Nat) : State := (((sDq []).setReg (drlPage 0) DRL.RET_BASE_LO.off (BitVec.ofNat 32 stgBase)).put (drlPage 0) DRL.RET_RD rd).put (drlPage 0) DRL.RET_SIZE_LOG2 4
theorem witness_Retirement : allOf [
    !(sDq []).on (drlPage 0) DRL.RET_CTRL_MODE, (sRing 1).ringFull (drlRing 0), !(sRing 0).ringFull (drlRing 0), ((sRing 0).bufWrite none stgBase (wordBytes [1, 2, 3, 4])).2, !((sRing 0).bufWrite none 0x40000 (wordBytes [1, 2, 3, 4])).2,
    soundB (sDq []), (sDq []).present (drlPage 0), decide ((sRing 0).addr48 (drlRing 0).page (drlRing 0).baseLo (drlRing 0).baseHi = stgBase)] = true := by decide +kernel

end W03

/-! ### Witnesses, part 04 -/

namespace W04

open W03
/-- Head 0's page on, with its front end `f` and its read path `r`. -/
def sFe (f : Afe) (r : RdHead) : State := ((sDq []).setAfe 0 f).setRd 0 r
/-- A read gate of head 0 that opens at 1,002,000 ft. -/
def gate2 : Entry := { one aRG 0 7 0 with t := 64128000, c := 64192000 }
/-- A valid ZPT entry of head 0, zone 2, in the table. -/
def sZpt (w : Nat) : State := (sDq []).storeBytes (zptAddr 0 2) (wordBytes [w, 0x400000, 0, 0, 0, 0, 0, 0, 0, 0, 0, 0x8F80])
def gW : RdGate := { live := true, bg := false, opened := 63936000, closes := 63993600, set := [0x88000000, 0x400000, 0, 0, 0, 0, 0, 0, 0, 0, 0, 0x8F80, 0, 0, 0, 0, 0, 0], zone := 3, last := false }

theorem witness_FrontEnd : allOf [
    soundB (sFe {} {}), (sFe {} {}).present (pHCH 0),
    (let s := (sDq [gate2]).setReg (pHCH 0) 8 0x10005
     soundB s && s.afeDoze 0 && !(s.afeOf 0).awake s.time && (s.drlOf (actOf 0)).ents.any (fun e => e.gate && !e.opened && decide (e.target = 0) && decide (e.t - 2400 * 64 ≤ (s.time : Int)))),
    !(sFe {} {}).afeDoze 0, decide (((sFe {} {}).rdOf 0).gate = none), soundB (sFe {} { gate := some gW }), decide (((sFe {} { gate := some gW }).rdOf 0).gate = some gW),
    ((sFe {} { gate := some gW }).put (pHCH 0) HCH.ADAPT_CTL_FRZ_VGA 1).on (pHCH 0) HCH.ADAPT_CTL_FRZ_VGA, ((sFe {} { gate := some gW }).put (pHCH 0) HCH.ADAPT_CTL_FRZ_OFS 1).on (pHCH 0) HCH.ADAPT_CTL_FRZ_OFS,
    ((sFe {} { gate := some gW }).put (pHCH 0) HCH.ADAPT_CTL_FRZ_ASYM 1).on (pHCH 0) HCH.ADAPT_CTL_FRZ_ASYM,
    soundB (sFe { rdA := { clipDue := 1 }, rdB := { clipDue := 2 } } {}), decide (0 < ((sFe { rdA := { clipDue := 1 }, rdB := { clipDue := 2 } } {}).afeOf 0).rdA.clipDue), decide (((sFe {} {}).afeOf 0).rdB.clipDue = 0),
    soundB (sFe { rdA := { stuckDue := 1 }, rdB := { stuckDue := 1 } } {}), decide (0 < ((sFe { rdA := { stuckDue := 1 }, rdB := { stuckDue := 1 } } {}).afeOf 0).rdB.stuckDue), decide (((sFe {} {}).afeOf 0).rdA.stuckDue = 0),
    soundB (sZpt 0x88000000), (sZpt 0x88000000).powered (pHCH 0), !(sZpt 0x88000000).isResetting (pHCH 0), !(sZpt 0x88000000).commitDue (pHCH 0) (sZpt 0x88000000).time, setValid ((sZpt 0x88000000).zptEntry 0 2), !setValid ((sZpt 0).zptEntry 0 2)] = true := by decide +kernel

/-- LNK0 in state `k` with link `l`. -/
def sLk (k : Nat) (l : Link) : State := ((sDq []).put (pLNK 0) LNK.LINK_STAT_STATE k).setLnk 0 l
def tx (n tries : Nat) (f : TxFrom) : Tx := { typ := 0, head := 1, seq := n, reg := 2, data := 3, source := f, tries := tries, sentEnd := 0 }

theorem witness_PreampCommands : allOf [
    soundB (sLk 0 {}), (sLk 0 {}).present (pLNK 0), (sLk 0 {}).powered (pLNK 0), !(sLk 0 {}).isResetting (pLNK 0), decide ((sLk 0 {}).linkState 0 = 0), decide ((sLk 3 {}).linkState 0 = 3), soundB (sLk 2 { fifo := [tx 0 0 .page, tx 1 0 .page, tx 2 0 .page, tx 3 0 .page] }),
    decide (4 ≤ ((sLk 2 { fifo := [tx 0 0 .page, tx 1 0 .page, tx 2 0 .page, tx 3 0 .page] }).lnkOf 0).fifo.length), decide ((sLk 1 {}).linkState 0 = 1), decide ((sLk 2 {}).linkState 0 = 2), decide (((sLk 2 {}).lnkOf 0).fifo.length < 4)] = true := by decide +kernel

theorem witness_PreampFrames : allOf [
    soundB (sLk 2 { retx := [tx 0 1 .page] }), (sLk 2 { retx := [tx 0 1 .page] }).linkFree 0, decide (((sLk 2 { retx := [tx 0 1 .page] }).lnkOf 0).retx = [tx 0 1 .page]), soundB (sLk 2 { alert := true }), (sLk 2 { alert := true }).linkFree 0,
    ((sLk 2 { alert := true }).lnkOf 0).alert, decide (((sLk 2 { alert := true }).lnkOf 0).unans.length < 4), soundB (sLk 2 { fifo := [tx 0 0 .page] }), (sLk 2 { fifo := [tx 0 0 .page] }).linkFree 0, decide ((sLk 2 { fifo := [tx 0 0 .page] }).dueDrillFrame 0 = none),
    decide (((sLk 2 { fifo := [tx 0 0 .page] }).lnkOf 0).fifo = [tx 0 0 .page]), !(sLk 0 {}).linkFree 0, decide (4 ≤ ((sLk 2 { fifo := [tx 0 0 .page], unans := [tx 1 0 .drill, tx 2 0 .drill, tx 3 0 .drill, tx 0 0 .drill] }).lnkOf 0).unans.length), (sLk 2 { fifo := [tx 0 0 .page], unans := [tx 1 0 .drill, tx 2 0 .drill, tx 3 0 .drill, tx 0 0 .drill] }).linkFree 0, decide ((sLk 0 {}).linkState 0 ≠ 2), decide ((2 : BitVec 2).toNat ≠ (tx 1 0 .drill).seq),
    (let s := (sDq [one aHEAT 0 4 100]).put (pLNK 0) LNK.LINK_STAT_STATE 2
     s.linkFree 0 && decide (s.dueDrillFrame 0 = some (one aHEAT 0 4 100))), soundB (sLk 2 { unans := [tx 1 0 .drill] }), decide ((sLk 2 { unans := [tx 1 0 .drill] }).linkState 0 = 2),
    decide (((sLk 2 { unans := [tx 1 0 .drill] }).lnkOf 0).unans = [tx 1 0 .drill]), decide ((1 : BitVec 2).toNat = (tx 1 0 .drill).seq), decide ((tx 1 0 .drill).source = .drill), decide ((tx 1 2 .drill).tries < 3), decide (3 ≤ (tx 1 3 .alert).tries), decide ((tx 1 3 .alert).source ≠ .page),
    (sLk 2 {}).present (pLNK 0), decide (((sLk 2 {}).lnkOf 0).unans = []), decide ((tx 1 0 .drill).sentEnd + max 120 ((sLk 2 { unans := [tx 1 0 .drill] }).get (pLNK 0) LNK.RSP_TIMEOUT) * 64 ≤ (sLk 2 { unans := [tx 1 0 .drill] }).time),
    decide ((sLk 2 {}).time < 63999999 + max 120 ((sLk 2 {}).get (pLNK 0) LNK.RSP_TIMEOUT) * 64)] = true := by decide +kernel

theorem witness_PreampAlertsAndTraining : allOf [
    soundB (sLk 2 {}), (sLk 2 {}).present (pLNK 0), decide ((sLk 2 {}).linkState 0 = 2), !(sLk 2 {}).on (pLNK 0) LNK.ALERT_STAT_MASKED, !((sLk 2 {}).put (pACT 0) ACT.WI_CFG_ALERT_INH 0).on (pACT 0) ACT.WI_CFG_ALERT_INH, soundB ((sLk 2 {}).put (pACT 0) ACT.WI_CFG_ALERT_INH 0),
    (let s : State := { (sLk 2 {}).put (pLNK 0) LNK.ALERT_STAT_LEVEL 1 with time := 200000000 }
     soundB s && s.on (pLNK 0) LNK.ALERT_STAT_LEVEL && !s.on (pLNK 0) LNK.ALERT_STAT_MASKED && decide ((s.lnkOf 0).alertAt + 2400000 * 64 ≤ s.time)),
    decide ((sLk 2 {}).time < ((sLk 2 {}).lnkOf 0).alertAt + 2400000 * 64), (sLk 2 {}).powered (pLNK 0), !(sLk 2 {}).isResetting (pLNK 0), decide ((sLk 1 {}).linkState 0 = 1), !(sLk 1 {}).on (pLNK 0) LNK.ADI_CAL_OVR_EN,
    phasePasses 0 (List.replicate 4 (BitVec.ofNat 32 (frameCrc 0))), !phasePasses 0 [], ((sLk 1 {}).put (pLNK 0) LNK.ADI_CAL_OVR_EN 1).on (pLNK 0) LNK.ADI_CAL_OVR_EN, ((sLk 2 {}).put (pLNK 0) LNK.ALERT_STAT_MASKED 1).on (pLNK 0) LNK.ALERT_STAT_MASKED,
    decide ((sLk 3 {}).linkState 0 = 3), decide (bits ((sLk 1 {}).reg (pLNK 0) 0x6C).toNat 7 0 = 0), decide ((255 : BitVec 8) ≠ 0), decide ((7 : BitVec 8) ≠ 255 ∧ (7 : BitVec 8) ≠ 0)] = true := by decide +kernel

end W04

/-! ### Witnesses, part 05 -/

namespace W05

/-- A set of code A: valid, 0x400000 symbols a tick, with a resync mark. -/
def wSet : List Word := [0x88000000, 0x400000, 0, 0, 0, 0, 0, 0, 0, 0, 0, 0x8F80, 0, 0, 0, 0, 0, 0]

/-- A Drill entry of action `act` for target `tg`, due at 999,000 ft and closing at 999,900 ft. -/
def dEnt (act tg arg : Nat) (opened : Bool) : Entry :=
  { w0 := 0, w1 := BitVec.ofNat 32 (act + tg * 2048), w2 := BitVec.ofNat 32 arg, w3 := 0, t := 63936000, c := 63993600, lo := 0, fin := true, seq := 0, slot := 0, slotC := 1, opened := opened }

def wSec (mark : Nat) (slot : Option Nat) : RdSector := { sid := 7, opts := 0, set := wSet, zone := 3, epoch := 0, frags := 1, mark := mark, slot := slot, unret := slot.isNone, land := 2 }

/-- Head 0 running, with its active set, and entry `e` in DRL0's queue. -/
def sRd (e : Entry) (rd : RdHead) : State :=
  let s := (en (st [0, 96]) [pHCH 0]).setRd 0 rd
  ((s.setReg (pHCH 0) 0x80 0x88000000).setReg (pHCH 0) 0x84 0x400000).setDrl 0 { ents := [e], seq := 1 }

def wGate (live last : Bool) : RdGate := { live := live, bg := false, opened := 63936000, closes := 63993600, set := wSet, zone := 3, last := last }

theorem witness_ReadGates :
    (soundB (sRd (dEnt 1 0 7 false) {}) && decide ((sRd (dEnt 1 0 7 false) {}).dueAction 0 aRG true = none) &&
      decide ((sRd (dEnt 1 0 7 true) {}).dueAction 0 aRG false = none) &&
      (let s := sRd (dEnt 1 0 7 false) {}
       let s1 := (s.retireOpen 0 (dEnt 1 0 7 false) 0).settle (pHCH 0) 63936000
       decide (s.dueAction 0 aRG false = some (dEnt 1 0 7 false)) && !s.drillFenced 0 1 0 7 && s1.running (pHCH 0) && setValid (s1.activeSet 0) && !s1.rdrOff 0 false && decide (bits (dEnt 1 0 7 false).arg 17 16 < 2)) &&
      (let s := (sRd (dEnt 1 0 7 false) {}).put (pHCH 0) HDR.FENCE_FENCED 1
       soundB s && decide (s.dueAction 0 aRG false = some (dEnt 1 0 7 false)) && s.drillFenced 0 1 0 7) &&
      (let s := sRd (dEnt 1 0 0x20007 false) {}
       soundB s && decide (s.dueAction 0 aRG false = some (dEnt 1 0 0x20007 false)) && decide (2 ≤ bits (dEnt 1 0 0x20007 false).arg 17 16)) &&
      (let s := sRd (dEnt 1 0 7 true) { gate := some (wGate true false), recv := some (wSec 2 (some 0)) }
       soundB s && decide (s.dueAction 0 aRG true = some (dEnt 1 0 7 true))) &&
      (let s := sRd (dEnt 1 0 7 true) { gate := some (wGate true true), recv := some (wSec 3 (some 0)) }
       soundB s && decide (s.dueAction 0 aRG true = some (dEnt 1 0 7 true))) &&
      (let s := { sRd (dEnt 1 0 7 true) { recv := some { wSec 2 (some 0) with lastClose := 0 } } with time := 1048576 * 64 + 1 }
       soundB s && decide ((1048576 : Nat) * 64 < s.time) && decide ((s.rdOf 0).recv = some { wSec 2 (some 0) with lastClose := 0 }) && !(s.rdOf 0).gate.any (·.live)) &&
      (let s := sRd (dEnt 1 0 7 true) {}
       soundB s && decide ((s.rdOf 0).recv = none) && decide ((s.rdOf 0).gate = none)) &&
      (let s := sRd (dEnt 1 0 7 true) { gate := some (wGate false false) }
       soundB s && decide (s.dueAction 0 aRG true = some (dEnt 1 0 7 true)) && decide ((wGate false false).opened = (dEnt 1 0 7 true).t) && decide ((wGate false false).bg = (dEnt 1 0 7 true).bg))) = true := by decide +kernel

/-- A sector of which `n` symbols have been received and whose last fragment has closed. -/
def wDone (mark n : Nat) (slot : Option Nat) : RdSector := { wSec mark slot with syms := [n], insts := [[]] }
/-- Head 0 with the sectors `l` in decoding. -/
def sDc (l : List RdSector) : State := (sRd (dEnt 1 0 7 true) { dec := l }).put (pHCH 0) HCH.RD_CTRL_SWEEP_DIS 1
def hits (n : Nat) : List Bool := List.replicate n false
def noHit : List Bool := List.replicate 200 true

theorem witness_FramingAndDecoding :
    (let s := sRd (dEnt 1 0 7 true) { gate := some (wGate true true), recv := some (wSec 0 (some 0)) }
     soundB s && decide ((s.rdOf 0).searching 0 = some (wSec 0 (some 0))) && decide ((wSec 0 (some 0)).search (s.rdOf 0) false [] = .wait) && !(s.rdOf 0).dec.contains (wSec 0 (some 0))) &&
    (let s := sDc [wDone 0 80000 (some 0)]
     soundB s && decide ((s.rdOf 0).searching 0 = some (wDone 0 80000 (some 0))) && decide ((wDone 0 80000 (some 0)).search (s.rdOf 0) false (hits 200) = .hit 0 0 0 ∨ (wDone 0 80000 (some 0)).search (s.rdOf 0) false (hits 200) ≠ .wait) && (s.rdOf 0).dec.contains (wDone 0 80000 (some 0)) && decide ((s.rdOf 0).searching 1 = none)) &&
    (let s := sDc [wDone 1 80000 none]
     soundB s && decide ((s.rdOf 0).searching 1 = some (wDone 1 80000 none)) && (s.rdOf 0).dec.contains (wDone 1 80000 none) && decide ((s.rdOf 0).searching 0 = none)) &&
    (let s := sDc [{ wDone 2 80000 (some 0) with passes := 1 }, wDone 2 80000 (some 1)]
     soundB s && s.on (pHCH 0) HCH.RD_CTRL_SWEEP_DIS && decide ((s.rdOf 0).dec.find? (fun x => decide (0 < x.passes)) = some { wDone 2 80000 (some 0) with passes := 1 }) &&
       decide ((s.rdOf 0).dec.find? (fun x => decide (x.mark = 2) && decide (x.passes = 0)) = some (wDone 2 80000 (some 1)))) &&
    (let s := sDc [wDone 2 80000 (some 0)]
     soundB s && decide ((s.rdOf 0).dec.find? (fun x => decide (x.mark = 2) && decide (x.passes = 0)) = some (wDone 2 80000 (some 0)))) &&
    (let s := sDc []
     soundB s && decide ((s.rdOf 0).dec.find? (fun x => decide (0 < x.passes)) = none)) = true := by decide +kernel

end W05

/-! ### Witnesses, part 06 -/

namespace W06

/-- Aftermath enabled, slot 0 of head 0 in state `k`. -/
def sAf (k : Nat) (q : Afm) : State :=
  ((en (st [0, 126, 129, 136]) [pAFM]).setSlot 0 0 k).setAfm q

def wJob (ty : Nat) : Job := { typ := ty, head := 0, slot := 0 }

/-- The job words of master `dbg` name TYPE `t`, slot 0 of head 0. -/
def sJob (k t : Nat) : State := (sAf k {}).setMreg .bsc pAFM 0x60 (BitVec.ofNat 32 t)

theorem witness_AftermathSlotsAndJobs :
    (soundB (sAf 0 {}) && (sAf 0 {}).powered pAFM && !(sAf 0 {}).isResetting pAFM && !(sAf 0 {}).subFenced pAFM 0 && decide ((sAf 1 {}).slotState 0 0 = 1) &&
      soundB (sAf 2 {}) && decide ((sAf 2 {}).slotState 0 0 = 2) && decide ((sAf 4 {}).slotState 0 0 = 4) &&
      soundB (sAf 3 { jobs := [wJob 1] }) && decide ((sAf 3 { jobs := [wJob 1] }).queuedJob 0 0 = some (wJob 1)) &&
      soundB (sAf 5 { runs := [(3, { job := wJob 1, left := [] })] }) &&
      decide ((sAf 5 { runs := [(3, { job := wJob 1, left := [] })] }).afm.runs.find? (fun e => e.2.job.slots.contains (0, 0)) = some (3, { job := wJob 1, left := [] })) &&
      ([1, 2, 4] : List Nat).all (fun t => let s := sJob 2 t
        soundB s && decide ((jobOf (s.mreg .bsc pAFM 0x60).toNat 0 0 0).typ = t) && decide (s.jobCheck (jobOf (s.mreg .bsc pAFM 0x60).toNat 0 0 0) = 0)) &&
      (let s := (sJob 2 0).setMreg .bsc pAFM 0x60 0x00800003
       let s1 := s.setSlot 0 1 2
       soundB s1 && decide (s1.jobCheck (jobOf (s1.mreg .bsc pAFM 0x60).toNat 0 0 0) = 0)) &&
      decide ((sJob 0 1).jobCheck (jobOf 1 0 0 0) = 3) && soundB (sAf 5 {}) && decide ((sAf 5 {}).slotState 0 0 = 5) && decide ((sAf 5 {}).afm.runs.find? (fun e => e.2.job.slots.contains (0, 0)) = none) &&
      soundB (sAf 3 {}) && decide ((sAf 3 {}).slotState 0 0 = 3) && decide ((sAf 3 {}).queuedJob 0 0 = none) && (wJob 1).slots.all (fun x => decide (x.1 < 96) && decide (x.2 < 2)) && decide ((wJob 1).slots.Nodup) && decide (96 ≤ (100 : BitVec 7).toNat)) = true := by decide +kernel

/-- A run of job `j` after `n` tries, ended or not. -/
def sRun (k ty n : Nat) (e : Option TryEnd) : State := sAf k { runs := [(3, { job := wJob ty, left := [], tries := n, ended := e })] }

theorem witness_DeepDecoders :
    (decide ((sAf 2 {}).afm.sweeps = []) &&
      (let s := (sAf 3 { sweeps := [wJob 4] }).setSlotInfo 0 { lo := -20, hi := 20, markFrag := 0, markIdx := 0 }
       soundB s && decide (firstBelow 8 s.ddFree = some 0) && s.afmUsable && s.fitsAt (wJob 4) (-1)) &&
      (let s := sAf 3 { jobs := [{ wJob 2 with ofs := 3 }] }
       soundB s && decide (s.afm.sweeps ++ s.afm.jobs = [{ wJob 2 with ofs := 3 }]) && !s.fitsAt { wJob 2 with ofs := 3 } 3 && s.afmUsable) &&
      decide ((sAf 2 {}).runOf 3 = none) && decide ((sAf 2 {}).afm.jobs = []) &&
      (let s := sAf 4 { runs := [(3, { job := { wJob 4 with iterMax := 30 }, left := [1] })] }
       soundB s && decide (s.sweepIter < s.jobIters { wJob 4 with iterMax := 30 }) && decide (5 ≤ s.get pAFM AFM.SWEEP_CFG_THR) && decide ((s.runOf 3).map (·.past) = some false)) &&
      soundB (sRun 4 1 0 none) && decide ((sRun 4 1 0 none).runOf 3 = some { job := wJob 1, left := [], tries := 0 }) &&
      soundB (sRun 4 4 15 none) && decide ((sRun 4 4 15 none).sweepTries ≤ 16) && decide ((sRun 4 4 15 none).runOf 3 = some { job := wJob 4, left := [], tries := 15 }) &&
      soundB (sRun 4 1 1 (some { status := 8 })) && decide (((sRun 4 1 1 (some { status := 8 })).runOf 3).bind (·.ended) = some { status := 8 })) = true := by decide +kernel

end W06

/-! ### Witnesses, part 07 -/

namespace W07

open W05
/-- Head 0 running and its tracker LOCKED, write entry `e` in DRL0's queue, write path `w`. -/
def sWr (e : Entry) (w : WrHead) : State :=
  let s := ((en (st [0, 96]) [pHCH 0]).setWr 0 w).put pFUR FUR.TRK_STAT_STATE 3
  let s1 := (s.put (pHCH 0) HCH.WQ_BASE_LO (stgBase / 16 % 2 ^ 28)).put (pHCH 0) HCH.WQ_BASE_HI (stgBase / 2 ^ 32)
  ((s1.setReg (pHCH 0) 0x80 0x80000000).setReg (pHCH 0) 0x84 0x400000).setDrl 0 { ents := [e], seq := 1 }

/-- A write entry whose window holds a sector of code A: 999,000 ft less 120,000 ft to 999,000 ft. -/
def wEnt (arg : Nat) (opened : Bool) : Entry := { dEnt 2 0 arg opened with t := 56256000 }

def wDesc : WrDesc := { src := 0, addr := stgBase, sid := 7, tag := 3, payload := List.replicate 8256 0 }
def wWs : WrSector := { sid := 7, opts := 0, set := wSet, zone := 0, epoch := 0, frags := 1, start := 56256000 }
def wPl (ends : Bool) : WrPlan := { first := 0, lead := 96, body := 200, pad := 0, ends := ends }
def wWg (ends : Bool) : WrGate := { opened := 56256000, closes := 63993600, plan := wPl ends }

theorem witness_WriteGates :
    (let s := sWr (wEnt 7 false) { descs := [wDesc] }
     let s1 := s.settle (pHCH 0) 56256000
     soundB s && decide (s.dueAction 0 aWG false = some (wEnt 7 false)) && decide (s.dueAction 0 aWG true = none) && s1.running (pHCH 0) && decide (s1.trkState = 3) &&
       decide (s1.inhibits 0 = []) && setValid (s1.activeSet 0) && !s1.fenced (pHCH 0) && !s1.fenced (pACT 0) &&
       decide (min (max 8 (s1.get (pHCH 0) HCH.WR_CTRL_PREFILL) * 64) (streamBytes (zFormat (s1.activeSet 0))) ≤ 8256) &&
       (planOf (s1.activeSet 0) true 0 (cellAt (zRate (s1.activeSet 0)) 56256000 63993600) (streamSyms (s1.activeSet 0))).ends) &&
    (let s := (sWr (wEnt 7 false) {}).put (pHCH 0) HDR.FENCE_FENCED 1
     soundB s && (s.settle (pHCH 0) 56256000).fenced (pHCH 0)) &&
    (let s := (sWr (wEnt 7 false) {}).put (pACT 0) HDR.FENCE_FENCED 1
     soundB s && (s.settle (pHCH 0) 56256000).fenced (pACT 0)) &&
    (let s := (sWr (wEnt 7 false) {}).put pFUR FUR.TRK_STAT_STATE 2
     soundB s && decide ((s.settle (pHCH 0) 56256000).trkState ≠ 3)) &&
    (let s := (sWr (wEnt 7 false) {}).put (pACT 0) ACT.WI_STAT_SHOCK 1
     soundB s && decide (((s.settle (pHCH 0) 56256000).inhibits 0).head? = some 2)) &&
    (let s := (sWr (wEnt 7 false) {}).setReg (pHCH 0) 0x80 0
     soundB s && !setValid ((s.settle (pHCH 0) 56256000).activeSet 0)) &&
    (let s := sWr (wEnt 0x20007 false) {}
     soundB s && decide (2 ≤ bits (wEnt 0x20007 false).arg 17 16) && decide (s.dueAction 0 aWG false = some (wEnt 0x20007 false))) &&
    (let s := sWr (wEnt 7 true) { gate := some (wWg false), sec := some wWs }
     soundB s && decide (s.dueAction 0 aWG true = some (wEnt 7 true)) && decide (s.dueAction 0 aWG false = none)) = true := by decide +kernel

theorem witness_WriteStream :
    (let s := sWr (wEnt 7 true) { descs := [{ wDesc with payload := [] }] }
     soundB s && s.present (pHCH 0) && s.powered (pHCH 0) && !s.isResetting (pHCH 0) && s.enabled (pHCH 0) && s.running (pHCH 0) &&
       decide (1 < min 2 ((s.put (pHCH 0) HCH.WQ_WR 3).wqHeld 0)) && ((s.put (pHCH 0) HCH.WQ_WR 3).fetchDesc 0 1).2.isSome && decide (s.wqHeld 0 ≤ 1) &&
       decide (0 < s.streamLen 0 0) && decide (s.writeStripeOf 0 7 = none) && decide (s.wfifo 0 + 64 ≤ 16384) && (s.bufRead (some (headM 0)) stgBase 64).2.isSome) &&
    (let s := sWr (wEnt 7 true) { descs := [{ wDesc with payload := [] }], gate := some (wWg true), sec := some wWs }
     soundB s && decide (0 < s.bytesNeeded 0)) &&
    (let s := sWr (wEnt 7 true) { descs := [wDesc], gate := some (wWg true), sec := some wWs }
     soundB s && decide (s.bytesNeeded 0 ≤ 8256) && decide (wWs.endTime (wWg true) ≤ (s.time : Rat)) && decide (wDesc.payload.length = streamBytes wWs.format)) &&
    (let s := { sWr (wEnt 7 true) { descs := [wDesc], gate := some (wWg true), sec := some wWs } with time := 56256000 }
     decide ((s.time : Rat) < wWs.endTime (wWg true))) &&
    (let s := { sWr (wEnt 7 true) { sec := some wWs } with time := 1048576 * 64 + 1 }
     soundB s && decide (wWs.lastClose + 1048576 * 64 < s.time)) = true := by decide +kernel

theorem witness_WriteInhibits :
    (let s := (sWr (wEnt 7 true) { descs := [wDesc], gate := some (wWg true), sec := some wWs }).put pMOT MOT.SHOCK_CFG_EN 1
     soundB s && bit (s.get pMOT MOT.SHOCK_CFG_EN) 0 && decide (s.get pMOT (MOT.SHOCK_THR 0) < 1023) && !bit (s.get pMOT MOT.SHOCK_STAT_ABOVE) 0) &&
    (let s := (st []).put pMOT MOT.SHOCK_STAT_ABOVE 1
     soundB s && decide (withBit (s.get pMOT MOT.SHOCK_STAT_ABOVE) 0 false = 0)) &&
    (let s := (st []).put pMOT MOT.SHOCK_STAT_ABOVE 3
     decide (withBit (s.get pMOT MOT.SHOCK_STAT_ABOVE) 0 false ≠ 0)) &&
    (let s := { st [] with shockEnd := [(0, 5)] }
     soundB s && decide (tabGet s.shockEnd 0 0 ≤ s.time + 1)) &&
    (let s := { st [] with supply := some 0 }
     soundB s && decide (0 + 14400 * 64 ≤ s.time) && !s.windowClosed) = true := by decide +kernel

/-- An OPEN write stripe of heads 0 to 11: ten data members that have been served 128 bytes each, parity members 10 and 11. -/
def sStripe (d0 d10 : WrDesc) : State :=
  let s := { (((((en (st (List.range 12 ++ [96, 134])) [pSTP]).setReg pSTP 0x890 0x00BA0005).setReg pSTP 0x894 0x0100).setReg pSTP 0x898 0x20000000).setStripeState 9 1) with stpIn := [] }
  let s := s.setStripe 9 { launch := 63000000, feed := (List.range 10).map (fun k => (k, stgBase, List.replicate 128 (3 : Byte))) }
  (List.range 12).foldl (fun s k => (((s.put (pHCH k) HDR.CTRL_ENABLE 1).setWr k { descs := [if k = 10 then d10 else { d0 with sid := 0x100 + k }] }).setReg (pHCH k) 0x80 0x80000000)) s

def dStr (n : Nat) : WrDesc := { wDesc with payload := List.replicate n 3 }
def dPar (n : Nat) : WrDesc := { wDesc with src := 1, sid := 0x10A, payload := List.replicate n 3 }

theorem witness_WriteStream_2 : allOf [
   (let s := sStripe (dStr 64) (dPar 0)
    soundB s && s.running (pHCH 0) && decide (s.writeStripeOf 0 0x100 = some (9, 0)) && (s.stpData 9).contains 0 && (s.serveEnded 9 128).lockstep 9 64 && ((s.serveEnded 9 128).bufRead (some (headM 0)) (stgBase + 64) 64).2.isSome),
   (let s := sStripe (dStr 192) (dPar 0)
    !(s.serveEnded 9 256).lockstep 9 192),
   (let s := sStripe (dStr 64) (dPar 0)
    soundB s && s.running (pHCH 10) && decide (s.writeStripeOf 10 0x10A = some (9, 10)) && ((s.serveEnded 9 64).parityBeat 9 10 0 64).isSome),
   (let s := sStripe (dStr 64) (dPar 128)
    ((s.serveEnded 9 192).parityBeat 9 10 128 64).isNone)] = true := by decide +kernel

end W07

/-! ### Witnesses, part 08 -/

namespace W08

/-- STP running, stripe 9 a 10+2 stripe of actuator 0 in state `k`. -/
def sSt (k : Nat) (w : Bool) (r : List StpRec) : State :=
  let s := (en (st [0, 134]) [pSTP]).setReg pSTP 0x890 (if w then 0x00BA0005 else 0x00BA0001)
  { ((s.setReg pSTP 0x894 0x0100).setReg pSTP 0x898 0x20000000).setStripeState 9 k with stpIn := r }

def wRec (st : Nat) (f : Bool) : StpRec := { head := 2, sid := 0x102, write := false, status := st, final := f, land := 5, time := 0 }

theorem witness_Stripes :
    (let s := (sSt 1 false [wRec 0xA true]).setStripe 9 { launch := 63000000 }
     soundB s && s.running pSTP && decide (s.matchStripe (wRec 0xA true) = some 9) && decide (s.matchStripe (wRec 0 true) = some 9) &&
       decide (s.matchStripe { wRec 0 true with sid := 0x103 } = none) && !bit (s.stripe 9).decided 2 && s.inStripeWindow 9) &&
    (let s := (sSt 1 false [wRec 0xA true]).setStripe 9 { launch := 63000000, decided := 4 }
     soundB s && decide (s.matchStripe (wRec 0xA true) = some 9) && bit (s.stripe 9).decided 2) &&
    (let s := { (sSt 1 true []).setStripe 9 { launch := 0 } with time := 400000000 }
     soundB s && decide (s.stripeState 9 = 1) && !s.inStripeWindow 9 && s.stpWrite 9 && (s.stpIncluded 9).any (fun k => !bit (s.stripe 9).decided k)) &&
    (let s := { sSt 2 false [] with stpReady := [9] }
     soundB s && decide (s.get pSTP STP.Q_STAT_BUSY = 0)) &&
    (let s := sSt 3 false []
     soundB s && decide (s.stripeState 9 = 3) && !s.isResetting pSTP) &&
    decide ((sSt 4 false []).stripeState 9 = 4) = true := by decide +kernel

/-- Stripe 9 OPEN, with the record `r` of head `k` waiting. -/
def sRec (w : Bool) (r : StpRec) (k : Nat) : State := (sSt 1 w [{ r with head := k, sid := 0x100 + k }]).setStripe 9 { launch := 63000000 }

theorem witness_Stripes_2 : allOf [
    soundB (sRec true { wRec 1 true with write := true } 2), !bit ((sRec true { wRec 1 true with write := true } 2).stripe 9).decided 2, (sRec true (wRec 0 true) 2).stpWrite 9, !(sRec false (wRec 0 true) 2).stpWrite 9,
    decide ((sRec true { wRec 1 true with write := true } 10).matchStripe { wRec 1 true with write := true, head := 10, sid := 0x10A } = some 9),
    ((sRec true (wRec 1 true) 10).stpParity 9).contains 10, decide (tabGet ((sRec true (wRec 1 true) 10).stripe 9).took 10 0 < streamBytes ((sRec true (wRec 1 true) 10).stpFormat 9)),
    decide (streamBytes ((sRec true (wRec 1 true) 10).stpFormat 9) ≤ 100000), decide (3 < (wRec 0xA true).status), decide ({ wRec 0 true with land := 0xFFFF }.land = 0xFFFF), !(wRec 0xA false).final,
    (let s := { (sSt 1 false []).setStripe 9 { launch := 0 } with time := 400000000 }
     soundB s && !s.inStripeWindow 9 && !s.stpWrite 9), decide ((sSt 0 false []).stripeState 9 = 0), ({ sSt 2 false [] with stpReady := [9] }.put pSTP STP.Q_STAT_BUSY 1).get pSTP STP.Q_STAT_BUSY != 0,
    !{ sSt 1 false [wRec 0 true] with dom := [] }.running pSTP] = true := by decide +kernel

/-- The members of the spec's example (R209): the survivors' bytes and the two lost ones, which the rebuild finds from P = 0x31 and Q = 0xB1. -/
def wMembers : List (Nat × List Byte) := [(0, [0x52]), (1, [0x9C]), (2, [0x3A]), (3, [0]), (4, [0]), (5, [0]), (6, [0]), (7, [0xC5]), (8, [0]), (9, [0])]

theorem witness_ParityRebuilds :
    (decide (wMembers.map (·.1)).Nodup && wMembers.all (fun d => decide (d.1 < 12) && decide (d.2.length = 1)) &&
      decide (parityP 1 wMembers = [0x31]) && decide (parityQ 1 wMembers = [0xB1]) && decide ((2, [0x3A]) ∈ wMembers) && decide ((7, [0xC5]) ∈ wMembers)) = true := by
  decide +kernel

end W08

/-! ### Witnesses, part 09 -/

namespace W09

/-- Sequencer 0 in RUN at 0x900, with micro-word `w` there and nano-word `n` at 0x200; G1 = 7, G2 = 3. -/
def sDl (w n : Nat) (d : Dil) : State :=
  let s := (en (st [0, 96]) [pDIL 0]).setDil 0 { d with micro := [(0x900, w)], nano := [(0x200, n)] }
  (((s.put (pDIL 0) DIL.RUN_STAT_STATE 2).put (pDIL 0) DIL.RUN_STAT_PC 0x900).setG 0 1 7).setG 0 2 3

/-- A micro-word with NXT `nx`, target `tg`, condition always, RD 3, RA 1, RB 2, immediate `im`; nano-word 0x200. -/
def mw (nx tg im : Nat) : Nat := nx * 2 ^ 53 + tg * 2 ^ 40 + 0x200 * 2 ^ 29 + 3 * 2 ^ 24 + 1 * 2 ^ 19 + 2 * 2 ^ 14 + im

/-- A nano-word of class `opc` and function `fn` with WB and SETF. -/
def nw (opc fn : Nat) : Nat := opc + fn * 16 + 0xC000

theorem witness_DillArithmetic :
    (let s := sDl (mw 0 0 0) (nw 1 0) {}
     soundB s && s.dilReady 0 && !dilReserved (s.dilCtx 0).n && decide (nOpc (s.dilCtx 0).n = 1) && decide (nFn (s.dilCtx 0).n = 0) && nSetf (s.dilCtx 0).n) &&
    (let s := sDl (mw 0 0 0) (nw 1 0xD) {}
     soundB s && s.dilReady 0 && dilReserved (s.dilCtx 0).n) && (sDl (mw 0 0 0) (nw 2 2) {}).dilReady 0 && (sDl (mw 0 0 0) 0 {}).dilReady 0 = true := by decide +kernel

/-- The word of class `opc` and function `fn` is ready, its next address a JMP, and the immediate `im`. -/
def rdy (opc fn im : Nat) (d : Dil) : Bool :=
  let s := sDl (mw 1 0x900 im) (nw opc fn) d
  soundB s && s.dilReady 0 && !dilReserved (s.dilCtx 0).n && decide (nOpc (s.dilCtx 0).n = opc) && decide (mNxt (s.dilCtx 0).w = 1)

/-- A nano-word of class `opc` whose page control names page `k` and offset `o`. -/
def nwPage (opc k o : Nat) : Nat := nw opc 0 + (o + k * 2 ^ 16) * 2 ^ 96

theorem witness_DillMemoryPagesAndQueue :
    (rdy 3 0 0x400 {} && rdy 4 0 0x400 {} && rdy 5 0 0 {} && rdy 8 0 0 {} && rdy 9 0 0 {} && rdy 0xB 0 0 {} && rdy 0xB 1 0 {} && rdy 0xC 0 0 {} && rdy 0xC 3 0 {} && rdy 0xD 4 0 {} &&
      rdy 0xB 0 0 { entries := [(0, 0, 0, 0)] } &&
      (let s := (sDl (mw 1 0x900 0) (nw 5 0) {}).setReg (pDIL 0) 0xC8 (BitVec.ofNat 32 stgBase)
       soundB s && !viaMdc (dilMaster 0) stgBase && (s.bufRead (some (dilMaster 0)) stgBase 4).2.isSome) &&
      (let s := sDl (mw 1 0x900 0) (nw 5 0) {}
       (s.bufRead (some (dilMaster 0)) 4 4).2.isNone && !viaMdc (dilMaster 0) 4) &&
      (let s := sDl (mw 1 0x900 0) (nwPage 6 12 0x40) {}
       soundB s && s.dilReady 0 && decide (dilPagePos 0 (s.dilPage (s.dilCtx 0)) = some (pACT 0)) && prdAllowed (s.dilPage (s.dilCtx 0)) (dilOfs (s.dilCtx 0))) &&
      (let s := sDl (mw 1 0x900 0) (nwPage 6 19 0x40) {}
       !prdAllowed (s.dilPage (s.dilCtx 0)) (dilOfs (s.dilCtx 0))) &&
      (let s := sDl (mw 1 0x900 0) (nwPage 7 12 0x40) {}
       s.dilReady 0 && pwrAllowed (s.dilPage (s.dilCtx 0)) (dilOfs (s.dilCtx 0))) &&
      (let s := sDl (mw 1 0x900 0) (nwPage 0xA 20 0x40) {}
       s.dilReady 0 && decide (dilPagePos 0 (s.dilPage (s.dilCtx 0)) = none)) &&
      (let s := sDl (mw 1 0x900 0) (nw 9 0) {}
       (s.assemble (s.dilCtx 0)).isSome) &&
      (let s := (sDl (mw 1 0x900 0) (nw 0xB 0) { entries := [(0, 0, 0, 0)] }).put (pDRL 0) DRL.Q_CTRL_HOLD_ENQ 1
       soundB s && s.drlStopped 0) &&
      (let s := (sDl (mw 1 0x900 0) (nw 0xC 1) {}).put pFUR FUR.TRK_STAT_STATE 3
       soundB s && s.angleOk) && !(sDl (mw 1 0x900 0) (nw 0xC 1) {}).angleOk) = true := by decide +kernel

/-- Sequencer 0 with its operation done at a word of NXT `nx`. -/
def sNx (nx tg st_ k : Nat) (top : Word) : State :=
  (((sDl (mw nx tg 0) 0 { opDone := true }).put (pDIL 0) DIL.RUN_STAT_STATE st_).put (pDIL 0) DIL.RUN_STAT_STACK k).setReg (pDIL 0) (0x120 + 4 * (k - 1)) top

theorem witness_DillFlow :
    ((List.range 8).all (fun nx => nx == 0 || (let s := sNx nx 0x950 2 1 0x00010950
       soundB s && s.running (pDIL 0) && !s.isResetting (pDIL 0) && (s.dilOf 0).opDone && decide (mNxt (s.dilCtx 0).w = nx) && s.dilCond 0 (mCond (s.dilCtx 0).w) &&
         decide ((s.dilCtx 0).p = 0x900))) &&
      (let s := sNx 3 0 2 1 0x00000950
       soundB s && decide (s.dilTop 0 = some 0x950)) &&
      (let s := sNx 7 1 3 1 0x00110950
       soundB s && decide (s.dilTop 0 = some 0x110950)) &&
      (let s := sNx 1 0x100 2 0 0
       soundB s && decide (mTarget (s.dilCtx 0).w = 0x100)) &&
      (let s := sNx 2 0x950 2 7 0
       decide (7 ≤ s.dilStack 0)) &&
      (let s := (sNx 5 0 2 0 0).put (pDIL 0) DIL.RUN_STAT_WAITING 1
       soundB s && s.on (pDIL 0) DIL.RUN_STAT_WAITING) &&
      (let s := sDl (mw 1 0x900 0 + 15 * 2 ^ 56) 0 { opDone := true }
       soundB s && !s.dilCond 0 (mCond (s.dilCtx 0).w)) &&
      (let s := (((sDl (mw 1 0x900 0) 0 {}).setReg (pDIL 0) 0x70 0x8001).put (pDIL 0) DIL.EVT_MASK 0x8000).put (pDIL 0) (DIL.EVT_VEC_ADDR 15) 0x91C
       soundB s && decide (s.dilEvent 0 = some 15) && decide (0x800 ≤ s.get (pDIL 0) (DIL.EVT_VEC_ADDR 15))) &&
      (let s := sDl (mw 1 0x900 0 + 2 ^ 63) 0 { holdRun := 64 }
       soundB s && mHold (s.dilCtx 0).w) &&
      (let s := (sDl (mw 1 0x900 0) 0 {}).put (pDIL 0) DIL.RUN_STAT_STATE 1
       let s1 := s.setReg (pDIL 0) 0xEC 0x00020400
       soundB s && decide (s.dilState 0 = 1) && soundB s1 && decide (s1.get (pDIL 0) DIL.LD_ADDR_SPACE = 2) && decide (s1.get (pDIL 0) DIL.LD_ADDR_ADDR = 0x400)) &&
      (let s := ((sDl (mw 1 0x900 0) 0 {}).setReg (pDIL 0) 0xEC 0x00020000).putB (pDIL 0) HDR.LOCK_LOCK true
       soundB s && s.locked (pDIL 0))) = true := by decide +kernel

end W09

/-! ### Witnesses, part 10 -/

namespace W10

/-- SRV0 and TIL0 running, the angle tracker in LOCKED, 5 samples taken. -/
def sTl : State :=
  (((en (st [0, 1, 96]) [pSRV 0, pTIL 0]).put pFUR FUR.TRK_STAT_STATE 3).setSrv 0 { n := 5 })

/-- Loop 0 closed in FOLLOW, its head's sample good. -/
def sTc : State := (sTl.put (pTIL 0) (LOOP.LSTAT_CLOSED 0) 1).put (pTIL 0) (LOOP.LSTAT_MODE 0) 2

def wHead : ServoHead := { sams := [(64000000, 0x0B3D)], wedge := 5, gray := 3, aN := 0, aQ := 100, rro := 2 }

theorem witness_ServoSamples :
    (soundB sTl && sTl.running (pSRV 0) && sTl.gated && !(en (st [96]) []).running (pSRV 0) && decide (sTl.powered (pHCH 2) = false) &&
      decide (sTl.samEnd 0 1 {} = none) && sTl.powered (pHCH 1) && bit (sTl.get (pSRV 0) SRV.HEAD_EN_EN) 1 &&
      (let s := en (st [0, 96]) [pSRV 0]
       soundB s && !s.gated && s.running (pSRV 0) && (List.range 12).all (fun k => decide (s.samEnd 0 k {} = none)) &&
         decide (s.samEnd 0 0 wHead = some 64000000) && decide (s.predicted 0 = none))) = true := by decide +kernel

theorem witness_Tillers :
    (soundB sTl && sTl.running (pTIL 0) && !sTl.fenced (pTIL 0) && decide ((sTl.loopOf 0 0).stamp < 5) && decide ((sTl.tilOf 0).frameN ≠ 5) && !sTl.loopClosed 0 0 &&
      soundB sTc && sTc.loopClosed 0 0 && decide (sTc.loopMode 0 0 = 2) && sTc.pesOk 0 0 && decide (sTc.get (pTIL 0) (LOOP.LSTAT_PEND 0) = 0) &&
      (let s := sTc.put (pSRV 0) (SRV.PES_QUAL 0) 1
       soundB s && !s.pesOk 0 0) &&
      (let s := (sTc.put (pTIL 0) (LOOP.LSTAT_MISS 0) 4).put (pTIL 0) (LOOP.LSTAT_OVR 0) 2
       soundB s && decide (max 1 (s.get (pTIL 0) TIL.TIL_CFG_MISS_LIMIT) ≤ s.get (pTIL 0) (LOOP.LSTAT_MISS 0)) &&
         decide (max 1 (s.get (pTIL 0) TIL.TIL_CFG_OVERRUN_LIMIT) ≤ s.get (pTIL 0) (LOOP.LSTAT_OVR 0))) &&
      sTc.overruns 0 0 && !sTl.overruns 0 1 && (sTc.put (pTIL 0) (LOOP.LSTAT_FENCED 0) 1).loopFenced 0 0 && !sTl.isResetting (pTIL 0) &&
      decide (((sTl.setTil 0 { frame := some [1, 2] }).tilOf 0).frame = some [1, 2])) = true := by decide +kernel

/-- Loop `j` of TIL0, closed or not, with `pd` pending, in mode `md` and asked for mode `hm`; VCM coefficients that a large error makes too big. -/
def sLp (j cl pd md hm : Nat) : State :=
  ((((((sTl.put (pTIL 0) TIL.COUPLE_MASK 3).put (pTIL 0) (LOOP.LSTAT_CLOSED j) cl).put (pTIL 0) (LOOP.LSTAT_PEND j) pd).put (pTIL 0) (LOOP.LSTAT_MODE j) md).setLoop 0 j { hoMode := hm, fw := true }).put
    (pTIL 0) (BANK.KP 12 0) 0x7fffffff)
/-- The head of the VCM's reference far from the position held. -/
def sFar (pd md hm : Nat) : State := ((sLp 12 (pd / 4) pd md hm).setSrvHead 0 { pos := 0x7fffffff }).setPrf 0 { hold := 5000 }
/-- One head read at 64,000,000 by reader B, with N = 0. -/
def sHd : State := (sTl.put (pSRV 0) SRV.HEAD_EN_EN 2).put (pSRV 0) SRV.HEAD_EN_RDR_B 2

theorem witness_ServoSamples_2 : allOf [
    soundB sHd, decide (sHd.servoInput 0 1 [] [{}, wHead] = wHead), bit (sHd.get (pSRV 0) SRV.HEAD_EN_EN) 1, sHd.powered (pHCH 1), !bit (sHd.get (pSRV 0) SRV.HEAD_EN_EN) 0, sHd.gated,
    decide (sHd.samEnd 0 1 {} = none), decide (sHd.predicted 1 = none), decide (wHead.aN.toInt = 0), decide (wHead.aQ.toInt ≠ 0), sHd.running (pSRV 0),
    (let s := en (st [0, 96]) [pSRV 0]
     decide (s.samEnd 0 0 (s.servoInput 0 0 [wHead] []) = some 64000000) && bit (s.get (pSRV 0) SRV.HEAD_EN_EN) 0 && s.powered (pHCH 0))] = true := by decide +kernel

theorem witness_Tillers_2 : allOf [
    soundB (sLp 0 0 1 2 0), (sLp 0 0 1 2 0).pend 0 0 0, (sLp 0 0 2 2 0).pend 0 0 1, !(sLp 0 0 2 2 0).pend 0 0 0, !(sLp 0 0 2 2 0).loopClosed 0 0, decide (((sLp 0 0 2 2 0).loopOf 0 0).clFrom ≤ 5),
    decide ((sLp 0 0 2 0 0).loopMode 0 0 = 0), decide (((sLp 0 0 2 2 0).loopErr 0 0 2).map (fun e => decide (e = sgn 32 (enc 32 e))) = some true),
    ((sLp 0 0 2 2 0).closeLaw 0 0 2 0 0).isSome, decide ((sLp 0 0 2 0 0).loopErr 0 0 0 = none), decide (((sLp 0 1 4 2 1).loopOf 0 0).hoMode = 1), (sLp 0 1 4 2 1).loopClosed 0 0, (sLp 0 1 4 2 1).pend 0 0 2,
    decide ((sLp 0 1 4 2 1).loopErr 0 0 1 ≠ none), ((sLp 0 1 4 2 1).handLaw 0 0 2 1 0 0).isSome, decide ((sLp 0 1 4 0 1).loopErr 0 0 1 ≠ none), ((sLp 0 1 4 0 1).closeLaw 0 0 1 0 0).isSome, decide ((sLp 0 1 4 2 0).loopErr 0 0 2 ≠ none),
    decide (((sLp 0 1 4 0 1).put (pSRV 0) (SRV.PES_QUAL 0) 1).loopErr 0 0 1 = none), decide (((sLp 0 1 0 2 0).put (pSRV 0) (SRV.PES_QUAL 0) 1).loopErr 0 0 2 = none), (sLp 0 1 2 2 0).pend 0 0 1,
    soundB (sFar 2 0 0), decide ((sFar 2 0 0).loopErr 0 12 0 = some (5000 - 0x7fffffff)), decide (5000 - 0x7fffffff = sgn 32 (enc 32 (5000 - 0x7fffffff))), ((sFar 2 0 0).closeLaw 0 12 0 0 (5000 - 0x7fffffff)).isNone,
    decide ((sFar 4 2 0).loopErr 0 12 2 ≠ none), ((sFar 4 2 0).handLaw 0 12 2 0 0 (5000 - 0x7fffffff)).isNone, (sFar 4 2 0).loopClosed 0 12, (sFar 4 2 0).pend 0 12 2,
    ((sFar 4 2 2).put (pPRF 0) PRF.PRF_STAT_STATE 2).pend 0 12 2, decide (((sFar 4 2 2).put (pPRF 0) PRF.PRF_STAT_STATE 2).seekState 0 ≠ 0), ((sFar 4 2 2).loopOf 0 12).fw,
    decide (((sFar 4 2 0).setSrvHead 0 { pos := 0 }).loopErr 0 12 0 = some 5000), decide ((((sFar 4 2 0).put (pSRV 0) (SRV.PES_QUAL 0) 1)).loopErr 0 12 0 = none),
    decide (((sLp 0 0 0 0 0).loopOf 0 0).maCycle ≠ 64000000 / fclkSub + 1), decide ((sTl.setTil 0 { frameN := 5 }).tilOf 0 = { frameN := 5 }), decide ((((sTl.put pMOT (MOTA.RAMP_STAT_STATE 0) 3)).rampState 0) = 3), !sTl.d2dLost] = true := by decide +kernel

end W10

/-! ### Witnesses, part 11 -/

namespace W11

/-- SRV0, TIL0 and PRF0 running, actuator 0 LOADED, 5 samples taken, loop 12 closed in FOLLOW, the reference head on track 100. -/
def sSk : State :=
  ((((((en (st [0, 1, 96]) [pSRV 0, pTIL 0, pPRF 0]).put pMOT (MOTA.RAMP_STAT_STATE 0) 3).put pFUR FUR.TRK_STAT_STATE 3).setSrv 0 { n := 5 }).put
    (pTIL 0) (LOOP.LSTAT_CLOSED 12) 1).put (pTIL 0) (LOOP.LSTAT_MODE 12) 2).setSrvHead 0 { pos := 409600 }

/-- A slot: track 164, head 0 the reference, microactuator loop 0, jerk 1/4, acceleration 2, velocity 16. -/
def wSlot : List Word := [164, 0x10001, 0x400000, 0x20000, 0x100000, 0x10000, 0x0403019A, 0x50C800CD]

def sSt (f : Prf) : State := sSk.setPrf 0 f
def fRun : Prf := { words := wSlot, x0 := 409600, tgt := 671744, plan := mkPlan wSlot 64, n := 3, last := 3, ref := 412000 }
def sRun (st : Nat) (f : Prf) : State := (sSt f).put (pPRF 0) PRF.PRF_STAT_STATE st

theorem witness_Seeks :
    (soundB sSk && sSk.running (pPRF 0) &&
      (let s := sSt { starts := [(2, wSlot, 4)] }
       soundB s && decide (s.seekCheck1 0 wSlot = none) && decide (s.headPos 0 0 = some 409600) &&
         !(s.setPrf 0 { s.prfOf 0 with refK := 0, ref := 409600 }).vcmRefuses 0 && s.loopClosed 0 12 && !s.loopClosed 0 0 && !s.loopFenced 0 0 &&
         decide ((s.put (pSRV 0) (SRV.PES_QUAL 0) 1).headPos 0 0 = none) && decide ((s.put pMOT (MOTA.RAMP_STAT_STATE 0) 0).seekCheck1 0 wSlot = some 5)) &&
      soundB (sRun 1 fRun) && decide ((sRun 1 fRun).seekState 0 = 1) && decide (fRun.plan.samples = 21) && decide ((sRun 2 { fRun with cnt := 3 }).seekState 0 = 2) &&
      decide (slotSetCnt wSlot = 3) && decide (slotFolCnt wSlot = 4) && decide (slotTmo wSlot = 200) && decide (12 ∈ (sRun 3 fRun).seekLoops 0) &&
      decide ((((sRun 3 fRun).put (pTIL 0) (LOOP.LSTAT_MODE 12) 1).loopMode 0 12) = 1) &&
      (let s := (sRun 3 { fRun with want := 2 }).put (pTIL 0) (LOOP.LSTAT_MODE 0) 2
       soundB s && (s.seekLoops 0).all (fun j => decide (s.loopMode 0 j = 2))) &&
      (let sp := mkStop wSlot 3 (fRun.plan.at_ 3)
       decide (sp.total ≤ 60) && decide (¬ sp.total ≤ 0))) = true := by decide +kernel

/-- Actuator 0 PARKED with its bridge enabled, VM at 12 V. -/
def sRm : State := (sSk.put pMOT (MOTA.VCM_CFG_BRIDGE_EN 0) 1).put pSPN SPN.VM_MEAS 12000
def sRmp (n : Nat) : State := sRm.put pMOT (MOTA.RAMP_STAT_STATE 0) n
def quietCoil : List CoilSample := List.replicate 200 { mV := 0, mA := 0 }

theorem witness_RampsAndRetract :
    (soundB sRm && sRm.part.hasAct 0 && sRm.present pMOT && sRm.powered pMOT && !sRm.isResetting pMOT && !sRm.d2dLost && sRm.vmGood &&
      (List.range 8).all (fun n => soundB (sRmp n) && decide ((sRmp n).rampState 0 = n)) && decide ((sRmp 2).seekState 0 = 0) &&
      quietCoil.all (sRm.slow 0) && soundB ((sRmp 1).setSrv 0 { n := 5, run := 4 }) && sRm.d2dLost == false &&
      decide ((sRm.mactOf 0).since + sRm.get pMOT (MOTA.RAMP_TIME_RAMP_TMO 0) * msSub ≤ ({ sRm with time := 100000000000 } : State).time) &&
      soundB { sRm with mot := { retractReq := some 2, unloadReq := [0] } } && !sRm.motionDue && !sRm.mot.emergReq &&
      decide (((sRmp 6).setMact 0 { ph2 := some 5 }).rampState 0 = 6) && ((sRmp 3).put pMOT MOT.MA_CTRL_BOOST_EN 1 |>.put pMOT MOT.MA_STAT_BOOST_OK 1).boostOk) = true := by decide +kernel

/-- The VCM's hand-over to SEEK is refused (R258): a derivative term too big. -/
def sRef : State := ((((sSt { starts := [(2, wSlot, 4)] }).put (pTIL 0) TIL.COUPLE_MASK 1).put (pTIL 0) (LOOP.ERR 12) 0x80000000).put (pTIL 0) (BANK.KD 12 0) 0x7fffffff)
def fStop : Prf := { fRun with stop := some (mkStop wSlot 3 (fRun.plan.at_ 3)) }

theorem witness_Seeks_2 : allOf [
    soundB sRef, decide (sRef.seekCheck1 0 wSlot = none), decide (sRef.headPos 0 (slotRefK wSlot) = some 409600), (sRef.setPrf 0 { sRef.prfOf 0 with refK := slotRefK wSlot, ref := 409600 }).vcmRefuses 0,
    decide ((((sSt { starts := [(2, wSlot, 1)], waited := 3 }).put (pSRV 0) (SRV.PES_QUAL 0) 1).headPos 0 0) = none), decide (1 + 3 < 5),
    soundB (sRun 4 fStop), fStop.stop.isSome, decide ((sRun 1 { fRun with abort := true }).seekState 0 = 1), decide (fRun.plan.total ≤ 31), decide (¬ fRun.plan.total ≤ 4),
    decide (((sRun 3 { fRun with cnt := 4, want := 1 }).put (pTIL 0) (LOOP.LSTAT_MODE 12) 1).loopMode 0 12 ≠ 2), (sRun 3 { fRun with cnt := 4, want := 1 }).loopClosed 0 12, decide ((sRun 3 { fRun with cnt := 4, want := 1 }).loopMode 0 12 = 2),
    !(sRun 3 { fRun with cnt := 4, want := 1 }).loopClosed 0 0, decide (fRun.plan.samples + slotTmo wSlot ≤ 300), decide (5 ≤ ((sRun 2 { fRun with n := 300 }).setLoop 0 12 { stamp := 9 } |>.loopOf 0 12).stamp),
    decide (((sRun 2 { fRun with n := 300 }).loopOf 0 12).stamp < 5), decide (bits (slotW wSlot 7) 31 28 ≠ 15)] = true := by decide +kernel

theorem witness_RampsAndRetract_2 : allOf [
    !Part.hasAct .fs9624 3, { sRmp 0 with d2dLost := true }.d2dLost, decide (8 ≤ quietCoil.length), quietCoil.all (sRm.slow 0), (sRmp 4).slowFor 0 quietCoil, !(sRmp 4).slowFor 0 [],
    decide ((((sRmp 2).setMact 0 { since := 60000000 }).mactOf 0).since + 7 * usSub ≤ 64000000), (let s := { (sRmp 3).put (pPRF 0) PRF.PRF_STAT_STATE 2 with mot := { retractReq := some 2 } }
     soundB s && decide (s.seekState 0 ≠ 0) && decide (s.mot.retractReq = some 2)),
    (let s := { ((sRmp 6).setMact 0 { ph2 := some 5 }).put pSPN SPN.SPN_STAT_STATE 10 with time := 100000000000 }
     soundB s && decide (5 + s.get pMOT MOT.RET_TIME_T2 * 10 * usSub ≤ s.time) && !s.motionDue && !s.mot.emergReq && decide (s.spnState = 10) && (List.range 8).all (fun b => b == 0 || decide (s.rampState b ≠ 6))),
    decide (((sRmp 6).put pMOT (MOTA.RAMP_STAT_STATE 1) 6).rampState 1 = 6), ((sRmp 3).put pMOT MOT.MA_CTRL_BOOST_EN 1).on pMOT MOT.MA_CTRL_BOOST_EN, !(sRmp 3).mot.boostOff, !(sRmp 3).boostOk,
    decide (((sRmp 5).mactOf 0).since + (sRmp 5).get pMOT (MOTA.RAMP_TIME_PUSH_T 0) * msSub ≤ 100000000000), decide ((sRmp 6).mactOf 0 |>.ph2 |>.isNone)] = true := by decide +kernel

end W11

/-! ### Witnesses, part 12 -/

namespace W12

/-- SPN enabled, every actuator PARKED, NOM_REV as SPEED asks, in state `n` since time 0. -/
def sSp (n : Nat) : State := (((en (st [0, 1]) [pSPN]).put pSPN SPN.SPN_STAT_STATE n).put pFUR FUR.NOM_REV 0x4C4B4000)
def sLate (n : Nat) : State := { sSp n with time := 10000000000 }

theorem witness_SpindleCommandsAndStarts :
    ((List.range 11).all (fun n => soundB (sSp n) && decide ((sSp n).spnState = n)) && (sSp 0).present pSPN && (sSp 0).powered pSPN && !(sSp 0).isResetting pSPN && !(sSp 0).d2dLost &&
      (sSp 0).enabled pSPN && !(sSp 0).fenced pSPN && (sSp 0).allParked && !(sSp 0).mot.emergReq && !(sSp 0).nomMismatch && ((sSp 0).put pFUR FUR.NOM_REV 5).nomMismatch &&
      decide ((sSp 6).spnGuard false = some 2) && decide (((sSp 6).put pMOT (MOTA.RAMP_STAT_STATE 1) 3).spnGuard true = some 1) && decide ((st []).spnGuard true = some 3) &&
      decide ((sLate 1).spn.since + 48000000 * 64 ≤ (sLate 1).time) && decide ((5 : Nat) < (sLate 1).get pSPN SPN.CATCH_CFG_STOP_BEMF) && decide ((sLate 1).get pSPN SPN.CATCH_CFG_STOP_BEMF ≤ 500) &&
      decide (¬ (100 * (sLate 1).targetPer < (clampTo 5 90 ((sLate 1).get pSPN SPN.CATCH_CFG_CATCH_PCT) : Rat) * ((5 * 64 : Nat) : Rat))) &&
      decide (100 * (sLate 1).targetPer < (clampTo 5 90 ((sLate 1).get pSPN SPN.CATCH_CFG_CATCH_PCT) : Rat) * ((100000000 * 64 : Nat) : Rat)) &&
      decide ((sLate 3).get pSPN SPN.START_CFG_ALIGN_T * 10 * msSub ≤ ({ sLate 3 with time := 100000000000 } : State).time) &&
      soundB { sLate 4 with spn := { comm := [5], stepLen := 1000000, alignAt := some 5 } } && soundB { sSp 6 with mot := { emergReq := true } } && !(sSp 6).motionDue &&
      soundB { sSp 6 with d2dLost := true }) = true := by decide +kernel

/-- RUN at 7,200 rpm: an electrical period of 5,000,000 ft, the last crossing 1/6 of it ago. -/
def sCm : State :=
  { sLate 6 with spn := { comm := (List.range 7).map (fun (i : Nat) => (10000000000 : Int) - (i : Int) * 53333333), zc := 9950000000 } }
def xCross : List BemfSample :=
  [{ time := 0x540BE400, v := 0xFF9C, duty := 0x1000 }, { time := 0x543C7F00, v := 100, duty := 0x1000 }]

theorem witness_SpindleDrive :
    (soundB sCm && sCm.commutating && !sCm.spn.zcNew && (crossingOf sCm.time (xCross.filter (fun x => sCm.inSense x && !(sCm.sampleShift x).2))).isSome &&
      (let s : State := { sCm with time := 11000000000, spn := { sCm.spn with zcNew := true, zc := 10003000000 } }
       soundB s && decide (s.commTime s.spn.zc ≤ (s.time : Int))) &&
      (let s : State := { sCm with time := 11000000000 }
       soundB s && decide (s.senseWindow.2 ≤ (s.time : Rat)) && decide (s.spn.catching ≠ some 2)) &&
      (let s : State := { (((sSp 6).put pSPN SPN.SPN_STAT_AT_SPEED 1).put pFUR FUR.TRK_STAT_STATE 3) with spnWedge := some (5, 3), spn := { revBad := true, good := 4 } }
       soundB s && s.on pSPN SPN.SPN_STAT_AT_SPEED && decide (s.trkState = 3)) &&
      soundB { sSp 5 with spn := { good := 4 } } && soundB { sSp 6 with spn := { ovr := [(5, 1, 3)] } } && soundB (sSp 7) &&
      decide ((sSp 7).get pSPN SPN.VM_LIM1_VM_CHOP_ON < ((sSp 7).put pSPN SPN.VM_MEAS 14000).get pSPN SPN.VM_MEAS) &&
      decide ((sSp 7).get pSPN SPN.VM_LIM2_VM_ABS < ((sSp 7).put pSPN SPN.VM_MEAS 15010).get pSPN SPN.VM_MEAS) &&
      ((sSp 7).put pSPN SPN.SPN_STAT_CHOP_ON 1).on pSPN SPN.SPN_STAT_CHOP_ON && decide (0 < (sSp 7).get pSPN SPN.CHOP_CFG_CHOP_I_MIN) && decide (120000 * 64 ≤ (sSp 7).time)) = true := by decide +kernel

theorem witness_SpindleCommandsAndStarts_2 : allOf [
    soundB { sLate 4 with spn := { comm := [5], stepLen := 60000000000, alignAt := some 5 } }, decide ((10000000000 : Int) < mclkAfter ((5 : Rat) + 60000000000)), decide (mclkAfter ((5 : Rat) + 1000000) ≤ 10000000000),
    decide (5 + (sLate 4).get pSPN SPN.START_CFG_RAMP_TMO * 1000 * msSub ≤ 10 ^ 15), decide ((10000000000 : Nat) < 5 + (sLate 4).get pSPN SPN.START_CFG_RAMP_TMO * 1000 * msSub),
    ({ sSp 8 with spn := { emerg := true } } : State).spn.emerg, !(sSp 8).spn.emerg, decide ((sSp 8).spnGuard (decide (1 ≤ (sSp 8).spnState) && decide ((sSp 8).spnState ≤ 6)) = some 2),
    decide ((sSp 0).mot.retractReq = none), (List.range 8).all (fun b => decide ((sSp 0).rampState b ≠ 6)), { sSp 6 with mot := { emergReq := true } }.mot.emergReq,
    decide (100 * (sLate 7).targetPer < ((sLate 7).get pSPN SPN.CHOP_CFG_REGEN_END : Rat) * ({ sLate 7 with spn := sCm.spn } : State).elecPer * 100),
    decide (({ sLate 8 with time := 10 ^ 15 } : State).spn.since + 100 * msSub ≤ 10 ^ 15)] = true := by decide +kernel

theorem witness_SpindleDrive_2 : allOf [
    decide ((({ sCm with time := 11000000000, spn := { sCm.spn with catching := some 2 } } : State).spn.catching) = some 2), !(sSp 6).on pSPN SPN.SPN_STAT_AT_SPEED, !({ sSp 6 with d2dLost := true }.d2dLost == false),
    (crossingOf sCm.time (([] : List BemfSample).filter (fun x => sCm.inSense x && !(sCm.sampleShift x).2))).isNone, decide ((sCm.time : Int) < sCm.commTime 11003000000), decide ((sCm.time : Rat) < sCm.senseWindow.2),
    (List.range 15).any (fun k => decide (k + 1 = max 2 (min (sCm.get pSPN SPN.PWM_CFG_SYNC_MISS) 15))),
    soundB { sSp 5 with spn := { ovr := [(5, 3, 3)] } }, soundB { sSp 7 with spn := { ovr := [(5, 2, 3)] } }, soundB ((sSp 7).put pSPN SPN.VM_MEAS 15010),
    decide (((sSp 7).put pSPN SPN.VM_MEAS 14000).get pSPN SPN.VM_MEAS ≤ (sSp 7).get pSPN SPN.VM_LIM2_VM_ABS), decide ((5 : Nat) < (sSp 7).get pSPN SPN.CHOP_CFG_CHOP_I_MIN),
    decide ((sSp 7).spn.chopSince + 120000 * 64 ≤ 10 ^ 12), decide ((0 : Nat) < (sSp 7).get pSPN SPN.VM_LIM2_VM_CHOP_OFF), decide ((sSp 7).get pSPN SPN.VM_LIM1_VM_REGEN_LIMIT < 65535)] = true := by decide +kernel

end W12

/-! ### Witnesses, part 13 -/

namespace W13

/-- Eight channels on, powered and enabled, of 1 GiB each. -/
def sBf : State := (en (st ((List.range 8).map (fun c => 104 + c))) ((List.range 8).map pDMC)).put pBFM BFM.DRAM_CFG_CH_MASK 0xFF
def sDr (n : Nat) : State := (sBf.put pBFM BFM.DRAM_STAT_STATE n).put pBFM BFM.DRAM_STAT_USABLE 7168

def qRd : BufReq := { master := .core 0, cls := 4, write := false, addr := dramBase + 8, len := 4, data := [], slot := 0 }
def qWr : BufReq := { master := .dma 3, cls := 3, write := true, addr := dramBase + 64, len := 2, data := [7, 9], slot := 1 }
/-- Both wait at channel 0. -/
def sAr : State := ((sDr 3).setBufq 0 [qRd, qWr]).setByte (dramBase + 8) 5

theorem witness_BufferMemory :
    (soundB sBf && sBf.present pBFM && sBf.powered pBFM && !sBf.isResetting pBFM && !sBf.on pBFM BFM.DRAM_CTRL_DRAM_EN && sBf.dramCfgOk && sBf.channels.all (fun c => sBf.powered (pDMC c) && sBf.enabled (pDMC c)) &&
      (st []).dramCfgOk && !(st []).channels.all (fun c => (st []).powered (pDMC c)) &&
      (List.range 5).all (fun n => soundB (sDr n) && decide ((sDr n).dramState = n)) && ((sDr 3).put pBFM BFM.DRAM_CTRL_SR_REQ 1).grantsHeld 3 && !(sDr 3).grantsHeld 3 &&
      decide ((sDr 3).spanRefusal (some (.core 0)) false stgBase 4 = none) && decide ((sDr 3).spanRefusal (some (.core 0)) false 0 4 ≠ none) &&
      soundB sAr && (let r := sAr.resourceOf dramBase
        decide (r = 0) && !sAr.grantsHeld r && decide (sAr.winner r (sAr.slotOf r) = some qWr) && decide (sAr.winner r 63 = some qWr) && decide (sAr.badLines = []) &&
        decide ((sAr.setBufq r [qRd]).winner r 0 = some qRd) && decide (sAr.spanRefusal (some (.dma 3)) true qWr.addr 2 = none)) &&
      (sDr 3).chanInUse 2 && (sDr 3).powered (pDMC 2)) = true := by decide +kernel

/-- A table of two entries: sectors 16–31 of head 1 MAPPED from physical sector 3, sectors 64–65 a DEFECT. -/
def sSr : State :=
  ((sBf.store srtBase 16 (16 + 16 * 2 ^ 48 + (1 + 2 ^ 8 + 3 * 2 ^ 16) * 2 ^ 64)).store (srtBase + 16) 16 (64 + 2 * 2 ^ 48 + 4 * 2 ^ 64)).put pBFM BFM.SRT_COUNT 2
def sLk (k : Nat) : State := { sSr with srt := { run := some (.core 1, k) } }

theorem witness_RemapTable :
    (soundB sSr && ownsSrt (.core 1) && decide (sSr.srt.run = none) && decide (sSr.srtCount = 2) && (List.range 2).all (fun i => !sSr.srtBad i && srtValid (sSr.srtEntry i) && decide (sSr.srtFault i = none)) &&
      decide (srtStart (sSr.srtEntry 0) + srtLen (sSr.srtEntry 0) ≤ srtStart (sSr.srtEntry 1)) && soundB (sLk 20) && decide ((sLk 20).srtSearch 17 0 2 20 = .place 1) &&
      decide (((sLk 20).setByte (srtBase + 24) 0).srtSearch 17 0 2 20 = .corrupt) && decide (({ sLk 20 with badLines := [srtBase] } : State).srtSearch 17 0 2 20 = .error) &&
      ((sLk 20).put pBFM BFM.SRT_STAT_FENCED 1).on pBFM BFM.SRT_STAT_FENCED && (sSr.put pBFM BFM.SRT_CTRL_FREEZE 1).on pBFM BFM.SRT_CTRL_FREEZE && !sSr.on pBFM BFM.SRT_STAT_BUSY &&
      soundB { sSr with srt := { shift := some (0, false) } } && decide ((sSr.setByte (srtBase + 24) 0).srtFault 1 = some 1)) = true := by decide +kernel

theorem witness_BufferMemory_2 : allOf [
    (sBf.put pBFM BFM.DRAM_CTRL_DRAM_EN 1).on pBFM BFM.DRAM_CTRL_DRAM_EN, elsewhere (.core 0) regBase, !elsewhere (.core 0) (dramBase + 40), elsewhere .bsc 8, !(sAr.chanInUse 9), !(st []).powered (pDMC 9), (sDr 3).powered (pDMC 2),
    ((sDr 4).put pBFM BFM.DRAM_CTRL_SR_REQ 1).on pBFM BFM.DRAM_CTRL_SR_REQ, (let s := (sDr 3).setBufq 0 [{ qWr with data := List.replicate 64 7 }]
     let s1 := { s with badLines := [dramBase + 64] }
     soundB s1 && decide (s1.winner 0 (s1.slotOf 0) = some { qWr with data := List.replicate 64 7 }) && coversLine (dramBase + 64) 64 (dramBase + 64) && decide ((lineSpan (dramBase + 64) 64).contains (dramBase + 64)) &&
       decide (s1.spanRefusal (some (.dma 3)) true (dramBase + 64) 64 = none)), !coversLine (dramBase + 64) 2 (dramBase + 64), (lineSpan (dramBase + 8) 4).contains dramBase,
    (let s := ((sDr 3).put pBFM BFM.FALLOW_CFG_DRAM_D 1).setBufq 0 [qRd, { qRd with cls := 5, master := .core 3 }]
     fallow (s.fallowD 0) 15 && !fallow (s.fallowD 0) 14 && decide (s.winner 0 15 = some { qRd with cls := 5, master := .core 3 })), decide ((sDr 5).spanRefusal (some (.dma 3)) true (dramBase + 64) 2 ≠ none),
    decide (errVerdict { data := 3 } = .ue), decide (((sDr 3).setBufq 0 []).winner 0 0 = none)] = true := by decide +kernel

theorem witness_RemapTable_2 : allOf [
    !ownsSrt (.dma 3), (let s := { sSr.put pBFM BFM.SRT_CTRL_FREEZE 1 with srt := { queue := [(.core 1, 5)] } }
     soundB s && s.srt.queue.any (fun e => decide (e.1 = .core 1)) && s.srt.queue.all (fun e => decide (e.1 ≠ .core 0))), decide ((sLk 20).srt.run = some (.core 1, 20)), decide (¬ (2 < (1 : Nat))),
    (let s := sSr.put pBFM BFM.SRT_COUNT 0
     soundB s && decide (s.srtCount = 0)), decide (srtStart (sSr.srtEntry 1) + srtLen (sSr.srtEntry 1) ≤ 66), decide (srtStart (sSr.srtEntry 0) + srtLen (sSr.srtEntry 0) ≤ 40 ∧ 40 < srtStart (sSr.srtEntry 1)),
    decide (5 < srtStart (sSr.srtEntry 0)), (sSr.put pBFM BFM.SRT_STAT_BUSY 1).on pBFM BFM.SRT_STAT_BUSY, soundB { sSr with srt := { shift := some (1, true) } }, soundB { sSr with srt := { check := true } },
    decide ((sSr.setByte (srtBase + 24) 0).srtFault 0 = none)] = true := by decide +kernel

end W13

/-! ### Witnesses, part 14 -/

namespace W14

/-- GLN and MDC on and enabled over trained DRAM, class 5 free to take every slot of channel 0. -/
def sGl : State :=
  (((en (st (((List.range 8).map (fun c => 104 + c)) ++ [137, 138])) (((List.range 8).map pDMC) ++ [pGLN, pMDC])).put pBFM BFM.DRAM_CFG_CH_MASK 0xFF).put
    pBFM BFM.DRAM_STAT_STATE 3).put pBFM BFM.DRAM_STAT_USABLE 7168
def sG1 : State := { sGl with gln := { sramOn := true, dramOn := true } }

/-- Region 0 covers 1 MiB of DRAM in mode `mode`; entry 5 holds its first line, dirty. -/
def sMd (mode : Nat) : State :=
  ((((sGl.put pMDC (MDC.BASE_HI 0) 1).put pMDC (MDC.SIZE 0) 256).put pMDC (MDC.ATTR_EN 0) 1).put pMDC (MDC.ATTR_MODE 0) mode).put pMDC MDC.MDC_STAT_BYPASS 0
def sEn (mode : Nat) : State := (sMd mode).setMdcEnt 5 { line := some dramBase, dirty := true, data := List.replicate 256 7 }
def qM (w : Bool) (a : Nat) : MdcReq := mdcReqOf (.core 1) w a 4 [1, 2, 3, 4]

theorem witness_GleanerAndMetadataCache :
    (soundB sG1 && sG1.present pGLN && sG1.powered pGLN && !sG1.isResetting pGLN && sG1.present pMDC && !(st [104, 137]).enabled pMDC && (st [104, 137]).powered pMDC &&
      sG1.glnDram && decide (sG1.dramPos = 0) && decide (0 < sG1.usable) && (sG1.glnSlot (sG1.chanOf dramBase) dramBase).isSome && decide (errVerdict {} = .good) &&
      decide (errVerdict { data := 1 } = .ce) && decide (errVerdict { data := 3 } = .ue) && sG1.glnRuns && !sG1.sramInternal && (sG1.glnNext (afmBase + sG1.sramPos)).isSome &&
      decide ((sG1.setDramPos (7168 * 2 ^ 20)).dramPos = 7168 * 2 ^ 20) && (List.range 28).all (fun r => (sG1.glnSlot r afmBase).isSome || (sG1.glnSlot r scrBase).isSome) && (sG1.glnNext sramEnd).isNone &&
      decide (sG1.gln.dramStart + sG1.get pGLN GLN.LAP_TGT_DRAM_TGT * 1000 * msSub ≤ 100000000000000) &&
      decide (8 ≤ (sMd 2).mdcEnabled.length) && !(sMd 2).on pMDC MDC.MDC_CTRL_BYPASS_REQ && !(sMd 2).on pMDC MDC.MDC_STAT_CLEANING && soundB (sEn 2) && viaMdc (.core 1) (qM false dramBase).addr &&
      decide ((sEn 2).mdcFind dramBase = some 5) && decide ((sEn 1).mdcMode dramBase = 1) && decide ((sEn 2).mdcMode dramBase = 2) && !(sEn 2).mdcRo dramBase && ((sEn 2).put pMDC (MDC.ATTR_RO 0) 1).mdcRo dramBase &&
      !(sEn 2).mdcThrough && decide ((sEn 2).mdcFind (dramBase + 256) = none) && (sEn 2).mdcLru.isSome && !(sEn 2).mdcMaintAll && decide ((sEn 2).mdcRegion (dramBase + 256) = some 0) &&
      decide ((sEn 2).badLines = []) && (List.range 4).all (fun k => decide ((sEn 2).spanRefusal none true (dramBase + 64 * k) 64 = none) && decide ((sEn 2).spanRefusal none false (dramBase + 64 * k) 64 = none)) &&
      decide (((sEn 2).mdcEnt 5).data.length = 256) && !(sEn 2).maintWaits 1 dramBase && (sEn 2).running pMDC && !(sEn 2).fenced pMDC && !(sEn 2).on pMDC MDC.MDC_STAT_BYPASS) = true := by decide +kernel

/-- A fill, a victim, a maintenance operation under way. -/
def wFill (f : MdcFill) : State := { sMd 2 with mdc := { (sMd 2).mdc with fills := [f] } }
def wVic : State := { sMd 2 with mdc := { (sMd 2).mdc with victims := [(dramBase, List.replicate 256 9)] } }
def wMnt (op a : Nat) : State := { sEn 2 with mdc := { (sEn 2).mdc with maint := [(.core 1, op, a, 0)] } }

theorem witness_GleanerAndMetadataCache_2 : allOf [
    sGl.present pDMA, sGl.powered pDMA, !sGl.enabled pDMA, sGl.enabled pGLN, !(sGl.present 511), ((sG1.put pGLN GLN.GLN_REGIONS 0x100).glnNext (afmBase + sG1.sramPos)).isNone, !sGl.gln.dramOn,
    (let s := { sG1 with gln := { sG1.gln with beats := (List.range 28).map (fun r => (r, 9999)) } }
     soundB s && (s.glnSlot (s.chanOf dramBase) dramBase).isNone), { sG1 with badLines := [dramBase] }.badLines.contains dramBase,
    soundB (wFill { line := dramBase, entry := 3, reqs := [qM false dramBase] }), !(wFill { line := dramBase, entry := 3 }).dramHeld dramBase, ((sMd 2).put pBFM BFM.DRAM_CTRL_SR_REQ 1).dramHeld dramBase,
    soundB wVic, decide (wVic.mdc.victims.find? (fun v => decide (v.1 = dramBase)) = some (dramBase, List.replicate 256 9)), decide (wVic.mdcFind dramBase = none), decide (dramBase % 256 = 0), soundB (wMnt 4 0), !(wMnt 4 0).maintWaits 4 0,
    { wVic with mdc := { wVic.mdc with maint := [(.core 1, 2, dramBase, 0)] } }.maintWaits 2 dramBase, (let s := ((sEn 2).setMreg (.core 1) pMDC 0x4C 1)
     decide ((s.mreg (.core 1) pMDC 0x48).toNat + 2 ^ 32 * ((s.mreg (.core 1) pMDC 0x4C).toNat % 65536) = dramBase)), decide (((sEn 2).mreg (.core 1) pMDC 0x4C) = 0),
    !((sEn 2).mdcDis 5), ((sMd 2).put pMDC MDC.MDC_STAT_CLEANING 1).on pMDC MDC.MDC_STAT_CLEANING, decide ((sMd 2).mdc.fills = [] ∧ (sMd 2).mdc.victims = []), !viaMdc (.core 1) stgBase,
    (List.range 48).all (fun e => e == 5 || decide (((sEn 2).mdcEnt e).line = none))] = true := by decide +kernel

end W14

/-! ### Witnesses, part 15 -/

namespace W15

/-- DMA on and running, channel 5 in state `n` with RUN set, its next descriptor at the start of host staging. -/
def sDma (n : Nat) : State := { (((en (st []) [pDMA]).setChState 5 n).put pDMA (chF 5 0 0 1) 1) with dma := [(5, { next := stgBase })] }
/-- Words of a descriptor in memory at the start of host staging. -/
def descAt (s : State) (ws : List Nat) : State := s.storeBytes stgBase (wordBytes ws)
/-- A buffer-to-buffer copy of 16 B inside host staging. -/
def wsCopy : List Nat := [0x80000400, 16, 0x12001000, 0, 0x12002000, 0, 0, 0, 0, 0, 0, 0, 0, 0, 0, 0]
def dCopy (s : State) (ws : List Nat) : DmaDesc := { addr := stgBase, raw := leNat (wordBytes ws), seq := 0, since := s.time }
def sCopy : State := (descAt (sDma 1) wsCopy).setByte 0x12001003 9
def dRead : DmaDesc := { dCopy (sDma 1) [0x80000402, 16, 0x5000, 0, 0x12002000, 0, 0, 0, 0, 0, 0, 0, 0, 0, 0, 0] with pos := 16, reads := [{ off := 0, host := 0x5000, len := 16 }] }
def sDs (n : Nat) (ds : List DmaDesc) : State := (sDma n).setDma 5 { descs := ds, next := stgBase }
def dDone : DmaDesc := { dCopy (sDma 1) wsCopy with pos := 16, given := 16 }
def tW : Tlp := { kind := 0, chan := 5, seq := 3, addr := 0x5000, data := [1, 2] }
def sTx : State := ((sDma 1).setPort 0 { txq := [tW] }).setDma 5 { trail := [3] }
def sLost : State := (sDma 1).setDma 5 { trail := [3, 4], lost := some 0x5000 }

theorem witness_DmaEngine :
    (soundB (sDma 0) && soundB (sDma 1) && soundB sCopy && soundB (sDs 1 [dRead]) && soundB sTx && soundB sLost && (sDma 0).present pDMA && (sDma 0).powered pDMA && !(sDma 0).isResetting pDMA &&
      (sDma 0).running pDMA && decide ((sDma 0).chState 5 = 0) && decide ((sDma 2).chState 5 = 2) && decide ((sDma 1).dmaOf 5 = { next := stgBase }) && (sDma 1).on pDMA (chF 5 0 0 1) &&
      decide (((sDs 1 [dRead]).dmaOf 5).descs = [dRead]) && decide ((({ sDma 1 with badLines := [stgBase] }).bufRead (some (.dma 5)) stgBase 64).2 = none) &&
      ((sDma 1).bufRead (some (.dma 5)) stgBase 64).2.any (fun bs => bit (leNat bs) 31 == false) && (sCopy.bufRead (some (.dma 5)) stgBase 64).2.any (fun bs => bit (leNat bs) 31 && leNat bs == (dCopy sCopy wsCopy).raw) &&
      decide (sCopy.descCheck { dCopy sCopy wsCopy with raw := 2 ^ 31 } = some 0xA) && decide (sCopy.descCheck (dCopy sCopy wsCopy) = none) && decide (dDir (dCopy sCopy wsCopy) = 0) && decide (dSwap (dCopy sCopy wsCopy) = 0) &&
      !dBarrier (dCopy sCopy wsCopy) && decide (dLen (dCopy sCopy wsCopy) = 16) && decide (sCopy.badLines = []) && decide (sCopy.spanRefusal (some (.dma 5)) false 0x12001000 16 = none) &&
      decide (sCopy.spanRefusal (some (.dma 5)) true 0x12002000 16 = none) && decide (dDir dRead = 2 ∧ dXts dRead = 0 ∧ dSwap dRead = 0 ∧ dRead.err = none) &&
      decide ((sDs 1 [dDone]).spanRefusal (some (.dma 5)) true (stgBase + 48) 16 = none) && decide ((sDs 3 [dDone]).spanRefusal (some (.dma 5)) true stgBase 4 = none) && decide (dDone.pos = dLen dDone ∧ dDone.addr % 64 = 0) && !dBarrier dDone &&
      decide (({ dDone with err := some (1, 3, 0) }).err = some (1, 3, 0)) && decide ((sTx.portOf 0).txq = [tW]) && (List.range 32).all (fun k => (sTx.dmaOf k).descs.isEmpty) &&
      decide ((sLost.dmaOf 5).lost = some 0x5000) && !sLost.on pDMA (chF 5 0x24 8 1) && decide ((sLost.dmaOf 5).trail = [3, 4]) && decide ((sDma 1).get pDMA (chF 5 0x34 0 16) = 10000) &&
      decide (dDone.since + 10000 * usSub ≤ ({ sDs 1 [dDone] with time := 10 ^ 15 }).time) && decide ((sDs 1 [dDone]).time < dDone.since + 10000 * usSub) && decide ((sDs 3 [dDone]).chState 5 = 3)) = true := by decide +kernel

/-- A descriptor in DRAM, with DRAM in self-refresh. -/
def sSrf (f : DmaChan → DmaChan) : State := let s := (sDma 1).put pBFM BFM.DRAM_STAT_STATE 4; s.setDma 5 (f (s.dmaOf 5))

theorem witness_DmaEngine_2 : allOf [
    soundB (sSrf (fun c => { c with next := 0x100000000 })), (sSrf id).dramHeld 0x100000000, !(sDma 1).dramHeld stgBase, (sSrf (fun c => { c with descs := [{ dRead with raw := leNat (wordBytes [0x80000402, 16, 0x5000, 0, 0, 1, 0, 0, 0, 0, 0, 0, 0, 0, 0, 0]) }] })).sinkHeld 5,
    !(sDs 1 [dRead]).sinkHeld 5, dIrq { dDone with raw := dDone.raw + 512 }, descReady { descs := [dDone] } dDone, !descReady { descs := [dDone] } { dDone with given := 3 }, ((sDs 1 [dDone]).setDma 5 { (sDs 1 [dDone]).dmaOf 5 with last := true }).dmaOf 5 |>.last,
    !((sDma 0).put pDMA HDR.CTRL_ENABLE 0).running pDMA, ((sDma 1).setDma 5 { (sDma 1).dmaOf 5 with halt := true }).dmaOf 5 |>.halt, decide (((sDma 1).setPort 0 { txq := [{ tW with kind := 1 }] } |>.portOf 0).txq = [{ tW with kind := 1 }]),
    decide (((sLost.setDma 5 { sLost.dmaOf 5 with descs := [{ dDone with seq := 3 }] }).dmaOf 5).trail.contains 3), decide (((sLost.setDma 5 { lost := some 0x5000 }).dmaOf 5).trail = []),
    decide (((sDs 1 [dDone]).put pDMA (chF 5 0x34 0 16) 0).get pDMA (chF 5 0x34 0 16) = 0), decide ((({ dRead with reads := [{ off := 4, host := 0x5000, len := 12, got := 8 }] } : DmaDesc).reads.map (fun r => decide (r.got ≤ r.len))) = [true]),
    decide (dSrcIn dDone % 64 + dLen dDone ≤ 64), !(sDs 1 [{ dDone with err := some (1, 3, 0) }]).chStop 5 || true] = true := by decide +kernel

end W15

/-! ### Witnesses, part 16 -/

namespace W16

open W15
/-- Port A enabled by firmware with its link in state `n`, answering configuration requests, host memory requests enabled. -/
def sHp (n : Nat) : State :=
  (((((en (st [104, 105, 106, 107, 108, 109, 110, 111, 116, 117]) [pDMA, pDBA]).put (pHIF 0) HIF.HIF_CTRL_LINK_EN 1).put (pHIF 0) HIF.LINK_STAT_STATE n).put (pHIF 0) HIF.HIF_CTRL_CFG_READY 1).put (pHIF 0) HIF.LINK_STAT_MSE 1).put (pHIF 0) HIF.LINK_STAT_PERST 0
def hpA : Nat := pHIF 0
def sHb : State := (sHp 3).put hpA HIF.LINK_STAT_BME 1
def sMx : State := (sHb.cfgPut 0 cMSIX (2 ^ 31)).setPort 0 { (sHb.cfgPut 0 cMSIX (2 ^ 31)).portOf 0 with msix := [(20, 0x1000), (22, 0x77), (23, 0)] }
def sMm : State := (sMx.setPort 0 { sMx.portOf 0 with msix := [(20, 0x1000), (22, 0x77)] })
def sPb : State := sMx.setPort 0 { sMx.portOf 0 with pba := [5] }
def sLr : State := ((sHb.setPort 0 { txq := [tW] }).setDma 5 { descs := [dRead] })
def sTr : State := (sHp 1).setPort 0 { trainAt := some 0 }
def sL0 : State := ((sHp 3).put hpA HIF.L0P_CFG_AUTO 1).setPort 0 { idleAt := 1, width := 4 }
def sIx : State := (sHp 3).setReg hpA 0x6C 1

theorem witness_HostPortLinkAndResets :
    (soundB (sHp 3) && soundB sMx && soundB sPb && soundB sLr && soundB sTr && soundB sL0 && soundB sIx && (sHp 0).present hpA && (sHp 0).powered hpA && !(sHp 0).isResetting hpA && decide (hpA = pHIF (0 : Fin 2)) &&
      (sHp 0).on hpA HIF.HIF_CTRL_LINK_EN && !(sHp 0).fenced hpA && decide ((sHp 0).get hpA HIF.LINK_STAT_STATE = 0) && !((sHp 0).put hpA HIF.HIF_CTRL_LINK_EN 0).on hpA HIF.HIF_CTRL_LINK_EN &&
      ((sHp 3).put hpA HIF.HIF_CFG_PRSNT_EN 1).on hpA HIF.HIF_CFG_PRSNT_EN && decide ((sHp 3).supply = none) && !(sHp 3).retracting && !(sHp 3).pmeEn 0 && ((sHp 3).cfgPut 0 cPMCSR 256).pmeEn 0 &&
      ((sHp 3).put hpA HIF.LINK_STAT_FLR_ACTIVE 1).on hpA HIF.LINK_STAT_FLR_ACTIVE && !(sHp 3).on hpA HIF.LINK_STAT_FLR_ACTIVE && !((sHp 0).cfgPut 0 cPMCSR 256).linkUpOn 0 && ((sHp 0).put hpA HIF.LINK_STAT_PERST 1).on hpA HIF.LINK_STAT_PERST &&
      !(sHp 3).msixEn 0 && sMx.msixEn 0 && !sMx.funcMask 0 && sMx.bmeOn 0 && !sMx.vectorMasked 0 5 && sMm.vectorMasked 0 5 && !(sHp 3).bmeOn 0 && (sPb.portOf 0).pba.contains 5 && (sHp 1).mayTrain 0 && !((sHp 1).put hpA HIF.LINK_STAT_PERST 1).mayTrain 0 &&
      sLr.linkUpOn 0 && decide ((sLr.portOf 0).txq = [tW]) && decide (sLr.chPort 5 = 0) && decide ((sLr.dmaOf 5).descs = [dRead]) && dHost dRead && sLr.on hpA HIF.LINK_STAT_BME && !(sHp 0).linkUpOn 0 &&
      decide ((({ (sHp 3) with time := 10 ^ 15 }.setPort 0 { flrAt := some 0 }).portOf 0).flrAt = some 0) && decide (max 1 (min 90 ((sHp 3).get hpA HIF.FLR_CFG_FLR_TMO)) * msSub ≤ 10 ^ 15) && decide ((sTr.portOf 0).trainAt = some 0) && decide (100 * msSub ≤ 10 ^ 15) &&
      sL0.on hpA HIF.L0P_CFG_AUTO && decide (sL0.txqBytes 0 < 8192) && decide (1 + sL0.get hpA HIF.L0P_CFG_IDLE * usSub ≤ sL0.time + 1) && decide (1 < (sL0.portOf 0).width) && sIx.intxWant 0 && !(sIx.portOf 0).intx) = true := by decide +kernel

def sMi : State := ((sHp 3).put hpA (HIF.BAR0_SLOT_KIND 1) 2).put hpA (HIF.BAR0_SLOT_IDX 1) 3
def sDb : State := ((sHp 3).put hpA (HIF.BAR0_SLOT_KIND 1) 3).setDb 2 { cfg := 0x3F0021 }
def sPg : State := ((sHp 3).put hpA (HIF.BAR0_SLOT_KIND 1) 1).put hpA (HIF.BAR0_SLOT_RO 1) 1
/-- Window 0 maps BAR2 offsets 0x1000–0x1FFF to `a`. -/
def sWin (a : Nat) : State :=
  (((((((sHp 3).put hpA HIF.BAR_CFG_BAR2_LOG2 26).put hpA HIF.WIN_STAT_VALID 1).put hpA (WIN.OFS_OFFSET 0) 1).put hpA (WIN.SIZE_SIZE 0) 1).setReg hpA 0x108 (BitVec.ofNat 32 (a + 7))).setReg hpA 0x10C 0)
def pm0 : Option Master := some (portMaster 0)

theorem witness_HostRequests :
    (soundB sMi && soundB sDb && soundB sPg && soundB (sWin 0x12100000) && (sHp 3).linkUpOn 0 && !(sHp 0).linkUpOn 0 && (sHp 3).on hpA HIF.HIF_CTRL_CFG_READY && !((sHp 3).put hpA HIF.HIF_CTRL_CFG_READY 0).on hpA HIF.HIF_CTRL_CFG_READY &&
      (sHp 3).memEn 0 && !((sHp 3).put hpA HIF.LINK_STAT_MSE 0).memEn 0 && decide ((sHp 3).get hpA (HIF.BAR0_SLOT_KIND 0) = 0) && decide (1 < 2 ^ ((sHp 3).bar0Log 0 - 12)) && decide (sMi.get hpA (HIF.BAR0_SLOT_KIND 1) = 2) &&
      decide (sDb.get hpA (HIF.BAR0_SLOT_KIND 1) = 3) && decide (sPg.get hpA (HIF.BAR0_SLOT_KIND 1) = 1) && sPg.on hpA (HIF.BAR0_SLOT_RO 1) && decide (sMi.badLines = []) &&
      (sWin 0x12100000).bar2Ok 0 0x1010 4 && decide ((sWin 0x12100000).winHit 0 true 0x1010 4 = some 0x12100010) && decide ((sWin 0x12100000).spanRefusal pm0 true 0x12100010 4 = none) && decide ((sWin 0x12E80000).winHit 0 true 0x1010 4 = some 0x12E80010) &&
      decide ((sWin 0x12E80000).spanRefusal pm0 true 0x12E80010 4 ≠ none) && decide ((sWin 0x12100000).winHit 0 true 0x3010 4 = none) && !(sHp 3).bar2Ok 0 0 4 && decide ((sWin 0x12100000).winHit 0 false 0x1010 4 = some 0x12100010) &&
      decide ((sWin 0x12100000).spanRefusal pm0 false 0x12100010 4 = none) && !sDb.fenced pDBA && sDb.enabled pDBA && sDb.present pDBA && sDb.powered pDBA && (sDb.dbOf 2).cfg.getLsbD 0 && decide ((sDb.dbOf 2).pend = none) && decide (bits (sDb.dbOf 2).cfg.toNat 31 16 = 63) &&
      decide (((sDb.setDb 2 { cfg := 0x3F0021, pend := some 2 }).dbOf 2).pend ≠ none) && !(sDb.dbOf 3).cfg.getLsbD 0 && decide (((sHp 3).cfgPut 0 cUESTAT 4).cfgGet 0 cUESTAT ≠ 0) && decide (dRead.err = none) &&
      !(sHp 3).on hpA HIF.DOE_STAT_RX_READY && ((sHp 3).put hpA HIF.DOE_STAT_RX_READY 1).on hpA HIF.DOE_STAT_RX_READY && barredPage 0x30 && decide (tabGet (sDb.setDbq 2 [{ port := 0, db := 2 }]).dbq 2 [] = [{ port := 0, db := 2 }])) = true := by decide +kernel

/-- Window 0 onto DRAM in self-refresh. -/
def sWinDram : State := (((sWin 0x12100000).setReg hpA 0x108 7).setReg hpA 0x10C 1).put pBFM BFM.DRAM_STAT_STATE 4

theorem witness_HostPortLinkAndResets_2 : allOf [
    !((Part.hasPage .fs9624n (pHIF 1)) && (Part.hasPage .fs9624n (pHIF 0))), !({ sHp 0 with dom := [] }.powered hpA), decide ((sHp 3).get hpA HIF.LINK_STAT_STATE ≠ 1), decide (((sHp 3).portOf 0).flrAt = none),
    decide ((((sHp 1).setPort 0 { trainAt := some 63999999 }).portOf 0).trainAt = some 63999999 ∧ 64000000 < 63999999 + 100 * msSub), ((sHp 3).setReg hpA 0x104 5 |>.reg hpA 0x104) == 5,
    !((sL0.put hpA HIF.L0P_CFG_AUTO 0).on hpA HIF.L0P_CFG_AUTO), decide ((((sHp 3).setPort 0 { flrAt := some 63999999 }).portOf 0).flrAt = some 63999999), sMx.msixEn 0, decide (sIx.get hpA HIF.LINK_STAT_STATE = 3),
    decide (((sHp 3).setPort 0 { intx := true }).intxWant 0 = false), !(sHp 0).bmeOn 0] = true := by decide +kernel

theorem witness_HostRequests_2 : allOf [
    soundB sWinDram, ((sWinDram.settle hpA sWinDram.time).winTable 0).winHit 0 true 0x1010 4 == some 0x100000010, (sWinDram.settle hpA sWinDram.time).dramHeld 0x100000010, (sWinDram.settle hpA sWinDram.time).bar2Ok 0 0x1010 4,
    decide ((((sWin 0x12100000).settle hpA (sWin 0x12100000).time).winTable 0).winHit 0 false 0x1010 4 = some 0x12100010), !((sWin 0x12100000).settle hpA (sWin 0x12100000).time).dramHeld 0x12100010,
    decide (bits (sDb.dbOf 2).cfg.toNat 31 16 < 64), decide (bits (sDb.dbOf 2).cfg.toNat 6 4 = 2), decide (4096 < 0x1FFE % 4096 + 4), (sDb.put pDBA HDR.FENCE_FENCED 1).fenced pDBA, !(sDb.put pDBA HDR.CTRL_ENABLE 0).enabled pDBA,
    decide (((sLr.dmaOf 5).descs.map (fun d => d.reads.length)).sum ≤ 1), decide ((sLr.dmaOf 0).descs = []), decide (bits (0x3003 : Word).toNat 18 8 = 0x30)] = true := by decide +kernel

end W16

/-! ### Witnesses, part 17 -/

namespace W17

open W15
open W16
def rep (page b cls base : Nat) (sub : Option Nat) : Report := { time := 77, page := page, bit := b, cls := cls, base := base, sub := sub, master := 0, access := 0, addr := 0, forced := false }
def sEv (r : Report) (unack : Nat) : State := { (en (st [104]) [pDMA, pDMC 0]).put pFLT FLT.UNACK unack with fltq := [r] }
def sUf (res : Nat) (p : Nat) (sub : Option Nat) : State := { (st []).put p HDR.FENCE_FENCED 1 with unfencing := some { page := p, sub := sub, result := res } }
def sWd : State := { (st []).put pFLT FLT.WDOG_CFG_EN 1 with wdog := some (64000000, 100 * msSub) }
def sAl (t : Nat) : State := { (st []).put pFLT FLT.ALIVE_STAT_RUNNING 1 with aliveStart := some 5, time := t }

theorem witness_FaultCollector :
    (soundB (sEv (rep (pDMC 0) 2 1 0 none) 0) && decide ((sEv (rep (pDMC 0) 2 1 0 none) 2).fltq = [rep (pDMC 0) 2 1 0 none]) && bit ((sEv (rep (pDMC 0) 2 1 0 none) 2).get pFLT FLT.UNACK) 1 && !bit ((sEv (rep (pDMC 0) 2 1 0 none) 0).get pFLT FLT.UNACK) 1 &&
      (sEv (rep (pDMC 0) 2 1 1 none) 0).present (pDMC 0) && !(sEv (rep (pDMC 0) 2 1 1 none) 0).fenced (pDMC 0) && decide (pageKind (pDMC 0) = some .dmc) && !(sEv (rep pDMA 0 7 1 (some 5)) 0).subFenced pDMA 5 &&
      decide ((sEv (rep pFLT 3 2 3 none) 0).get pFLT FLT.DEV_STAT_LEVEL = 0) && decide (fenceUnitOf (rep pCLK 1 13 1 none) = .none) && !(rep pPWR 0 11 4 none).supply && decide (faultGrade pFLT 31 = none) && decide (faultGrade pFLT 1 = some (cMEM, 0)) &&
      (st []).present pFLT && (st []).powered pFLT && !(st []).isResetting pFLT && (sUf 0 pSEC none).unfencing.isSome && decide ((st []).unfencing = none) && !(st []).present 0x3FF && noFence pSYS && decide (subUnits pDMA ≤ 32) && (st []).present pSEC && !noFence pSEC && decide (5 < subUnits pDMA) &&
      decide (((st []).put pFLT FLT.DEV_STAT_LEVEL 4).get pFLT FLT.DEV_STAT_LEVEL = 4) && decide (pageKind pSEC ≠ some .act) && (sUf 0 pSEC none).fenced pSEC && !(sUf 0 pSEC none).groupFenced pSEC none && ((sUf 0 (pACT 1) none)).groupFenced (pSRV 1) none &&
      ({ (st []) with subFence := [(pDMA, 5, 7)] } : State).subFenced pDMA 5 && (({ (st []) with subFence := [(pDMA, 5, 7)] } : State).put (pHIF 0) HDR.FENCE_FENCED 1).groupFenced pDMA (some 5) &&
      decide ((((st []).put pFLT FLT.DEV_STAT_LEVEL 3).put pFLT FLT.DEV_STAT_DEG_CLASSES 4).get pFLT FLT.DEV_STAT_LEVEL = 3) && !(st []).locked pFLT && !(st []).on pFLT FLT.WDOG_CFG_EN && sWd.on pFLT FLT.WDOG_CFG_EN && decide (sWd.time < 64000000 + 100 * msSub) &&
      decide (64000000 + 100 * msSub ≤ ({ sWd with time := 10 ^ 15 } : State).time) && decide (sWd.wdog = some (64000000, 100 * msSub)) && !(st []).on pFLT FLT.ALIVE_STAT_STOPPED && decide ((st []).aliveStart = none) && decide (pageKind pSEC = some .sec) &&
      decide ((sAl (3 * 2400000 * ftSub)).aliveStart = some 5) && decide (5 ≤ 3 * 2400000 * ftSub) && (sAl 7).on pFLT FLT.ALIVE_STAT_RUNNING && ((sAl 7).put pFLT FLT.ALIVE_STAT_STOPPED 1).on pFLT FLT.ALIVE_STAT_STOPPED) = true := by decide +kernel

theorem witness_FaultCollector_2 : allOf [
    (sEv (rep (pDMC 0) 2 1 0 none) 0).gradable (rep (pDMC 0) 2 1 0 none), !(sEv (rep (pDMC 0) 2 1 0 none) 0).gradable { rep (pDMC 0) 2 1 0 none with time := 64000000 }, decide (pageKind (pDMC 0) = some .dmc), !(rep pPWR 0 11 4 none).supply,
    ((st []).put pSEC HDR.FENCE_CLASS 3 |>.put pFLT FLT.UNACK 8).get pSEC HDR.FENCE_CLASS == 3, (let s := ((st []).put pFLT FLT.DEV_STAT_LEVEL 3).put pFLT FLT.DEV_STAT_DEG_CLASSES 4 |>.put pFLT FLT.UNACK 4
     bit (s.get pFLT FLT.DEV_STAT_DEG_CLASSES) 2 && bit (s.get pFLT FLT.UNACK) 2), ((st []).putB pFLT HDR.LOCK_LOCK true).locked pFLT, decide ((st []).wdog = none), decide ((sAl ((2400000 + 1200000) * ftSub)).time = (1 * 2400000 + 1200000) * ftSub),
    soundB { sUf 0 pDMA (some 5) with subFence := [(pDMA, 5, 7)] }, decide ((sUf 3 pSEC none).unfencing.map (·.result) = some 3), (sUf 0 pSEC none).fenced pSEC, !(sUf 0 pSEC none).unfencing.isNone] = true := by decide +kernel

end W17

/-! ### Witnesses, part 18 -/

namespace W18

def sDom (d : Nat) (v : Dom) : State := (st []).setDom d v
def sStage (n : Nat) : State := ((st []).put pCLK CLK.PLL_STAT_LOCKED 1).put pSYS SYS.BOOT_STAT_STAGE n
def sSup : State := ((({ (st []) with supArmed := 15 }).put pMOT MOT.SUP_CFG_UV12 10200).put pMOT MOT.SUP_CFG_UV5 4500).put pMOT MOT.SUP_CTRL_SGOOD_EN 1

theorem witness_DomainsTemperatureSupplyAndStages :
    (soundB (sDom 118 { st := 5, req := true }) && soundB sSup && (st []).present pPWR && (st []).powered pPWR && !(st []).isResetting pPWR && decide (domOfBit 0 = 118) && (st []).hasDom 118 && decide ((st []).domOf 118 = {}) &&
      ((sDom 118 { st := 5, req := true }).put pSYS SYS.CORE_HOLD_HOLD 0).clearRefused 118 && !(sDom 118 { st := 5, req := true }).clearRefused 118 && decide (((sDom 118 { st := 5, req := true }).domOf 118).st = 5) &&
      decide ({ sDom 118 { st := 1 } with domWait := [118] }.domWait = [118]) && decide ((sDom 118 { st := 1 }).ramping = []) && decide (0 < (st []).rampMax) && decide ((sDom 120 { st := 2 }).ramping ≠ []) &&
      decide (((sDom 136 { st := 3 }).domOf 136).st = 3) && decide (((sDom 118 { st := 4 }).domOf 118).st = 4) && decide (0 + 2 * rampUs 118 * usSub ≤ (st []).time) && decide (((sDom 118 { st := 0, req := true, offAt := 9 }).domOf 118).offAt ≠ 0) &&
      decide ([20, 30, 5, 5, 5, 5, 5, (900 : BitVec 16)][7]? = some 900) && decide (8 * (((st []).get pPWR PWR.THM_CFG_WARN : Nat) : Int) < (900 : BitVec 16).toInt) && decide ((900 : BitVec 16).toInt ≤ 8 * (((st []).get pPWR PWR.THM_CFG_HIGH : Nat) : Int)) &&
      decide ((10 : BitVec 16).toInt ≤ 8 * (((st []).get pPWR PWR.THM_CFG_WARN : Nat) : Int) - 40) && bit sSup.supArmed 0 && decide (9000 < sSup.get pMOT MOT.SUP_CFG_UV12) && decide (sSup.supply = none) && !sSup.retracting && !bit (st []).supArmed 0 &&
      decide ({ sSup with supply := some 7 }.supply = some 7) && decide ((sStage 2).get pSYS SYS.BOOT_STAT_STAGE = 2) && decide ((sStage 2).get pSYS SYS.BOOT_STAT_ERROR = 0) && (sStage 2).rootRuns && decide ((sStage 3).get pSYS SYS.BOOT_STAT_STAGE = 3) &&
      decide ((sStage 3).get pSYS SYS.BOOT_STAT_STAGE ≠ 2) && !(st []).isResetting pSYS && (sDom 118 { st := 5 }).domOn (domCore 0)) = true := by decide +kernel

theorem witness_DomainsTemperatureSupplyAndStages_2 : allOf [
    !({ sDom 40 { st := 0, req := true, offAt := 9 } with part := .fs9624 } : State).hasDom 40, (let s := { ((st []).setDom 136 { st := 1 }).setDom 118 { st := 2 } with domWait := [136] }
     soundB s && decide (s.ramping ≠ [])), (let s := { ((st []).setDom 136 { st := 2 }).setDom 118 { st := 1 } with domWait := [118] }
     soundB s && decide (136 ∈ s.ramping)), decide ((64000000 : Nat) < 63999999 + 2 * rampUs 118 * usSub), decide (((sDom 118 { st := 1, req := true }).domOf 118).st = 1),
    !((sDom 118 { st := 1, req := true }).put pSYS SYS.CORE_HOLD_HOLD 1).clearRefused 118, !{ st [] with thmTold := 0 }.thmSeen, !bit sSup.supArmed 4, decide (sSup.supply = none), (sSup.put pMOT MOT.SUP_CTRL_RAIL_EN 1).on pMOT MOT.SUP_CTRL_RAIL_EN,
    decide (((sStage 2).put pSYS SYS.BOOT_STAT_ERROR 1).get pSYS SYS.BOOT_STAT_ERROR ≠ 0)] = true := by decide +kernel

end W18

/-! ### Witnesses, part 20 -/

namespace W20

/-- NVS on, enabled, READY with a 128 MiB device. -/
def sNv : State := (((en (st [139]) [pNVS]).put pNVS NVS.NVS_STAT_STATE 2).put pNVS NVS.XSPI_CFG_SIZE 1).put pNVS NVS.OP_ADDR 0x1A30010
def oEr : NorOp := { cmd := 2, sector := 0x1A3, steps := [.erase 0x1A3], since := 64000000 }
def oPg : NorOp := { cmd := 1, sector := 0x1A3, steps := [.page 0x1A30010 stgBase 2], since := 64000000, data := [0x0F, 0x55] }
def sOp (o : NorOp) : State := sNv.setNorOp (some o)
def sSp (o : NorOp) : State := { sNv with nvs := { susp := some o, autoIn := true } }
def sPrg : State := (((sNv.put pNVS NVS.OP_SRC_LO stgBase).put pNVS NVS.OP_LEN 2).setByte stgBase 0x0F).setByte (stgBase + 1) 0x55
def rdN : NorRead := { master := .core 1, a := 0x1000, n := 4 }

def rec1 : NorStep := .record (jBase 0 + 16) 0xA2 5 7
def far (s : State) : State := { s with time := 10 ^ 15 }
def vv (f : Nvs → Nvs) (s : State) : State := { s with nvs := f s.nvs }
def prob (a b : Bool) (s : State) : State := vv (fun v => { v with probe := some (a, b) }) (s.put pNVS NVS.NVS_STAT_STATE 1)

theorem witness_SerialFlash :
    (soundB sNv && soundB (sOp oEr) && soundB (sSp oEr) && sNv.present pNVS && sNv.powered pNVS && !sNv.isResetting pNVS && decide (norSector (sNv.get pNVS NVS.OP_ADDR) = 0x1A3) && sNv.nvsReady && !(st [139]).nvsReady && (sOp oEr).nvs.op.isSome &&
      decide (sNv.nvs.susp = none) && decide (sNv.norErasing = none) && decide (sNv.nvs.suspects.length ≤ 4093) && decide (sNv.norResult 3 = 9) && decide (sNv.norResult 2 = 0) && decide (sNv.norResult 6 = 0) && decide ((sSp oEr).norResult 2 = 8) &&
      decide (sPrg.norResult 1 = 0) && decide (sPrg.badLines = []) && decide (sPrg.spanRefusal none false stgBase 2 = none) && decide ((sNv.put pNVS NVS.NVS_STAT_JRNL 2).norResult 3 = 0) && decide ((sNv.put pNVS NVS.NVS_STAT_JRNL 2).jActive = none) &&
      decide ((sNv.put pNVS NVS.NVS_STAT_JRNL 1).jActive = some 0) && decide ((sNv.put pNVS NVS.NVS_STAT_JRNL 1).norResult 3 = 0) && decide ((sNv.put pNVS NVS.NVS_STAT_JRNL 1).jNext 0 ≤ 4094) && decide ((sOp oEr).norResult 4 = 0) && decide ((sOp oEr).norErasing = some oEr) &&
      decide (oEr.since + (sOp oEr).get pNVS NVS.T_RUN_MIN * usSub ≤ ({ sOp oEr with time := 10 ^ 15 } : State).time) && decide ((sOp oEr).time < oEr.since + (sOp oEr).get pNVS NVS.T_RUN_MIN * usSub) && decide ((sSp oEr).norResult 5 = 0) && !(sSp oEr).norReadsOf (sSp oEr).norSuspDev &&
      bit 1 (sNv.get pNVS NVS.STS_CFG_WIP_BIT) && !bit 0 (sNv.get pNVS NVS.STS_CFG_WIP_BIT) && decide (Nat.land 0x20 (sNv.get pNVS NVS.STS_CFG_ERR_MASK) ≠ 0) && !bit 0x20 (sNv.get pNVS NVS.STS_CFG_WIP_BIT) && decide (sNv.jHeader 0 = none) &&
      decide (sNv.norSuspSector ≠ some (norSector 0x1000)) && decide ((sSp oEr).norSuspSector = some 0x1A3) && !sNv.norBusy (sNv.norDevOf 0x1000) && decide (sNv.norUnsure = []) && decide (sNv.norCap = 2 ^ 27) &&
      decide ((sNv.put pNVS NVS.NVS_STAT_STATE 1).get pNVS NVS.NVS_STAT_STATE = 1) && decide (sNv.get pNVS NVS.NVS_STAT_STATE ≠ 1) &&
      (let s := vv (fun v => { v with issued := 64000001 }) (sOp oEr)
       soundB s && decide (s.norResult 4 = 0) && decide (s.norErasing = some oEr) && decide (s.nvs.issued ≠ 0) && decide (s.time ≤ s.nvs.issued - 1 + 100 * usSub) && decide ((far s).nvs.issued - 1 + 100 * usSub < (far s).time) && !(far s).nvs.suspTried) &&
      (let s := vv (fun v => { v with susp := some oEr, resume := true }) sNv
       soundB s && decide (s.norResult 5 = 0) && decide (s.norResult 4 = 0) && decide (s.nvs.op = none) && !s.nvs.autoIn && s.nvs.resume && !s.nvs.fwIn) &&
      (let s := vv (fun v => { v with susp := some oEr }) (sOp oPg)
       soundB s && decide (s.norResult 5 = 0) && s.nvs.op.isSome) &&
      (let s := far (vv (fun v => { v with fwWant := true }) (sOp oEr))
       soundB s && decide (s.norErasing = some oEr) && decide (oEr.since + s.get pNVS NVS.T_RUN_MIN * usSub ≤ s.time)) &&
      (let s := vv (fun v => { v with susp := some oEr, autoIn := true, reads := [{ rdN with a := 0x1A30000 }, rdN] }) sNv
       soundB s && s.norReadsOf s.norSuspDev && decide (s.norSuspSector = some (norSector 0x1A30000)) && !s.norBusy (s.norDevOf 0x1A30000)) &&
      (let s := vv (fun v => { v with reads := [rdN] }) (sOp oEr)
       soundB s && s.nvs.reads.all (fun r => s.norBusy (s.norDevOf r.a))) &&
      (let s := sOp { cmd := 3, sector := 5, steps := [rec1, .erase 5], since := 64000000, data := [1, 2] }
       soundB s && decide (s.nvs.issued = 0) && !s.nvs.op.any (fun o => o.tried)) &&
      (let s := vv (fun v => { v with susp := some oEr, resume := true }) (sOp { cmd := 3, sector := 0x1A3, ended := some 1 })
       soundB s && !s.nvs.fwIn && !s.nvs.autoIn && s.nvs.resume) &&
      (let s := (sNv.norProgram (jBase 0) (wordBytes [0xA1, 3, 9, crc3 0xA1 3 9])).setNorOp (some { cmd := 7, sector := 0, ended := some 1 })
       soundB s && decide (s.jHeader 0 = some 3) && decide (s.jHeader 1 = none)) &&
      soundB (prob true true sNv) && soundB (prob false true sNv) && decide ((prob true true sNv).nvs.probe = some (true, true)) && decide ((prob true true sNv).get pNVS NVS.NVS_STAT_STATE = 1)) = true := by decide +kernel

end W20

/-! ### Witnesses, part 21 -/

namespace W21

/-- JOB_ADDR at the start of host staging. -/
def sJob (op meas : Nat) : State := { ((st []).put pSEC SEC.JOB_ADDR_LO (stgBase / 64)) with sec := { job := some { op := op, meas := meas }, idKey := some 12345 } }
/-- The operand block of a HASH of 3 bytes at stgBase + 0x1000. -/
def sHash : State := ((((sJob 1 0).storeBytes stgBase (wordBytes [0x12001000, 0, 3, 0])).setByte 0x12001000 0x61).setByte 0x12001001 0x62).setByte 0x12001002 0x63
/-- XTS and its key store on, PRODUCTION. -/
def sKey : State := (((en (st [135, 140]) [pXTS]).put pSEC SEC.LC_STAT_STATE 2).setReg pXTS 0x40 7)
def sSmb : State := ((st []).put pSYS SYS.SMB_CTRL_EN 1).put pSYS SYS.SMB_CTRL_ADDR 0x3A
def sFus : State := (st []).put pSEC SEC.FUSE_PROG_LO 1

theorem witness_SecurityAndSmbus :
    (soundB (sJob 2 0) && soundB sHash && soundB sKey && soundB sSmb && !(st []).isResetting pSEC && decide (sFus.sec.prog = none) && sFus.fuseRule 3 1 && !sFus.fuseRule 7 1 && ({ sFus with sec := { prog := some (3, 0, 1) } } : State).sec.prog.isSome &&
      (sJob 1 0).sec.job.isSome && decide ((st []).sec.job = none) && !(st []).fenced pSEC && ((st []).put pSEC HDR.FENCE_FENCED 1).fenced pSEC && decide (Nat.lor 0 (1 : BitVec 64).toNat = 1) && decide ((1 : BitVec 64).toNat ≠ Nat.lor 0 3) &&
      decide ((sJob 2 0).get pSEC SEC.JOB_ADDR_LO * 64 + (sJob 2 0).get pSEC SEC.JOB_ADDR_HI * 2 ^ 32 = stgBase) && (sJob 2 0).secRange stgBase 512 && !(sJob 2 0).secRange 0 512 && decide ((sJob 2 0).badLines = []) && decide ((sJob 2 0).spanRefusal none false stgBase 512 = none) &&
      decide (leNat (((sHash.bytesAt stgBase 512).drop 0).take 8) = 0x12001000) && decide (leNat (((sHash.bytesAt stgBase 512).drop 8).take 8) = 3) && sHash.secRange 0x12001000 3 && decide (sHash.spanRefusal none false 0x12001000 3 = none) &&
      decide (sHash.spanRefusal none true (stgBase + 0x40) 64 = none) && decide ((sJob 3 0).sec.idKey = some 12345) && decide (({ sJob 3 0 with sec := { job := some { op := 3 } } } : State).sec.idKey = none) && decide ((sJob 3 0).spanRefusal none true (stgBase + 0x108) 132 = none) &&
      !(sJob 4 1).locked pSEC && ((sJob 4 1).put pSEC HDR.LOCK_LOCK 1).locked pSEC && !(st []).on pSEC SEC.RNG_STAT_HEALTH_FAIL && ((st []).put pSEC SEC.RNG_STAT_HEALTH_FAIL 1).on pSEC SEC.RNG_STAT_HEALTH_FAIL &&
      sKey.present pXTS && sKey.powered pXTS && !sKey.isResetting pXTS && sKey.domOn domKS && !sKey.fenced pXTS && decide (sKey.get pSEC SEC.LC_STAT_STATE = 2) && !bit sKey.slotsUsed 3 && bit (sKey.put pXTS XTS.IN_USE_LO 8).slotsUsed 3 &&
      decide ((sKey.keyResult 3 1 (sKey.getBytes pXTS 0x40 18)).1 = 0) && decide (((sKey.setReg pXTS 0x40 0).keyResult 3 1 ((sKey.setReg pXTS 0x40 0).getBytes pXTS 0x40 18)).1 = 5) && decide ((sKey.keyResult 3 3 []).1 = 0) && decide ((sKey.keyResult 0 4 []).1 = 0) &&
      decide ((st []).get pSEC SEC.LC_STAT_STATE = 0) && sSmb.on pSYS SYS.SMB_CTRL_EN && decide (sSmb.get pSYS SYS.SMB_CTRL_ADDR = (0x3A : BitVec 7).toNat) && !sSmb.on pSYS SYS.SMB_STAT_RX_READY && (sSmb.put pSYS SYS.SMB_STAT_RX_READY 1).on pSYS SYS.SMB_STAT_RX_READY &&
      !sSmb.on pSYS SYS.SMB_STAT_TX_BUSY && !(st []).on pSYS SYS.SMB_CTRL_EN && decide (({ sSmb with smbTx := some (3, 4) } : State).smbTx = some (3, 4))) = true := by decide +kernel

/-! A debug key (the public point of the private key 12345), its hash in rows 42–49, and a signature over SHA-512(DBG_CHAL ‖ DEV_ID), both zero. -/
def dbgPub : List Byte := beBytes 0x76ca1fa9613a70e8b2cecd8f64877968e32b91b16cd65166ca44b1439883a919e263c09cff2f7f39e770ebda9057d2f1198804a1c160f0bb99eb9ae6fab28f78b00b3121fe54f8e83d9bdea643e8f7a01fb6e0791d4d459ac5ba1ea434b87d2d6b9d6476a5f521ee0f6b8de3ce4f3474660235f88240ca7d0ddba59a07d493692bd6b 132
def dbgSig : List Byte := beBytes 0x180e04fb0d2588bc07259ac480bf45ccbf5132f79f54463ebd953968b15558ba34c2d823f2dff74c73593514aad5b937463c303240b65f64138b54561df64e3109101d15136e67e550118b4adeb3332fcd0d45822bd20c2afd8ad31c4dcb4545828feece15e86b901bcd00a33ef2a5f6ff8d60ed2cafb10880ba6e50eace9b274f981e9 132
def dbgHash : Nat := 0xa1555ce56a786e212a5fd14286956b063e138a929de1df3ab4408a080cc3c5f8f23a0c554a53c8b8fb79d32892fd718d77bd35ebbd4f7769d04faa14334ee594
def dbgDigest : Nat := 0xb6b4c190ccd537f7b879658fb3ab39a81347e1ecb68246dab95648560587b8437ecb02b7825f46a9141059ae61887ec7b011c1314cbcc5741c9fae953eaa02ec
def sDbg : State := { (st []) with sec := { used := (List.range 8).map (fun i => (42 + i, (if Config.fuseBigEndian then dbgHash else leNat (beBytes dbgHash 64)) / 2 ^ (64 * i) % 2 ^ 64)) } }

theorem dbgHash_is : sha512 dbgPub = beBytes dbgHash 64 := by decide +kernel
theorem dbgDigest_is : sha512 (List.replicate 80 0) = beBytes dbgDigest 64 := by decide +kernel
theorem dbg_verifies : ecdsaVerify (beBytes dbgDigest 64) dbgPub dbgSig = true := by decide +kernel
theorem dbg_rows : sDbg.fuseBytes 42 8 = beBytes dbgHash 64 := by
  cases h : Config.fuseBigEndian <;> simp only [State.fuseBytes, sDbg, h] <;> decide +kernel
theorem dbg_message : sDbg.getBytes pSEC 0x300 16 ++ sDbg.fuseBytes 0 2 = List.replicate 80 0 := by
  cases h : Config.fuseBigEndian <;> simp only [State.fuseBytes, sDbg, h] <;> decide +kernel

theorem witness_debugUnlock : sDbg.on pSEC SEC.DBG_STAT_DISABLED = false ∧ sDbg.get pSEC SEC.DBG_STAT_FAILS < 8 ∧ dbgPub.length = 132 ∧ dbgSig.length = 132 ∧ sha512 dbgPub = sDbg.fuseBytes 42 8 ∧
    ecdsaVerify (sha512 (sDbg.getBytes pSEC 0x300 16 ++ sDbg.fuseBytes 0 2)) dbgPub dbgSig = true := by
  refine ⟨by decide +kernel, by decide +kernel, by decide +kernel, by decide +kernel, ?_, ?_⟩
  · rw [dbg_rows, dbgHash_is]
  · rw [dbg_message, dbgDigest_is, dbg_verifies]

/-! The 64 bytes 1 … 64 wrapped under the key of 32 bytes of 1 (R494's key wrap), unwrapped in sixteen parts. -/
def kek1 : List Byte := List.replicate 32 1
def ks1 : List (List Byte) := [0x1010101010101010101010101010101, 0x1010101010101010101010101010101, 0x7c7d7d7d7d7c7c7c7c7d7d7d7d7c7c7c, 0xfe111111ff101010fe111111ff101010, 0xb4b7b76bc9cbcb17b5b6b66ac8caca16, 0x16656556e975754617646457e8747447, 0x222517f0ebeedce75e586a8d9692a09b, 0x862a85426f5ff004783b9453904fe014, 0xaec4ed90452a31771b725bfa8de0fb61, 0xdbcb8aadb4947aa9ccafeefa5ce00eee, 0x5f6fc5da1a45f4ad0137af578cd75436, 0xbfc5aaa80b51d001c7fe3efb9b1e3015, 0xd6b9cce172e68631619c7349ace9302, 0x74e76df0c1fa6decbe1982550ffa830, 0x5ba9989d4c87f0fe5a9e37cac050a4c8].map (fun n => beBytes n 16)
def uwStep (x : List Byte × List (List Byte)) (q : Nat) : List Byte × List (List Byte) :=
  let b := aesDecrypt ks1 (xorStr x.1 (beBytes (48 - q) 8) ++ x.2.getD ((48 - q - 1) % 8) [])
  (b.take 8, x.2.set ((48 - q - 1) % 8) (b.drop 8))
def uwAt (n : Nat) : List Byte × List (List Byte) := ((beBytes n 72).take 8, (List.range 8).map (fun i => ((beBytes n 72).drop (8 * (i + 1))).take 8))
theorem ks1_is : aesKeys kek1 = ks1 := by decide +kernel
def uw0 : Nat := 0x451bf280d593c6f7b321426bdb410beb871290f77050c3a01d7b160076ccdc34db455ac5d537d2db2a64ccb021aee35fd2c9d7dbb75e6fd18544c2aafb59966b35f0d61972cb3a91
def uw1 : Nat := 0x32106432f3eec999b321426bdb410beb871290f77050c3a01d7b160076ccdc34db455ac5d537d2db2a64ccb021aee35fccf5786b2aee7a0a381556811b917d9b088beb0714c5ab5f
def uw2 : Nat := 0x760e6f786391b87fb321426bdb410beb871290f77050c3a084627e92cb26e1a1f05a5c98d42de9dd87643fa5d31db8a2ccf5786b2aee7a0a381556811b917d9b088beb0714c5ab5f
def uw3 : Nat := 0x800dbf6767faf7ed2517b6daa1ab4258f1ac8b892a23652a84627e92cb26e1a1f05a5c98d42de9dd87643fa5d31db8a2ccf5786b2aee7a0a381556811b917d9bbecdf5ee53e8eef4
def uw4 : Nat := 0x758a00958b9f8dd52517b6daa1ab4258f1ac8b892a23652a84627e92cb26e1a1f05a5c98d42de9ddd06cd6655b92083bfb25a3f4e658e475ce4af5412f3b0798becdf5ee53e8eef4
def uw5 : Nat := 0xeaf3ca4c18e91f092517b6daa1ab4258dc26a30372c40f316eeb0a8ffb6e2b6b47f11341e6304db6d06cd6655b92083bfb25a3f4e658e475ce4af5412f3b0798becdf5ee53e8eef4
def uw6 : Nat := 0xec3393880db51cc9b7ffa8eadc82414ddc26a30372c40f316eeb0a8ffb6e2b6b47f11341e6304db6d06cd6655b92083bfb25a3f4e658e475fead81c6f47cd2fffa53309777f71d4b
def uw7 : Nat := 0x5ebcb0731e692a29b7ffa8eadc82414ddc26a30372c40f316eeb0a8ffb6e2b6b7ffe8213ce81b9b2fe087029ba62c45b539f3b98cf8f89fdfead81c6f47cd2fffa53309777f71d4b
def uw8 : Nat := 0xb98b682174a2f5ccf91da53575be45aa9c8fa20005ca9b625b055d255b2f314d7ffe8213ce81b9b2fe087029ba62c45b539f3b98cf8f89fdfead81c6f47cd2fffa53309777f71d4b
def uw9 : Nat := 0xaa0e3928c92278f91da53575be45aa9c8fa20005ca9b625b055d255b2f314d7ffe8213ce81b9b2fe087029ba62c45b5d82a5853571dd1f6ba361db01b98a5744a48541a7cb28dc
def uw10 : Nat := 0xb867946a515703caf91da53575be45aa9c8fa20005ca9b624ed1961978b997340f7e3e7b82a98e5727a137198e5d70f95d82a5853571dd1f6ba361db01b98a5744a48541a7cb28dc
def uw11 : Nat := 0x53bee501f2c42ca3d7d8c464182554efcd58d49add59ae5d4ed1961978b997340f7e3e7b82a98e5727a137198e5d70f95d82a5853571dd1f6ba361db01b98a5720e46e0fd859f2d3
def uw12 : Nat := 0x850be0805fdb7e4dd7d8c464182554efcd58d49add59ae5d4ed1961978b997340f7e3e7b82a98e577ef9517eed66bc079b8d1f6baa79bcf84028ac4c38743b7320e46e0fd859f2d3
def uw13 : Nat := 0xc9c6e293dee37589d7d8c464182554eff08d256c6c7c9f7f6820a5d31ec5682e2056832d8cd1b2ad7ef9517eed66bc079b8d1f6baa79bcf84028ac4c38743b7320e46e0fd859f2d3
def uw14 : Nat := 0x83624d95d62281fe459d4a2d99a6f9d2f08d256c6c7c9f7f6820a5d31ec5682e2056832d8cd1b2ad7ef9517eed66bc079b8d1f6baa79bcf83132333435363738393a3b3c3d3e3f40
def uw15 : Nat := 0x78470784edb8bdcf459d4a2d99a6f9d2f08d256c6c7c9f7f6820a5d31ec5682e191a1b1c1d1e1f202122232425262728292a2b2c2d2e2f303132333435363738393a3b3c3d3e3f40
def uw16 : Nat := 0xa6a6a6a6a6a6a6a60102030405060708090a0b0c0d0e0f101112131415161718191a1b1c1d1e1f202122232425262728292a2b2c2d2e2f303132333435363738393a3b3c3d3e3f40
theorem uw_part0 : [0, 1, 2].foldl uwStep (uwAt uw0) = uwAt uw1 := by decide +kernel
theorem uw_part1 : [3, 4, 5].foldl uwStep (uwAt uw1) = uwAt uw2 := by decide +kernel
theorem uw_part2 : [6, 7, 8].foldl uwStep (uwAt uw2) = uwAt uw3 := by decide +kernel
theorem uw_part3 : [9, 10, 11].foldl uwStep (uwAt uw3) = uwAt uw4 := by decide +kernel
theorem uw_part4 : [12, 13, 14].foldl uwStep (uwAt uw4) = uwAt uw5 := by decide +kernel
theorem uw_part5 : [15, 16, 17].foldl uwStep (uwAt uw5) = uwAt uw6 := by decide +kernel
theorem uw_part6 : [18, 19, 20].foldl uwStep (uwAt uw6) = uwAt uw7 := by decide +kernel
theorem uw_part7 : [21, 22, 23].foldl uwStep (uwAt uw7) = uwAt uw8 := by decide +kernel
theorem uw_part8 : [24, 25, 26].foldl uwStep (uwAt uw8) = uwAt uw9 := by decide +kernel
theorem uw_part9 : [27, 28, 29].foldl uwStep (uwAt uw9) = uwAt uw10 := by decide +kernel
theorem uw_part10 : [30, 31, 32].foldl uwStep (uwAt uw10) = uwAt uw11 := by decide +kernel
theorem uw_part11 : [33, 34, 35].foldl uwStep (uwAt uw11) = uwAt uw12 := by decide +kernel
theorem uw_part12 : [36, 37, 38].foldl uwStep (uwAt uw12) = uwAt uw13 := by decide +kernel
theorem uw_part13 : [39, 40, 41].foldl uwStep (uwAt uw13) = uwAt uw14 := by decide +kernel
theorem uw_part14 : [42, 43, 44].foldl uwStep (uwAt uw14) = uwAt uw15 := by decide +kernel
theorem uw_part15 : [45, 46, 47].foldl uwStep (uwAt uw15) = uwAt uw16 := by decide +kernel
theorem uw_range : List.range 48 = [0, 1, 2] ++ [3, 4, 5] ++ [6, 7, 8] ++ [9, 10, 11] ++ [12, 13, 14] ++ [15, 16, 17] ++ [18, 19, 20] ++ [21, 22, 23] ++ [24, 25, 26] ++ [27, 28, 29] ++ [30, 31, 32] ++ [33, 34, 35] ++ [36, 37, 38] ++ [39, 40, 41] ++ [42, 43, 44] ++ [45, 46, 47] := rfl
theorem uw_fold : (List.range 48).foldl uwStep (uwAt uw0) = uwAt uw16 := by
  rw [uw_range]
  simp only [List.foldl_append, uw_part0, uw_part1, uw_part2, uw_part3, uw_part4, uw_part5, uw_part6, uw_part7, uw_part8, uw_part9, uw_part10, uw_part11, uw_part12, uw_part13, uw_part14, uw_part15]
theorem witness_unwraps : keyUnwrap kek1 (beBytes uw0 72) = some ((List.range 64).map (fun i => BitVec.ofNat 8 (i + 1))) := by
  have h : keyUnwrap kek1 (beBytes uw0 72) = (fun (out : List Byte × List (List Byte)) => if out.1 = List.replicate 8 (0xA6 : Byte) then some out.2.flatten else none)
      ((List.range 48).foldl uwStep (uwAt uw0)) := by
    unfold keyUnwrap; rw [ks1_is]; rfl
  rw [h, uw_fold]
  decide +kernel

def sWrap : State := { sKey.putBytes pXTS 0x40 (beBytes uw0 72) with sec := { kek := kek1 } }
theorem witness_keyBytes : sWrap.getBytes pXTS 0x40 18 = beBytes uw0 72 := by decide +kernel
theorem witness_keyLoads : sWrap.keyResult 3 2 (beBytes uw0 72) = (0, (List.range 64).map (fun i => BitVec.ofNat 8 (i + 1))) := by
  have hk : sWrap.sec.kek = kek1 := rfl
  unfold State.keyResult
  rw [if_neg (by decide), if_neg (by decide +kernel), if_neg (by decide +kernel), hk, witness_unwraps]
  decide +kernel

/-- Without an identity no wrapping unwraps (R494). -/
theorem witness_unwrapFails : (sKey.keyResult 3 2 (List.replicate 72 0)).1 = 2 := by decide +kernel

theorem witness_SecurityAndSmbus_2 : allOf [
    ((sJob 1 0).put pSEC SEC.JOB_ADDR_LO (dilBase / 64)).secRange dilBase 512, decide (((sJob 1 0).put pSEC SEC.JOB_ADDR_LO (dilBase / 64)).spanRefusal none false dilBase 512 ≠ none),
    (sJob 1 0).secRange 0x12001000 0, decide ((sSmb.put pSYS SYS.SMB_STAT_TX_BUSY 1).on pSYS SYS.SMB_STAT_TX_BUSY), (sJob 4 3).locked pSEC == false, decide (sFus.fuseRule 1 1 = false), soundB sWrap] = true := by decide +kernel

end W21

/-! ### Witnesses, part 22 -/

namespace W22

open W03
open W09
open W14
open W20
/-- `b` with the sequencer state of `s` written over it and the domains `ds` on. -/
def onto (ds : List Nat) (b s : State) : State :=
  s.regs.foldl (fun t x => t.setReg (x.1 / 1024) (x.1 % 1024 * 4) x.2) { b with dom := (st ([0, 96] ++ ds)).dom, dil := s.dil }
/-- Sequencer 0 ready at an XRD of `a + 7` with A = 7. -/
def rdX (a : Nat) (d : Dil) : State :=
  ((sDl (mw 1 0x900 0) (nw 5 0) d).setReg (pDIL 0) 0xC8 (BitVec.ofNat 32 a)).setReg (pDIL 0) 0xCC (BitVec.ofNat 32 (a / 2 ^ 32))
def dramOn : List Nat := (List.range 8).map (fun c => 104 + c) ++ [137, 138]
def xAt (b : State) (a : Nat) : State := onto dramOn b (rdX a {})
def xNv (b : State) (d : Dil) : State := onto [139] b (rdX (norWindow + 0x1A30010 - 7) d)
def cm (es : List (Word × Word × Word × Word)) : State := onto [] (sDq []) (sDl (mw 1 0x900 0) (nw 0xB 0) { entries := es, writes := [(pACT 0, 0x40, 5)] })

theorem witness_DillMemoryPagesAndQueue_2 : allOf [
    soundB (xAt (sEn 2) dramBase), (xAt (sEn 2) dramBase).dilReady 0, decide ((xAt (sEn 2) dramBase).xrdAddr ((xAt (sEn 2) dramBase).dilCtx 0) = dramBase + 4), viaMdc (dilMaster 0) (dramBase + 4),
    !(xAt (sEn 2) dramBase).xrdHeld 0 (dramBase + 4), !((xAt (sEn 2) dramBase).xrdDram (mdcReqOf (dilMaster 0) false (dramBase + 4) 4 [])).resp.err,
    (xAt ((sEn 2).put pBFM BFM.DRAM_CTRL_SR_REQ 1) (dramBase + 1000)).xrdHeld 0 (dramBase + 1004),
    ((xAt (sEn 2) (dramBase + 7168 * 2 ^ 20)).xrdDram (mdcReqOf (dilMaster 0) false (dramBase + 7168 * 2 ^ 20 + 4) 4 [])).resp.err,
    soundB (xNv sNv {}), (xNv sNv {}).dilReady 0, decide ((xNv sNv {}).nvs.reads = []),
    (outState (execNorRead (dilMaster 0) false (BitVec.ofNat 48 (norWindow + 0x1A30010)) 4 (xNv sNv {})) (xNv sNv {})).nvs.reads.any (fun r => decide (r.master = dilMaster 0)),
    ((xNv sNv { xrd := true }).dilOf 0).xrd, !(tabGet (xNv sNv { xrd := true }).mresp (dilMaster 0).code {}).err,
    !((rdX (regBase - 7) {}).regAccess (dilMaster 0) false 4 regBase 0).resp.err,
    soundB (cm [(ftW 2000000, 1, 0, ftW 2001000)]), (cm [(ftW 2000000, 1, 0, ftW 2001000)]).dilReady 0, ((cm [(ftW 2000000, 1, 0, ftW 2001000)]).makeWay 0 0).2.isEmpty,
    decide (((cm [(ftW 2000000, 1, 0, ftW 2001000)]).admitBatch 0 [(cm []).makeEntry 0 (ftW 2000000) 1 0 (ftW 2001000) 64000000 (240 * 64)] 64000000 (240 * 64)).2.1.result = 0),
    decide (((cm [(0, 0, 0, 0)]).admitBatch 0 [(cm []).makeEntry 0 0 0 0 0 64000000 (240 * 64)] 64000000 (240 * 64)).2.1.result ≠ 0),
    ((sDl (mw 1 0x900 0 + 30 * 2 ^ 19) (nw 8 0 + 12 * 2 ^ 96) {}).assemble ((sDl (mw 1 0x900 0 + 30 * 2 ^ 19) (nw 8 0 + 12 * 2 ^ 96) {}).dilCtx 0)).isNone] = true := by decide +kernel

/-- The word at 0x900 moved to the store's last address, and a word whose condition does not hold. -/
def lastAt (s : State) : State := (s.put (pDIL 0) DIL.RUN_STAT_PC 0x1FFF).setDil 0 { s.dilOf 0 with micro := [(0x1FFF, tabGet (s.dilOf 0).micro 0x900 0)] }
def neverOf (s : State) : State := s.setDil 0 { s.dilOf 0 with micro := [(0x900, tabGet (s.dilOf 0).micro 0x900 0 + 15 * 2 ^ 56)] }

theorem witness_DillFlow_2 : allOf [
    soundB (lastAt (neverOf (sNx 1 0x950 2 0 0))), decide (((lastAt (neverOf (sNx 1 0x950 2 0 0))).dilCtx 0).p = 0x1FFF), !(lastAt (neverOf (sNx 1 0x950 2 0 0))).dilCond 0 15,
    (let s := neverOf (sNx 7 3 2 0 0)
     soundB s && !s.dilCond 0 (mCond (s.dilCtx 0).w) && decide (((s.setDil 0 { s.dilOf 0 with stopReq := some 5 }).dilOf 0).stopReq = some 5)),
    decide (mTarget ((sNx 7 4 2 0 0).dilCtx 0).w % 8 = 4), decide (mTarget ((sNx 7 3 2 0 0).dilCtx 0).w % 8 = 3), decide (mTarget ((sNx 7 2 2 0 0).dilCtx 0).w % 8 = 2), decide ((sNx 7 2 2 0 0).dilState 0 ≠ 3),
    decide (mTarget ((sNx 7 1 2 1 0x950).dilCtx 0).w % 8 = 1), ((sNx 7 1 2 1 0x950).dilTop 0).all (fun v => !bit v 16), (let s := sNx 7 2 3 1 0x00110950
     soundB s && decide (s.dilTop 0 = some 0x110950) && decide (s.dilState 0 = 3)),
    decide (0x1FFF < mTarget ((sNx 6 0x1FFF 2 0 0).dilCtx 0).w + ((sNx 6 0x1FFF 2 0 0).opA ((sNx 6 0x1FFF 2 0 0).dilCtx 0)).toNat % 16),
    transferOk 0x900 (0x950 + 7) true, !transferOk 0x900 (0x100 + 7) true, transferOk 0x900 0x950 false, decide ((sNx 3 0 2 0 0).dilStack 0 = 0),
    (let s := (((sDl (mw 1 0x900 0) 0 {}).put (pDIL 0) DIL.RUN_STAT_STATE 1).put (pDIL 0) HDR.CTRL_ENABLE 0)
     soundB s && !s.enabled (pDIL 0) && decide (s.dilState 0 = 1)),
    (let s := ((sDl (mw 1 0x900 0) 0 {}).put (pDIL 0) DIL.RUN_STAT_STATE 1).setReg (pDIL 0) 0xEC 0x900
     soundB s && decide (s.loadRefusal .bsc 0 0 0x900 = 0) && decide (s.get (pDIL 0) DIL.LD_STAT_PART + 1 < spaceParts 0) && decide ((s.put (pDIL 0) DIL.LD_STAT_PART 1).get (pDIL 0) DIL.LD_STAT_PART + 1 = spaceParts 0)),
    decide ((sDl (mw 1 0x900 0) 0 {}).loadRefusal .bsc 0 0 0x900 = 1), decide ((sDl (mw 1 0x900 0) 0 {}).loadRefusal (.core 0) 0 3 0 = 2),
    (let s := (((sDl (mw 5 0x900 0) 0 {}).setReg (pDIL 0) 0x70 0x8001).put (pDIL 0) DIL.EVT_MASK 0x8000).put (pDIL 0) (DIL.EVT_VEC_ADDR 15) 0x91C
     soundB s && decide (s.dilEvent 0 = some 15) && transferOk 0x900 0x91C true && decide (s.dilStack 0 < 8)),
    decide (((sDl (mw 1 0x900 0 + 2 ^ 63) 0 { holdRun := 63 }).dilOf 0).holdRun < 64)] = true := by decide +kernel

end W22

end Sys2Proof.Tests
end

/-! SUPPORT. The statements of the scope: every command completes, registers and buffer memory read back, absent pages, register access,
reports. -/

namespace Sys2Proof.Machine

/-! ### Buffer memory -/

theorem bufWrite_refused_byte {s : State} {m : Option Master} {a : Nat} {bs : List Byte} (h : (s.bufWrite m a bs).2 = false) (x : Nat) :
    (s.bufWrite m a bs).1.byte x = s.byte x := by
  apply byte_mem
  revert h
  unfold State.bufWrite
  split
  · exact fun _ => raiseRefusal_mem _ _ _ _
  · split
    · exact fun _ => badRead_mem _ _ _
    · intro h; cases h

theorem noteZpt_mem {s : State} (a n : Nat) : (s.noteZpt a n).mem = s.mem := by
  unfold State.noteZpt; split <;> rfl

/-- A write that lands is a store of its bytes, as far as the bytes of buffer memory show. -/
theorem bufWrite_landed_byte {s : State} {m : Option Master} {a : Nat} {bs : List Byte} (h : (s.bufWrite m a bs).2 = true) (x : Nat) :
    (s.bufWrite m a bs).1.byte x = (((s.noteZpt a bs.length).countRmw a bs.length).storeBytes a bs).byte x := by
  revert h
  unfold State.bufWrite
  split
  · intro h; cases h
  · split
    · intro h; cases h
    · exact fun _ => rfl

/-! ### The guards of the header -/

section
variable {s : State} {p : Nat} {k : State → State}

theorem hdrOn_absent (h : s.present p = false) : s.hdrOn p k = s := by
  simp [State.hdrOn, State.hdrCmd, h]

theorem hdrOn_answering (h : s.present p = true) (hm : s.motSilent p = false) (hr : s.isResetting p = false) : s.hdrOn p k = k s := by
  rw [State.motSilent] at hm
  simp [State.hdrOn, State.hdrCmd, h, hm, hr]

/-! ### Latched levels -/

theorem latchLevels_shape (s : State) (p : Nat) : ∃ r, s.latchLevels p = { s with regs := r } := by
  unfold State.latchLevels
  split
  · exact ⟨_, rfl⟩
  · exact ⟨s.regs, rfl⟩

theorem latchLevels_reg_ne {p' o' : Nat} (h : regKey p' o' ≠ regKey p 0x18) : (s.latchLevels p).reg p' o' = s.reg p' o' := by
  unfold State.latchLevels
  split
  · exact reg_setReg_ne h
  · rfl

theorem latchLevels_reg {off : Nat} (h : off / 4 ≠ 6) : (s.latchLevels p).reg p off = s.reg p off :=
  latchLevels_reg_ne (by unfold regKey; omega)

@[simp] theorem latchLevels_present (q : Nat) : (s.latchLevels p).present q = s.present q := by
  obtain ⟨r, h⟩ := latchLevels_shape s p; rw [h]; rfl

@[simp] theorem latchLevels_powered (q : Nat) : (s.latchLevels p).powered q = s.powered q := by
  obtain ⟨r, h⟩ := latchLevels_shape s p; rw [h]; rfl

@[simp] theorem latchLevels_isResetting (q : Nat) : (s.latchLevels p).isResetting q = s.isResetting q := by
  obtain ⟨r, h⟩ := latchLevels_shape s p; rw [h]; rfl

@[simp] theorem latchLevels_motSilent (q : Nat) : (s.latchLevels p).motSilent q = s.motSilent q := by
  obtain ⟨r, h⟩ := latchLevels_shape s p; rw [h]; rfl

@[simp] theorem latchLevels_byte (a : Nat) : (s.latchLevels p).byte a = s.byte a := by
  obtain ⟨r, h⟩ := latchLevels_shape s p; rw [h]; rfl

@[simp] theorem latchLevels_locked (q : Nat) : (s.latchLevels p).locked q = s.locked q := by
  unfold State.locked State.on
  rw [State.get, latchLevels_reg_ne (by simp only [regKey]; omega), State.get]

/-! ### The register region -/

theorem regAddr_toNat {off : Nat} (hp : p < 352) (ho : off < 4096) : (BitVec.ofNat 48 (regAddr p off)).toNat = regAddr p off := by
  rw [BitVec.toNat_ofNat, regAddr]; omega

theorem regAddr_page {off : Nat} (ho : off < 4096) : (regAddr p off - regBase) / 4096 = p := by
  unfold regAddr regBase; omega

theorem regAddr_off {off : Nat} (ho : off < 4096) : regAddr p off % 4096 = off := by
  unfold regAddr; omega

/-- An access by a register master to a register is `regAccess` at its address (R11). -/
theorem exec_registerWrite_at {m : Master} {w : Bool} {len : BitVec 4} {v : BitVec 64} {off : Nat} (hm : s.regMaster m = true) (hp : p < 352)
    (ho : off < 4096) :
    exec (.registerWrite m w len (BitVec.ofNat 48 (regAddr p off)) v) s = .next (s.regAccess m w len.toNat (regAddr p off) v) := by
  have hb : regBase ≤ regAddr p off ∧ regAddr p off < regEnd := by unfold regAddr regBase regEnd; omega
  simp only [exec, execRegisterWrite, regAddr_toNat hp ho, hb, hm, and_self, if_true]

theorem regAccess_write32 {m : Master} {v : BitVec 64} {off : Nat} (h : s.present p = true) (ho : off < 4096) (h4 : off % 4 = 0) :
    s.regAccess m true 4 (regAddr p off) v = (s.writeReg m p off (v.setWidth 32)).answer 0 := by
  simp [State.regAccess, regAddr_page ho, regAddr_off ho, h, h4]

theorem regAccess_read32 {m : Master} {v : BitVec 64} {off : Nat} (h : s.present p = true) (ho : off < 4096) (h4 : off % 4 = 0) :
    s.regAccess m false 4 (regAddr p off) v = s.readReg m p off := by
  simp [State.regAccess, regAddr_page ho, regAddr_off ho, h, h4]

/-- A 16-bit access is refused through SYS ACCESS (R48). -/
theorem regAccess_16bit {m : Master} {w : Bool} {v : BitVec 64} {off : Nat} (h : s.present p = true) (ho : off < 4096) :
    s.regAccess m w 2 (regAddr p off) v = (s.raiseAccess (some m) (if w then 2 else 1) (regAddr p off)).answerErr := by
  simp [State.regAccess, regAddr_page ho, h]

theorem regAccess_absent {m : Master} {w : Bool} {len addr : Nat} {v : BitVec 64} (h : s.present ((addr - regBase) / 4096) = false) :
    s.regAccess m w len addr v = s.answer 0 := by
  simp [State.regAccess, h]

theorem pageId_class (p : Nat) : pageId p / 65536 ≠ 0 := by
  unfold pageId
  dsimp only
  repeat' split
  all_goals dsimp only; omega

/-! ### Writes and reads of one register -/

section
variable {m : Master} {off : Nat} {v : Word}

theorem writeReg_header (h : s.present p = true) (hs : s.motSilent p = false) (ho : off < 0x40) :
    s.writeReg m p off v = ((s.latchLevels p).writeHdr m p off v).latchLevels p := by
  simp [State.writeReg, h, hs, ho]

theorem writeHdr_irqEn (h : s.present p = true) (hs : s.motSilent p = false) (hr : s.isResetting p = false) :
    s.writeHdr m p 0x14 v = s.setReg p 0x14 v := hdrOn_answering h hs hr

theorem writeHdr_fltStat (h : s.present p = true) (hs : s.motSilent p = false) (hr : s.isResetting p = false) :
    s.writeHdr m p 0x1C v = s.setReg p 0x1C (s.reg p 0x1C &&& ~~~ v) := hdrOn_answering h hs hr

/-- What a header write that stores `w` in its own register leaves, as the bus sees it. -/
theorem regAccess_setHdr {v : BitVec 64} {w : Word} (h : s.present p = true) (hs : s.motSilent p = false) (ho : off < 0x40) (h4 : off % 4 = 0)
    (h6 : off / 4 ≠ 6) (hw : (s.latchLevels p).writeHdr m p off (v.setWidth 32) = (s.latchLevels p).setReg p off w) :
    (s.regAccess m true 4 (regAddr p off) v).reg p off = w ∧
      (s.regAccess m true 4 (regAddr p off) v).resp = { value := 0, err := false } ∧
      ∀ a, (s.regAccess m true 4 (regAddr p off) v).byte a = s.byte a := by
  rw [regAccess_write32 h (by omega) h4, writeReg_header h hs ho, hw]
  exact ⟨(latchLevels_reg h6).trans reg_setReg_same, rfl, fun a => (latchLevels_byte a).trans (latchLevels_byte a)⟩

/-- A register of a unit that is off: PWR FL0 with the master's identity, and nothing else (R41). -/
theorem writeReg_off (h : s.present p = true) (hs : s.motSilent p = false) (ho : 0x40 ≤ off) (hw : s.powered p = false)
    (ha : alwaysOn p off = false) : s.writeReg m p off v = (s.latchLevels p).raiseBy pPWR 1 m 2 (regAddr p off) := by
  simp [State.writeReg, h, hs, hw, ha, Nat.not_lt.2 ho]

theorem readReg_off (h : s.present p = true) (hs : s.motSilent p = false) (ho : 0x40 ≤ off) (hw : s.powered p = false)
    (ha : alwaysOn p off = false) (hc : s.commitDue p s.time = false) :
    s.readReg m p off = (s.raiseBy pPWR 1 m 1 (regAddr p off)).answer 0 := by
  simp [State.readReg, State.settle, h, hs, hc, hw, ha, Nat.not_lt.2 ho]

/-! ### Pages of the kind SRVa -/

theorem accMask_eq_zero {a : Acc} (h : ∀ r ∈ regRows p off, r.acc ≠ a) : accMask p off a = 0 := by
  unfold accMask
  generalize regRows p off = l at h
  induction l with
  | nil => rfl
  | cons r l ih => rw [List.foldl_cons, if_neg (h r (by simp))]; exact ih fun x hx => h x (by simp [hx])

/-- No register of SRVa is shadowed. -/
theorem accMask_srv_sh (hk : pageKind p = some .srv) : accMask p off .sh = 0 := by
  apply accMask_eq_zero
  intro r hr
  simp only [regRows, hk, List.mem_filter] at hr
  have hrows : ∀ r ∈ hdrRows ++ srvRows, r.acc ≠ .sh := by decide
  apply hrows
  rw [List.mem_append]
  split at hr
  · exact .inl hr.1
  · exact .inr hr.1

/-- A page-specific write on a powered SRVa page is the plain part of a write alone. -/
theorem writeReg_srv (hk : pageKind p = some .srv) (h : s.present p = true) (hs : s.motSilent p = false) (hr : s.isResetting p = false)
    (hw : s.powered p = true) (ho : 0x40 ≤ off) :
    s.writeReg m p off v = ((s.latchLevels p).writePlain m p off v).latchLevels p := by
  simp [State.writeReg, State.writeShadow, State.afterWrite, State.writeOwn, accMask_srv_sh hk, h, hs, hr, hw, hk, Nat.not_lt.2 ho]

theorem pageKind_srv_ne {q : Nat} {j : PageKind} (hk : pageKind p = some .srv) (hq : pageKind q = some j) (hj : j ≠ .srv) : p ≠ q := by
  rintro rfl
  exact hj (Option.some.inj (hq.symm.trans hk))

theorem writePlain_srv (hk : pageKind p = some .srv) (hrw : accMask p off .rw ≠ 0) :
    s.writePlain m p off v =
      s.setReg p off (((s.reg p off &&& ~~~ s.storeMask p off) ||| (v &&& s.storeMask p off)) &&& ~~~ (v &&& accMask p off .w1c)) := by
  have hsys : p ≠ pSYS := pageKind_srv_ne (j := .sys) hk rfl (by decide)
  have hdma : p ≠ pDMA := pageKind_srv_ne (j := .dma) hk rfl (by decide)
  have hm : s.storeMask p off ≠ 0#32 := by
    intro e
    simp only [State.storeMask, hdma, false_and, if_false, BitVec.or_eq_zero_iff] at e
    exact hrw e.1.1
  have hrom : s.romMask m p off = 0 := by simp [State.romMask, hsys]
  have hpm : perMaster p off = false := by simp [perMaster, hk]
  have hmay : s.mayWrite p off = true := by simp [State.mayWrite, hk]
  simp [State.writePlain, hrom, hpm, hmay, hm]

theorem latchLevels_storeMask (hp : p ≠ pDMA) : (s.latchLevels p).storeMask p off = s.storeMask p off := by
  simp [State.storeMask, hp]

end

/-! ### Reports -/

theorem mem_insertReport {r : Report} {q : List Report} : r ∈ insertReport r q := by
  induction q with
  | nil => simp [insertReport]
  | cons x q ih => unfold insertReport; split <;> simp [ih]

theorem length_insertReport {r : Report} {q : List Report} : (insertReport r q).length = q.length + 1 := by
  induction q with
  | nil => rfl
  | cons x q ih => unfold insertReport; split <;> simp [ih]

/-- The report that a detection by source `b` of page `p` sends to FLT (R418). -/
def reportOf (time p b cls lvl : Nat) (d : Detail) : Report :=
  { time := time, page := p, bit := b, cls := cls, base := d.level.getD lvl, sub := d.sub, master := d.master, access := d.access, addr := d.addr, forced := d.forced }

section
variable {b cls lvl : Nat} {d : Detail}

theorem raiseWith_fltq (h : s.present p = true) (k : faultGrade p b = some (cls, lvl)) :
    (s.raiseWith p b d).fltq = insertReport (reportOf s.time p b cls lvl d) s.fltq := by
  rw [State.present] at h
  simp only [State.raiseWith, k, h, if_true]
  rfl

theorem raiseWith_reg (p' o' : Nat) (h : s.present p = true) (k : faultGrade p b = some (cls, lvl)) :
    (s.raiseWith p b d).reg p' o' = ((s.setReg p 0x1C (s.reg p 0x1C ||| BitVec.ofNat 32 (2 ^ b))).irq p 31).reg p' o' := by
  simp only [State.reg, raiseWith_regs h k]

/-- The detection sets its FLT_STAT bit (R45). -/
theorem raiseWith_fltStat (h : s.present p = true) (k : faultGrade p b = some (cls, lvl)) :
    (s.raiseWith p b d).reg p 0x1C = s.reg p 0x1C ||| BitVec.ofNat 32 (2 ^ b) := by
  rw [raiseWith_reg _ _ h k, irq_reg_ne (by unfold regKey; omega), reg_setReg_same]

/-- The detection sets FAULT of IRQ_PEND (R44). -/
theorem raiseWith_irqPend (h : s.present p = true) (k : faultGrade p b = some (cls, lvl)) :
    (s.raiseWith p b d).reg p 0x18 = s.reg p 0x18 ||| BitVec.ofNat 32 (2 ^ 31) := by
  rw [raiseWith_reg _ _ h k, State.irq, State.irqBits, reg_setReg_same, reg_setReg_ne (by unfold regKey; omega)]

end

/-- No region of the map holds the address, or the boot ROM does and the master is an application core (R33). -/
def offMap (m : Master) (a : Nat) : Prop :=
  (0x40000 ≤ a ∧ a < 0x10000000) ∨ (0x13000000 ≤ a ∧ a < 0x40000000) ∨ (0x80000000 ≤ a ∧ a < 0xF0000000) ∨
    (0xF0200000 ≤ a ∧ a < 0x100000000) ∨ 0x900000000 ≤ a ∨ (a < 0x40000 ∧ ∃ c, m = .core c)

theorem mapRefusal_offMap {m : Master} {n a : Nat} (h : offMap m a) : s.mapRefusal m n a = true := by
  unfold State.mapRefusal
  by_cases hrom : a < 0x40000
  · have hc : ∃ c, m = .core c := Classical.byContradiction fun hc => by
      simp only [offMap, hc, and_false, or_false] at h
      omega
    obtain ⟨c, rfl⟩ := hc
    rw [if_pos hrom]
  · have hout : ¬ (regBase ≤ a ∧ a < regEnd) ∧ ¬ (norWindow ≤ a ∧ a < norWindow + 2 ^ 30) ∧ ¬ (afmBase ≤ a ∧ a < sramEnd) ∧
        ¬ (dramBase ≤ a ∧ a < dramEnd) := by
      simp only [offMap, hrom, false_and, or_false] at h
      simp only [regBase, regEnd, norWindow, afmBase, sramEnd, dramBase, dramEnd]
      omega
    obtain ⟨hreg, hnor, hsram, hdram⟩ := hout
    rw [if_neg hrom, if_neg hreg, if_neg hnor]
    simp [hsram, hdram]

end

/-! ### Every command completes -/

/-- A meaning answers a next state: none of its branches faults or refuses. -/
def Answers (o : Out) : Prop := ∃ t, o = .next t

theorem answers_next (t : State) : Answers (.next t) := ⟨t, rfl⟩

/-- A meaning answers a next state that keeps what every operation keeps. -/
def Completes (s : State) (o : Out) : Prop := ∃ t, o = .next t ∧ Keeps s t

theorem completes_next {s t : State} (h : Keeps s t) : Completes s (.next t) := ⟨t, rfl, h⟩

theorem Answers.completes {s : State} {o : Out} (h : Answers o) (k : KeepsOut s o) : Completes s o := by
  obtain ⟨t, rfl⟩ := h
  exact completes_next k

/-! #### Furrow -/

theorem execTrackerEnterTrack_answers {s} : Answers (execTrackerEnterTrack s) := by
  dsimp only [execTrackerEnterTrack]; split <;> exact answers_next _

theorem execTrackerLocked_answers {s} : Answers (execTrackerLocked s) := by
  dsimp only [execTrackerLocked]; split <;> exact answers_next _

theorem execTrackerHoldover_answers {s} : Answers (execTrackerHoldover s) := by
  dsimp only [execTrackerHoldover]; split <;> exact answers_next _

theorem execTrackerLost_answers {s} : Answers (execTrackerLost s) := by
  dsimp only [execTrackerLost]; split <;> exact answers_next _

theorem execTrackToAcquire_answers {s} : Answers (execTrackToAcquire s) := by
  dsimp only [execTrackToAcquire]; split <;> exact answers_next _

theorem execAcqTimeout_answers {s} : Answers (execAcqTimeout s) := by
  dsimp only [execAcqTimeout]; split <;> exact answers_next _

/-! #### Drill -/

theorem execFinalResolution_answers {d s} : Answers (execFinalResolution d s) := by
  dsimp only [execFinalResolution]; repeat' split
  all_goals exact answers_next _

theorem execMissed_answers {d s} : Answers (execMissed d s) := by
  dsimp only [execMissed]; split <;> exact answers_next _

/-! #### Commit -/

theorem execApply_answers {d s} : Answers (execApply d s) := by
  dsimp only [execApply]; split <;> exact answers_next _

/-! #### Link -/

theorem execHeat_answers {a s} : Answers (execHeat a s) := by
  dsimp only [execHeat]; split <;> exact answers_next _

theorem execPreReg_answers {a s} : Answers (execPreReg a s) := by
  dsimp only [execPreReg]; split <;> exact answers_next _

theorem execRspTimeout_answers {a s} : Answers (execRspTimeout a s) := by
  dsimp only [execRspTimeout]; repeat' split
  all_goals exact answers_next _

theorem execLinkTrainingEnd_answers {a rsp high s} : Answers (execLinkTrainingEnd a rsp high s) := by
  dsimp only [execLinkTrainingEnd]; repeat' split
  all_goals exact answers_next _

/-! #### Front end -/

theorem execAfeWake_answers {h delay s} : Answers (execAfeWake h delay s) := by
  dsimp only [execAfeWake]; split <;> exact answers_next _

theorem execClipRun_answers {h rdB s} : Answers (execClipRun h rdB s) := by
  dsimp only [execClipRun]; repeat' split
  all_goals exact answers_next _

theorem execAdcStuck_answers {h rdB s} : Answers (execAdcStuck h rdB s) := by
  dsimp only [execAdcStuck]; repeat' split
  all_goals exact answers_next _

/-! #### Signal -/

theorem execAdaptBlock_answers {h xa xb errs s} : Answers (execAdaptBlock h xa xb errs s) := by
  dsimp only [execAdaptBlock]; split <;> exact answers_next _

/-! #### Aftermath -/

theorem execReleaseDone_answers {h slot s} : Answers (execReleaseDone h slot s) := by
  dsimp only [execReleaseDone]; repeat' split
  all_goals exact answers_next _

theorem execJobDispatch_answers {s} : Answers (execJobDispatch s) := by
  dsimp only [execJobDispatch]; repeat' split
  all_goals exact answers_next _

theorem execDeepTryEnd_answers {d r llr llr2 s} : Answers (execDeepTryEnd d r llr llr2 s) := by
  dsimp only [execDeepTryEnd]; split <;> exact answers_next _

theorem execDeepJobEnd_answers {d s} : Answers (execDeepJobEnd d s) := by
  dsimp only [execDeepJobEnd]; repeat' split
  all_goals exact answers_next _

/-! #### Read path -/

theorem execRgOpen_answers {a s} : Answers (execRgOpen a s) := by
  dsimp only [execRgOpen]; split <;> exact answers_next _

theorem execRgClose_answers {a errs s} : Answers (execRgClose a errs s) := by
  dsimp only [execRgClose]; split <;> exact answers_next _

theorem execSyncSearchEnd_answers {h hard s} : Answers (execSyncSearchEnd h hard s) := by
  dsimp only [execSyncSearchEnd]; split <;> exact answers_next _

theorem execResyncSearchEnd_answers {h hard s} : Answers (execResyncSearchEnd h hard s) := by
  dsimp only [execResyncSearchEnd]; split <;> exact answers_next _

theorem execDetectorPassEnd_answers {h llr older s} : Answers (execDetectorPassEnd h llr older s) := by
  dsimp only [execDetectorPassEnd]; repeat' split
  all_goals exact answers_next _

theorem execDecodeEnd_answers {h r s} : Answers (execDecodeEnd h r s) := by
  dsimp only [execDecodeEnd]; repeat' split
  all_goals exact answers_next _

/-! #### Write path -/

theorem execWgOpen_answers {a s} : Answers (execWgOpen a s) := by
  dsimp only [execWgOpen]; split <;> exact answers_next _

theorem execWgClose_answers {a s} : Answers (execWgClose a s) := by
  dsimp only [execWgClose]; split <;> exact answers_next _

theorem execWriteFifoFill_answers {h s} : Answers (execWriteFifoFill h s) := by
  dsimp only [execWriteFifoFill]; repeat' split
  all_goals exact answers_next _

theorem execUnderrun_answers {h s} : Answers (execUnderrun h s) := by
  dsimp only [execUnderrun]; repeat' split
  all_goals exact answers_next _

theorem execWriteSectorEnd_answers {h s} : Answers (execWriteSectorEnd h s) := by
  dsimp only [execWriteSectorEnd]; repeat' split
  all_goals exact answers_next _

theorem execShockRelease_answers {n mag s} : Answers (execShockRelease n mag s) := by
  dsimp only [execShockRelease]; split <;> exact answers_next _

theorem execShockHoldEnd_answers {a s} : Answers (execShockHoldEnd a s) := by
  dsimp only [execShockHoldEnd]; split <;> exact answers_next _

theorem execAalertRise_answers {a s} : Answers (execAalertRise a s) := by
  dsimp only [execAalertRise]; repeat' split
  all_goals exact answers_next _

theorem execAlertStuck_answers {a s} : Answers (execAlertStuck a s) := by
  dsimp only [execAlertStuck]; split <;> exact answers_next _

theorem execResponseFrame_answers {a typ head seq reg data crcOk high s} : Answers (execResponseFrame a typ head seq reg data crcOk high s) := by
  dsimp only [execResponseFrame]; repeat' split
  all_goals exact answers_next _

/-! #### Stripe parity -/

theorem execStpStart_answers {a s} : Answers (execStpStart a s) := by
  dsimp only [execStpStart]; split <;> exact answers_next _

theorem execStpRecord_answers {s} : Answers (execStpRecord s) := by
  dsimp only [execStpRecord]; repeat' split
  all_goals exact answers_next _

theorem execStripeTimeout_answers {i s} : Answers (execStripeTimeout i s) := by
  dsimp only [execStripeTimeout]; split <;> exact answers_next _

theorem execRebuildStart_answers {s} : Answers (execRebuildStart s) := by
  dsimp only [execRebuildStart]; repeat' split
  all_goals exact answers_next _

theorem execRebuildEnd_answers {i s} : Answers (execRebuildEnd i s) := by
  dsimp only [execRebuildEnd]; split <;> exact answers_next _

/-! #### Dill -/

theorem execWaitRelease_answers {a s} : Answers (execWaitRelease a s) := by
  dsimp only [execWaitRelease]; split <;> exact answers_next _

theorem execEventTaken_answers {a s} : Answers (execEventTaken a s) := by
  dsimp only [execEventTaken]; repeat' split
  all_goals exact answers_next _

theorem execHoldRun_answers {a s} : Answers (execHoldRun a s) := by
  dsimp only [execHoldRun]; split <;> exact answers_next _

theorem execEvent_answers {d s} : Answers (execEvent d s) := by
  dsimp only [execEvent]; split <;> exact answers_next _

/-! #### Servo -/

theorem execServoSample_answers {a rdA rdB s} : Answers (execServoSample a rdA rdB s) := by
  dsimp only [execServoSample]; repeat' split
  all_goals exact answers_next _

/-! #### Tiller -/

theorem execTillerCompute_answers {a j corrected s} : Answers (execTillerCompute a j corrected s) := by
  dsimp only [execTillerCompute]; repeat' split
  all_goals exact answers_next _

theorem execMissLimit_answers {a j s} : Answers (execMissLimit a j s) := by
  dsimp only [execMissLimit]; repeat' split
  all_goals exact answers_next _

theorem execOutputFrame_answers {a s} : Answers (execOutputFrame a s) := by
  dsimp only [execOutputFrame]; split <;> exact answers_next _

theorem execOverrunLimit_answers {a s} : Answers (execOverrunLimit a s) := by
  dsimp only [execOverrunLimit]; split <;> exact answers_next _

theorem execMaOffset_answers {a s} : Answers (execMaOffset a s) := by
  dsimp only [execMaOffset]; repeat' split
  all_goals exact answers_next _

/-! #### Spindle -/

theorem execSenseEnd_answers {amp crossings fwd per next step s} : Answers (execSenseEnd amp crossings fwd per next step s) := by
  dsimp only [execSenseEnd]; repeat' split
  all_goals exact answers_next _

theorem execPrebrakeEnd_answers {amp s} : Answers (execPrebrakeEnd amp s) := by
  dsimp only [execPrebrakeEnd]; split <;> exact answers_next _

theorem execAlignEnd_answers {s} : Answers (execAlignEnd s) := by
  dsimp only [execAlignEnd]; split <;> exact answers_next _

theorem execRampStep_answers {s} : Answers (execRampStep s) := by
  dsimp only [execRampStep]; repeat' split
  all_goals exact answers_next _

theorem execStartTimeout_answers {s} : Answers (execStartTimeout s) := by
  dsimp only [execStartTimeout]; repeat' split
  all_goals exact answers_next _

theorem execZeroCrossing_answers {xs s} : Answers (execZeroCrossing xs s) := by
  dsimp only [execZeroCrossing]; repeat' split
  all_goals exact answers_next _

theorem execCommutation_answers {rest s} : Answers (execCommutation rest s) := by
  dsimp only [execCommutation]; split <;> exact answers_next _

theorem execZcMiss_answers {xs s} : Answers (execZcMiss xs s) := by
  dsimp only [execZcMiss]; repeat' split
  all_goals exact answers_next _

theorem execWedgeTimeToSpn_answers {s} : Answers (execWedgeTimeToSpn s) := by
  dsimp only [execWedgeTimeToSpn]; repeat' split
  all_goals exact answers_next _

theorem execAtSpeedSet_answers {s} : Answers (execAtSpeedSet s) := by
  dsimp only [execAtSpeedSet]; split <;> exact answers_next _

theorem execSpeedLoss_answers {s} : Answers (execSpeedLoss s) := by
  dsimp only [execSpeedLoss]; split <;> exact answers_next _

theorem execSpnOvr_answers {s} : Answers (execSpnOvr s) := by
  dsimp only [execSpnOvr]; repeat' split
  all_goals exact answers_next _

theorem execOvrApply_answers {s} : Answers (execOvrApply s) := by
  dsimp only [execOvrApply]; repeat' split
  all_goals exact answers_next _

theorem execVmSample_answers {vm s} : Answers (execVmSample vm s) := by
  dsimp only [execVmSample]; split <;> exact answers_next _

theorem execChopperOn_answers {s} : Answers (execChopperOn s) := by
  dsimp only [execChopperOn]; split <;> exact answers_next _

theorem execChopperOff_answers {s} : Answers (execChopperOff s) := by
  dsimp only [execChopperOff]; split <;> exact answers_next _

theorem execChopFail_answers {sense s} : Answers (execChopFail sense s) := by
  dsimp only [execChopFail]; split <;> exact answers_next _

theorem execRegenEnd_answers {s} : Answers (execRegenEnd s) := by
  dsimp only [execRegenEnd]; split <;> exact answers_next _

theorem execSpinStopped_answers {amp s} : Answers (execSpinStopped amp s) := by
  dsimp only [execSpinStopped]; split <;> exact answers_next _

theorem execD2dLoss_answers {s} : Answers (execD2dLoss s) := by
  dsimp only [execD2dLoss]; split <;> exact answers_next _

/-! #### Seek -/

theorem execProfileStart_answers {a s} : Answers (execProfileStart a s) := by
  dsimp only [execProfileStart]; repeat' split
  all_goals exact answers_next _

theorem execSeekStart_answers {a s} : Answers (execSeekStart a s) := by
  dsimp only [execSeekStart]; repeat' split
  all_goals exact answers_next _

theorem execProfileSample_answers {a s} : Answers (execProfileSample a s) := by
  dsimp only [execProfileSample]; repeat' split
  all_goals exact answers_next _

theorem execSettleRequest_answers {a s} : Answers (execSettleRequest a s) := by
  dsimp only [execSettleRequest]; split <;> exact answers_next _

theorem execFollowRequest_answers {a s} : Answers (execFollowRequest a s) := by
  dsimp only [execFollowRequest]; split <;> exact answers_next _

theorem execSeekTimeout_answers {a s} : Answers (execSeekTimeout a s) := by
  dsimp only [execSeekTimeout]; split <;> exact answers_next _

theorem execStopComplete_answers {a s} : Answers (execStopComplete a s) := by
  dsimp only [execStopComplete]; repeat' split
  all_goals exact answers_next _

theorem execOutputApply_answers {a s} : Answers (execOutputApply a s) := by
  dsimp only [execOutputApply]; repeat' split
  all_goals exact answers_next _

theorem execServoFound_answers {a s} : Answers (execServoFound a s) := by
  dsimp only [execServoFound]; split <;> exact answers_next _

theorem execStopAchieved_answers {a code xs s} : Answers (execStopAchieved a code xs s) := by
  dsimp only [execStopAchieved]; split <;> exact answers_next _

theorem execRampStop_answers {a xs s} : Answers (execRampStop a xs s) := by
  dsimp only [execRampStop]; split <;> exact answers_next _

theorem execPushDone_answers {a s} : Answers (execPushDone a s) := by
  dsimp only [execPushDone]; split <;> exact answers_next _

theorem execRampTimeout_answers {a s} : Answers (execRampTimeout a s) := by
  dsimp only [execRampTimeout]; repeat' split
  all_goals exact answers_next _

theorem execFenceUnload_answers {a s} : Answers (execFenceUnload a s) := by
  dsimp only [execFenceUnload]; split <;> exact answers_next _

theorem execRetractStart_answers {vhold s} : Answers (execRetractStart vhold s) := by
  dsimp only [execRetractStart]; split <;> exact answers_next _

theorem execRetractPhase1End_answers {a xs vhold s} : Answers (execRetractPhase1End a xs vhold s) := by
  dsimp only [execRetractPhase1End]; split <;> exact answers_next _

theorem execRetractEnd_answers {a vhold s} : Answers (execRetractEnd a vhold s) := by
  dsimp only [execRetractEnd]; repeat' split
  all_goals exact answers_next _

theorem execBoostReady_answers {s} : Answers (execBoostReady s) := by
  dsimp only [execBoostReady]; split <;> exact answers_next _

theorem execBoostFail_answers {s} : Answers (execBoostFail s) := by
  dsimp only [execBoostFail]; split <;> exact answers_next _

theorem execVcmFault_answers {a s} : Answers (execVcmFault a s) := by
  dsimp only [execVcmFault]; split <;> exact answers_next _

theorem execShockTrip_answers {n mag s} : Answers (execShockTrip n mag s) := by
  dsimp only [execShockTrip]; split <;> exact answers_next _

/-! #### Buffer manager -/

theorem execTrainingDone_answers {fails eyes s} : Answers (execTrainingDone fails eyes s) := by
  dsimp only [execTrainingDone]; repeat' split
  all_goals exact answers_next _

theorem execDramFillDone_answers {s} : Answers (execDramFillDone s) := by
  dsimp only [execDramFillDone]; split <;> exact answers_next _

theorem execSelfRefreshEntered_answers {s} : Answers (execSelfRefreshEntered s) := by
  dsimp only [execSelfRefreshEntered]; split <;> exact answers_next _

theorem execSelfRefreshExited_answers {s} : Answers (execSelfRefreshExited s) := by
  dsimp only [execSelfRefreshExited]; split <;> exact answers_next _

theorem execMr4Poll_answers {c code hot s} : Answers (execMr4Poll c code hot s) := by
  dsimp only [execMr4Poll]; split <;> exact answers_next _

theorem execRfmRequest_answers {c s} : Answers (execRfmRequest c s) := by
  dsimp only [execRfmRequest]; split <;> exact answers_next _

theorem execDramPhyFault_answers {c s} : Answers (execDramPhyFault c s) := by
  dsimp only [execDramPhyFault]; split <;> exact answers_next _

theorem execBufferRequest_answers {m write addr len data s} : Answers (execBufferRequest m write addr len data s) := by
  dsimp only [execBufferRequest]; repeat' split
  all_goals exact answers_next _

theorem execArbiterGrant_answers {r e s} : Answers (execArbiterGrant r e s) := by
  dsimp only [execArbiterGrant]; repeat' split
  all_goals exact answers_next _

theorem execSrtLookupEnd_answers {s} : Answers (execSrtLookupEnd s) := by
  dsimp only [execSrtLookupEnd]; split <;> exact answers_next _

theorem execShiftDone_answers {s} : Answers (execShiftDone s) := by
  dsimp only [execShiftDone]; split <;> exact answers_next _

theorem execCheckDone_answers {s} : Answers (execCheckDone s) := by
  dsimp only [execCheckDone]; split <;> exact answers_next _

/-! #### Metadata cache -/

theorem execMdcFillReturn_answers {i beat e s} : Answers (execMdcFillReturn i beat e s) := by
  dsimp only [execMdcFillReturn]; repeat' split
  all_goals exact answers_next _

theorem execVictimWritebackDone_answers {i s} : Answers (execVictimWritebackDone i s) := by
  dsimp only [execVictimWritebackDone]; repeat' split
  all_goals exact answers_next _

theorem execMaintDone_answers {s} : Answers (execMaintDone s) := by
  dsimp only [execMaintDone]; repeat' split
  all_goals exact answers_next _

theorem execBypassEntered_answers {s} : Answers (execBypassEntered s) := by
  dsimp only [execBypassEntered]; split <;> exact answers_next _

/-! #### Gleaner -/

theorem execGleanerBeat_answers {dram e raced spot s} : Answers (execGleanerBeat dram e raced spot s) := by
  dsimp only [execGleanerBeat]; repeat' split
  all_goals exact answers_next _

theorem execLapEnd_answers {dram s} : Answers (execLapEnd dram s) := by
  dsimp only [execLapEnd]; repeat' split
  all_goals exact answers_next _

theorem execLapLate_answers {dram s} : Answers (execLapLate dram s) := by
  dsimp only [execLapLate]; repeat' split
  all_goals exact answers_next _

/-! #### Dma -/

theorem execDescriptorFetch_answers {c s} : Answers (execDescriptorFetch c s) := by
  dsimp only [execDescriptorFetch]; repeat' split
  all_goals exact answers_next _

theorem execDescriptorComplete_answers {c s} : Answers (execDescriptorComplete c s) := by
  dsimp only [execDescriptorComplete]; repeat' split
  all_goals exact answers_next _

theorem execPostedAck_answers {p s} : Answers (execPostedAck p s) := by
  dsimp only [execPostedAck]; repeat' split
  all_goals exact answers_next _

theorem execPostedLost_answers {c s} : Answers (execPostedLost c s) := by
  dsimp only [execPostedLost]; repeat' split
  all_goals exact answers_next _

theorem execDescriptorTimeout_answers {c second s} : Answers (execDescriptorTimeout c second s) := by
  dsimp only [execDescriptorTimeout]; repeat' split
  all_goals exact answers_next _

theorem execAbortDrained_answers {c s} : Answers (execAbortDrained c s) := by
  dsimp only [execAbortDrained]; split <;> exact answers_next _

/-! #### Supply -/

theorem execWriteWindowClose_answers {s} : Answers (execWriteWindowClose s) := by
  dsimp only [execWriteWindowClose]; repeat' split
  all_goals exact answers_next _

/-! #### Host ports -/

theorem execLinkUp_answers {p speed width s} : Answers (execLinkUp p speed width s) := by
  dsimp only [execLinkUp]; split <;> exact answers_next _

theorem execLinkDown_answers {p disabled s} : Answers (execLinkDown p disabled s) := by
  dsimp only [execLinkDown]; split <;> exact answers_next _

theorem execTrainFail_answers {p s} : Answers (execTrainFail p s) := by
  dsimp only [execTrainFail]; repeat' split
  all_goals exact answers_next _

theorem execL0pNarrow_answers {p s} : Answers (execL0pNarrow p s) := by
  dsimp only [execL0pNarrow]; repeat' split
  all_goals exact answers_next _

theorem execFlrTmo_answers {p s} : Answers (execFlrTmo p s) := by
  dsimp only [execFlrTmo]; repeat' split
  all_goals exact answers_next _

theorem execConfigRequest_answers {p write i be v s} : Answers (execConfigRequest p write i be v s) := by
  dsimp only [execConfigRequest]; repeat' split
  all_goals exact answers_next _

theorem execPbaSend_answers {p v s} : Answers (execPbaSend p v s) := by
  dsimp only [execPbaSend]; split <;> exact answers_next _

theorem execMsixTableAccess_answers {p write off len data s} : Answers (execMsixTableAccess p write off len data s) := by
  dsimp only [execMsixTableAccess]; repeat' split
  all_goals exact answers_next _

theorem execInboundWrite_answers {p off data s0} : Answers (execInboundWrite p off data s0) := by
  dsimp only [execInboundWrite]; repeat' split
  all_goals exact answers_next _

theorem execInboundRead_answers {p off len s0} : Answers (execInboundRead p off len s0) := by
  dsimp only [execInboundRead]; repeat' split
  all_goals exact answers_next _

theorem execCplTimeout_answers {c i s} : Answers (execCplTimeout c i s) := by
  dsimp only [execCplTimeout]; split <;> exact answers_next _

theorem execPoisonedTlp_answers {p cpl s} : Answers (execPoisonedTlp p cpl s) := by
  dsimp only [execPoisonedTlp]; split <;> exact answers_next _

theorem execDoeObject_answers {p ws s} : Answers (execDoeObject p ws s) := by
  dsimp only [execDoeObject]; repeat' split
  all_goals exact answers_next _

theorem execDoeAbort_answers {p s} : Answers (execDoeAbort p s) := by
  dsimp only [execDoeAbort]; split <;> exact answers_next _

theorem execDoorbellWrite_answers {p off len full v s} : Answers (execDoorbellWrite p off len full v s) := by
  dsimp only [execDoorbellWrite]; repeat' split
  all_goals exact answers_next _

/-! #### Serial flash -/

theorem execStatusPoll_answers {status complete wrong s} : Answers (execStatusPoll status complete wrong s) := by
  dsimp only [execStatusPoll]; repeat' split
  all_goals exact answers_next _

theorem execNorOpTimeout_answers {s} : Answers (execNorOpTimeout s) := by
  dsimp only [execNorOpTimeout]; repeat' split
  all_goals exact answers_next _

theorem execNorOpDone_answers {s} : Answers (execNorOpDone s) := by
  dsimp only [execNorOpDone]; repeat' split
  all_goals exact answers_next _

theorem execNorProbe_answers {ok0 ok1 s} : Answers (execNorProbe ok0 ok1 s) := by
  dsimp only [execNorProbe]; split <;> exact answers_next _

theorem execProbeDone_answers {s} : Answers (execProbeDone s) := by
  dsimp only [execProbeDone]; repeat' split
  all_goals exact answers_next _

theorem execNorRead_answers {m write addr len s} : Answers (execNorRead m write addr len s) := by
  dsimp only [execNorRead]; repeat' split
  all_goals exact answers_next _

theorem execNorReadDone_answers {lost s} : Answers (execNorReadDone lost s) := by
  dsimp only [execNorReadDone]; repeat' split
  all_goals exact answers_next _

/-! #### Security -/

theorem execFuseProgDone_answers {back s} : Answers (execFuseProgDone back s) := by
  dsimp only [execFuseProgDone]; split <;> exact answers_next _

theorem execJobDone_answers {s} : Answers (execJobDone s) := by
  dsimp only [execJobDone]; split <;> exact answers_next _

theorem execRngHealth_answers {pass s} : Answers (execRngHealth pass s) := by
  dsimp only [execRngHealth]; split <;> exact answers_next _

/-! #### Smbus -/

theorem execSmbWriteReceived_answers {addr data pecOk s} : Answers (execSmbWriteReceived addr data pecOk s) := by
  dsimp only [execSmbWriteReceived]; repeat' split
  all_goals exact answers_next _

theorem execSmbTargetRead_answers {addr n s} : Answers (execSmbTargetRead addr n s) := by
  dsimp only [execSmbTargetRead]; split <;> exact answers_next _

theorem execSmbTimeout_answers {s} : Answers (execSmbTimeout s) := by
  dsimp only [execSmbTimeout]; split <;> exact answers_next _

/-! #### Faults -/

theorem execFaultEvent_answers {det s} : Answers (execFaultEvent det s) := by
  dsimp only [execFaultEvent]; split <;> exact answers_next _

theorem execUnfenceDone_answers {s} : Answers (execUnfenceDone s) := by
  dsimp only [execUnfenceDone]; split <;> exact answers_next _

theorem execWdogExpired_answers {s} : Answers (execWdogExpired s) := by
  dsimp only [execWdogExpired]; split <;> exact answers_next _

/-! #### Power -/

theorem execOscStable_answers {s} : Answers (execOscStable s) := by
  dsimp only [execOscStable]; split <;> exact answers_next _

theorem execPllLock_answers {us s} : Answers (execPllLock us s) := by
  dsimp only [execPllLock]; repeat' split
  all_goals exact answers_next _

theorem execDomainRampStart_answers {s} : Answers (execDomainRampStart s) := by
  dsimp only [execDomainRampStart]; repeat' split
  all_goals exact answers_next _

theorem execDomainUp_answers {d phase bad s} : Answers (execDomainUp d phase bad s) := by
  dsimp only [execDomainUp]; repeat' split
  all_goals exact answers_next _

theorem execDomainFailed_answers {d s} : Answers (execDomainFailed d s) := by
  dsimp only [execDomainFailed]; split <;> exact answers_next _

theorem execDomainOff_answers {d s} : Answers (execDomainOff d s) := by
  dsimp only [execDomainOff]; split <;> exact answers_next _

theorem execTempSample_answers {ts s} : Answers (execTempSample ts s) := by
  dsimp only [execTempSample]; split <;> exact answers_next _

/-! #### Control -/

theorem execSoftReset_answers {m p pr s} : Answers (execSoftReset m p pr s) := by
  dsimp only [execSoftReset]; split <;> exact answers_next _

theorem execSoftResetDone_answers {p s} : Answers (execSoftResetDone p s) := by
  dsimp only [execSoftResetDone]; split <;> exact answers_next _

/-! #### Start up -/

theorem execWarmReset_answers {s} : Answers (execWarmReset s) := by
  dsimp only [execWarmReset]; split <;> exact answers_next _

theorem execMotionPowerOnReset_answers {v5 vhold s} : Answers (execMotionPowerOnReset v5 vhold s) := by
  dsimp only [execMotionPowerOnReset]; split <;> exact answers_next _

theorem execFuseRead_answers {ue s} : Answers (execFuseRead ue s) := by
  dsimp only [execFuseRead]; repeat' split
  all_goals exact answers_next _

theorem execInitFillDone_answers {rom fails s} : Answers (execInitFillDone rom fails s) := by
  dsimp only [execInitFillDone]; repeat' split
  all_goals exact answers_next _

/-! #### Access -/

theorem execRefusedAccess_answers {m write addr len s} : Answers (execRefusedAccess m write addr len s) := by
  dsimp only [execRefusedAccess]; repeat' split
  all_goals exact answers_next _

/-! #### Dill bus -/

theorem execXrd_answers {a s} : Answers (execXrd a s) := by
  dsimp only [execXrd]; repeat' split
  all_goals exact answers_next _

/-! #### Host bar -/

theorem execBar0Request_answers {p write off en data s} : Answers (execBar0Request p write off en data s) := by
  dsimp only [execBar0Request]; repeat' split
  all_goals exact answers_next _

/-- Every command answers a next state, and that state keeps what every operation keeps. -/
theorem exec_completes (c : Instr) (s : State) : Completes s (exec c s) :=
  match c with
  | .registerWrite .. => completes_next (execRegisterWrite_keeps (.refl s))
  | .refusedAccess .. => execRefusedAccess_answers.completes (execRefusedAccess_keeps (.refl s))
  | .powerOnReset .. => completes_next (execPowerOnReset_keeps (.refl s))
  | .motionPowerOnReset .. => execMotionPowerOnReset_answers.completes (execMotionPowerOnReset_keeps (.refl s))
  | .warmReset => execWarmReset_answers.completes (execWarmReset_keeps (.refl s))
  | .rstCtrlWarm .. => completes_next (execRstCtrlWarm_keeps (.refl s))
  | .jtagWarmReset => completes_next (execJtagWarmReset_keeps (.refl s))
  | .enable m .. => completes_next (execEnable_keeps (m := m) (.refl s))
  | .softReset m .. => execSoftReset_answers.completes (execSoftReset_keeps (m := m) (.refl s))
  | .softResetDone .. => execSoftResetDone_answers.completes (execSoftResetDone_keeps (.refl s))
  | .powerReq m .. => completes_next (execPowerReq_keeps (m := m) (.refl s))
  | .irqPendClear m .. => completes_next (execIrqPendClear_keeps (m := m) (.refl s))
  | .fltForce m .. => completes_next (execFltForce_keeps (m := m) (.refl s))
  | .lock m .. => completes_next (execLock_keeps (m := m) (.refl s))
  | .irqClaim .. => completes_next (execIrqClaim_keeps (.refl s))
  | .irqDone .. => completes_next (execIrqDone_keeps (.refl s))
  | .shadowArm m .. => completes_next (execShadowArm_keeps (m := m) (.refl s))
  | .shadowCommit .. => completes_next (execShadowCommit_keeps (.refl s))
  | .pllLock .. => execPllLock_answers.completes (execPllLock_keeps (.refl s))
  | .oscStable => execOscStable_answers.completes (execOscStable_keeps (.refl s))
  | .counterMismatch => completes_next (execCounterMismatch_keeps (.refl s))
  | .timeLoRead .. => completes_next (execTimeLoRead_keeps (.refl s))
  | .trackEn .. => completes_next (execTrackEn_keeps (.refl s))
  | .wedges .. => completes_next (execWedges_keeps (.refl s))
  | .wedgeMeasurement => completes_next (execWedgeMeasurement_keeps (.refl s))
  | .trackerEnterTrack => execTrackerEnterTrack_answers.completes (execTrackerEnterTrack_keeps (.refl s))
  | .trackerLocked => execTrackerLocked_answers.completes (execTrackerLocked_keeps (.refl s))
  | .trackerHoldover => execTrackerHoldover_answers.completes (execTrackerHoldover_keeps (.refl s))
  | .trackerLost => execTrackerLost_answers.completes (execTrackerLost_keeps (.refl s))
  | .trackToAcquire => execTrackToAcquire_answers.completes (execTrackToAcquire_keeps (.refl s))
  | .acqTimeout => execAcqTimeout_answers.completes (execAcqTimeout_keeps (.refl s))
  | .directEnqueue .. => completes_next (execDirectEnqueue_keeps (.refl s))
  | .batchAdmission .. => completes_next (execBatchAdmission_keeps (.refl s))
  | .finalResolution .. => execFinalResolution_answers.completes (execFinalResolution_keeps (.refl s))
  | .rgOpen .. => execRgOpen_answers.completes (execRgOpen_keeps (.refl s))
  | .rgClose .. => execRgClose_answers.completes (execRgClose_keeps (.refl s))
  | .wgOpen .. => execWgOpen_answers.completes (execWgOpen_keeps (.refl s))
  | .wgClose .. => execWgClose_answers.completes (execWgClose_keeps (.refl s))
  | .heat .. => execHeat_answers.completes (execHeat_keeps (.refl s))
  | .preReg .. => execPreReg_answers.completes (execPreReg_keeps (.refl s))
  | .apply .. => execApply_answers.completes (execApply_keeps (.refl s))
  | .maOffset .. => execMaOffset_answers.completes (execMaOffset_keeps (.refl s))
  | .stpStart .. => execStpStart_answers.completes (execStpStart_keeps (.refl s))
  | .profileStart .. => execProfileStart_answers.completes (execProfileStart_keeps (.refl s))
  | .spnOvr => execSpnOvr_answers.completes (execSpnOvr_keeps (.refl s))
  | .event .. => execEvent_answers.completes (execEvent_keeps (.refl s))
  | .missed .. => execMissed_answers.completes (execMissed_keeps (.refl s))
  | .flush .. => completes_next (execFlush_keeps (.refl s))
  | .flushDone .. => completes_next (execFlushDone_keeps (.refl s))
  | .qCancel .. => completes_next (execQCancel_keeps (.refl s))
  | .afeWake .. => execAfeWake_answers.completes (execAfeWake_keeps (.refl s))
  | .adaptBlock .. => execAdaptBlock_answers.completes (execAdaptBlock_keeps (.refl s))
  | .clipRun .. => execClipRun_answers.completes (execClipRun_keeps (.refl s))
  | .adcStuck .. => execAdcStuck_answers.completes (execAdcStuck_keeps (.refl s))
  | .zptSel .. => completes_next (execZptSel_keeps (.refl s))
  | .cmdWriteFrame .. => completes_next (execCmdWriteFrame_keeps (.refl s))
  | .cmdReadFrame .. => completes_next (execCmdReadFrame_keeps (.refl s))
  | .cmdStatusReq .. => completes_next (execCmdStatusReq_keeps (.refl s))
  | .cmdTypeRefused .. => completes_next (execCmdTypeRefused_keeps (.refl s))
  | .frameStart .. => completes_next (execFrameStart_keeps (.refl s))
  | .responseFrame (reg := r) .. => execResponseFrame_answers.completes (execResponseFrame_keeps (reg := r) (.refl s))
  | .rspTimeout .. => execRspTimeout_answers.completes (execRspTimeout_keeps (.refl s))
  | .aalertRise .. => execAalertRise_answers.completes (execAalertRise_keeps (.refl s))
  | .alertStuck .. => execAlertStuck_answers.completes (execAlertStuck_keeps (.refl s))
  | .alertUnmask .. => completes_next (execAlertUnmask_keeps (.refl s))
  | .linkTrainingEnd .. => execLinkTrainingEnd_answers.completes (execLinkTrainingEnd_keeps (.refl s))
  | .syncSearchEnd .. => execSyncSearchEnd_answers.completes (execSyncSearchEnd_keeps (.refl s))
  | .resyncSearchEnd .. => execResyncSearchEnd_answers.completes (execResyncSearchEnd_keeps (.refl s))
  | .detectorPassEnd .. => execDetectorPassEnd_answers.completes (execDetectorPassEnd_keeps (.refl s))
  | .decodeEnd .. => execDecodeEnd_answers.completes (execDecodeEnd_keeps (.refl s))
  | .fragmentTimeout .. => completes_next (execFragmentTimeout_keeps (.refl s))
  | .release .. => completes_next (execRelease_keeps (.refl s))
  | .releaseDone .. => execReleaseDone_answers.completes (execReleaseDone_keeps (.refl s))
  | .redecode .. => completes_next (execRedecode_keeps (.refl s))
  | .reframe .. => completes_next (execReframe_keeps (.refl s))
  | .joint .. => completes_next (execJoint_keeps (.refl s))
  | .sweep .. => completes_next (execSweep_keeps (.refl s))
  | .jobDispatch => execJobDispatch_answers.completes (execJobDispatch_keeps (.refl s))
  | .deepTryEnd .. => execDeepTryEnd_answers.completes (execDeepTryEnd_keeps (.refl s))
  | .deepJobEnd .. => execDeepJobEnd_answers.completes (execDeepJobEnd_keeps (.refl s))
  | .wqWr .. => completes_next (execWqWr_keeps (.refl s))
  | .writeFifoFill .. => execWriteFifoFill_answers.completes (execWriteFifoFill_keeps (.refl s))
  | .underrun .. => execUnderrun_answers.completes (execUnderrun_keeps (.refl s))
  | .writeSectorEnd .. => execWriteSectorEnd_answers.completes (execWriteSectorEnd_keeps (.refl s))
  | .writeFragmentTimeout .. => completes_next (execWriteFragmentTimeout_keeps (.refl s))
  | .faultLatchClear .. => completes_next (execFaultLatchClear_keeps (.refl s))
  | .shockTrip .. => execShockTrip_answers.completes (execShockTrip_keeps (.refl s))
  | .shockRelease .. => execShockRelease_answers.completes (execShockRelease_keeps (.refl s))
  | .shockHoldEnd .. => execShockHoldEnd_answers.completes (execShockHoldEnd_keeps (.refl s))
  | .writeWindowClose => execWriteWindowClose_answers.completes (execWriteWindowClose_keeps (.refl s))
  | .stpRecord => execStpRecord_answers.completes (execStpRecord_keeps (.refl s))
  | .stripeTimeout .. => execStripeTimeout_answers.completes (execStripeTimeout_keeps (.refl s))
  | .rebuildStart => execRebuildStart_answers.completes (execRebuildStart_keeps (.refl s))
  | .rebuildEnd .. => execRebuildEnd_answers.completes (execRebuildEnd_keeps (.refl s))
  | .cancel .. => completes_next (execCancel_keeps (.refl s))
  | .dilStart .. => completes_next (execDilStart_keeps (.refl s))
  | .kill .. => completes_next (execKill_keeps (.refl s))
  | .dilStop .. => completes_next (execDilStop_keeps (.refl s))
  | .evtSet .. => completes_next (execEvtSet_keeps (.refl s))
  | .evtClr .. => completes_next (execEvtClr_keeps (.refl s))
  | .eventTaken .. => execEventTaken_answers.completes (execEventTaken_keeps (.refl s))
  | .holdRun .. => execHoldRun_answers.completes (execHoldRun_keeps (.refl s))
  | .nop .. => completes_next (execNop_keeps (.refl s))
  | .add .. => completes_next (execAdd_keeps (.refl s))
  | .sub .. => completes_next (execSub_keeps (.refl s))
  | .and .. => completes_next (execAnd_keeps (.refl s))
  | .or .. => completes_next (execOr_keeps (.refl s))
  | .xor .. => completes_next (execXor_keeps (.refl s))
  | .shl .. => completes_next (execShl_keeps (.refl s))
  | .shr .. => completes_next (execShr_keeps (.refl s))
  | .sar .. => completes_next (execSar_keeps (.refl s))
  | .min .. => completes_next (execMin_keeps (.refl s))
  | .max .. => completes_next (execMax_keeps (.refl s))
  | .ins .. => completes_next (execIns_keeps (.refl s))
  | .ext .. => completes_next (execExt_keeps (.refl s))
  | .wadd .. => completes_next (execWadd_keeps (.refl s))
  | .mul .. => completes_next (execMul_keeps (.refl s))
  | .mulhs .. => completes_next (execMulhs_keeps (.refl s))
  | .mulhu .. => completes_next (execMulhu_keeps (.refl s))
  | .drd .. => completes_next (execDrd_keeps (.refl s))
  | .dwr .. => completes_next (execDwr_keeps (.refl s))
  | .xrd .. => execXrd_answers.completes (execXrd_keeps (.refl s))
  | .prd .. => completes_next (execPrd_keeps (.refl s))
  | .pwr .. => completes_next (execPwr_keeps (.refl s))
  | .enq .. => completes_next (execEnq_keeps (.refl s))
  | .stg .. => completes_next (execStg_keeps (.refl s))
  | .stw .. => completes_next (execStw_keeps (.refl s))
  | .commit .. => completes_next (execCommit_keeps (.refl s))
  | .discard .. => completes_next (execDiscard_keeps (.refl s))
  | .timeNow .. => completes_next (execTimeNow_keeps (.refl s))
  | .timeAngle .. => completes_next (execTimeAngle_keeps (.refl s))
  | .timeRev .. => completes_next (execTimeRev_keeps (.refl s))
  | .timePred .. => completes_next (execTimePred_keeps (.refl s))
  | .out .. => completes_next (execOut_keeps (.refl s))
  | .irq .. => completes_next (execIrq_keeps (.refl s))
  | .emask .. => completes_next (execEmask_keeps (.refl s))
  | .eclr .. => completes_next (execEclr_keeps (.refl s))
  | .eset .. => completes_next (execEset_keeps (.refl s))
  | .jmp .. => completes_next (execJmp_keeps (.refl s))
  | .call .. => completes_next (execCall_keeps (.refl s))
  | .ret .. => completes_next (execRet_keeps (.refl s))
  | .loop .. => completes_next (execLoop_keeps (.refl s))
  | .wait .. => completes_next (execWait_keeps (.refl s))
  | .waitRelease .. => execWaitRelease_answers.completes (execWaitRelease_keeps (.refl s))
  | .disp .. => completes_next (execDisp_keeps (.refl s))
  | .endOp .. => completes_next (execEndOp_keeps (.refl s))
  | .resume .. => completes_next (execResume_keeps (.refl s))
  | .abandon .. => completes_next (execAbandon_keeps (.refl s))
  | .fail .. => completes_next (execFail_keeps (.refl s))
  | .ldAddr .. => completes_next (execLdAddr_keeps (.refl s))
  | .ldData .. => completes_next (execLdData_keeps (.refl s))
  | .servoSample .. => execServoSample_answers.completes (execServoSample_keeps (.refl s))
  | .tillerCompute .. => execTillerCompute_answers.completes (execTillerCompute_keeps (.refl s))
  | .missLimit .. => execMissLimit_answers.completes (execMissLimit_keeps (.refl s))
  | .outputFrame .. => execOutputFrame_answers.completes (execOutputFrame_keeps (.refl s))
  | .overrunLimit .. => execOverrunLimit_answers.completes (execOverrunLimit_keeps (.refl s))
  | .outputApply .. => execOutputApply_answers.completes (execOutputApply_keeps (.refl s))
  | .openSet .. => completes_next (execOpenSet_keeps (.refl s))
  | .closeSet .. => completes_next (execCloseSet_keeps (.refl s))
  | .handover .. => completes_next (execHandover_keeps (.refl s))
  | .maRef .. => completes_next (execMaRef_keeps (.refl s))
  | .seekStart .. => execSeekStart_answers.completes (execSeekStart_keeps (.refl s))
  | .profileSample .. => execProfileSample_answers.completes (execProfileSample_keeps (.refl s))
  | .settleRequest .. => execSettleRequest_answers.completes (execSettleRequest_keeps (.refl s))
  | .followRequest .. => execFollowRequest_answers.completes (execFollowRequest_keeps (.refl s))
  | .seekTimeout .. => execSeekTimeout_answers.completes (execSeekTimeout_keeps (.refl s))
  | .abort .. => completes_next (execAbort_keeps (.refl s))
  | .stopComplete .. => execStopComplete_answers.completes (execStopComplete_keeps (.refl s))
  | .load .. => completes_next (execLoad_keeps (.refl s))
  | .unload .. => completes_next (execUnload_keeps (.refl s))
  | .servoFound .. => execServoFound_answers.completes (execServoFound_keeps (.refl s))
  | .stopAchieved .. => execStopAchieved_answers.completes (execStopAchieved_keeps (.refl s))
  | .rampStop .. => execRampStop_answers.completes (execRampStop_keeps (.refl s))
  | .pushDone .. => execPushDone_answers.completes (execPushDone_keeps (.refl s))
  | .rampTimeout .. => execRampTimeout_answers.completes (execRampTimeout_keeps (.refl s))
  | .fenceUnload .. => execFenceUnload_answers.completes (execFenceUnload_keeps (.refl s))
  | .retractStart .. => execRetractStart_answers.completes (execRetractStart_keeps (.refl s))
  | .retractPhase1End .. => execRetractPhase1End_answers.completes (execRetractPhase1End_keeps (.refl s))
  | .retractEnd .. => execRetractEnd_answers.completes (execRetractEnd_keeps (.refl s))
  | .boostEn .. => completes_next (execBoostEn_keeps (.refl s))
  | .boostReady => execBoostReady_answers.completes (execBoostReady_keeps (.refl s))
  | .boostFail => execBoostFail_answers.completes (execBoostFail_keeps (.refl s))
  | .vcmFault .. => execVcmFault_answers.completes (execVcmFault_keeps (.refl s))
  | .spnStart .. => completes_next (execSpnStart_keeps (.refl s))
  | .spnStop .. => completes_next (execSpnStop_keeps (.refl s))
  | .brake .. => completes_next (execBrake_keeps (.refl s))
  | .coast .. => completes_next (execCoast_keeps (.refl s))
  | .senseEnd .. => execSenseEnd_answers.completes (execSenseEnd_keeps (.refl s))
  | .prebrakeEnd .. => execPrebrakeEnd_answers.completes (execPrebrakeEnd_keeps (.refl s))
  | .alignEnd => execAlignEnd_answers.completes (execAlignEnd_keeps (.refl s))
  | .rampStep => execRampStep_answers.completes (execRampStep_keeps (.refl s))
  | .startTimeout => execStartTimeout_answers.completes (execStartTimeout_keeps (.refl s))
  | .zeroCrossing .. => execZeroCrossing_answers.completes (execZeroCrossing_keeps (.refl s))
  | .commutation .. => execCommutation_answers.completes (execCommutation_keeps (.refl s))
  | .zcMiss .. => execZcMiss_answers.completes (execZcMiss_keeps (.refl s))
  | .wedgeTimeToSpn => execWedgeTimeToSpn_answers.completes (execWedgeTimeToSpn_keeps (.refl s))
  | .atSpeedSet => execAtSpeedSet_answers.completes (execAtSpeedSet_keeps (.refl s))
  | .speedLoss => execSpeedLoss_answers.completes (execSpeedLoss_keeps (.refl s))
  | .ovrApply => execOvrApply_answers.completes (execOvrApply_keeps (.refl s))
  | .vmSample .. => execVmSample_answers.completes (execVmSample_keeps (.refl s))
  | .chopperOn => execChopperOn_answers.completes (execChopperOn_keeps (.refl s))
  | .chopperOff => execChopperOff_answers.completes (execChopperOff_keeps (.refl s))
  | .chopFail .. => execChopFail_answers.completes (execChopFail_keeps (.refl s))
  | .regenEnd => execRegenEnd_answers.completes (execRegenEnd_keeps (.refl s))
  | .spinStopped .. => execSpinStopped_answers.completes (execSpinStopped_keeps (.refl s))
  | .emergencyStop => completes_next (execEmergencyStop_keeps (.refl s))
  | .bridgeOc => completes_next (execBridgeOc_keeps (.refl s))
  | .d2dLoss => execD2dLoss_answers.completes (execD2dLoss_keeps (.refl s))
  | .motionEmergency => completes_next (execMotionEmergency_keeps (.refl s))
  | .dramEn .. => completes_next (execDramEn_keeps (.refl s))
  | .trainingDone .. => execTrainingDone_answers.completes (execTrainingDone_keeps (.refl s))
  | .dramFillDone => execDramFillDone_answers.completes (execDramFillDone_keeps (.refl s))
  | .srReq .. => completes_next (execSrReq_keeps (.refl s))
  | .selfRefreshEntered => execSelfRefreshEntered_answers.completes (execSelfRefreshEntered_keeps (.refl s))
  | .selfRefreshExited => execSelfRefreshExited_answers.completes (execSelfRefreshExited_keeps (.refl s))
  | .bufferRequest .. => execBufferRequest_answers.completes (execBufferRequest_keeps (.refl s))
  | .arbiterGrant .. => execArbiterGrant_answers.completes (execArbiterGrant_keeps (.refl s))
  | .mr4Poll .. => execMr4Poll_answers.completes (execMr4Poll_keeps (.refl s))
  | .rfmRequest .. => execRfmRequest_answers.completes (execRfmRequest_keeps (.refl s))
  | .srtLookup .. => completes_next (execSrtLookup_keeps (.refl s))
  | .srtLookupEnd => execSrtLookupEnd_answers.completes (execSrtLookupEnd_keeps (.refl s))
  | .freeze .. => completes_next (execFreeze_keeps (.refl s))
  | .srtShift .. => completes_next (execSrtShift_keeps (.refl s))
  | .shiftDone => execShiftDone_answers.completes (execShiftDone_keeps (.refl s))
  | .check .. => completes_next (execCheck_keeps (.refl s))
  | .checkDone => execCheckDone_answers.completes (execCheckDone_keeps (.refl s))
  | .initFillDone .. => execInitFillDone_answers.completes (execInitFillDone_keeps (.refl s))
  | .stRerun .. => completes_next (execStRerun_keeps (.refl s))
  | .gleanerBeat .. => execGleanerBeat_answers.completes (execGleanerBeat_keeps (.refl s))
  | .lapEnd .. => execLapEnd_answers.completes (execLapEnd_keeps (.refl s))
  | .lapLate .. => execLapLate_answers.completes (execLapLate_keeps (.refl s))
  | .mdcRequest .. => completes_next (execMdcRequest_keeps (.refl s))
  | .mdcFillReturn .. => execMdcFillReturn_answers.completes (execMdcFillReturn_keeps (.refl s))
  | .victimWritebackDone .. => execVictimWritebackDone_answers.completes (execVictimWritebackDone_keeps (.refl s))
  | .invAddr .. => completes_next (execInvAddr_keeps (.refl s))
  | .cleanAddr .. => completes_next (execCleanAddr_keeps (.refl s))
  | .cleanInvAddr .. => completes_next (execCleanInvAddr_keeps (.refl s))
  | .invAll .. => completes_next (execInvAll_keeps (.refl s))
  | .cleanAll .. => completes_next (execCleanAll_keeps (.refl s))
  | .cleanInvAll .. => completes_next (execCleanInvAll_keeps (.refl s))
  | .maintDone => execMaintDone_answers.completes (execMaintDone_keeps (.refl s))
  | .bypassReq .. => completes_next (execBypassReq_keeps (.refl s))
  | .bypassEntered => execBypassEntered_answers.completes (execBypassEntered_keeps (.refl s))
  | .run .. => completes_next (execRun_keeps (.refl s))
  | .kick .. => completes_next (execKick_keeps (.refl s))
  | .descriptorFetch .. => execDescriptorFetch_answers.completes (execDescriptorFetch_keeps (.refl s))
  | .hostCompletion .. => completes_next (execHostCompletion_keeps (.refl s))
  | .descriptorComplete .. => execDescriptorComplete_answers.completes (execDescriptorComplete_keeps (.refl s))
  | .postedAck .. => execPostedAck_answers.completes (execPostedAck_keeps (.refl s))
  | .postedLost .. => execPostedLost_answers.completes (execPostedLost_keeps (.refl s))
  | .descriptorTimeout .. => execDescriptorTimeout_answers.completes (execDescriptorTimeout_keeps (.refl s))
  | .dmaAbort .. => completes_next (execDmaAbort_keeps (.refl s))
  | .abortDrained .. => execAbortDrained_answers.completes (execAbortDrained_keeps (.refl s))
  | .perstAssert .. => completes_next (execPerstAssert_keeps (.refl s))
  | .perstDeassert .. => completes_next (execPerstDeassert_keeps (.refl s))
  | .hotReset .. => completes_next (execHotReset_keeps (.refl s))
  | .linkUp .. => execLinkUp_answers.completes (execLinkUp_keeps (.refl s))
  | .linkDown .. => execLinkDown_answers.completes (execLinkDown_keeps (.refl s))
  | .trainFail .. => execTrainFail_answers.completes (execTrainFail_keeps (.refl s))
  | .configRequest .. => execConfigRequest_answers.completes (execConfigRequest_keeps (.refl s))
  | .cfgReady .. => completes_next (execCfgReady_keeps (.refl s))
  | .bar0Request .. => execBar0Request_answers.completes (execBar0Request_keeps (.refl s))
  | .bar0Slot .. => completes_next (execBar0Slot_keeps (.refl s))
  | .inboundWrite .. => execInboundWrite_answers.completes (execInboundWrite_keeps (.refl s))
  | .inboundRead .. => execInboundRead_answers.completes (execInboundRead_keeps (.refl s))
  | .doorbellWrite .. => execDoorbellWrite_answers.completes (execDoorbellWrite_keeps (.refl s))
  | .doorbellClaim .. => completes_next (execDoorbellClaim_keeps (.refl s))
  | .dbVal .. => completes_next (execDbVal_keeps (.refl s))
  | .msixSend .. => completes_next (execMsixSend_keeps (.refl s))
  | .pbaSend .. => execPbaSend_answers.completes (execPbaSend_keeps (.refl s))
  | .intxChange .. => completes_next (execIntxChange_keeps (.refl s))
  | .cplTimeout .. => execCplTimeout_answers.completes (execCplTimeout_keeps (.refl s))
  | .dState .. => completes_next (execDState_keeps (.refl s))
  | .l0pNarrow .. => execL0pNarrow_answers.completes (execL0pNarrow_keeps (.refl s))
  | .pmeReq .. => completes_next (execPmeReq_keeps (.refl s))
  | .bmeClear .. => completes_next (execBmeClear_keeps (.refl s))
  | .flr .. => completes_next (execFlr_keeps (.refl s))
  | .flrAck .. => completes_next (execFlrAck_keeps (.refl s))
  | .flrTmo .. => execFlrTmo_answers.completes (execFlrTmo_keeps (.refl s))
  | .removed .. => completes_next (execRemoved_keeps (.refl s))
  | .malformedTlp .. => completes_next (execMalformedTlp_keeps (.refl s))
  | .poisonedTlp .. => execPoisonedTlp_answers.completes (execPoisonedTlp_keeps (.refl s))
  | .unsupportedRequest .. => completes_next (execUnsupportedRequest_keeps (.refl s))
  | .unexpectedCompletion .. => completes_next (execUnexpectedCompletion_keeps (.refl s))
  | .doeObject .. => execDoeObject_answers.completes (execDoeObject_keeps (.refl s))
  | .rxDone .. => completes_next (execRxDone_keeps (.refl s))
  | .doeTx .. => completes_next (execDoeTx_keeps (.refl s))
  | .doeAbort .. => execDoeAbort_answers.completes (execDoeAbort_keeps (.refl s))
  | .faultEvent .. => execFaultEvent_answers.completes (execFaultEvent_keeps (.refl s))
  | .ack .. => completes_next (execAck_keeps (.refl s))
  | .unfence .. => completes_next (execUnfence_keeps (.refl s))
  | .unfenceDone => execUnfenceDone_answers.completes (execUnfenceDone_keeps (.refl s))
  | .clrDegraded .. => completes_next (execClrDegraded_keeps (.refl s))
  | .wdogEnable .. => completes_next (execWdogEnable_keeps (.refl s))
  | .wdogKick .. => completes_next (execWdogKick_keeps (.refl s))
  | .wdogExpired => execWdogExpired_answers.completes (execWdogExpired_keeps (.refl s))
  | .aliveStart .. => completes_next (execAliveStart_keeps (.refl s))
  | .xtalLoss => completes_next (execXtalLoss_keeps (.refl s))
  | .lockLoss => completes_next (execLockLoss_keeps (.refl s))
  | .domReq .. => completes_next (execDomReq_keeps (.refl s))
  | .domainRampStart => execDomainRampStart_answers.completes (execDomainRampStart_keeps (.refl s))
  | .domainUp .. => execDomainUp_answers.completes (execDomainUp_keeps (.refl s))
  | .domainFailed .. => execDomainFailed_answers.completes (execDomainFailed_keeps (.refl s))
  | .domainOff .. => execDomainOff_answers.completes (execDomainOff_keeps (.refl s))
  | .tempSample .. => execTempSample_answers.completes (execTempSample_keeps (.refl s))
  | .supplyLossDecision .. => completes_next (execSupplyLossDecision_keeps (.refl s))
  | .fuseRead .. => execFuseRead_answers.completes (execFuseRead_keeps (.refl s))
  | .coreHold .. => completes_next (execCoreHold_keeps (.refl s))
  | .norProbe .. => execNorProbe_answers.completes (execNorProbe_keeps (.refl s))
  | .probeDone => execProbeDone_answers.completes (execProbeDone_keeps (.refl s))
  | .norRead .. => execNorRead_answers.completes (execNorRead_keeps (.refl s))
  | .norReadDone .. => execNorReadDone_answers.completes (execNorReadDone_keeps (.refl s))
  | .program .. => completes_next (execProgram_keeps (.refl s))
  | .erase .. => completes_next (execErase_keeps (.refl s))
  | .eraseBr .. => completes_next (execEraseBr_keeps (.refl s))
  | .nvsSuspend .. => completes_next (execNvsSuspend_keeps (.refl s))
  | .nvsResume .. => completes_next (execNvsResume_keeps (.refl s))
  | .blankCheck .. => completes_next (execBlankCheck_keeps (.refl s))
  | .jscan .. => completes_next (execJscan_keeps (.refl s))
  | .suspendIssue => completes_next (execSuspendIssue_keeps (.refl s))
  | .autoResume => completes_next (execAutoResume_keeps (.refl s))
  | .statusPoll .. => execStatusPoll_answers.completes (execStatusPoll_keeps (.refl s))
  | .norOpTimeout => execNorOpTimeout_answers.completes (execNorOpTimeout_keeps (.refl s))
  | .norOpDone => execNorOpDone_answers.completes (execNorOpDone_keeps (.refl s))
  | .wpWrite m .. => completes_next (execWpWrite_keeps (_m := m) (.refl s))
  | .wpLock m .. => completes_next (execWpLock_keeps (_m := m) (.refl s))
  | .fuseCmd .. => completes_next (execFuseCmd_keeps (.refl s))
  | .fuseProgDone .. => execFuseProgDone_answers.completes (execFuseProgDone_keeps (.refl s))
  | .hash .. => completes_next (execHash_keeps (.refl s))
  | .verify .. => completes_next (execVerify_keeps (.refl s))
  | .signId .. => completes_next (execSignId_keeps (.refl s))
  | .extend .. => completes_next (execExtend_keeps (.refl s))
  | .jobDone => execJobDone_answers.completes (execJobDone_keeps (.refl s))
  | .rngHealth .. => execRngHealth_answers.completes (execRngHealth_keeps (.refl s))
  | .debugUnlock .. => completes_next (execDebugUnlock_keeps (.refl s))
  | .dbgDisable .. => completes_next (execDbgDisable_keeps (.refl s))
  | .keyLoad .. => completes_next (execKeyLoad_keeps (.refl s))
  | .keyLoadWrapped .. => completes_next (execKeyLoadWrapped_keeps (.refl s))
  | .keyErase .. => completes_next (execKeyErase_keeps (.refl s))
  | .keyEraseAll .. => completes_next (execKeyEraseAll_keeps (.refl s))
  | .smbWriteReceived .. => execSmbWriteReceived_answers.completes (execSmbWriteReceived_keeps (.refl s))
  | .smbTargetRead .. => execSmbTargetRead_answers.completes (execSmbTargetRead_keeps (.refl s))
  | .smbTx .. => completes_next (execSmbTx_keeps (.refl s))
  | .smbTxEnd .. => completes_next (execSmbTxEnd_keeps (.refl s))
  | .smbRxDone .. => completes_next (execSmbRxDone_keeps (.refl s))
  | .smbTimeout => execSmbTimeout_answers.completes (execSmbTimeout_keeps (.refl s))
  | .dramPhyFault .. => execDramPhyFault_answers.completes (execDramPhyFault_keeps (.refl s))
  | .supplyCauseArmed .. => completes_next (execSupplyCauseArmed_keeps (.refl s))
  | .aliveEdge => completes_next (execAliveEdge_keeps (.refl s))
  | .msixTableAccess .. => execMsixTableAccess_answers.completes (execMsixTableAccess_keeps (.refl s))

/-! ### The statements -/

/-- Settles O4: the queue and the part are among what every operation keeps. -/
theorem everyCommandCompletes : Obligations.EveryCommandCompletes := by
  intro c s
  obtain ⟨t, ht, k⟩ := exec_completes c s
  exact ⟨t, ht, k.pending, k.part⟩

/-- Settles O8: a write that lands is a store of its bytes, and reads back as the tables do. -/
theorem writesReadBack : Obligations.WritesReadBack := by
  intro s
  refine ⟨fun p off w => ⟨reg_setReg_same, fun _ _ => reg_setReg_ne, ⟨_, rfl⟩, fun f g v hf ho => ⟨get_put_same hf, get_put_field hf ho⟩⟩,
    fun m a bs => ⟨bufWrite_refused_byte, fun h => ⟨fun i hi => ?_, fun x hx => ?_⟩⟩⟩
  · rw [bufWrite_landed_byte h, storeBytes_byte_in i hi]
  · rw [bufWrite_landed_byte h, storeBytes_byte_ne hx, byte_mem ((countRmw_mem _ _).trans (noteZpt_mem _ _))]

/-- Settles O9: `regAccess` and every guard of the header test for presence first. -/
theorem absentPage : Obligations.AbsentPage := by
  refine ⟨fun m w len addr v s hm hlo hhi h => ?_, fun m p b v l src s h => ?_, fun m p s hm h hs => ?_⟩
  · have hb : regBase ≤ addr.toNat ∧ addr.toNat < regEnd := ⟨hlo, hhi⟩
    simp only [exec, execRegisterWrite, hb, hm, and_self, if_true, regAccess_absent h]
    rfl
  · simp [exec, execEnable, execSoftReset, execPowerReq, execIrqPendClear, execFltForce, execLock, execShadowArm, State.hdrCmd, hdrOn_absent h, h]
  · refine ⟨_, exec_registerWrite_at hm p.isLt (by omega), ?_⟩
    have hr : s.regAccess m false 4 (regAddr p 0) 0 = (s.settle p s.time).answer (pageId p) := by
      rw [regAccess_read32 h (by omega) rfl]
      simp [State.readReg, h, hs, State.hdrView]
    exact ⟨congrArg (fun t => t.resp.err) hr, congrArg (fun t => t.resp.value) hr, pageId_class p⟩

/-- Settles O10: each clause is the path that its page and offset take through `regAccess`. -/
theorem registerAccess : Obligations.RegisterAccess := by
  intro m p off v s _ hm hp h hs hr
  refine ⟨⟨_, exec_registerWrite_at hm hp (by omega), ?_⟩, ⟨_, exec_registerWrite_at hm hp (by omega), ?_⟩, fun ho hlt h4 hk hw hrw => ?_,
    fun ho hlt h4 hw ha hc => ⟨?_, ?_⟩, fun hlt h4 w => ?_⟩
  · exact regAccess_setHdr h hs (by omega) rfl (by omega) (writeHdr_irqEn (by simpa) (by simpa) (by simpa))
  · refine regAccess_setHdr h hs (by omega) rfl (by omega) ?_
    rw [writeHdr_fltStat (by simpa) (by simpa) (by simpa), latchLevels_reg (by omega)]
  · refine ⟨_, exec_registerWrite_at hm hp hlt, ?_⟩
    have hdma : p ≠ pDMA := pageKind_srv_ne (j := .dma) hk rfl (by decide)
    change (s.regAccess m true 4 (regAddr p off) v).reg p off = _
    rw [regAccess_write32 h hlt h4, writeReg_srv hk h hs hr hw ho, writePlain_srv hk hrw, latchLevels_storeMask hdma,
      latchLevels_reg (by omega)]
    change (State.latchLevels (State.setReg _ _ _ _) p).reg p off = _
    rw [latchLevels_reg (by omega), reg_setReg_same]
  · rw [exec_registerWrite_at hm hp hlt]
    change Host.Outcome.next (s.regAccess m false 4 (regAddr p off) v) = _
    rw [regAccess_read32 h hlt h4, readReg_off h hs ho hw ha hc]
  · refine ⟨_, exec_registerWrite_at hm hp hlt, ?_⟩
    change s.regAccess m true 4 (regAddr p off) v = _
    rw [regAccess_write32 h hlt h4, writeReg_off h hs ho hw ha]
  · rw [exec_registerWrite_at hm hp hlt]
    exact congrArg _ (regAccess_16bit h hlt)

/-- Settles O11: from what a detection changes, and from the regions of the map. -/
theorem reportsRaise : Obligations.ReportsRaise := by
  refine ⟨fun s p b cls lvl d _ hp k h => ⟨raiseWith_fltStat h k, raiseWith_irqPend h k, fun _ _ => raiseWith_reg_ne, ?_, ?_, raiseWith_shape s p b d⟩,
    fun s p b d h => raiseWith_absent h, fun m w addr len s h => ?_⟩
  · rw [raiseWith_fltq h k]
    exact ⟨reportOf s.time p b cls lvl d, mem_insertReport, rfl, rfl, rfl, rfl, rfl, rfl, rfl, rfl, rfl⟩
  · rw [raiseWith_fltq h k, length_insertReport]
  · simp only [exec, execRefusedAccess, mapRefusal_offMap (show offMap m addr.toNat from h), if_true]
    cases m <;> rfl

end Sys2Proof.Machine

/-! SUPPORT. The statements of the register pages: reset values, enabling and power requests, the latches of the header, the interrupt
router. -/

namespace Sys2Proof.Machine

/-! ### Values at reset -/

/-- At reset no register is listed, so each reads its reset value (R13). -/
theorem reg_reset (p off : Nat) : State.reset.reg p off = resetOf p off := rfl

theorem foldl_reset_eq_zero {l : List RegRow} (h : ∀ r ∈ l, r.reset = 0) : l.foldl (fun m r => m ||| BitVec.ofNat 32 r.reset) (0 : Word) = 0 := by
  induction l with
  | nil => rfl
  | cons r l ih =>
    rw [List.foldl_cons, h r (by simp)]
    exact ih fun x hx => h x (by simp [hx])

/-- Every header register resets to 0 (R39). -/
theorem resetOf_header {p off : Nat} (h : off < 0x40) : resetOf p off = 0 := by
  have hrows : ∀ r ∈ hdrRows, r.reset = 0 := by decide
  rw [resetOf, if_neg (by omega)]
  apply foldl_reset_eq_zero
  intro r hr
  unfold regRows at hr
  split at hr
  · cases hr
  · rw [if_pos h] at hr
    exact hrows r (List.mem_filter.1 hr).1

theorem on_reset_header {p : Nat} {f : Fld} (h : f.off < 0x40) : State.reset.on p f = false := by
  rw [State.on, State.get, reg_reset, resetOf_header h]
  simp [fldOf]

/-- IRQ_ROUTE at reset: target 8 at priority 15 for source 3, no target at priority 0 for every other (R51). -/
theorem resetOf_irqRoute : ∀ n : Fin 256, resetOf pSYS (0x400 + 4 * n.val) = if n.val = 3 then 0xF8 else 0xF := by decide +kernel

theorem irqTarget_reset (n : Fin 256) : State.reset.irqTarget n = if n.val = 3 then 8 else 15 := by
  rw [State.irqTarget, State.get, reg_reset, resetOf_irqRoute]
  split <;> simp [fldOf]

theorem irqPrio_reset (n : Fin 256) : State.reset.irqPrio n = if n.val = 3 then 15 else 0 := by
  rw [State.irqPrio, State.get, reg_reset, resetOf_irqRoute]
  split <;> simp [fldOf]

/-- Settles O3: the registers read their reset values, and the rest of the state is as declared. -/
theorem resetValues : Obligations.ResetValues := by
  refine ⟨rfl, rfl, rfl, by decide +kernel, by decide +kernel, by decide +kernel, irqTarget_reset 3, irqPrio_reset 3, fun n hn => ?_,
    by decide +kernel, by decide +kernel, fun p => ?_⟩
  · exact ⟨(irqTarget_reset n).trans (if_neg hn), (irqPrio_reset n).trans (if_neg hn)⟩
  · exact ⟨on_reset_header (by decide), on_reset_header (by decide), on_reset_header (by decide)⟩

/-! ### The header's latches -/

theorem ofNat_two_pow_bits : ∀ b : Fin 32, (List.range 32).filter (fun i => (BitVec.ofNat 32 (2 ^ b.val)).getLsbD i) = [b.val] := by
  decide +kernel

/-- Settles O13: each clause is what the write does past the guard of the header. -/
theorem headerLatches : Obligations.HeaderLatches := by
  intro m p s _ h hs
  refine ⟨fun hr v => ⟨_, rfl, fun b hb => ?_⟩, fun hr hl v => ?_, fun hr hl b => ?_, fun v => ?_⟩
  · rw [hdrOn_answering h hs hr, reg_setReg_same, BitVec.getLsbD_or, BitVec.getLsbD_and, BitVec.getLsbD_not, BitVec.getLsbD_ofNat]
    simp [hb]
  · simp only [exec, execFltForce]
    rw [hdrOn_answering h hs hr, if_pos hl]
  · simp only [exec, execFltForce]
    rw [hdrOn_answering h hs hr, if_neg (by simp [hl]), ofNat_two_pow_bits]
    rfl
  · rw [State.motSilent] at hs
    simp only [exec, execLock]
    rw [if_pos (by simp [h, hs])]

/-! ### The interrupt router -/

section
variable {s : State} {m : Master} {off : Nat} {k : State → State}

/-- SYS is on every part and always on: a read there is held back by a soft reset alone. -/
theorem regRead_sys (h : s.isResetting pSYS = false) : s.regRead m pSYS off k = k s := by
  have hp : s.present pSYS = true := rfl
  have hw : s.powered pSYS = true := rfl
  simp [State.regRead, hp, hw, h]

theorem regCmd_sys (h : s.isResetting pSYS = false) : s.regCmd m pSYS off k = k s := by
  have hp : s.present pSYS = true := rfl
  have hw : s.powered pSYS = true := rfl
  simp [State.regCmd, hp, hw, h]

/-- The better of the best source so far and source `n`: a higher priority wins, on a tie the earlier one. -/
def State.betterSource (s : State) (best : Option Nat) (n : Nat) : Option Nat :=
  match best with
  | none => some n
  | some b => if s.irqPrio b < s.irqPrio n then some n else some b

theorem irqBest_eq (c : Nat) : s.irqBest c = ((List.range 192).filter (s.irqEligible c)).foldl s.betterSource none := rfl

theorem betterSource_of_lower {best : Option Nat} {n : Nat} (h : ∀ b ∈ best, s.irqPrio b < s.irqPrio n) : s.betterSource best n = some n := by
  cases best with
  | none => rfl
  | some b => exact if_pos (h b rfl)

/-- Sources of lower priority than `n` leave none better than `n`. -/
theorem foldl_betterSource_lower {l : List Nat} {best : Option Nat} {n : Nat} (hl : ∀ k ∈ l, s.irqPrio k < s.irqPrio n)
    (hb : ∀ b ∈ best, s.irqPrio b < s.irqPrio n) : ∀ b ∈ l.foldl s.betterSource best, s.irqPrio b < s.irqPrio n := by
  induction l generalizing best with
  | nil => exact hb
  | cons k l ih =>
    refine ih (fun x hx => hl x (List.mem_cons_of_mem _ hx)) fun b h => ?_
    unfold State.betterSource at h
    split at h
    · exact Option.some.inj h ▸ hl k List.mem_cons_self
    · split at h
      · exact Option.some.inj h ▸ hl k List.mem_cons_self
      · exact hb b h

/-- Sources of no higher priority do not displace `n`. -/
theorem foldl_betterSource_upper {l : List Nat} {n : Nat} (hl : ∀ k ∈ l, s.irqPrio k ≤ s.irqPrio n) :
    l.foldl s.betterSource (some n) = some n := by
  induction l with
  | nil => rfl
  | cons k l ih =>
    rw [List.foldl_cons, show s.betterSource (some n) k = some n from if_neg (Nat.not_lt.2 (hl k List.mem_cons_self))]
    exact ih fun x hx => hl x (List.mem_cons_of_mem _ hx)

theorem irqBest_none {c : Nat} (h : ∀ n, n < 192 → s.irqEligible c n = false) : s.irqBest c = none := by
  have hf : (List.range 192).filter (s.irqEligible c) = [] :=
    List.filter_eq_nil_iff.2 fun n hn => by simp [h n (List.mem_range.1 hn)]
  rw [irqBest_eq, hf]
  rfl

/-- The sources before `n` in ascending order have a lower priority, those behind it none higher. -/
theorem irqBest_some {c n : Nat} (hn : n < 192) (he : s.irqEligible c n = true)
    (hmax : ∀ k, k < 192 → s.irqEligible c k = true → s.irqPrio k < s.irqPrio n ∨ (s.irqPrio k = s.irqPrio n ∧ n ≤ k)) :
    s.irqBest c = some n := by
  have hmem : n ∈ (List.range 192).filter (s.irqEligible c) := List.mem_filter.2 ⟨List.mem_range.2 hn, he⟩
  obtain ⟨l₁, l₂, hl⟩ := List.append_of_mem hmem
  have hbest : ∀ k ∈ l₁ ++ n :: l₂, s.irqPrio k < s.irqPrio n ∨ (s.irqPrio k = s.irqPrio n ∧ n ≤ k) := by
    intro k hk
    obtain ⟨hk, hek⟩ := List.mem_filter.1 (hl ▸ hk)
    exact hmax k (List.mem_range.1 hk) hek
  have hsorted : (l₁ ++ n :: l₂).Pairwise (· < ·) := hl ▸ List.pairwise_lt_range.filter _
  have hbefore : ∀ k ∈ l₁, k < n := fun k hk => (List.pairwise_append.1 hsorted).2.2 k hk n List.mem_cons_self
  rw [irqBest_eq, hl, List.foldl_append, List.foldl_cons, betterSource_of_lower]
  · refine foldl_betterSource_upper fun k hk => ?_
    have := hbest k (by simp [hk])
    omega
  · refine foldl_betterSource_lower (fun k hk => ?_) (by simp)
    have := hbest k (by simp [hk])
    have := hbefore k hk
    omega

/-- A claimed source is eligible at no target (R52). -/
theorem irqEligible_claimed {c n : Nat} (h : s.claims.any (fun x => decide (x.1 = n)) = true) : s.irqEligible c n = false := by
  simp [State.irqEligible, h]

end

/-- Settles O15: the fold over the eligible sources in ascending order finds the one of highest priority. -/
theorem interruptRouter : Obligations.InterruptRouter := by
  intro m c s hr
  refine ⟨fun h => ?_, fun n hn he hmax => ?_, fun n => ⟨_, rfl, ?_⟩⟩
  · simp only [exec, execIrqClaim]
    rw [regRead_sys hr, irqBest_none h]
  · refine ⟨_, rfl, ?_⟩
    rw [regRead_sys hr, irqBest_some hn he hmax]
    exact ⟨rfl, fun c' => irqEligible_claimed (by simp [State.answer]), _, _, rfl⟩
  · rw [regCmd_sys hr]
    refine ⟨by simp, fun x hx hne => by simp [hx, hne], _, rfl⟩

/-! ### What keeps a page's header -/

/-- The header registers of page `p` read as before. -/
def HeaderKept (p : Nat) (s t : State) : Prop := ∀ off, off < 0x40 → t.reg p off = s.reg p off

section
variable {s t u : State} {p q o : Nat} {w : Word} {f : Fld} {v : Nat}

theorem HeaderKept.refl (p : Nat) (s : State) : HeaderKept p s s := fun _ _ => rfl

theorem HeaderKept.trans (h : HeaderKept p s t) (k : HeaderKept p t u) : HeaderKept p s u := fun off ho => (k off ho).trans (h off ho)

theorem HeaderKept.on (h : HeaderKept p s t) (hf : f.off < 0x40) : t.on p f = s.on p f := by
  rw [State.on, State.get, h f.off hf, State.on, State.get]

theorem HeaderKept.enabled (h : HeaderKept p s t) : t.enabled p = s.enabled p := h.on (by decide)

/-- A register past the header of the page itself is no header register. -/
theorem HeaderKept.setReg_own (h : HeaderKept p s t) (ho : 0x40 ≤ o) : HeaderKept p s (t.setReg p o w) :=
  fun off hoff => (reg_setReg_ne (by unfold regKey; omega)).trans (h off hoff)

/-- A register of another page is no header register of this one. -/
theorem HeaderKept.setReg_other (h : HeaderKept p s t) (hq : q ≠ p) (h4 : o < 4096) : HeaderKept p s (t.setReg q o w) :=
  fun off hoff => (reg_setReg_ne (by unfold regKey; omega)).trans (h off hoff)

/-- A page-specific field of any page is no header field. -/
theorem HeaderKept.put (h : HeaderKept p s t) (ho : 0x40 ≤ f.off := by decide) (h4 : f.off < 4096 := by decide) :
    HeaderKept p s (t.put q f v) :=
  fun off hoff => (reg_setReg_ne (by unfold regKey; omega)).trans (h off hoff)

theorem HeaderKept.put_own (h : HeaderKept p s t) (ho : 0x40 ≤ f.off) : HeaderKept p s (t.put p f v) := h.setReg_own ho

theorem HeaderKept.each {α : Type} {l : List α} {g : State → α → State} (h : HeaderKept p s t)
    (hg : ∀ t a, HeaderKept p s t → HeaderKept p s (g t a)) : HeaderKept p s (t.each l g) := by
  induction l generalizing t with
  | nil => exact h
  | cons a l ih => exact ih (hg t a h)

end

/-! ### Enabling -/

section
variable {s : State} {m : Master} {p : Fin 352} {b : Bool}

theorem trackerStart_mem : s.trackerStart.mem = s.mem := by
  unfold State.trackerStart; split <;> rfl

theorem trackerStart_header {p : Nat} : HeaderKept p s s.trackerStart := by
  unfold State.trackerStart
  split
  · exact (HeaderKept.refl p s).put
  · exact .refl p s

/-- What setting ENABLE starts leaves the page's header and, but on MDC, buffer memory as they are. -/
theorem unitEnabled_keeps {p : Nat} (hk : pageKind p ≠ some .mdc) : HeaderKept p s (s.unitEnabled p) ∧ (s.unitEnabled p).mem = s.mem := by
  unfold State.unitEnabled
  split
  case h_1 =>
    split
    · exact ⟨(HeaderKept.refl p s).put, rfl⟩
    · exact ⟨.refl p s, rfl⟩
  case h_2 h => exact absurd h hk
  case h_3 => exact ⟨trackerStart_header, trackerStart_mem⟩
  case h_4 => exact ⟨.refl p s, rfl⟩

theorem exec_enable (h : s.present p = true) (hs : s.motSilent p = false) (hr : s.isResetting p = false) :
    exec (.enable m p b) s = .next (s.writeEnable p b) := by
  simp only [exec, execEnable]
  rw [hdrOn_answering h hs hr]

theorem writeEnable_on {p : Nat} (hw : s.powered p = true) (hf : s.fenced p = false) (he : s.enabled p = false) :
    s.writeEnable p true = (s.put p HDR.CTRL_ENABLE 1).unitEnabled p := by
  simp [State.writeEnable, hw, hf, he]

theorem writeEnable_on_enabled {p : Nat} (he : s.enabled p = true) : s.writeEnable p true = s := by
  simp [State.writeEnable, he]

theorem writeEnable_on_barred {p : Nat} (h : s.powered p = false ∨ s.fenced p = true) : s.writeEnable p true = s := by
  rcases h with h | h <;> simp [State.writeEnable, h]

theorem writeEnable_off_disabled {p : Nat} (he : s.enabled p = false) : s.writeEnable p false = s := by
  simp [State.writeEnable, he]

theorem writeEnable_off {p : Nat} (hp : p ≠ pSPN) (he : s.enabled p = true) :
    s.writeEnable p false = (s.put p HDR.CTRL_ENABLE 0).unitDisabled p := by
  simp [State.writeEnable, he, hp]

/-- A powered, unfenced page ends enabled, with buffer memory as before. -/
theorem writeEnable_on_keeps {p : Nat} (hw : s.powered p = true) (hf : s.fenced p = false) (hk : pageKind p ≠ some .mdc) :
    (s.writeEnable p true).enabled p = true ∧ (s.writeEnable p true).mem = s.mem := by
  cases he : s.enabled p with
  | true => rw [writeEnable_on_enabled he]; exact ⟨he, rfl⟩
  | false =>
    obtain ⟨hhdr, hmem⟩ := unitEnabled_keeps (s := s.put p HDR.CTRL_ENABLE 1) hk
    rw [writeEnable_on hw hf he, hhdr.enabled, hmem]
    exact ⟨on_put_same (by decide), rfl⟩

/-! ### Power requests -/

theorem exec_powerReq (h : s.present p = true) : exec (.powerReq m p b) s = .next (s.writePower p b) := by
  simp [exec, execPowerReq, h]

theorem writePower_always_on {p : Nat} (h : pageDom p = none) : s.writePower p b = s := by
  simp [State.writePower, h]

variable {d : Nat} {p : Nat}

theorem writePower_request (h : pageDom p = some d) : s.writePower p true = s.domRequest d := by
  simp [State.writePower, h]

theorem writePower_held (h : pageDom p = some d) (hb : (∃ q ∈ domPages d, s.enabled q = true) ∨ s.closeHeld d = true) :
    s.writePower p false = s := by
  rcases hb with hb | hb <;> simp [State.writePower, h, hb]

theorem writePower_unrequested (h : pageDom p = some d) (hb : (s.domOf d).req = false) : s.writePower p false = s := by
  simp [State.writePower, h, hb]

theorem writePower_withdraw (h : pageDom p = some d) (he : ∀ q ∈ domPages d, s.enabled q = false) (hc : s.closeHeld d = false)
    (hb : (s.domOf d).req = true) : s.writePower p false = s.domWithdraw d := by
  have ha : (domPages d).any s.enabled = false := List.any_eq_false.2 fun q hq => by simp [he q hq]
  simp [State.writePower, h, ha, hc, hb]

end

/-- Settles O12: the cases of a write of ENABLE and of POWER_REQ, past the guard of the header. -/
theorem enableAndPower : Obligations.EnableAndPower := by
  intro m p s _ h hr hs
  refine ⟨fun hw hf he => ?_, fun hw hf hk => ⟨_, exec_enable h hs hr, ?_⟩, fun hb => ?_, fun hp he => ?_, fun he => ?_, fun hd b => ?_,
    fun d hd => ⟨?_, fun hb => ?_, fun he hc hq => ?_, fun hq => ?_⟩⟩
  · rw [exec_enable h hs hr, writeEnable_on hw hf he]
  · obtain ⟨he, hmem⟩ := writeEnable_on_keeps hw hf hk
    exact ⟨he, byte_mem hmem⟩
  · rw [exec_enable h hs hr, writeEnable_on_barred hb]
  · rw [exec_enable h hs hr, writeEnable_off hp he]
  · rw [exec_enable h hs hr, writeEnable_off_disabled he]
  · rw [exec_powerReq h, writePower_always_on hd]
  · rw [exec_powerReq h, writePower_request hd]
  · rw [exec_powerReq h, writePower_held hd hb]
  · rw [exec_powerReq h, writePower_withdraw hd he hc hq]
  · rw [exec_powerReq h, writePower_unrequested hd hq]

end Sys2Proof.Machine

/-! SUPPORT. The statements of the register pages: the shadow commit (R53–R57). -/

namespace Sys2Proof.Machine

/-! ### Arming a commit -/

section
variable {s : State} {p src t : Nat}

theorem settle_not_due (h : s.commitDue p t = false) : s.settle p t = s := by simp [State.settle, h]

theorem settle_due (h : s.commitDue p t = true) : s.settle p t = s.commitPage p (s.commitTime p - 1) := by simp [State.settle, h]

theorem exec_shadowArm {m : Master} {p : Fin 352} {b : Bool} {src : BitVec 2} (h : s.present p = true) (hr : s.isResetting p = false) :
    exec (.shadowArm m p b src) s = .next (s.writeArm p b src.toNat) := by
  simp [exec, execShadowArm, State.hdrCmd, h, hr]

/-- An arming of a page that is not armed lands now, in the commit cycle one FCLK cycle later (R57). -/
theorem writeArm_arm (hp : hasShadow p = true) (hd : s.commitDue p s.time = false) (ha : s.on p HDR.SHADOW_CTL_ARM = false) :
    s.writeArm p true src = s.armCommit p src (if s.inCommit p then (s.time / 192 + 1) * 192 else s.time) := by
  simp [State.writeArm, hp, settle_not_due hd, ha]

theorem writeArm_disarm (hp : hasShadow p = true) (hd : s.commitDue p s.time = false) (ha : s.on p HDR.SHADOW_CTL_ARM = false) :
    s.writeArm p false src = if s.inCommit p then s else s.put p HDR.SHADOW_CTL_SRC src := by
  simp [State.writeArm, hp, settle_not_due hd, ha]

theorem commitTime_setCommitTime : (s.setCommitTime p t).commitTime p = t := tabGet_tabPut_same

theorem on_put_field {f g : Fld} {v : Nat} (hf : f.lo + f.wd ≤ 32) (he : g.off = f.off) (hd : g.lo + g.wd ≤ f.lo ∨ f.lo + f.wd ≤ g.lo) :
    (s.put p f v).on p g = s.on p g := by
  rw [State.on, get_put_field hf he hd, State.on]

/-- SRC and then ARM, as an arming writes them. -/
theorem arm_put_src_arm : ((s.put p HDR.SHADOW_CTL_SRC src).put p HDR.SHADOW_CTL_ARM 1).on p HDR.SHADOW_CTL_ARM = true ∧
    ((s.put p HDR.SHADOW_CTL_SRC src).put p HDR.SHADOW_CTL_ARM 1).get p HDR.SHADOW_CTL_SRC = src % 4 :=
  ⟨on_put_same (by decide), by
    rw [get_put_field (f := HDR.SHADOW_CTL_ARM) (g := HDR.SHADOW_CTL_SRC) (by decide) rfl (by decide)]
    exact get_put_same (by decide)⟩

theorem on_put_src : (s.put p HDR.SHADOW_CTL_SRC src).on p HDR.SHADOW_CTL_ARM = s.on p HDR.SHADOW_CTL_ARM :=
  on_put_field (by decide) rfl (by decide)

/-- Source NOW: the next FCLK cycle (R54). -/
theorem armCommit_now : (s.armCommit p 2 t).on p HDR.SHADOW_CTL_ARM = true ∧ (s.armCommit p 2 t).get p HDR.SHADOW_CTL_SRC = 2 ∧
    (s.armCommit p 2 t).commitTime p = (t / 192 + 1) * 192 + 1 :=
  ⟨arm_put_src_arm.1, arm_put_src_arm.2, commitTime_setCommitTime⟩

/-- Source TIME with SHADOW_TIME not past: the first FCLK cycle at or after it (R54). -/
theorem armCommit_time (h : 0 ≤ (s.reg p 0x2C - BitVec.ofNat 32 t).toInt) :
    (s.armCommit p 0 t).on p HDR.SHADOW_CTL_ARM = true ∧
    (s.armCommit p 0 t).commitTime p = edgeAfter (t + (s.reg p 0x2C - BitVec.ofNat 32 t).toInt.toNat) + 1 := by
  simp only [State.armCommit]
  rw [if_neg (Int.not_lt.2 h)]
  exact ⟨arm_put_src_arm.1, commitTime_setCommitTime⟩

/-- Every shadowed page has the source LATE_COMMIT at bit 30 (R54). -/
theorem faultGrade_late (h : hasShadow p = true) : faultGrade p 30 = some (cDL, 0) := by
  revert h
  unfold hasShadow faultGrade
  split <;> rename_i hk <;> simp [hk, PageKind.sources, List.find?]

theorem present_congr {s t : State} (h : t.part = s.part) : t.present p = s.present p := by rw [State.present, h, State.present]

theorem raise_late_fltStat (h : s.present p = true) (hp : hasShadow p = true) : ((s.raise p 30).reg p 0x1C).getLsbD 30 = true := by
  rw [State.raise, raiseWith_fltStat h (faultGrade_late hp)]
  simp

theorem raise_late_ctl {f : Fld} (hf : f.off = 0x28) : (s.raise p 30).on p f = s.on p f := by
  rw [State.on, State.raise, raiseWith_get_ne (by unfold regKey; omega) (by unfold regKey; omega), State.on]

/-- Source TIME with SHADOW_TIME past: the next FCLK cycle, LATE and the fault (R54). -/
theorem armCommit_late (h : s.present p = true) (hp : hasShadow p = true) (hd : (s.reg p 0x2C - BitVec.ofNat 32 t).toInt < 0) :
    (s.armCommit p 0 t).on p HDR.SHADOW_CTL_ARM = true ∧ (s.armCommit p 0 t).on p HDR.SHADOW_CTL_LATE = true ∧
    (s.armCommit p 0 t).commitTime p = (t / 192 + 1) * 192 + 1 ∧ ((s.armCommit p 0 t).reg p 0x1C).getLsbD 30 = true := by
  simp only [State.armCommit]
  rw [if_pos hd, raise_late_ctl rfl, raise_late_ctl rfl]
  refine ⟨?_, on_put_same (by decide), ?_, ?_⟩
  · rw [on_put_field (f := HDR.SHADOW_CTL_LATE) (g := HDR.SHADOW_CTL_ARM) (by decide) rfl (by decide)]
    exact arm_put_src_arm.1
  · rw [State.commitTime, State.raise, State.raiseWith_commitAt, State.put_commitAt]
    exact tabGet_tabPut_same
  · exact raise_late_fltStat ((present_congr (by simp [State.setCommitTime])).trans h) hp

/-- Source DRILL: an APPLY entry sets the commit off (R55). -/
theorem armCommit_drill : (s.armCommit p 1 t).on p HDR.SHADOW_CTL_ARM = true ∧ (s.armCommit p 1 t).get p HDR.SHADOW_CTL_SRC = 1 ∧
    (s.armCommit p 1 t).commitAt = s.commitAt :=
  ⟨arm_put_src_arm.1, arm_put_src_arm.2, rfl⟩

/-! ### The commit -/

theorem copyShadow_cons {o : Nat} {offs : List Nat} :
    s.copyShadow p (o :: offs) = (s.setReg p o (s.shadowReg p o)).copyShadow p offs := rfl

/-- A copy of shadow copies changes registers alone. -/
theorem copyShadow_shape (s : State) (p : Nat) (offs : List Nat) : ∃ r, s.copyShadow p offs = { s with regs := r } := by
  induction offs generalizing s with
  | nil => exact ⟨s.regs, rfl⟩
  | cons o offs ih =>
    obtain ⟨r, h⟩ := ih (s.setReg p o (s.shadowReg p o))
    exact ⟨r, h⟩

theorem copyShadow_reg_ne {off : Nat} {offs : List Nat} (h : ∀ o ∈ offs, regKey p off ≠ regKey p o) :
    (s.copyShadow p offs).reg p off = s.reg p off := by
  induction offs generalizing s with
  | nil => rfl
  | cons o offs ih =>
    rw [copyShadow_cons, ih fun x hx => h x (List.mem_cons_of_mem _ hx), reg_setReg_ne (h o List.mem_cons_self)]

theorem copyShadow_reg {off : Nat} {offs : List Nat} (h4 : ∀ o ∈ offs, o % 4 = 0) (h : off ∈ offs) :
    (s.copyShadow p offs).reg p off = s.shadowReg p off := by
  induction offs generalizing s with
  | nil => cases h
  | cons o offs ih =>
    have h4' : ∀ x ∈ offs, x % 4 = 0 := fun x hx => h4 x (List.mem_cons_of_mem _ hx)
    rw [copyShadow_cons]
    by_cases hm : off ∈ offs
    · exact ih h4' hm
    · obtain rfl : off = o := (List.mem_cons.1 h).resolve_right hm
      have ho := h4 off List.mem_cons_self
      rw [copyShadow_reg_ne fun x hx e => ?_, reg_setReg_same]
      have := h4' x hx
      obtain rfl : off = x := by unfold regKey at e; omega
      exact hm hx

/-- The shadowed registers of a head channel: ZPT_SEL among them, all past the header, each at a word of its own (R105). -/
theorem shadowOffs_hch (hk : pageKind p = some .hch) : 0x40 ∈ shadowOffs p ∧ ∀ o ∈ shadowOffs p, 0x40 ≤ o ∧ o % 4 = 0 := by
  simp only [shadowOffs, hk]
  decide +kernel

theorem pageKind_hch (hp : 0x100 ≤ p) (h : p < 352) : pageKind p = some .hch := by
  unfold pageKind
  rw [if_neg (by omega), if_neg (by omega), if_neg (by omega), if_neg (by omega), if_pos (by omega)]

/-- What a commit has written before it copies: ARM, EPOCH, its cycle. -/
def State.commitMark (s : State) (p t : Nat) : State :=
  let s1 := ((s.setCommitTime p 0).put p HDR.SHADOW_CTL_ARM 0).addWrap p HDR.SHADOW_CTL_EPOCH 1
  { s1 with lastCommit := tabPut s1.lastCommit p (t / fclkSub + 1) 0 }

theorem commitMark_arm : (s.commitMark p t).on p HDR.SHADOW_CTL_ARM = false := by
  change (State.addWrap _ p HDR.SHADOW_CTL_EPOCH 1).on p HDR.SHADOW_CTL_ARM = false
  rw [State.addWrap, on_put_field (f := HDR.SHADOW_CTL_EPOCH) (g := HDR.SHADOW_CTL_ARM) (by decide) rfl (by decide)]
  exact on_put_same (by decide)

theorem commitMark_epoch : (s.commitMark p t).get p HDR.SHADOW_CTL_EPOCH = (s.get p HDR.SHADOW_CTL_EPOCH + 1) % 256 := by
  have harm : ((s.setCommitTime p 0).put p HDR.SHADOW_CTL_ARM 0).get p HDR.SHADOW_CTL_EPOCH = s.get p HDR.SHADOW_CTL_EPOCH :=
    get_put_field (by decide) rfl (by decide)
  change (State.addWrap _ p HDR.SHADOW_CTL_EPOCH 1).get p HDR.SHADOW_CTL_EPOCH = _
  rw [State.addWrap, get_put_same (by decide), harm]
  rfl

theorem commitMark_commitTime : (s.commitMark p t).commitTime p = 0 := commitTime_setCommitTime

/-- A commit of a head channel: its mark, then the copies; beside registers it changes the front end's settling and the record of the
values before. -/
theorem commitPage_hch (hk : pageKind p = some .hch) :
    ∃ a c, s.commitPage p t = { (s.commitMark p t).copyShadow p (shadowOffs p) with afe := a, preCopy := c } := by
  simp only [State.commitPage, State.commitCopy, hk]
  exact ⟨_, _, rfl⟩

end

/-- Settles O16: an arming lands where the state says, a commit is its mark followed by the copies. -/
theorem shadowCommit : Obligations.ShadowCommit := by
  refine ⟨fun m p s _ h hr hp hd ha => ⟨fun hc => ?_, fun hc => ?_, fun hc ht => ?_, fun hc ht => ?_, ?_, fun b src hb => ?_⟩, fun p s hd => ?_,
    fun p s _ hp hd => ?_, fun p s hd => ?_⟩
  · refine ⟨_, exec_shadowArm h hr, ?_⟩
    rw [writeArm_arm hp hd ha, if_neg (by simp [hc])]
    exact armCommit_now
  · refine ⟨_, exec_shadowArm h hr, ?_⟩
    rw [writeArm_arm hp hd ha, if_pos hc]
    obtain ⟨harm, _, htime⟩ := armCommit_now (s := s) (p := p) (t := (s.time / 192 + 1) * 192)
    refine ⟨harm, htime.trans ?_⟩
    omega
  · refine ⟨_, exec_shadowArm h hr, ?_⟩
    rw [writeArm_arm hp hd ha, if_neg (by simp [hc])]
    exact armCommit_time ht
  · refine ⟨_, exec_shadowArm h hr, ?_⟩
    rw [writeArm_arm hp hd ha, if_neg (by simp [hc])]
    exact armCommit_late h hp ht
  · refine ⟨_, exec_shadowArm h hr, ?_⟩
    rw [writeArm_arm hp hd ha]
    exact armCommit_drill
  · refine ⟨_, exec_shadowArm h hr, ?_⟩
    cases b with
    | true =>
      obtain rfl : src = 3 := by simpa using hb
      rw [writeArm_arm hp hd ha]
      exact ⟨on_put_src.trans ha, rfl⟩
    | false =>
      rw [writeArm_disarm hp hd ha]
      split
      · exact ⟨ha, rfl⟩
      · exact ⟨on_put_src.trans ha, rfl⟩
  · exact congrArg Host.Outcome.next (settle_due hd)
  · have hk := pageKind_hch hp p.isLt
    obtain ⟨h40, hoffs⟩ := shadowOffs_hch hk
    obtain ⟨a, c, hpage⟩ := commitPage_hch (s := s) (t := s.commitTime p - 1) hk
    obtain ⟨r, hshape⟩ := copyShadow_shape (s.commitMark p (s.commitTime p - 1)) p (shadowOffs p)
    have hhdr : HeaderKept p (s.commitMark p (s.commitTime p - 1)) ((s.commitMark p (s.commitTime p - 1)).copyShadow p (shadowOffs p)) :=
      fun off ho => copyShadow_reg_ne fun o hm => by have := (hoffs o hm).1; unfold regKey; omega
    refine ⟨_, congrArg Host.Outcome.next ((settle_due hd).trans hpage), fun off hm => ?_, h40, ?_, ?_, ?_, ?_, ?_⟩
    · exact copyShadow_reg (fun o hm => (hoffs o hm).2) hm
    · rw [hshape]; rfl
    · exact (hhdr.on (by decide)).trans commitMark_arm
    · exact (congrArg (fldOf · _) (hhdr 0x28 (by decide))).trans commitMark_epoch
    · rw [hshape]; exact commitMark_commitTime (t := s.commitTime p - 1)
    · rw [hshape]; exact byte_mem rfl
  · exact congrArg Host.Outcome.next (settle_not_due hd)

end Sys2Proof.Machine

/-! SUPPORT. The statements of the register pages: the soft reset (R43) and its end. -/

namespace Sys2Proof.Machine

/-! ### What a reset of a page's registers leaves -/

theorem tabGet_filter {α : Type} {t : List (Nat × α)} {g : Nat → Bool} {k : Nat} {d : α} :
    tabGet (t.filter (fun e => g e.1)) k d = if g k then tabGet t k d else d := by
  induction t with
  | nil => simp [tabGet]
  | cons e r ih =>
    obtain ⟨k', v⟩ := e
    by_cases hk : k' = k
    · subst hk
      cases hg : g k' <;> simp [tabGet, ih, hg]
    · cases hg : g k' <;> simp [tabGet, ih, hg, hk]

section
variable {s t : State} {p q off : Nat} {keep : Nat → Bool}

theorem reg_clearRegs : (s.clearRegs p keep).reg q off =
    if !(decide (regKey q off / 1024 = p) && decide (16 ≤ regKey q off % 1024) && !keep (4 * (regKey q off % 1024))) then s.reg q off
    else resetOf q off :=
  tabGet_filter (g := fun k => !(decide (k / 1024 = p) && decide (16 ≤ k % 1024) && !keep (4 * (k % 1024))))

theorem clearRegs_time : (s.clearRegs p keep).time = s.time := rfl

theorem clearRegs_mem : (s.clearRegs p keep).mem = s.mem := rfl

theorem clearRegs_header : HeaderKept p s (s.clearRegs p keep) := fun off h => by
  have hk : ¬ 16 ≤ regKey p off % 1024 := by unfold regKey; omega
  simp [reg_clearRegs, hk]

/-- With nothing kept every page-specific register is at its reset value. -/
theorem clearRegs_reset (ho : 0x40 ≤ off) (h4 : off < 4096) : (s.clearRegs p (fun _ => false)).reg p off = resetOf p off := by
  have hk : regKey p off / 1024 = p ∧ 16 ≤ regKey p off % 1024 := by unfold regKey; omega
  simp [reg_clearRegs, hk]

theorem clearPage_header : HeaderKept p s (s.clearPage p keep) := by
  unfold State.clearPage
  split
  · exact (clearRegs_header.put).put
  · exact clearRegs_header.put
  · exact clearRegs_header.put
  · exact clearRegs_header

theorem putBytes_header {o : Nat} {bs : List Byte} (h : HeaderKept p s t) (ho : 0x40 ≤ o) : HeaderKept p s (t.putBytes p o bs) :=
  h.each fun _ _ h => h.setReg_own (by omega)

theorem secDefaults_header : HeaderKept pSEC s s.secDefaults := by
  have h := HeaderKept.refl pSEC s
  unfold State.secDefaults
  dsimp only
  split
  · refine putBytes_header (HeaderKept.put (h.put.put.each ?_)) (by decide)
    exact fun _ _ h => h.setReg_own (by omega)
  · exact h.put.put.each fun _ _ h => h.setReg_own (by omega)

/-- Kinds that one page each has, with the page. -/
theorem page_of_kind : ∀ p : Fin 352, ∀ e ∈ [(PageKind.sec, pSEC), (.mdc, pMDC), (.mot, pMOT), (.afm, pAFM), (.nvs, pNVS)],
    pageKind p = some e.1 → p.val = e.2 := by decide +kernel

theorem fuseDefaults_header {p : Fin 352} : HeaderKept p s (s.fuseDefaults p) := by
  have h := HeaderKept.refl p s
  unfold State.fuseDefaults
  split
  · exact (((h.setReg_own (by decide)).setReg_own (by decide)).setReg_own (by decide)).setReg_own (by decide)
  · split
    · exact h
    · exact (h.setReg_own (by decide)).setReg_own (by decide)
  · rename_i hk
    rw [page_of_kind p (.sec, pSEC) (by decide) hk]
    exact secDefaults_header
  · exact h

/-! ### The spindle's part in a reset of MOT -/

theorem HeaderKept.of_regs (h : HeaderKept p s t) {u : State} (hu : u.regs = t.regs) : HeaderKept p s u :=
  fun off ho => by rw [State.reg, hu]; exact h off ho

theorem trackerIdle_header (h : HeaderKept p s t) : HeaderKept p s t.trackerIdle := ((h.put).put).put

theorem speedLost_header (h : HeaderKept p s t) : HeaderKept p s t.speedLost := by
  unfold State.speedLost
  split
  · exact trackerIdle_header h.put
  · exact h

theorem irq_other_header {b : Nat} (h : HeaderKept p s t) (hq : q ≠ p) : HeaderKept p s (t.irq q b) := h.setReg_other hq (by decide)

theorem HeaderKept.ite {c : Prop} [Decidable c] {u : State} (h : HeaderKept p s t) (k : HeaderKept p s u) :
    HeaderKept p s (if c then t else u) := by split <;> assumption

/-- A change of the spindle's state writes registers of SPN and FUR. -/
theorem spnGo_header {st : Nat} (h : HeaderKept p s t) (hp : pSPN ≠ p) : HeaderKept p s (t.spnGo st) := by
  have hstate : HeaderKept p s { (t.put pSPN SPN.SPN_STAT_STATE st).irq pSPN 1 with spn := { t.spn with since := t.time } } :=
    irq_other_header h.put hp
  have hspeed := HeaderKept.ite (c := t.spnState = stRUN ∧ st ≠ stRUN) (speedLost_header hstate) hstate
  have hchop := HeaderKept.ite (c := t.spnState = stDECEL ∧ st ≠ stDECEL)
    ((hspeed.put (q := pSPN) (f := SPN.SPN_STAT_CHOP_ON) (v := 0)).put (q := pSPN) (f := SPN.SPN_STAT_REGEN_RED) (v := 0)) hspeed
  exact HeaderKept.ite hchop hchop.put

theorem rpmNow_regs : s.rpmNow.1.regs = s.regs := by
  unfold State.rpmNow State.roundFree
  dsimp only
  repeat' split
  all_goals rfl

theorem shortBrake_header {c : Nat} (h : HeaderKept p s t) (hp : pSPN ≠ p) : HeaderKept p s (t.shortBrake c) :=
  spnGo_header ((h.of_regs rpmNow_regs).put.put) hp

theorem emergencyStop_header (h : HeaderKept p s t) (hp : pSPN ≠ p) : HeaderKept p s t.emergencyStop := by
  have h0 : HeaderKept p s { t with mot := { t.mot with emergReq := false }, spn := { t.spn with ovr := [], quiet := [], holdUntil := 0 } } :=
    h.of_regs rfl
  have hout := HeaderKept.ite (c := t.starting = true) (irq_other_header (b := 2) (h0.put (q := pSPN) (f := SPN.START_STAT_OUTCOME) (v := 7)) hp) h0
  exact .ite h0 ((spnGo_header (st := stHOLDUP) hout hp).of_regs rfl)

theorem retractCheck_header (h : HeaderKept p s t) (hp : pSPN ≠ p) : HeaderKept p s t.retractCheck := by
  have hstop := HeaderKept.ite (c := t.mot.emergReq = true) (emergencyStop_header h hp) h
  exact .ite (.ite (shortBrake_header hstop hp) hstop) h

/-! ### The soft reset of a page -/

theorem noteDds_header : HeaderKept pAFM s s.noteDds :=
  (HeaderKept.refl pAFM s).each fun _ _ h => .ite h (h.setReg_own (by omega))

theorem showSuspects_header : HeaderKept pNVS s s.showSuspects := by
  refine (HeaderKept.refl pNVS s).put.each fun _ _ h => ?_
  split <;> exact h.setReg_own (by omega)

/-- MDC_STAT follows the cache; a unit that does not run cleans nothing. -/
theorem noteMdc_header (h : s.enabled pMDC = false) : HeaderKept p s s.noteMdc := by
  have hr : s.running pMDC = false := by simp [State.running, h]
  simp only [State.noteMdc, hr]
  exact (HeaderKept.refl p s).put.put.put.put

/-- The status that follows a reset of the registers leaves the header. -/
theorem refresh_header {p : Fin 352} (he : s.enabled p = false) : HeaderKept p s (s.refresh p) := by
  have h := HeaderKept.refl p s
  unfold State.refresh
  split
  · rename_i hk
    rw [page_of_kind p (.afm, pAFM) (by decide) hk]
    exact noteDds_header
  · rename_i hk
    rw [page_of_kind p (.nvs, pNVS) (by decide) hk]
    exact showSuspects_header
  · exact .ite h.put.put.put.put h.put.put
  · rename_i hk
    rw [page_of_kind p (.mdc, pMDC) (by decide) hk] at he
    exact noteMdc_header he
  · exact h.put
  · exact h.put
  · rename_i hk
    exact .ite (retractCheck_header h (by rw [page_of_kind p (.mot, pMOT) (by decide) hk]; decide)) h
  · exact h.put
  · exact h.each fun _ _ h => .ite (h.put_own (by simp; omega)) h
  · exact h


/-- ENABLE, IRQ_EN, IRQ_PEND, SHADOW_TIME and SHADOW_CTL but for EPOCH are 0 (R43). -/
structure HeaderReset (p : Nat) (t : State) : Prop where
  enabled : t.enabled p = false
  irqEn : t.reg p 0x14 = 0
  irqPend : t.reg p 0x18 = 0
  shadowTime : t.reg p 0x2C = 0
  shadowCtl : t.reg p 0x28 &&& ~~~ HDR.SHADOW_CTL_EPOCH.mask = 0

theorem HeaderReset.kept (h : HeaderReset p s) (k : HeaderKept p s t) : HeaderReset p t where
  enabled := k.enabled.trans h.enabled
  irqEn := (k 0x14 (by decide)).trans h.irqEn
  irqPend := (k 0x18 (by decide)).trans h.irqPend
  shadowTime := (k 0x2C (by decide)).trans h.shadowTime
  shadowCtl := by rw [k 0x28 (by decide)]; exact h.shadowCtl

theorem reg_setReg_off {o o' : Nat} {w : Word} (h : o' / 4 ≠ o / 4) : (s.setReg p o w).reg p o' = s.reg p o' :=
  reg_setReg_ne (by unfold regKey; omega)

theorem reg_setCommitTime {o x : Nat} : (s.setCommitTime p x).reg q o = s.reg q o := rfl

/-- The registers that the header's part writes are CTRL, IRQ_EN, IRQ_PEND, SHADOW_CTL and SHADOW_TIME. -/
theorem resetHeader_reg {o : Nat} (h : o / 4 ∉ [2, 5, 6, 10, 11]) : (s.resetHeader p).reg p o = s.reg p o := by
  simp only [List.mem_cons, List.not_mem_nil, or_false, not_or] at h
  obtain ⟨hctrl, hen, hpend, hctl, htime⟩ := h
  simp [State.resetHeader, State.disarm, State.put, reg_setCommitTime, reg_setReg_off, hctrl, hen, hpend, hctl, htime]

theorem resetHeader_time : (s.resetHeader p).time = s.time := rfl

theorem resetHeader_mem : (s.resetHeader p).mem = s.mem := rfl

theorem resetHeader_reset : HeaderReset p (s.resetHeader p) := by
  have hctrl : (s.resetHeader p).reg p 8 = 0 := by
    simp [State.resetHeader, State.disarm, State.put, reg_setCommitTime, reg_setReg_off, reg_setReg_same]
  refine ⟨?_, ?_, ?_, ?_, ?_⟩
  · rw [State.enabled, State.on, State.get, hctrl]
    rfl
  · simp [State.resetHeader, State.disarm, State.put, reg_setCommitTime, reg_setReg_off, reg_setReg_same]
  · simp [State.resetHeader, State.disarm, State.put, reg_setCommitTime, reg_setReg_off, reg_setReg_same]
  · simp [State.resetHeader, reg_setReg_off, reg_setReg_same]
  · rw [State.resetHeader, reg_setReg_same, BitVec.and_assoc]
    simp

/-- The reset of a page's registers and what follows them leave the header as its own reset made it. -/
theorem resetRegs_header {p : Fin 352} : HeaderReset p (((((s.unitReset p).resetHeader p).clearPage p keep).fuseDefaults p).refresh p) := by
  have hregs : HeaderReset p ((((s.unitReset p).resetHeader p).clearPage p keep).fuseDefaults p) :=
    resetHeader_reset.kept (clearPage_header.trans fuseDefaults_header)
  exact hregs.kept (refresh_header hregs.enabled)

theorem resetPage_header {p : Fin 352} (hp : p.val ≠ pNVS) : HeaderReset p (s.resetPage p) := by
  unfold State.resetPage
  dsimp only
  split
  · exact resetRegs_header.kept fun _ _ => rfl
  · rw [if_neg (fun h => hp h.1)]
    exact resetRegs_header

theorem norReport_enabled {st : Nat} : (s.norReport st).enabled pNVS = s.enabled pNVS := by
  unfold State.norReport State.enabled
  rw [State.on, irq_get_ne (by decide)]
  exact ((HeaderKept.refl pNVS s).put.put).enabled

theorem resetPage_enabled {p : Fin 352} : (s.resetPage p).enabled p = false := by
  by_cases hp : p.val = pNVS
  · unfold State.resetPage
    dsimp only
    rw [if_neg (by rw [hp]; decide)]
    split
    · conv => lhs; rw [hp]
      rw [norReport_enabled, ← hp]
      exact resetRegs_header.enabled
    · exact resetRegs_header.enabled
  · exact (resetPage_header hp).enabled

end
end Sys2Proof.Machine

/-! SUPPORT. The statements of the register pages: the soft reset as a command, and its end (R43). -/

namespace Sys2Proof.Machine

/-! ### The command -/

section
variable {s t : State} {m : Master} {b : Bool}

theorem exec_softReset {p : Fin 352} (h : s.present p = true) :
    exec (.softReset m p b) s =
      .next ((s.writePower p b).hdrOn p fun s => { s.softReset p with resetting := s.resetting ++ [p.val] }) := by
  simp [exec, execSoftReset, h]

theorem writePower_present {p q : Nat} : (s.writePower p b).present q = s.present q :=
  present_congr (State.writePower_keeps (.refl s)).part

theorem hdrOn_resetting {p : Nat} {k : State → State} (h : s.isResetting p = true) : s.hdrOn p k = s := by
  simp [State.hdrOn, State.hdrCmd, h]

/-- The state changes at most in its power domains: what the statement of the soft reset compares is the same. -/
structure SameButPower (s t : State) : Prop where
  regs : t.regs = s.regs
  time : t.time = s.time
  mem : t.mem = s.mem
  part : t.part = s.part
  d2dLost : t.d2dLost = s.d2dLost
  resetting : t.resetting = s.resetting

theorem domRequest_same {d : Nat} : SameButPower s (s.domRequest d) := by
  unfold State.domRequest
  dsimp only
  split
  · exact ⟨rfl, rfl, rfl, rfl, rfl, rfl⟩
  · split <;> exact ⟨rfl, rfl, rfl, rfl, rfl, rfl⟩

/-- With POWER_REQ as it stands a request touches the power domains alone. -/
theorem writePower_same (s : State) (p : Nat) : SameButPower s (s.writePower p (s.powerReq p)) := by
  cases hd : pageDom p with
  | none =>
    rw [writePower_always_on hd]
    exact ⟨rfl, rfl, rfl, rfl, rfl, rfl⟩
  | some d =>
    have hq : s.powerReq p = (s.domOf d).req := by simp [State.powerReq, hd]
    cases hr : (s.domOf d).req with
    | false =>
      rw [hq, hr, writePower_unrequested hd hr]
      exact ⟨rfl, rfl, rfl, rfl, rfl, rfl⟩
    | true =>
      rw [hq, hr, writePower_request hd]
      exact domRequest_same

theorem softReset_page {p : Nat} (hspn : p ≠ pSPN) (hflt : p ≠ pFLT) : s.softReset p = s.resetPage p := by
  simp [State.softReset, hspn, hflt]

/-- A page of the kinds SRVa and PRFa: its unit's state goes, its header is reset, its registers return to their reset values. -/
theorem resetPage_plain {p : Nat} (hk : pageKind p = some .srv ∨ pageKind p = some .prf) :
    s.resetPage p = ((s.unitClear p).resetHeader p).clearRegs p (fun _ => false) := by
  have hpwr : p ≠ pPWR := by rintro rfl; exact absurd hk (by decide)
  have hnvs : p ≠ pNVS := by rintro rfl; exact absurd hk (by decide)
  rcases hk with hk | hk <;>
    · simp only [State.resetPage, State.unitReset, State.clearPage, State.fuseDefaults, State.refresh, hk, hpwr, hnvs, false_and, if_false]
      rfl

/-- The state of such a unit lies outside the registers, the time and buffer memory. -/
theorem unitClear_plain {p : Nat} (hk : pageKind p = some .srv ∨ pageKind p = some .prf) :
    (s.unitClear p).regs = s.regs ∧ (s.unitClear p).time = s.time ∧ (s.unitClear p).mem = s.mem := by
  rcases hk with hk | hk <;> simp [State.unitClear, hk]

/-- LOCK, FLT_STAT and FENCE of such a page. -/
theorem resetPage_plain_header {p o : Nat} (hk : pageKind p = some .srv ∨ pageKind p = some .prf) (ho : o < 0x40)
    (h : o / 4 ∉ [2, 5, 6, 10, 11]) : (s.resetPage p).reg p o = s.reg p o := by
  obtain ⟨hregs, _, _⟩ := unitClear_plain (s := s) hk
  rw [resetPage_plain hk, clearRegs_header o ho, resetHeader_reg h, State.reg, hregs, State.reg]

theorem resetPage_plain_own {p o : Nat} (hk : pageKind p = some .srv ∨ pageKind p = some .prf) (ho : 0x40 ≤ o) (h4 : o < 4096) :
    (s.resetPage p).reg p o = resetOf p o := by
  rw [resetPage_plain hk, clearRegs_reset ho h4]

theorem resetPage_plain_time {p : Nat} (hk : pageKind p = some .srv ∨ pageKind p = some .prf) : (s.resetPage p).time = s.time := by
  obtain ⟨_, htime, _⟩ := unitClear_plain (s := s) hk
  rw [resetPage_plain hk, clearRegs_time, resetHeader_time, htime]

theorem resetPage_plain_mem {p : Nat} (hk : pageKind p = some .srv ∨ pageKind p = some .prf) : (s.resetPage p).mem = s.mem := by
  obtain ⟨_, _, hmem⟩ := unitClear_plain (s := s) hk
  rw [resetPage_plain hk, clearRegs_mem, resetHeader_mem, hmem]

theorem SameButPower.reg {u : State} (h : SameButPower s u) (p o : Nat) : u.reg p o = s.reg p o := by rw [State.reg, h.regs, State.reg]

theorem softReset_flt : s.softReset pFLT = ((s.setReg pFLT 0x14 0).setReg pFLT 0x18 0).setReg pFLT 0x60 0 := rfl

/-! ### The end -/

theorem each_resetting {α : Type} {l : List α} {f : State → α → State} (h : ∀ s a, (f s a).resetting = s.resetting) :
    (s.each l f).resetting = s.resetting := by
  induction l generalizing s with
  | nil => rfl
  | cons a l ih => exact (ih (s := f s a)).trans (h s a)

theorem fst_resetting {α : Type} {r : State × α} {u : State} {a : α} (h : r = (u, a)) (hr : r.1.resetting = s.resetting) :
    u.resetting = s.resetting := by
  subst h
  exact hr

/-! #### Buffer memory -/

theorem raiseRefusal_resetting {m : Option Master} {w : Bool} {r : Option Nat} {x : Nat} : (s.raiseRefusal m w r x).resetting = s.resetting := by
  unfold State.raiseRefusal State.raiseAccess
  split <;> simp

theorem badRead_resetting {m : Option Master} {w : Bool} {l : Nat} : (s.badRead m w l).resetting = s.resetting := by
  unfold State.badRead State.dramUe
  dsimp only
  rw [apply_ite State.resetting, apply_ite State.resetting]
  simp only [State.raise, State.raiseWith_resetting, State.irq, State.irqBits, State.inc, State.addSat, State.setReg_resetting,
    State.put_resetting, ite_self]

theorem noteZpt_resetting {a n : Nat} : (s.noteZpt a n).resetting = s.resetting := by
  unfold State.noteZpt
  split <;> rfl

theorem countRmw_resetting {a n : Nat} : (s.countRmw a n).resetting = s.resetting := each_resetting fun _ _ => rfl

theorem storeBytes_resetting {a : Nat} {bs : List Byte} : (s.storeBytes a bs).resetting = s.resetting := by
  induction bs generalizing s a with
  | nil => rfl
  | cons x bs ih => exact ih (s := s.setByte a x)

theorem bufWrite_resetting {m : Option Master} {a : Nat} {bs : List Byte} : (s.bufWrite m a bs).1.resetting = s.resetting := by
  unfold State.bufWrite
  split
  · exact raiseRefusal_resetting
  · split
    · exact badRead_resetting
    · exact storeBytes_resetting.trans (countRmw_resetting.trans noteZpt_resetting)

theorem bufRead_resetting {m : Option Master} {a n : Nat} : (s.bufRead m a n).1.resetting = s.resetting := by
  unfold State.bufRead
  split
  · exact raiseRefusal_resetting
  · split
    · exact badRead_resetting
    · rfl

/-! #### Transfers of DMA -/

section
variable {c i lo n : Nat} {d : DmaDesc} {bs : List Byte}

theorem noteInUse_resetting : s.noteInUse.resetting = s.resetting := by
  unfold State.noteInUse
  dsimp only
  split <;> rfl

theorem noteCh_resetting : (s.noteCh c).resetting = s.resetting := noteInUse_resetting

theorem noteTrail_resetting : (s.noteTrail c).resetting = s.resetting := by
  unfold State.noteTrail
  split <;> rfl

theorem noteTxq_resetting {p : Nat} : (s.noteTxq p).resetting = s.resetting := by
  unfold State.noteTxq
  dsimp only
  split <;> rfl

theorem takeTlp_resetting {p : Nat} {x : Tlp} : (s.takeTlp p x).resetting = s.resetting := noteTxq_resetting

theorem setDma_resetting {v : DmaChan} : (s.setDma c v).resetting = s.resetting := rfl

theorem setDesc_resetting : (s.setDesc c i d).resetting = s.resetting := rfl

theorem dmaSource_resetting : (s.dmaSource c d lo n).1.resetting = s.resetting := by
  unfold State.dmaSource
  dsimp only
  split
  · rename_i h
    exact fst_resetting h bufRead_resetting
  · rename_i h
    have hread := fst_resetting h bufRead_resetting
    split
    · exact hread
    · split <;> exact hread

theorem dmaSink_resetting {off : Nat} : (s.dmaSink c d off bs).1.resetting = s.resetting := by
  unfold State.dmaSink
  dsimp only
  split
  · split <;> rename_i h <;> exact fst_resetting h bufWrite_resetting
  · split
    · rfl
    · split <;> rename_i h <;> exact fst_resetting h bufWrite_resetting

theorem dmaIssue_resetting (h : s.dmaIssue c i d = some t) : t.resetting = s.resetting := by
  unfold State.dmaIssue at h
  dsimp only at h
  split at h
  · cases h
  split at h
  · cases h
    rfl
  split at h
  · cases h
    rfl
  split at h
  · split at h
    · cases h
    · cases h
      exact noteCh_resetting
  split at h
  · cases h
  split at h
  · split at h
    · cases h
    split at h <;> rename_i hsrc <;> have hs := fst_resetting hsrc dmaSource_resetting <;> cases h
    · exact hs
    · simp only [noteTrail_resetting, setDma_resetting, setDesc_resetting, takeTlp_resetting, hs]
  · split at h <;> rename_i hsrc <;> have hs := fst_resetting hsrc dmaSource_resetting
    · cases h
      exact hs
    split at h <;> rename_i hsink <;> have hs2 := fst_resetting hsink (dmaSink_resetting.trans hs) <;> cases h <;> exact hs2

theorem dmaPump_resetting {fuel : Nat} : (s.dmaPump fuel c).resetting = s.resetting := by
  induction fuel generalizing s with
  | zero => rfl
  | succ fuel ih =>
    unfold State.dmaPump
    split
    · rfl
    · split
      · rfl
      · split
        · rfl
        · rename_i h
          exact ih.trans (dmaIssue_resetting h)

end

/-! #### Host ports -/

section
variable {p : Nat}

theorem dmaRunPort_resetting : (s.dmaRunPort p).resetting = s.resetting := each_resetting fun _ _ => dmaPump_resetting

theorem txqDiscard_resetting : (s.txqDiscard p).resetting = s.resetting := by
  refine (each_resetting fun s t => ?_).trans noteTxq_resetting
  dsimp only
  split <;> rfl

theorem readsEnd_resetting {det : Nat} : (s.readsEnd p det).resetting = s.resetting := each_resetting fun _ _ => noteCh_resetting

theorem linkEnd_resetting {st : Nat} : (s.linkEnd p st).resetting = s.resetting :=
  dmaRunPort_resetting.trans (readsEnd_resetting.trans txqDiscard_resetting)

theorem settlePort_resetting : (s.settlePort p).resetting = s.resetting := by
  unfold State.settlePort
  dsimp only
  split
  · split <;> rfl
  · split
    · rfl
    · exact linkEnd_resetting

/-- What the end of a soft reset does on its page: NVS probes its devices, a host port may train (R474, R388). -/
def State.resetEnd (s : State) (p : Nat) : State :=
  match pageKind p with
  | some .nvs => if s.powered p && !s.fenced p then s.nvsProbe else s
  | some .hif => s.settlePort (p - 0x30)
  | _ => s

theorem resetEnd_resetting : (s.resetEnd p).resetting = s.resetting := by
  unfold State.resetEnd
  split
  · split <;> rfl
  · exact settlePort_resetting
  · rfl

theorem resetEnd_plain (hnvs : pageKind p ≠ some .nvs) (hhif : pageKind p ≠ some .hif) : s.resetEnd p = s := by
  unfold State.resetEnd
  split
  · contradiction
  · contradiction
  · rfl

end

theorem exec_softResetDone {p : Fin 352} (h : s.isResetting p = true) :
    exec (.softResetDone p) s = .next (State.resetEnd { s with resetting := s.resetting.filter (fun x => decide (x ≠ p.val)) } p) := by
  simp only [exec, execSoftResetDone, h, if_true]
  rfl

theorem isResetting_filter {l : List Nat} {p q : Nat} (h : t.resetting = l.filter (fun x => decide (x ≠ p))) :
    t.isResetting q = (decide (q ≠ p) && l.contains q) := by
  rw [State.isResetting, h, Bool.eq_iff_iff]
  simp [and_comm]

/-- The command with POWER_REQ as it stands, on a page that takes it. -/
theorem exec_softReset_held {p : Fin 352} (h : s.present p = true) (hs : s.motSilent p = false) (hr : s.isResetting p = false) :
    ∃ u, SameButPower s u ∧ exec (.softReset m p (s.powerReq p)) s = .next { u.softReset p with resetting := u.resetting ++ [p.val] } := by
  have hu := writePower_same s p
  refine ⟨_, hu, ?_⟩
  rw [exec_softReset h, hdrOn_answering (writePower_present.trans h)]
  · rw [State.motSilent, hu.d2dLost]
    exact hs
  · rw [State.isResetting, hu.resetting]
    exact hr

end

/-- Settles O14: the header's part clears its registers and what follows leaves them, page by page; the end drops the page from the list
of those in reset. -/
theorem softReset : Obligations.SoftReset := by
  refine ⟨fun m p pr s h hs hr => ?_, fun m p s _ h hs hr => ?_, fun m p pr s h hr => ?_,
    fun p s => ⟨fun hr => ⟨_, exec_softResetDone hr, ?_⟩, fun hr => ?_⟩⟩
  · rw [exec_softReset h, hdrOn_answering (writePower_present.trans h) hs hr]
  · obtain ⟨u, hu, he⟩ := exec_softReset_held (m := m) h hs hr
    refine ⟨_, he, by simp [State.isResetting], fun hspn hflt => ?_, fun hspn hflt hmot hnvs hsec => ?_, fun hk => ?_, fun hp => ?_⟩
    · change (u.softReset p).enabled p = false
      rw [softReset_page hspn hflt]
      exact resetPage_enabled
    · have hhdr := resetPage_header (s := u) hnvs
      rw [← softReset_page hspn hflt] at hhdr
      exact ⟨hhdr.irqEn, hhdr.irqPend, hhdr.shadowTime, hhdr.shadowCtl⟩
    · have hspn : p.val ≠ pSPN := by intro e; rw [e] at hk; exact absurd hk (by decide)
      have hflt : p.val ≠ pFLT := by intro e; rw [e] at hk; exact absurd hk (by decide)
      rw [softReset_page hspn hflt]
      exact ⟨(resetPage_plain_header hk (by decide) (by decide)).trans (hu.reg _ _),
        (resetPage_plain_header hk (by decide) (by decide)).trans (hu.reg _ _),
        (resetPage_plain_header hk (by decide) (by decide)).trans (hu.reg _ _), (resetPage_plain_time hk).trans hu.time,
        byte_mem ((resetPage_plain_mem hk).trans hu.mem), fun off ho h4 => resetPage_plain_own hk ho h4⟩
    · rw [hp, softReset_flt]
      refine ⟨?_, ?_, reg_setReg_same, fun q off hen hpend hsub => ?_⟩
      · exact (reg_setReg_off (by decide)).trans ((reg_setReg_off (by decide)).trans reg_setReg_same)
      · exact (reg_setReg_off (by decide)).trans reg_setReg_same
      · exact (reg_setReg_ne hsub).trans ((reg_setReg_ne hpend).trans ((reg_setReg_ne hen).trans (hu.reg q off)))
  · rw [exec_softReset h, hdrOn_resetting hr]
  · refine ⟨?_, fun q hq => ?_, fun hnvs hhif => ⟨_, resetEnd_plain hnvs hhif⟩⟩
    · rw [isResetting_filter resetEnd_resetting]
      simp
    · rw [isResetting_filter resetEnd_resetting]
      simp [hq, State.isResetting]
  · simp [exec, execSoftResetDone, hr]

end Sys2Proof.Machine

/-! SUPPORT. The statements of the preamp links: the registers of a page, the CMD FIFO (R107, R115). -/

namespace Sys2Proof.Machine

section
variable {s t : State} {m : Master} {p q b v off : Nat} {f g : Fld} {k : State → State}

/-! ### Registers of one page -/

theorem regKey_ne_of_off {o o' : Nat} (h : o / 4 ≠ o' / 4) : regKey p o ≠ regKey p o' := by
  unfold regKey; omega

theorem regKey_ne_of_page {o o' : Nat} (h : p ≠ q) (ho : o < 4096) (ho' : o' < 4096) : regKey p o ≠ regKey q o' := by
  unfold regKey; omega

theorem get_put_off (h : g.off / 4 ≠ f.off / 4) : (s.put p f v).get p g = s.get p g := get_put_ne (regKey_ne_of_off h)

theorem irq_get_off (h : f.off / 4 ≠ 6) : (s.irq p b).get p f = s.get p f := irq_get_ne (regKey_ne_of_off h)

theorem raise_get_off (h : f.off / 4 ≠ 6) (h' : f.off / 4 ≠ 7) : (s.raise p b).get p f = s.get p f :=
  raiseWith_get_ne (regKey_ne_of_off h') (regKey_ne_of_off h)

/-- A page-specific command write to a unit that is on and not in soft reset takes effect. -/
theorem regCmd_answering (h : s.present p = true) (hw : s.powered p = true) (hr : s.isResetting p = false) : s.regCmd m p off k = k s := by
  simp [State.regCmd, h, hw, hr]

theorem get_congr (h : t.regs = s.regs) : t.get p f = s.get p f := by rw [State.get, State.reg, h, State.get, State.reg]

/-- Equal queues make equal links. -/
theorem lnkOf_congr {a : Nat} (h : t.lnk = s.lnk) : t.lnkOf a = s.lnkOf a := by rw [State.lnkOf, h, State.lnkOf]

/-! ### Links -/

@[simp] theorem lnkOf_setLnk {a : Nat} {l : Link} : (s.setLnk a l).lnkOf a = l := tabGet_tabPut_same

@[simp] theorem lnkOf_put {a : Nat} : (s.put p f v).lnkOf a = s.lnkOf a := rfl

@[simp] theorem lnkOf_irq {a : Nat} : (s.irq p b).lnkOf a = s.lnkOf a := rfl

@[simp] theorem lnkOf_inc {a : Nat} : (s.inc p f).lnkOf a = s.lnkOf a := rfl

@[simp] theorem lnkOf_raise {a : Nat} : (s.raise p b).lnkOf a = s.lnkOf a := lnkOf_congr (by simp [State.raise])

@[simp] theorem setLnk_time {a : Nat} {l : Link} : (s.setLnk a l).time = s.time := rfl

@[simp] theorem get_setLnk {a : Nat} {l : Link} : (s.setLnk a l).get p f = s.get p f := rfl

end

section
variable {s : State} {m : Master} {a : Nat} {t : Tx}

/-! ### CMD writes -/

theorem linkCmd_down (h : s.linkState a = 0 ∨ s.linkState a = 3) : s.linkCmd a t = s.put (pLNK a) LNK.CMD_STAT_RESULT 2 := if_pos h

theorem linkCmd_full (h : s.linkState a = 1 ∨ s.linkState a = 2) (hf : 4 ≤ (s.lnkOf a).fifo.length) :
    s.linkCmd a t = s.put (pLNK a) LNK.CMD_STAT_OVERFLOW 1 := by
  simp only [State.linkCmd]
  rw [if_neg (by omega), if_pos hf]

theorem linkCmd_queued (h : s.linkState a = 1 ∨ s.linkState a = 2) (hf : (s.lnkOf a).fifo.length < 4) :
    s.linkCmd a t = ((s.setLnk a { s.lnkOf a with fifo := (s.lnkOf a).fifo ++ [t] }).put (pLNK a) LNK.CMD_STAT_DONE 0).put (pLNK a) LNK.CMD_STAT_OVERFLOW 0 := by
  simp only [State.linkCmd]
  rw [if_neg (by omega), if_neg (Nat.not_le.2 hf)]

/-- A link that is not OFF shows the free places of its FIFO. -/
theorem cmdFree_on (h : s.linkState a ≠ 0) : s.cmdFree a = (4 - (s.lnkOf a).fifo.length) * 2 ^ 24 := if_neg h

/-- What a queued frame leaves in CMD_STAT and in the FIFO. -/
theorem linkCmd_accepted (h : s.linkState a = 1 ∨ s.linkState a = 2) (hf : (s.lnkOf a).fifo.length < 4) :
    ((s.linkCmd a t).lnkOf a).fifo = (s.lnkOf a).fifo ++ [t] ∧ (s.linkCmd a t).get (pLNK a) LNK.CMD_STAT_DONE = 0 ∧
    (s.linkCmd a t).get (pLNK a) LNK.CMD_STAT_OVERFLOW = 0 ∧ (s.linkCmd a t).cmdFree a = (3 - (s.lnkOf a).fifo.length) * 2 ^ 24 ∧
    (s.linkCmd a t).mem = s.mem ∧ (s.linkCmd a t).drl = s.drl := by
  have hstate : (s.linkCmd a t).linkState a = s.linkState a := by
    rw [linkCmd_queued h hf, State.linkState, get_put_off (by decide), get_put_off (by decide), get_setLnk, State.linkState]
  have hfifo : ((s.linkCmd a t).lnkOf a).fifo = (s.lnkOf a).fifo ++ [t] := by simp [linkCmd_queued h hf]
  refine ⟨hfifo, ?_, ?_, ?_, ?_, ?_⟩
  · rw [linkCmd_queued h hf, get_put_field (f := LNK.CMD_STAT_OVERFLOW) (g := LNK.CMD_STAT_DONE) (by decide) rfl (by decide)]
    exact get_put_same (by decide)
  · rw [linkCmd_queued h hf]
    exact get_put_same (by decide)
  · rw [cmdFree_on (by omega), hfifo, List.length_append, List.length_singleton, Nat.add_comm, Nat.sub_add_eq]
  · rw [linkCmd_queued h hf]; rfl
  · rw [linkCmd_queued h hf]; rfl

/-- A CMD write of TYPE WRITE, READ or STATUS_REQ requests its frame. -/
theorem exec_cmdFrame {a : Fin 8} {hd : BitVec 4} {reg data : BitVec 8} {c : Instr} {ty : Nat}
    (h : s.present (pLNK a) = true) (hw : s.powered (pLNK a) = true) (hr : s.isResetting (pLNK a) = false)
    (hc : (c, ty) ∈ [(.cmdWriteFrame m a hd reg data, 0), (.cmdReadFrame m a hd reg data, 1), (.cmdStatusReq m a hd reg data, 3)]) :
    exec c s = .next (s.linkCmd a { typ := ty, head := hd.toNat, seq := 0, reg := reg.toNat, data := data.toNat, source := .page }) := by
  simp only [List.mem_cons, Prod.mk.injEq, List.not_mem_nil, or_false] at hc
  obtain ⟨rfl, rfl⟩ | ⟨rfl, rfl⟩ | ⟨rfl, rfl⟩ := hc <;>
    exact congrArg Host.Outcome.next (regCmd_answering h hw hr)

end

/-- Settles O30: past the guard of the page each write is `linkCmd`, whose branches are the link's state and the FIFO's length. -/
theorem preampCommands : Obligations.PreampCommands := by
  intro m a hd reg data s _ h hw hr
  refine ⟨fun c ty hc => ⟨fun hs => ?_, fun hs hf => ?_, fun hs hf => ?_⟩, ?_⟩
  · rw [exec_cmdFrame h hw hr hc, linkCmd_down hs]
  · rw [exec_cmdFrame h hw hr hc, linkCmd_full hs hf]
  · exact ⟨_, exec_cmdFrame h hw hr hc, linkCmd_accepted hs hf⟩
  · exact congrArg Host.Outcome.next (regCmd_answering h hw hr)

end Sys2Proof.Machine

/-! SUPPORT. The statements of the preamp links: frames, responses, time-outs (R107–R112). -/

namespace Sys2Proof.Machine

section
variable {s : State} {p b : Nat} {f : Fld}

/-- A counter counts up to its largest value. -/
theorem get_inc (hf : f.lo + f.wd ≤ 32) : (s.inc p f).get p f = min (s.get p f + 1) (2 ^ f.wd - 1) := by
  have hpos := Nat.two_pow_pos f.wd
  rw [State.inc, State.addSat, get_put_same hf, Nat.mod_eq_of_lt (by omega)]

/-- A pulsed source latches its bit of IRQ_PEND (R44). -/
theorem irq_pend (hb : b < 32) : ((s.irq p b).reg p 0x18).getLsbD b = true := by
  rw [State.irq, State.irqBits, reg_setReg_same, BitVec.getLsbD_or, BitVec.getLsbD_ofNat]
  simp [hb]

/-- A source of a present page sets its bit of FLT_STAT (R45). -/
theorem raise_fltStat {g : Nat × Nat} (h : s.present p = true) (k : faultGrade p b = some g) (hb : b < 32) :
    ((s.raise p b).reg p 0x1C).getLsbD b = true := by
  rw [State.raise, raiseWith_fltStat h k, BitVec.getLsbD_or, BitVec.getLsbD_ofNat]
  simp [hb]

end

/-- The sources of a page are those of its kind, but for DRLD's ENTRY_UE (R88). -/
theorem faultGrade_of_kind {p b : Nat} {k : PageKind} (hk : pageKind p = some k) (h5 : p ≠ 5) :
    faultGrade p b = (k.sources.find? (fun e => e.1 = b)).map (·.2) := by
  simp only [faultGrade, hk]
  cases k.sources.find? (fun e => e.1 = b) with
  | none => rfl
  | some e => exact if_neg fun h => h5 h.1

theorem pageKind_lnk {a : Nat} (ha : a < 8) : pageKind (pLNK a) = some .lnk := by
  change pageKind (0x46 + 16 * a) = _
  unfold pageKind
  rw [if_neg (by omega), if_neg (by omega), if_neg (by omega), if_pos (by omega), show (0x46 + 16 * a) % 16 = 6 by omega]
  rfl

/-- The faults of a link page (R115). -/
theorem faultGrade_lnk {a b : Nat} (ha : a < 8) : faultGrade (pLNK a) b = (PageKind.lnk.sources.find? (fun e => e.1 = b)).map (·.2) :=
  faultGrade_of_kind (pageKind_lnk ha) (by change 0x46 + 16 * a ≠ 5; omega)

section
variable {s : State} {a n : Nat} {t : Tx} {r : List Tx} {e : Entry}

/-! ### Frames on ADO -/

@[simp] theorem lnkOf_sendFrame : (s.sendFrame a t).lnkOf a =
    { s.lnkOf a with unans := (s.lnkOf a).unans ++ [{ t with sentEnd := s.time + 198 * 64 }], nextStart := s.time + 240 * 64, ado := t.word } :=
  lnkOf_setLnk

@[simp] theorem lnkOf_sendNew : (s.sendNew a t).lnkOf a =
    { s.lnkOf a with
      seq := ((s.lnkOf a).seq + 1) % 4
      unans := (s.lnkOf a).unans ++ [{ t with seq := (s.lnkOf a).seq, sentEnd := s.time + 198 * 64 }]
      nextStart := s.time + 240 * 64
      ado := ({ t with seq := (s.lnkOf a).seq } : Tx).word } := by
  simp only [State.sendNew, lnkOf_sendFrame, lnkOf_setLnk]
  rfl

@[simp] theorem lnkOf_resend : (s.resend a t).lnkOf a = (s.sendFrame a { t with tries := t.tries + 1 }).lnkOf a := rfl

theorem exec_frameStart_free {a : Fin 8} (h : s.linkFree a = true) : exec (.frameStart a) s = .next (s.startFrame a) :=
  congrArg Host.Outcome.next (if_pos h)

theorem exec_frameStart_held {a : Fin 8} (h : s.linkFree a = false) : exec (.frameStart a) s = .next s :=
  congrArg Host.Outcome.next (if_neg (by simp [h]))

theorem startFrame_retx (h : (s.lnkOf a).retx = t :: r) : s.startFrame a = (s.setLnk a { s.lnkOf a with retx := r }).resend a t := by
  simp only [State.startFrame, h]

theorem startFrame_alert (h : (s.lnkOf a).retx = []) (ha : (s.lnkOf a).alert = true) (hu : (s.lnkOf a).unans.length < 4) :
    s.startFrame a = (s.setLnk a { s.lnkOf a with alert := false }).sendNew a { typ := 3, head := 0, seq := 0, reg := 0, data := 0, source := .alert } := by
  simp [State.startFrame, Link.open, h, ha, hu]

theorem startFrame_drill (h : (s.lnkOf a).retx = []) (ha : (s.lnkOf a).alert = false) (he : s.dueDrillFrame a = some e) :
    s.startFrame a = s.launchFrame a e := by
  simp [State.startFrame, h, ha, he]

theorem startFrame_page (h : (s.lnkOf a).retx = []) (ha : (s.lnkOf a).alert = false) (he : s.dueDrillFrame a = none) (hf : (s.lnkOf a).fifo = t :: r) :
    s.startFrame a = if (s.lnkOf a).unans.length < 4 then (s.setLnk a { s.lnkOf a with fifo := r }).sendNew a t else s := by
  simp [State.startFrame, Link.open, h, ha, he, hf]

/-! ### The end of a page frame -/

theorem pageFrameEnd_cases : s.pageFrameEnd a n = s.put (pLNK a) LNK.CMD_STAT_RESULT n ∨
    s.pageFrameEnd a n = ((s.put (pLNK a) LNK.CMD_STAT_RESULT n).put (pLNK a) LNK.CMD_STAT_DONE 1).irq (pLNK a) 0 := by
  simp only [State.pageFrameEnd]
  split
  · exact .inl rfl
  · exact .inr rfl

/-- The end of a page frame changes registers alone. -/
theorem pageFrameEnd_shape (s : State) (a n : Nat) : ∃ r, s.pageFrameEnd a n = { s with regs := r } := by
  obtain h | h := pageFrameEnd_cases (s := s) (a := a) (n := n) <;> rw [h] <;> exact ⟨_, rfl⟩

@[simp] theorem lnkOf_pageFrameEnd {c : Nat} : (s.pageFrameEnd a n).lnkOf c = s.lnkOf c := by
  obtain ⟨_, h⟩ := pageFrameEnd_shape s a n
  rw [h]; rfl

@[simp] theorem pageFrameEnd_mem : (s.pageFrameEnd a n).mem = s.mem := by
  obtain ⟨_, h⟩ := pageFrameEnd_shape s a n
  rw [h]

@[simp] theorem pageFrameEnd_present {p : Nat} : (s.pageFrameEnd a n).present p = s.present p := by
  obtain ⟨_, h⟩ := pageFrameEnd_shape s a n
  rw [h]; rfl

theorem pageFrameEnd_result : (s.pageFrameEnd a n).get (pLNK a) LNK.CMD_STAT_RESULT = n % 16 := by
  obtain h | h := pageFrameEnd_cases (s := s) (a := a) (n := n) <;> rw [h]
  · exact get_put_same (by decide)
  · rw [irq_get_off (by decide), get_put_field (f := LNK.CMD_STAT_DONE) (g := LNK.CMD_STAT_RESULT) (by decide) rfl (by decide)]
    exact get_put_same (by decide)

theorem pageFrameEnd_data : (s.pageFrameEnd a n).get (pLNK a) LNK.CMD_STAT_DATA = s.get (pLNK a) LNK.CMD_STAT_DATA := by
  have hresult : (s.put (pLNK a) LNK.CMD_STAT_RESULT n).get (pLNK a) LNK.CMD_STAT_DATA = s.get (pLNK a) LNK.CMD_STAT_DATA :=
    get_put_field (by decide) rfl (by decide)
  obtain h | h := pageFrameEnd_cases (s := s) (a := a) (n := n) <;> rw [h]
  · exact hresult
  · rw [irq_get_off (by decide), get_put_field (f := LNK.CMD_STAT_DONE) (g := LNK.CMD_STAT_DATA) (by decide) rfl (by decide), hresult]

/-! ### Retransmission -/

theorem retransmit_again (h : t.tries < 3) : s.retransmit a t = s.setLnk a { s.lnkOf a with retx := (s.lnkOf a).retx ++ [t] } :=
  if_neg (Nat.not_le.2 h)

/-- After the third retransmission the link raises LNK FL1 and its work stays (R110). -/
theorem retransmit_spent (h : 3 ≤ t.tries) (ha : a < 8) (hp : s.present (pLNK a) = true) :
    (s.retransmit a t).lnkOf a = s.lnkOf a ∧ ((s.retransmit a t).reg (pLNK a) 0x1C).getLsbD 0 = true := by
  have he : s.retransmit a t = (if t.source = .page then s.pageFrameEnd a 1 else s).raise (pLNK a) 0 := if_pos h
  have hgrade : faultGrade (pLNK a) 0 = some (5, 1) := faultGrade_lnk ha
  rw [he]
  split
  · exact ⟨by simp, raise_fltStat (by simpa) hgrade (by decide)⟩
  · exact ⟨by simp, raise_fltStat hp hgrade (by decide)⟩

/-! ### Responses -/

section
variable {c : Fin 8} {ty sq : BitVec 2} {hd : BitVec 4} {reg data : BitVec 8} {ok high : Bool}

theorem exec_response_down (h : s.linkState c ≠ 2) : exec (.responseFrame c ty hd sq reg data ok high) s = .next s := if_pos h

theorem exec_response_badCrc (h : s.linkState c = 2) : exec (.responseFrame c ty hd sq reg data false high) s =
    .next ((s.putB (pLNK c) LNK.ALERT_STAT_LEVEL high).inc (pLNK c) LNK.CRC_ERR_CNT) := by
  simp [exec, execResponseFrame, h]

/-- The state in which the oldest transmission has found its response. -/
def State.answered (s : State) (a : Nat) (high : Bool) (r : List Tx) : State :=
  (s.putB (pLNK a) LNK.ALERT_STAT_LEVEL high).setLnk a { s.lnkOf a with unans := r }

@[simp] theorem lnkOf_answered : (s.answered a high r).lnkOf a = { s.lnkOf a with unans := r } := lnkOf_setLnk

theorem answered_mem : (s.answered a high r).mem = s.mem := rfl

theorem exec_response_nak (h : s.linkState c = 2) (hu : (s.lnkOf c).unans = t :: r) (hq : sq.toNat = t.seq) :
    exec (.responseFrame c 2 hd sq reg data true high) s = .next (((s.answered c high r).inc (pLNK c) LNK.NAK_CNT).retransmit c t) := by
  simp [exec, execResponseFrame, h, State.putB, hu, hq, State.answered]

theorem exec_response_match (h : s.linkState c = 2) (hu : (s.lnkOf c).unans = t :: r) (hq : sq.toNat = t.seq) (hty : ty = 0 ∨ ty = 1) :
    exec (.responseFrame c ty hd sq reg data true high) s = .next (match t.source with
      | .page => (if ty.toNat = 1 then (s.answered c high r).put (pLNK c) LNK.CMD_STAT_DATA data.toNat else s.answered c high r).pageFrameEnd c 0
      | .drill => s.answered c high r
      | .alert => (s.answered c high r).alertReply c hd.toNat data.toNat) := by
  have hack : ty.toNat ≠ 3 ∧ ty.toNat ≠ 2 := by obtain rfl | rfl := hty <;> decide
  cases hs : t.source <;> simp [exec, execResponseFrame, h, State.putB, hu, hq, hs, hack, State.answered]

theorem exec_response_unsolicited (h : s.linkState c = 2)
    (hno : ty = 3 ∨ (s.lnkOf c).unans = [] ∨ ∃ t r, (s.lnkOf c).unans = t :: r ∧ sq.toNat ≠ t.seq) :
    exec (.responseFrame c ty hd sq reg data true high) s =
      .next (((s.putB (pLNK c) LNK.ALERT_STAT_LEVEL high).inc (pLNK c) LNK.UNSOL_CNT).irq (pLNK c) 3) := by
  obtain rfl | hu | ⟨t, r, hu, hq⟩ := hno
  · cases hu : (s.lnkOf c).unans <;> simp [exec, execResponseFrame, h, State.putB, hu]
  · simp [exec, execResponseFrame, h, State.putB, hu]
  · simp [exec, execResponseFrame, h, State.putB, hu, hq]

end

/-! ### Time-outs -/

theorem exec_rspTimeout_due {a : Fin 8} (hu : (s.lnkOf a).unans = t :: r)
    (hd : t.sentEnd + max 120 (s.get (pLNK a) LNK.RSP_TIMEOUT) * 64 ≤ s.time) :
    exec (.rspTimeout a) s = .next ((s.setLnk a { s.lnkOf a with unans := r }).retransmit a t) := by
  simp only [exec, execRspTimeout, hu, if_pos hd]

theorem exec_rspTimeout_early {a : Fin 8} (hu : (s.lnkOf a).unans = t :: r)
    (hd : s.time < t.sentEnd + max 120 (s.get (pLNK a) LNK.RSP_TIMEOUT) * 64) : exec (.rspTimeout a) s = .next s := by
  simp only [exec, execRspTimeout, hu, if_neg (Nat.not_le.2 hd)]

theorem exec_rspTimeout_none {a : Fin 8} (hu : (s.lnkOf a).unans = []) : exec (.rspTimeout a) s = .next s := by
  simp only [exec, execRspTimeout, hu]

end

/-- Settles O31: a frame's start, a response and a time-out each take the branch that the link's queues name. -/
theorem preampFrames : Obligations.PreampFrames := by
  refine ⟨fun a ha => faultGrade_lnk ha, fun a s _ => ⟨fun t r hf hx => ?_, fun hf hx hal hu => ?_, fun e hf hx hal he => ?_,
    fun t r hf hx hal he hq => ⟨fun hu => ?_, fun hu => ?_⟩, exec_frameStart_held, fun ty hd sq reg data ok high => exec_response_down,
    fun ty hd sq reg data high => exec_response_badCrc, fun t r ty hd sq reg data high hs hu hq hty s1 hs1 => ?_,
    fun t r hd sq reg data high hs hu hq ht => ?_, fun t r hd sq reg data high hp hs hu hq ht => ?_,
    fun ty hd sq reg data high => exec_response_unsolicited, fun t r hu hd => ⟨fun ht => ?_, fun ht hp => ?_⟩,
    fun t r => exec_rspTimeout_early, exec_rspTimeout_none⟩⟩
  · refine ⟨_, exec_frameStart_free hf, ?_⟩
    rw [startFrame_retx hx]
    refine ⟨by simp, by simp, by simp, ?_, irq_pend (by decide)⟩
    rw [State.resend, irq_get_off (by decide), get_inc (by decide)]
    rfl
  · refine ⟨_, exec_frameStart_free hf, ?_⟩
    rw [startFrame_alert hx hal hu]
    exact ⟨by simp, by simp, rfl, by simp⟩
  · rw [exec_frameStart_free hf, startFrame_drill hx hal he]
  · refine ⟨_, exec_frameStart_free hf, ?_⟩
    rw [startFrame_page hx hal he hq, if_pos hu]
    exact ⟨by simp, by simp, by simp⟩
  · rw [exec_frameStart_free hf, startFrame_page hx hal he hq, if_neg (Nat.not_lt.2 hu)]
  · obtain rfl : s1 = s.answered a high r := hs1
    have hexec := exec_response_match (hd := hd) (reg := reg) (data := data) (high := high) hs hu hq hty
    refine ⟨fun ht => ?_, fun ht => ?_, fun ht => ?_⟩
    · simp only [hexec, ht]
    · simp only [hexec, ht]
    · simp only [ht] at hexec
      refine ⟨_, hexec, ?_, pageFrameEnd_result, fun h1 => ?_, ?_⟩
      · split <;> simp
      · rw [pageFrameEnd_data, if_pos (by rw [h1]; rfl), get_put_same (by decide)]
        exact Nat.mod_eq_of_lt data.isLt
      · split <;> simp [answered_mem]
  · refine ⟨_, exec_response_nak hs hu hq, ?_⟩
    rw [retransmit_again ht]
    refine ⟨by simp, by simp, ?_⟩
    rw [get_setLnk, get_inc (by decide), State.answered, get_setLnk, State.putB, get_put_off (by decide)]
  · obtain ⟨hl, hflt⟩ := retransmit_spent (s := (s.answered a high r).inc (pLNK a) LNK.NAK_CNT) ht a.isLt hp
    exact ⟨_, exec_response_nak hs hu hq, by simp [hl], by simp [hl], hflt⟩
  · refine ⟨_, exec_rspTimeout_due hu hd, ?_⟩
    rw [retransmit_again ht]
    exact ⟨by simp, by simp, rfl⟩
  · obtain ⟨hl, hflt⟩ := retransmit_spent (s := s.setLnk a { s.lnkOf a with unans := r }) ht a.isLt hp
    exact ⟨_, exec_rspTimeout_due hu hd, by simp [hl], by simp [hl], hflt⟩

end Sys2Proof.Machine

/-! SUPPORT. The statements of the preamp links: AALERT and the end of training (R113, R114). -/

namespace Sys2Proof.Machine

/-! ### The phase that training takes -/

section
variable {m p M i : Nat}

theorem le_length_takeWhile {α : Type} {f : α → Bool} {l : List α} {n : Nat} (hn : n ≤ l.length) :
    n ≤ (l.takeWhile f).length ↔ ∀ i, (h : i < n) → f l[i] = true := by
  induction l generalizing n with
  | nil =>
    obtain rfl : n = 0 := Nat.le_zero.1 hn
    simp
  | cons x l ih =>
    cases n with
    | zero => simp
    | succ n =>
      rw [List.takeWhile_cons]
      by_cases hx : f x = true
      · rw [if_pos hx, List.length_cons, Nat.succ_le_succ_iff, ih (Nat.le_of_succ_le_succ hn)]
        refine ⟨fun h i hi => ?_, fun h i hi => h (i + 1) (Nat.succ_lt_succ hi)⟩
        cases i with
        | zero => exact hx
        | succ i => exact h i (Nat.lt_of_succ_lt_succ hi)
      · rw [if_neg hx]
        exact ⟨fun h => absurd h (by simp), fun h => absurd (h 0 (Nat.succ_pos n)) hx⟩

/-- A run is as long as its phases pass. -/
theorem le_runFrom (hM : M ≤ 8) : M ≤ runFrom m p ↔ ∀ i, i < M → bit m ((p + i) % 8) = true := by
  rw [runFrom, le_length_takeWhile (by simpa using hM)]
  simp

theorem runFrom_le_eight : runFrom m p ≤ 8 := by
  simpa [runFrom] using (List.takeWhile_prefix (fun i => bit m ((p + i) % 8)) (l := List.range 8)).length_le

theorem runFrom_passes (hi : i < runFrom m p) : bit m ((p + i) % 8) = true := (le_runFrom runFrom_le_eight).1 (Nat.le_refl _) i hi

/-- The phase from which training may start a run: it passes and the one before fails (R114). -/
def runStarts (m : Nat) : List Nat := (List.range 8).filter (fun p => bit m p && !bit m ((p + 7) % 8))

theorem mem_runStarts : p ∈ runStarts m ↔ p < 8 ∧ bit m p = true ∧ bit m ((p + 7) % 8) = false := by
  simp [runStarts]

/-- Where a phase fails, each run is part of one that begins at a start: going back from `p` meets a failing phase before all eight have
passed. -/
theorem exists_start {j p : Nat} (hj : j < 8) (hfail : bit m j = false) (hp : p < 8) (hM : 0 < M) (h : M ≤ runFrom m p) :
    ∃ q ∈ runStarts m, M ≤ runFrom m q := by
  have h8 : runFrom m p < 8 := by
    refine Nat.lt_of_not_le fun h8 => ?_
    have := runFrom_passes (m := m) (p := p) (i := (j + 8 - p) % 8) (by omega)
    rw [show (p + (j + 8 - p) % 8) % 8 = j by omega, hfail] at this
    cases this
  have hpass := runFrom_passes (Nat.lt_of_lt_of_le hM h)
  rw [Nat.add_zero, Nat.mod_eq_of_lt hp] at hpass
  cases hb : bit m ((p + 7) % 8) with
  | false => exact ⟨p, mem_runStarts.2 ⟨hp, hpass, hb⟩, h⟩
  | true =>
    have hback : runFrom m p + 1 ≤ runFrom m ((p + 7) % 8) := by
      refine (le_runFrom h8).2 fun i hi => ?_
      cases i with
      | zero => rwa [Nat.add_zero, Nat.mod_mod]
      | succ i =>
        rw [show ((p + 7) % 8 + (i + 1)) % 8 = (p + i) % 8 by omega]
        exact runFrom_passes (Nat.lt_of_succ_lt_succ hi)
    exact exists_start hj hfail (p := (p + 7) % 8) (by omega) hM (by omega)
termination_by 8 - runFrom m p
decreasing_by omega

theorem le_foldl_max {l : List Nat} {x b : Nat} (h : x ≤ b ∨ x ∈ l) : x ≤ l.foldl max b := by
  induction l generalizing b with
  | nil => simpa using h
  | cons y l ih =>
    refine ih ?_
    obtain h | h := h
    · exact .inl (by omega)
    · obtain rfl | h := List.mem_cons.1 h
      · exact .inl (by omega)
      · exact .inr h

theorem foldl_max_mem {l : List Nat} {b : Nat} : l.foldl max b = b ∨ l.foldl max b ∈ l := by
  induction l generalizing b with
  | nil => exact .inl rfl
  | cons y l ih =>
    obtain h | h := ih (b := max b y)
    · rw [List.foldl_cons, h]
      obtain hb | hb := Nat.le_total b y
      · exact .inr (by simp [hb])
      · exact .inl (by omega)
    · exact .inr (List.mem_cons_of_mem _ h)

theorem trainPhase_lt : trainPhase m < 8 := by
  unfold trainPhase
  split
  · decide
  · dsimp only
    split
    · exact Nat.mod_lt _ (by decide)
    · decide

/-- The length of the longest run. -/
def longestRun (m : Nat) : Nat := ((runStarts m).map (runFrom m)).foldl max 0

theorem trainPhase_start (hm : m ≠ 255) (h : (runStarts m).find? (fun q => runFrom m q = longestRun m) = some p) :
    trainPhase m = (p + (longestRun m - 1) / 2) % 8 := by
  unfold trainPhase
  rw [if_neg hm]
  dsimp only
  split
  · next q hq =>
    obtain rfl : q = p := Option.some.inj (hq.symm.trans h)
    rfl
  · next hq => cases hq.symm.trans h

/-- Where a phase passes and a phase fails, training takes the centre of a run than which none is longer (R114). -/
theorem trainPhase_longest {j k : Nat} (hm : m ≠ 255) (hj : j < 8) (hfail : bit m j = false) (hk : k < 8) (hpass : bit m k = true) :
    ∃ p, p < 8 ∧ 0 < runFrom m p ∧ (∀ q, q < 8 → runFrom m q ≤ runFrom m p) ∧ trainPhase m = (p + (runFrom m p - 1) / 2) % 8 := by
  have hlongest : ∀ q, q < 8 → runFrom m q ≤ longestRun m := fun q hq => by
    obtain h0 | hpos := Nat.eq_zero_or_pos (runFrom m q)
    · omega
    · obtain ⟨p, hp, hle⟩ := exists_start hj hfail hq hpos (Nat.le_refl _)
      exact Nat.le_trans hle (le_foldl_max (.inr (List.mem_map_of_mem hp)))
  have hk1 : 1 ≤ runFrom m k := (le_runFrom (by decide)).2 fun i hi => by rwa [show (k + i) % 8 = k by omega]
  have hpos : 0 < longestRun m := Nat.lt_of_lt_of_le hk1 (hlongest k hk)
  obtain ⟨p₀, hp₀, hmax₀⟩ := List.mem_map.1 (foldl_max_mem.resolve_left (Nat.ne_of_gt hpos))
  obtain ⟨p, hp⟩ := Option.isSome_iff_exists.1 (List.find?_isSome (p := fun q => runFrom m q = longestRun m).2 ⟨p₀, hp₀, decide_eq_true hmax₀⟩)
  have hmax : runFrom m p = longestRun m := by simpa using List.find?_some hp
  exact ⟨p, (mem_runStarts.1 (List.mem_of_find?_eq_some hp)).1, hmax ▸ hpos, hmax ▸ hlongest, hmax ▸ trainPhase_start hm hp⟩

end

/-- Eight bits that are neither all set nor all clear have a clear bit and a set one. -/
theorem exists_bits {ps : BitVec 8} (h1 : ps ≠ 255) (h0 : ps ≠ 0) :
    (∃ j, j < 8 ∧ bit ps.toNat j = false) ∧ ∃ k, k < 8 ∧ bit ps.toNat k = true := by
  simp only [bit_eq_testBit, BitVec.testBit_toNat]
  refine ⟨Classical.byContradiction fun h => h1 ?_, Classical.byContradiction fun h => h0 ?_⟩
  · refine BitVec.eq_of_getLsbD_eq fun i hi => ?_
    have : ps.getLsbD i = true := by
      cases hb : ps.getLsbD i with
      | true => rfl
      | false => exact absurd ⟨i, hi, hb⟩ h
    rw [this, show (255 : BitVec 8) = BitVec.allOnes 8 from rfl, BitVec.getLsbD_allOnes]
    simpa using hi
  · refine BitVec.eq_of_getLsbD_eq fun i hi => ?_
    cases hb : ps.getLsbD i with
    | false => exact BitVec.getLsbD_zero.symm
    | true => exact absurd ⟨i, hi, hb⟩ h

/-- The phases whose four responses are all good. -/
theorem phasePasses_iff (want : Nat) (rsp : List Word) : phasePasses want rsp = true ↔
    rsp.length = 4 ∧ ∀ w ∈ rsp, frameCrc w.toNat = w.toNat % 256 ∧ bits w.toNat 15 8 = want := by
  simp [phasePasses]

section
variable {s : State} {a n b : Nat} {f : Fld} {high : Bool}

/-! ### The end of training -/

theorem linkUp_cases : s.linkUp a = s.put (pLNK a) LNK.LINK_STAT_STATE 2 ∨
    ∃ l, s.linkUp a = (s.put (pLNK a) LNK.LINK_STAT_STATE 2).setLnk a l := by
  unfold State.linkUp
  dsimp only
  split
  · exact .inr ⟨_, rfl⟩
  · exact .inl rfl

theorem linkUp_regs : (s.linkUp a).regs = (s.put (pLNK a) LNK.LINK_STAT_STATE 2).regs := by
  obtain h | ⟨_, h⟩ := linkUp_cases (s := s) (a := a) <;> rw [h]
  rfl

/-- Reaching UP changes no other field. -/
theorem linkUp_get (hd : f.off = 0x40 → 2 ≤ f.lo) (h4 : f.off % 4 = 0) : (s.linkUp a).get (pLNK a) f = s.get (pLNK a) f := by
  rw [get_congr linkUp_regs]
  by_cases ho : f.off = 0x40
  · exact get_put_field (by decide) ho (.inr (hd ho))
  · exact get_put_off (by change f.off / 4 ≠ 16; omega)

theorem linkUp_state : (s.linkUp a).linkState a = 2 := by
  rw [State.linkState, get_congr linkUp_regs]
  exact get_put_same (by decide)

/-- What training writes whatever its end: the frame on ADO, the phases that passed, AALERT's level. -/
def State.trained (s : State) (a mask : Nat) (high : Bool) : State :=
  ((s.setLnk a { s.lnkOf a with ado := (s.trainTx a).word }).put (pLNK a) LNK.LINK_STAT_PASS_MASK mask).putB (pLNK a) LNK.ALERT_STAT_LEVEL high

theorem trained_state : (s.trained a n high).linkState a = s.linkState a := by
  rw [State.linkState, State.trained, State.putB, get_put_off (by decide),
    get_put_field (f := LNK.LINK_STAT_PASS_MASK) (g := LNK.LINK_STAT_STATE) (by decide) rfl (by decide), get_setLnk, State.linkState]

theorem trained_mask : (s.trained a n high).get (pLNK a) LNK.LINK_STAT_PASS_MASK = n % 256 := by
  rw [State.trained, State.putB, get_put_off (by decide)]
  exact get_put_same (by decide)

/-- A training that passes: the phase, then UP. -/
theorem trained_up (hn : n < 8) {mask : Nat} :
    (((s.trained a mask high).put (pLNK a) LNK.LINK_STAT_ADI_PHASE n).linkUp a).linkState a = 2 ∧
    (((s.trained a mask high).put (pLNK a) LNK.LINK_STAT_ADI_PHASE n).linkUp a).get (pLNK a) LNK.LINK_STAT_ADI_PHASE = n ∧
    (((s.trained a mask high).put (pLNK a) LNK.LINK_STAT_ADI_PHASE n).linkUp a).get (pLNK a) LNK.LINK_STAT_PASS_MASK = mask % 256 := by
  refine ⟨linkUp_state, ?_, ?_⟩
  · rw [linkUp_get (by decide) rfl, get_put_same (by decide)]
    exact Nat.mod_eq_of_lt hn
  · rw [linkUp_get (by decide) rfl, get_put_field (f := LNK.LINK_STAT_ADI_PHASE) (g := LNK.LINK_STAT_PASS_MASK) (by decide) rfl (by decide), trained_mask]

/-- A training that fails raises LNK FL1 and leaves the state. -/
theorem trained_failed (ha : a < 8) (h : s.present (pLNK a) = true) :
    ((s.trained a n high).raise (pLNK a) 1).linkState a = s.linkState a ∧
    (((s.trained a n high).raise (pLNK a) 1).reg (pLNK a) 0x1C).getLsbD 1 = true ∧
    ((s.trained a n high).raise (pLNK a) 1).get (pLNK a) LNK.LINK_STAT_PASS_MASK = n % 256 := by
  refine ⟨?_, raise_fltStat (g := (5, 1)) h (faultGrade_lnk ha) (by decide), ?_⟩
  · rw [State.linkState, raise_get_off (by decide) (by decide), ← State.linkState, trained_state]
  · rw [raise_get_off (by decide) (by decide), trained_mask]

/-- Whether the responses to the `i`th four frames of training pass. -/
def State.phaseGood (s : State) (a : Nat) (rsp : List (List Word)) (i : Nat) : Bool :=
  phasePasses (bits (s.reg (pLNK a) 0x6C).toNat 7 0) ((rsp[i]?).getD [])

section
variable {a : Fin 8} {rsp : List (List Word)} {ps : List Nat} {mask : Nat}

theorem exec_trainingEnd_idle (h : s.linkState a ≠ 1) : exec (.linkTrainingEnd a rsp high) s = .next s := if_neg h

/-- Without OVR_EN three passing phases of the eight decide. -/
theorem exec_trainingEnd_judged (h : s.linkState a = 1) (ho : s.on (pLNK a) LNK.ADI_CAL_OVR_EN = false)
    (hps : ps = (List.range 8).filter (s.phaseGood a rsp)) (hmask : mask = ps.foldl (fun n i => n + 2 ^ i) 0) :
    exec (.linkTrainingEnd a rsp high) s = .next (if 3 ≤ ps.length
      then ((s.trained a mask high).put (pLNK a) LNK.LINK_STAT_ADI_PHASE (trainPhase mask)).linkUp a
      else (s.trained a mask high).raise (pLNK a) 1) := by
  subst hps hmask
  simp only [exec, execLinkTrainingEnd, if_pos h, ho, Bool.false_eq_true, if_false, decide_eq_true_eq, apply_ite Host.Outcome.next]
  rfl

/-- With OVR_EN the frames at PHASE_OVR decide. -/
theorem exec_trainingEnd_forced (h : s.linkState a = 1) (ho : s.on (pLNK a) LNK.ADI_CAL_OVR_EN = true) :
    exec (.linkTrainingEnd a rsp high) s = .next (if s.phaseGood a rsp 0
      then ((s.trained a (2 ^ s.get (pLNK a) LNK.ADI_CAL_PHASE_OVR) high).put (pLNK a) LNK.LINK_STAT_ADI_PHASE (s.get (pLNK a) LNK.ADI_CAL_PHASE_OVR)).linkUp a
      else (s.trained a 0 high).raise (pLNK a) 1) := by
  cases hg : s.phaseGood a rsp 0 <;> rw [State.phaseGood] at hg <;>
    simp [exec, execLinkTrainingEnd, h, ho, hg, State.trained]

end

/-! ### AALERT -/

/-- What a rise of AALERT leaves whether or not it inhibits: LEVEL, its start, and on an UP link that is not masked a STATUS_REQ due. -/
def State.alertRisen (s : State) (a : Nat) : State :=
  (s.put (pLNK a) LNK.ALERT_STAT_LEVEL 1).setLnk a
    { s.lnkOf a with alertAt := s.time, alert := (s.lnkOf a).alert || (decide (s.linkState a = 2) && !s.on (pLNK a) LNK.ALERT_STAT_MASKED) }

/-- A sector whose gate is open is noted as written under an alert (R182). -/
def State.tellAlert (s : State) (h : Nat) : State :=
  match (s.wrOf h).gate, (s.wrOf h).sec with
  | some _, some x => s.setWr h { s.wrOf h with sec := some { x with alert := true } }
  | _, _ => s

theorem each_tellAlert_shape (s : State) (l : List Nat) : ∃ w, s.each l State.tellAlert = { s with wrh := w } := by
  induction l generalizing s with
  | nil => exact ⟨s.wrh, rfl⟩
  | cons h l ih =>
    obtain ⟨w, hw⟩ : ∃ w, s.tellAlert h = { s with wrh := w } := by
      unfold State.tellAlert
      split
      · exact ⟨_, rfl⟩
      · exact ⟨s.wrh, rfl⟩
    obtain ⟨w', hw'⟩ := ih (s.tellAlert h)
    exact ⟨w', hw'.trans (by rw [hw])⟩

section
variable {a : Fin 8} {m : Master}

theorem exec_aalertRise_ignored (h : s.on (pLNK a) LNK.ALERT_STAT_MASKED = true ∨ s.linkState a = 3) :
    exec (.aalertRise a) s = .next (s.alertRisen a) := by
  simp only [exec, execAalertRise]
  rw [if_pos (by simpa using h)]
  rfl

theorem exec_aalertRise_inhibit (hm : s.on (pLNK a) LNK.ALERT_STAT_MASKED = false) (hs : s.linkState a ≠ 3)
    (hi : s.on (pACT a) ACT.WI_CFG_ALERT_INH = true) : exec (.aalertRise a) s =
      .next (((((s.alertRisen a).setAlert a 2).put (pACT a) ACT.WI_STAT_ALERT 1).noteInhibit a wALERT 0xF).dropGates) := by
  simp only [exec, execAalertRise]
  rw [if_neg (by simp [hm, hs]), if_pos hi, if_pos hi]
  rfl

theorem exec_aalertRise_told (hm : s.on (pLNK a) LNK.ALERT_STAT_MASKED = false) (hs : s.linkState a ≠ 3)
    (hi : s.on (pACT a) ACT.WI_CFG_ALERT_INH = false) : exec (.aalertRise a) s =
      .next (((s.alertRisen a).setAlert a 1).each ((List.range 12).map (fun k => 12 * a.val + k)) State.tellAlert) := by
  simp only [exec, execAalertRise]
  rw [if_neg (by simp [hm, hs]), if_neg (by simp [hi]), if_neg (by simp [hi])]
  rfl

/-- AALERT has been high and unmasked for 1 ms. -/
def State.alertDue (s : State) (a : Nat) : Bool :=
  s.on (pLNK a) LNK.ALERT_STAT_LEVEL && !s.on (pLNK a) LNK.ALERT_STAT_MASKED && decide ((s.lnkOf a).alertAt + 2400000 * 64 ≤ s.time)

theorem exec_alertStuck_due (h : s.alertDue a = true) : exec (.alertStuck a) s =
    .next ((((s.put (pLNK a) LNK.ALERT_STAT_MASKED 1).raise (pLNK a) 2).put (pACT a) ACT.WI_STAT_ALERT 0).setAlert a (if s.alertOf a = 1 then 1 else 0)) :=
  if_pos h

theorem exec_alertStuck_idle (h : s.alertDue a = false) : exec (.alertStuck a) s = .next s := if_neg (by simpa [State.alertDue] using h)

end

/-- The link's page and the page of its actuator are two. -/
theorem pLNK_ne_pACT : pLNK a ≠ pACT a := by change 0x46 + 16 * a ≠ 0x40 + 16 * a; omega

end

/-- Settles O32: training ends with the judged phases, an alert takes the branch of MASKED, of the fence and of ALERT_INH. -/
theorem preampAlertsAndTraining : Obligations.PreampAlertsAndTraining := by
  refine ⟨fun a ha => ⟨faultGrade_lnk ha, faultGrade_lnk ha⟩, fun m a s _ h => ⟨fun s1 hs1 => ?_, fun hl hm ht => ?_, fun hno => ?_,
    fun hw hr => ⟨fun hm => ?_, fun hm => ?_⟩, fun rsp high ps mask hs ho hps hmask => ⟨fun hlen => ?_, fun hlen => ?_⟩,
    fun rsp high hs ho => ⟨fun hg => ?_, fun hg => ?_⟩, fun rsp high => exec_trainingEnd_idle⟩, phasePasses_iff, rfl, fun ps h1 h0 => ?_⟩
  · obtain rfl : s1 = s.alertRisen a := hs1
    refine ⟨exec_aalertRise_ignored, exec_aalertRise_inhibit, fun hm hs hi => ⟨_, exec_aalertRise_told hm hs hi, ?_⟩⟩
    obtain ⟨w, hw⟩ := each_tellAlert_shape ((s.alertRisen a).setAlert a 1) ((List.range 12).map (fun k => 12 * a.val + k))
    rw [hw]
    refine ⟨rfl, ?_, ?_, rfl⟩
    · change ((s.alertRisen a).lnkOf a).alertAt = _
      rw [State.alertRisen, lnkOf_setLnk]
    · exact on_put_same (s := s) (by decide)
  · refine ⟨_, exec_alertStuck_due (by simp [State.alertDue, hl, hm, ht]), ?_, ?_⟩
    · change (State.put _ (pACT a) ACT.WI_STAT_ALERT 0).on (pLNK a) LNK.ALERT_STAT_MASKED = true
      rw [on_put_ne (regKey_ne_of_page pLNK_ne_pACT (by decide) (by decide)), State.on, raise_get_off (by decide) (by decide)]
      exact on_put_same (s := s) (by decide)
    · change ((State.put _ (pACT a) ACT.WI_STAT_ALERT 0).reg (pLNK a) 0x1C).getLsbD 2 = true
      rw [reg_put_ne (regKey_ne_of_page pLNK_ne_pACT (by decide) (by decide))]
      exact raise_fltStat (g := (5, 0)) h (faultGrade_lnk a.isLt) (by decide)
  · refine exec_alertStuck_idle ?_
    obtain hl | hm | ht := hno
    · simp [State.alertDue, hl]
    · simp [State.alertDue, hm]
    · simp [State.alertDue, Nat.not_le.2 ht]
  · refine ⟨_, congrArg Host.Outcome.next (regCmd_answering h hw hr), ?_⟩
    rw [if_pos hm]
    exact ⟨on_put_same (s := s) (by decide), by simp⟩
  · refine ⟨_, congrArg Host.Outcome.next (regCmd_answering h hw hr), ?_⟩
    rw [if_neg (by simp [hm])]
    exact ⟨rfl, rfl⟩
  · refine ⟨_, exec_trainingEnd_judged hs ho hps hmask, ?_⟩
    rw [if_pos hlen]
    exact trained_up trainPhase_lt
  · refine ⟨_, exec_trainingEnd_judged hs ho hps hmask, ?_⟩
    rw [if_neg (Nat.not_le.2 hlen)]
    obtain ⟨hstate, hflt, hpass⟩ := trained_failed (n := mask) (high := high) a.isLt h
    exact ⟨hstate.trans hs, hflt, hpass⟩
  · refine ⟨_, exec_trainingEnd_forced hs ho, ?_⟩
    rw [if_pos (show s.phaseGood a rsp 0 = true from hg)]
    obtain ⟨hstate, hphase, _⟩ := trained_up (s := s) (a := a) (high := high) (n := s.get (pLNK a) LNK.ADI_CAL_PHASE_OVR) (Nat.mod_lt _ (by decide))
    exact ⟨hstate, hphase⟩
  · refine ⟨_, exec_trainingEnd_forced hs ho, ?_⟩
    rw [if_neg (by rw [State.phaseGood, hg]; decide)]
    obtain ⟨hstate, hflt, _⟩ := trained_failed (n := 0) (high := high) a.isLt h
    exact ⟨hstate.trans hs, hflt⟩
  · obtain ⟨⟨j, hj, hfail⟩, k, hk, hpass⟩ := exists_bits h1 h0
    have hne : ps.toNat ≠ 255 := fun e => h1 (BitVec.eq_of_toNat_eq e)
    obtain ⟨p, hp, hpos, hmax, hphase⟩ := trainPhase_longest hne hj hfail hk hpass
    have hL : runFrom ps.toNat p ≤ 8 := runFrom_le_eight
    refine ⟨⟨p, by omega⟩, ⟨runFrom ps.toNat p, by omega⟩, hpos, fun i hi => runFrom_passes hi, fun q M hM => ?_, hphase⟩
    have hrun : M.val ≤ runFrom ps.toNat (q.val % 8) := (le_runFrom (by omega)).2 fun i hi => by
      rw [Nat.mod_add_mod]
      exact hM ⟨i, by omega⟩ hi
    exact Nat.le_trans hrun (hmax _ (Nat.mod_lt _ (by decide)))

end Sys2Proof.Machine

/-! SUPPORT. The statements of the front end: what an operation of the read path leaves (R93–R97). -/

namespace Sys2Proof.Machine

section
variable {s t u : State} {h p b v a n i k : Nat} {f : Fld} {w : Afe}

/-! ### Front ends -/

theorem afeOf_congr (e : t.afe = s.afe) : t.afeOf h = s.afeOf h := by rw [State.afeOf, e, State.afeOf]

@[simp] theorem afeOf_setAfe : (s.setAfe h w).afeOf h = w := tabGet_tabPut_same

@[simp] theorem afeOf_put : (s.put p f v).afeOf h = s.afeOf h := rfl

@[simp] theorem afeOf_irq : (s.irq p b).afeOf h = s.afeOf h := rfl

@[simp] theorem afeOf_raise : (s.raise p b).afeOf h = s.afeOf h := afeOf_congr (by simp [State.raise])

/-! ### What only buffer memory shows -/

theorem store_shape (s : State) (a n v : Nat) : ∃ m, s.store a n v = { s with mem := m } := by
  induction n generalizing s a v with
  | zero => exact ⟨s.mem, rfl⟩
  | succ n ih =>
    obtain ⟨m, hm⟩ := ih (s.setByte a (BitVec.ofNat 8 v)) (a + 1) (v / 256)
    exact ⟨m, hm⟩

theorem store_store_shape (s : State) (a n v a' n' v' : Nat) : ∃ m, (s.store a n v).store a' n' v' = { s with mem := m } := by
  obtain ⟨m, hm⟩ := store_shape s a n v
  obtain ⟨m', hm'⟩ := store_shape (s.store a n v) a' n' v'
  exact ⟨m', hm'.trans (by rw [hm])⟩

/-- A hint window is bytes of its slot (R153). -/
theorem addHint_shape (s : State) (h k : Nat) (opn cls : Int) : ∃ m, s.addHint h k opn cls = { s with mem := m } := by
  unfold State.addHint
  split
  · dsimp only
    split
    · exact store_store_shape ..
    · split
      · exact store_store_shape ..
      · exact ⟨s.mem, rfl⟩
  · exact ⟨s.mem, rfl⟩

theorem clipHint_shape (s : State) (h n i : Nat) : ∃ m, s.clipHint h n i = { s with mem := m } := by
  unfold State.clipHint
  dsimp only
  split
  · split
    · split
      · exact addHint_shape ..
      · exact ⟨s.mem, rfl⟩
    · exact ⟨s.mem, rfl⟩
  · exact ⟨s.mem, rfl⟩

theorem store_afe : (s.store a n v).afe = s.afe := by
  obtain ⟨m, hm⟩ := store_shape s a n v
  rw [hm]

theorem storePairs_afe {xs : List (BitVec 12)} : (s.storePairs a i xs).afe = s.afe := by
  induction xs generalizing s i with
  | nil => rfl
  | cons x xs ih =>
    rw [State.storePairs]
    split
    · rw [ih, State.storePair]
      split <;> exact store_afe
    · rfl

theorem retain_afe {x : RdSector} {c : Chain} : (s.retain h x c).afe = s.afe := by
  unfold State.retain
  split
  · exact storePairs_afe
  · rfl

/-- The chain of a gate leaves the front ends. -/
theorem runChain_afe {ys : List (Option (Int × Int))} {xs : List SymErr} {done : Bool} : (s.runChain h ys xs done).afe = s.afe := by
  unfold State.runChain
  dsimp only
  split
  · split
    · exact retain_afe
    · rfl
  · rfl

/-! ### What the samples of a gate leave -/

/-- The front ends and the controls of head `h`'s loops stay. -/
structure LoopsKept (h : Nat) (s t : State) : Prop where
  afe : t.afe = s.afe
  ctl : t.reg (pHCH h) 0x48 = s.reg (pHCH h) 0x48

theorem LoopsKept.refl (h : Nat) (s : State) : LoopsKept h s s := ⟨rfl, rfl⟩

theorem LoopsKept.trans (x : LoopsKept h s t) (y : LoopsKept h t u) : LoopsKept h s u := ⟨y.afe.trans x.afe, y.ctl.trans x.ctl⟩

theorem LoopsKept.on (x : LoopsKept h s t) (hf : f.off = 0x48) : t.on (pHCH h) f = s.on (pHCH h) f := by
  rw [State.on, State.get, hf, x.ctl, State.on, State.get, hf]

theorem clipHint_loops : LoopsKept h s (s.clipHint h n i) := by
  obtain ⟨m, hm⟩ := clipHint_shape s h n i
  rw [hm]
  exact ⟨rfl, rfl⟩

theorem inc_loops (hf : f.off / 4 ≠ 0x12) : LoopsKept h s (s.inc (pHCH h) f) := ⟨rfl, reg_put_ne (regKey_ne_of_off (by omega))⟩

theorem roundFree_loops {x : Rat} : LoopsKept h s (s.roundFree x).1 := by
  unfold State.roundFree
  split <;> exact ⟨rfl, rfl⟩

end

/-- A reader's loops have the values of another's. -/
structure SameLoops (r r' : Reader) : Prop where
  vga : r'.vga = r.vga
  ofs : r'.ofs = r.ofs
  asym : r'.asym = r.asym

/-- A loop of head `h` whose FRZ_ bit is set has kept its value (R97). -/
structure FrozenHeld (s : State) (h : Nat) (r r' : Reader) : Prop where
  vga : s.on (pHCH h) HCH.ADAPT_CTL_FRZ_VGA = true → r'.vga = r.vga
  ofs : s.on (pHCH h) HCH.ADAPT_CTL_FRZ_OFS = true → r'.ofs = r.ofs
  asym : s.on (pHCH h) HCH.ADAPT_CTL_FRZ_ASYM = true → r'.asym = r.asym

section
variable {s t : State} {h i : Nat} {b fast : Bool} {r r' q : Reader} {set : List Word}

theorem SameLoops.trans (x : SameLoops r r') (y : SameLoops r' q) : SameLoops r q :=
  ⟨y.vga.trans x.vga, y.ofs.trans x.ofs, y.asym.trans x.asym⟩

theorem count_loops (x : Option Int) : SameLoops r (r.count x) := by cases x <;> exact ⟨rfl, rfl, rfl⟩

/-- Samples count and leave hints; the loops stand until the block's end. -/
theorem passSamples_loops {xs : List (Option Int)} :
    LoopsKept h s (s.passSamples h b r i xs).1 ∧ SameLoops r (s.passSamples h b r i xs).2 := by
  induction xs generalizing s r i with
  | nil => exact ⟨.refl h s, rfl, rfl, rfl⟩
  | cons x xs ih =>
    rw [State.passSamples]
    refine ⟨.trans ?_ ih.1, (count_loops x).trans ih.2⟩
    split
    · split <;> exact inc_loops (by decide)
    · exact clipHint_loops

/-- A loop at a block's end draws a free value at most where it is rounded to 8 fraction bits. -/
theorem rounded_loops {c : Prop} [Decidable c] {x : Int} {y : Rat} : LoopsKept h s (if c then (s, x) else s.roundFree y).1 := by
  split
  · exact .refl h s
  · exact roundFree_loops

/-- The update at a block's end holds a loop whose FRZ_ bit is set (R97). -/
theorem adaptReader_loops {xs : List Int} :
    LoopsKept h s (s.adaptReader h set fast xs r).1 ∧ FrozenHeld s h r (s.adaptReader h set fast xs r).2 := by
  refine ⟨(rounded_loops.trans rounded_loops).trans rounded_loops, fun hf => ?_, fun hf => ?_, fun hf => ?_⟩ <;>
    simp [State.adaptReader, hf]

end

end Sys2Proof.Machine

/-! SUPPORT. The statements of the front end: doze, blocks, runs and the load of a zone (R93–R102). -/

namespace Sys2Proof.Machine

section
variable {s : State} {h : Nat} {b : Bool} {r : Reader}

theorem noteLive_afe : (s.noteLive h).afe = s.afe := rfl

theorem noteSat_afe : (s.noteSat h b r).afe = s.afe := (apply_ite State.afe _ _ _).trans (ite_self _)

/-- The samples of a block for one reader, then its update where the block is whole: what each leaves of the loops. -/
theorem blockEnd_loops {u : State} {w : Bool} {r' : Reader} {set : List Word} {fast : Bool} {zs : List Int} (hu : LoopsKept h s u) (hr : SameLoops r r') :
    LoopsKept h s (if w then u.adaptReader h set fast zs r' else (u, r')).1 ∧
    FrozenHeld s h r (if w then u.adaptReader h set fast zs r' else (u, r')).2 := by
  obtain ⟨hkept, hheld⟩ := adaptReader_loops (s := u) (h := h) (set := set) (fast := fast) (xs := zs) (r := r')
  split
  · exact ⟨hu.trans hkept, fun hf => (hheld.vga ((hu.on rfl).trans hf)).trans hr.vga, fun hf => (hheld.ofs ((hu.on rfl).trans hf)).trans hr.ofs,
      fun hf => (hheld.asym ((hu.on rfl).trans hf)).trans hr.asym⟩
  · exact ⟨hu, fun _ => hr.vga, fun _ => hr.ofs, fun _ => hr.asym⟩

end

section
variable {s : State} {h : Fin 96}

/-- The samples of a command that an open gate takes: those of its edges up to now, at most a block's (R92, R97). -/
def State.blockTaken (s : State) (h : Nat) (g : RdGate) (n : Nat) : Nat :=
  min (s.samplesLeft h g) (min (if (s.afeOf h).samples < fastSamples g.set then 64 else 512) n)

theorem exec_adaptBlock_none {xa xb : List (BitVec 7)} {errs : List SymErr} (hg : (s.rdOf h).gate = none) :
    exec (.adaptBlock h xa xb errs) s = .next s := by
  simp only [exec, execAdaptBlock, hg]

/-- A block inside a gate: its samples count, and a frozen loop stands. The samples of A pass, then those of B; then A's loops update, then B's,
and what follows leaves the front ends. -/
theorem exec_adaptBlock_open {g : RdGate} {xa xb : List (BitVec 7)} {errs : List SymErr} (hg : (s.rdOf h).gate = some g) :
    ∃ t ra rb, exec (.adaptBlock h xa xb errs) s = .next t ∧
      t.afeOf h = { s.afeOf h with rdA := ra, rdB := rb, samples := (s.afeOf h).samples + s.blockTaken h g (min xa.length xb.length) } ∧
      FrozenHeld s h (s.afeOf h).rdA ra ∧ FrozenHeld s h (s.afeOf h).rdB rb := by
  simp only [exec, execAdaptBlock, hg, decide_eq_true_eq]
  refine ⟨_, _, _, rfl, (afeOf_congr (runChain_afe.trans (noteSat_afe.trans (noteSat_afe.trans noteLive_afe)))).trans afeOf_setAfe,
    (blockEnd_loops (passSamples_loops.1.trans passSamples_loops.1) passSamples_loops.2).2,
    (blockEnd_loops (blockEnd_loops (passSamples_loops.1.trans passSamples_loops.1) passSamples_loops.2).1 passSamples_loops.2).2⟩

/-! ### Doze -/

/-- A dozing front end of a present head is to wake: an admitted gate opens within 2,400 ft, or a servo window is open (R94, R240). -/
def State.wakeDue (s : State) (h : Nat) : Prop :=
  s.present (pHCH h) = true ∧ s.afeDoze h = true ∧ (s.afeOf h).awake s.time = false ∧
    ((∃ e ∈ (s.drlOf (actOf h)).ents, e.gate = true ∧ e.opened = false ∧ e.target = h % 12 ∧ e.t - 2400 * 64 ≤ (s.time : Int)) ∨
      (s.servoOn h = true ∧ s.inServo h s.time = true))

theorem exec_afeWake_due {delay : BitVec 16} (hw : s.wakeDue h) : exec (.afeWake h delay) s =
    .next (s.setAfe h { s.afeOf h with readyAt := some (s.time + delay.toNat * 64), sleepAt := none }) := by
  obtain ⟨hp, hd, ha, hw⟩ := hw
  refine if_pos ?_
  simp only [hp, hd, ha, Bool.not_false, Bool.and_true, Bool.true_and, Bool.or_eq_true]
  obtain ⟨e, he, hg, ho, ht, hn⟩ | ⟨hon, hin⟩ := hw
  · exact .inl (List.any_eq_true.2 ⟨e, he, by simp only [hg, ho, ht, hn, Bool.not_false, decide_true, Bool.and_true]⟩)
  · exact .inr (by simp [hon, hin])

theorem exec_afeWake_undozed {delay : BitVec 16} (hd : s.afeDoze h = false) : exec (.afeWake h delay) s = .next s := if_neg (by simp [hd])

/-! ### Runs of clipped and of identical samples -/

/-- The readers of a front end by their name: A, B. -/
def Afe.reader (f : Afe) (b : Bool) : Reader := if b then f.rdB else f.rdA

def Afe.withReader (f : Afe) (b : Bool) (r : Reader) : Afe := if b then { f with rdB := r } else { f with rdA := r }

@[simp] theorem reader_withReader {f : Afe} {b : Bool} {r : Reader} : (f.withReader b r).reader b = r := by cases b <;> rfl

/-- A run that becomes due for its report (R93). -/
theorem count_clip {r : Reader} {x : Int} (hx : x = -64 ∨ x = 63) (hr : r.clipRun = 255) : (r.count (some x)).clipDue = r.clipDue + 1 := by
  simp [Reader.count, hx, hr]

theorem count_stuck {r : Reader} {x : Int} (hx : x = r.last) (hr : r.sameRun = 4095) :
    (r.count (some x)).stuckDue = r.stuckDue + 1 := by
  simp [Reader.count, hx, hr]

theorem faultGrade_hch {h b : Nat} (hh : h < 96) : faultGrade (pHCH h) b = (PageKind.hch.sources.find? (fun e => e.1 = b)).map (·.2) :=
  faultGrade_of_kind (pageKind_hch (Nat.le_add_right _ _) (by change 0x100 + h < 352; omega)) (by change 0x100 + h ≠ 5; omega)

/-- The report of a run: the source's FLT_STAT bit, and one run fewer is due. -/
theorem runReported {b : Bool} {r : Reader} {n : Nat} {g : Nat × Nat} (hp : s.present (pHCH h) = true) (hg : faultGrade (pHCH h) n = some g) (hn : n < 32) :
    (((s.setAfe h ((s.afeOf h).withReader b r)).raise (pHCH h) n).reg (pHCH h) 0x1C).getLsbD n = true ∧
    (((s.setAfe h ((s.afeOf h).withReader b r)).raise (pHCH h) n).afeOf h).reader b = r ∧
    ((s.setAfe h ((s.afeOf h).withReader b r)).raise (pHCH h) n).mem = s.mem :=
  ⟨raise_fltStat hp hg hn, by simp, State.raiseWith_mem ..⟩

theorem exec_clipRun_due {b : Bool} (hd : 0 < ((s.afeOf h).reader b).clipDue) : exec (.clipRun h b) s =
    .next ((s.setAfe h ((s.afeOf h).withReader b { (s.afeOf h).reader b with clipDue := ((s.afeOf h).reader b).clipDue - 1 })).raise (pHCH h) 3) :=
  if_pos hd

theorem exec_clipRun_none {b : Bool} (hd : ((s.afeOf h).reader b).clipDue = 0) : exec (.clipRun h b) s = .next s :=
  if_neg (Nat.not_lt.2 (Nat.le_of_eq hd))

theorem exec_adcStuck_due {b : Bool} (hd : 0 < ((s.afeOf h).reader b).stuckDue) : exec (.adcStuck h b) s =
    .next ((s.setAfe h ((s.afeOf h).withReader b { (s.afeOf h).reader b with stuckDue := ((s.afeOf h).reader b).stuckDue - 1 })).raise (pHCH h) 4) :=
  if_pos hd

theorem exec_adcStuck_none {b : Bool} (hd : ((s.afeOf h).reader b).stuckDue = 0) : exec (.adcStuck h b) s = .next s :=
  if_neg (Nat.not_lt.2 (Nat.le_of_eq hd))

theorem clipRun_does {b : Bool} (hp : s.present (pHCH h) = true) (hd : 0 < ((s.afeOf h).reader b).clipDue) : Does (.clipRun h b) s fun t =>
    (t.reg (pHCH h) 0x1C).getLsbD 3 = true ∧ ((t.afeOf h).reader b).clipDue = ((s.afeOf h).reader b).clipDue - 1 ∧ t.mem = s.mem := by
  obtain ⟨hflt, hrd, hmem⟩ := runReported hp (n := 3) (g := (4, 0)) (faultGrade_hch h.isLt) (by decide)
  exact ⟨_, exec_clipRun_due hd, hflt, by rw [hrd], hmem⟩

theorem adcStuck_does {b : Bool} (hp : s.present (pHCH h) = true) (hd : 0 < ((s.afeOf h).reader b).stuckDue) : Does (.adcStuck h b) s fun t =>
    (t.reg (pHCH h) 0x1C).getLsbD 4 = true ∧ ((t.afeOf h).reader b).stuckDue = ((s.afeOf h).reader b).stuckDue - 1 ∧ t.mem = s.mem := by
  obtain ⟨hflt, hrd, hmem⟩ := runReported hp (n := 4) (g := (4, 1)) (faultGrade_hch h.isLt) (by decide)
  exact ⟨_, exec_adcStuck_due hd, hflt, by rw [hrd], hmem⟩

end

/-! ### The load of a zone -/

section
variable {s : State} {p o o' n z : Nat} {w : Word}

theorem shadowReg_setShadowReg_same : (s.setShadowReg p o w).shadowReg p o = w := tabGet_tabPut_same

theorem shadowReg_setShadowReg_off (h : o' / 4 ≠ o / 4) : (s.setShadowReg p o w).shadowReg p o' = s.shadowReg p o' :=
  tabGet_tabPut_ne (regKey_ne_of_off h)

theorem each_range_succ {f : State → Nat → State} : s.each (List.range (n + 1)) f = f (s.each (List.range n) f) n := by
  simp [State.each, List.range_succ]

/-- The load's writes to the shadow set: ZPT_SEL, then the words without their reserved bits (R12, R100). -/
def State.zptLoad (s : State) (p z : Nat) (set : List Word) (n : Nat) : State :=
  (s.setShadowReg p 0x40 (BitVec.ofNat 32 z)).each (List.range n) (fun s i => s.setShadowReg p (0x80 + 4 * i) ((set[i]?).getD 0 &&& accMask p (0x80 + 4 * i) .sh))

variable {set : List Word}

theorem zptLoad_shape (s : State) (p z : Nat) (set : List Word) (n : Nat) : ∃ r, s.zptLoad p z set n = { s with shadow := r } := by
  induction n with
  | zero => exact ⟨_, rfl⟩
  | succ n ih =>
    obtain ⟨r, hr⟩ := ih
    rw [State.zptLoad, each_range_succ, ← State.zptLoad, hr]
    exact ⟨_, rfl⟩

theorem zptLoad_word {i : Nat} (hi : i < n) :
    (s.zptLoad p z set n).shadowReg p (0x80 + 4 * i) = (set[i]?).getD 0 &&& accMask p (0x80 + 4 * i) .sh := by
  induction n with
  | zero => exact absurd hi (Nat.not_lt_zero i)
  | succ n ih =>
    rw [State.zptLoad, each_range_succ, ← State.zptLoad]
    obtain hlt | rfl := Nat.lt_succ_iff_lt_or_eq.1 hi
    · rw [shadowReg_setShadowReg_off (by omega), ih hlt]
    · exact shadowReg_setShadowReg_same

theorem zptLoad_sel : (s.zptLoad p z set n).shadowReg p 0x40 = BitVec.ofNat 32 z := by
  induction n with
  | zero => exact shadowReg_setShadowReg_same
  | succ n ih => rw [State.zptLoad, each_range_succ, ← State.zptLoad, shadowReg_setShadowReg_off (by omega), ih]

theorem shadowReg_congr {t : State} (h : t.shadow = s.shadow) : t.shadowReg p o = s.shadowReg p o := by
  rw [State.shadowReg, h, State.shadowReg]

/-- With no commit due a shadow write is its effect, and in the commit cycle DEFERRED (R57). -/
theorem shadowWrite_effect {f : State → State} (hd : s.commitDue p s.time = false) :
    (s.shadowWrite p f).shadow = (f s).shadow ∧ (s.shadowWrite p f).mem = (f s).mem := by
  unfold State.shadowWrite
  rw [settle_not_due hd]
  dsimp only
  split
  · exact ⟨rfl, rfl⟩
  · exact ⟨rfl, rfl⟩

end

section
variable {s : State} {h : Fin 96} {m : Master} {z : BitVec 6} {ecc : Ecc}

theorem exec_zptSel (hp : s.present (pHCH h) = true) (hw : s.powered (pHCH h) = true) (hr : s.isResetting (pHCH h) = false) :
    exec (.zptSel m h z ecc) s = .next (s.zptSelect h z.toNat ecc) :=
  congrArg Host.Outcome.next (regCmd_answering hp hw hr)

variable {h n : Nat}

theorem zptSelect_ue (hd : s.commitDue (pHCH h) s.time = false) : s.zptSelect h n .ue = s.raise (pHCH h) 0 := by
  simp only [State.zptSelect, settle_not_due hd]

/-- The report of a corrected error (R102). -/
def State.zptCorrected (s : State) (h : Nat) (ecc : Ecc) : State := if ecc = .ce then s.raise (pHCH h) 1 else s

theorem zptCorrected_shape (s : State) (h : Nat) (ecc : Ecc) : ∃ r q, s.zptCorrected h ecc = { s with regs := r, fltq := q } := by
  unfold State.zptCorrected
  split
  · exact raiseWith_shape ..
  · exact ⟨s.regs, s.fltq, rfl⟩

theorem zptSelect_valid (hd : s.commitDue (pHCH h) s.time = false) (he : ecc ≠ .ue) (hv : setValid (s.zptEntry h n) = true) :
    s.zptSelect h n ecc = (s.zptCorrected h ecc).shadowWrite (pHCH h) (fun t => t.zptLoad (pHCH h) n (s.zptEntry h n) 18) := by
  cases ecc with
  | ue => exact absurd rfl he
  | good | ce =>
    simp only [State.zptSelect, settle_not_due hd, hv, if_true]
    rfl

theorem zptSelect_invalid (hd : s.commitDue (pHCH h) s.time = false) (he : ecc ≠ .ue) (hv : setValid (s.zptEntry h n) = false) :
    s.zptSelect h n ecc = (((s.zptCorrected h ecc).put (pHCH h) HCH.AFE_STAT_REFUSED_ZONE n).irq (pHCH h) 0).raise (pHCH h) 2 := by
  cases ecc with
  | ue => exact absurd rfl he
  | good | ce =>
    simp only [State.zptSelect, settle_not_due hd, hv]
    rfl

/-- A valid entry fills the shadow set. -/
theorem zptSelect_loads (hd : s.commitDue (pHCH h) s.time = false) (he : ecc ≠ .ue) (hv : setValid (s.zptEntry h n) = true) :
    (∀ i, i < 18 → (s.zptSelect h n ecc).shadowReg (pHCH h) (0x80 + 4 * i) = ((s.zptEntry h n)[i]?).getD 0 &&& accMask (pHCH h) (0x80 + 4 * i) .sh) ∧
    (s.zptSelect h n ecc).shadowReg (pHCH h) 0x40 = BitVec.ofNat 32 n ∧ (s.zptSelect h n ecc).mem = s.mem := by
  rw [zptSelect_valid hd he hv]
  obtain ⟨r, q, hshape⟩ := zptCorrected_shape s h ecc
  have hdue : (s.zptCorrected h ecc).commitDue (pHCH h) (s.zptCorrected h ecc).time = false := by rw [hshape]; exact hd
  obtain ⟨hshadow, hmem⟩ := shadowWrite_effect (f := fun t => t.zptLoad (pHCH h) n (s.zptEntry h n) 18) hdue
  obtain ⟨r', hload⟩ := zptLoad_shape (s.zptCorrected h ecc) (pHCH h) n (s.zptEntry h n) 18
  refine ⟨fun i hi => (shadowReg_congr hshadow).trans (zptLoad_word hi), (shadowReg_congr hshadow).trans zptLoad_sel, hmem.trans ?_⟩
  rw [hload, hshape]

/-- An invalid entry is recorded as refused and leaves the shadow set. -/
theorem zptSelect_refuses (hh : h < 96) (hp : s.present (pHCH h) = true) (hd : s.commitDue (pHCH h) s.time = false) (he : ecc ≠ .ue)
    (hv : setValid (s.zptEntry h n) = false) :
    (s.zptSelect h n ecc).shadow = s.shadow ∧ (s.zptSelect h n ecc).get (pHCH h) HCH.AFE_STAT_REFUSED_ZONE = n % 64 ∧
    ((s.zptSelect h n ecc).reg (pHCH h) 0x1C).getLsbD 2 = true := by
  obtain ⟨r, q, hshape⟩ := zptCorrected_shape s h ecc
  rw [zptSelect_invalid hd he hv, hshape]
  refine ⟨State.raiseWith_shadow .., ?_, raise_fltStat (g := (6, 0)) hp (faultGrade_hch hh) (by decide)⟩
  rw [raise_get_off (by decide) (by decide), irq_get_off (by decide), get_put_same (by decide)]
  rfl

end

/-- Settles O29: a block's samples keep the frozen loops, a due run is one report, a load is one write of the shadow set. -/
theorem frontEnd : Obligations.FrontEnd := by
  refine ⟨fun h hh => ⟨faultGrade_hch hh, faultGrade_hch hh, faultGrade_hch hh, faultGrade_hch hh⟩, fun r x => ⟨count_clip, fun _ => count_stuck⟩,
    fun m h s _ hp => ⟨fun delay hd ha hw => exec_afeWake_due ⟨hp, hd, ha, hw⟩, fun delay => exec_afeWake_undozed, fun xa xb errs => exec_adaptBlock_none,
    fun g xa xb errs hg => ?_, clipRun_does (b := false) hp, clipRun_does (b := true) hp, adcStuck_does (b := false) hp, adcStuck_does (b := true) hp,
    exec_clipRun_none (b := false), exec_clipRun_none (b := true), exec_adcStuck_none (b := false), exec_adcStuck_none (b := true),
    fun z ecc hw hr hd => ⟨fun he hv => ?_, fun he hv => ?_, ?_⟩⟩⟩
  · obtain ⟨t, ra, rb, he, hafe, ha, hb⟩ := exec_adaptBlock_open (xa := xa) (xb := xb) (errs := errs) hg
    refine ⟨t, he, ?_⟩
    simp only [hafe]
    exact ⟨rfl, fun hf => ⟨ha.vga hf, hb.vga hf⟩, fun hf => ⟨ha.ofs hf, hb.ofs hf⟩, fun hf => ⟨ha.asym hf, hb.asym hf⟩⟩
  · obtain ⟨hword, hsel, hmem⟩ := zptSelect_loads hd he hv
    exact ⟨_, exec_zptSel hp hw hr, hword, hsel.trans (BitVec.ofNat_toNat 32 z), hmem⟩
  · obtain ⟨hshadow, hzone, hflt⟩ := zptSelect_refuses h.isLt hp hd he hv
    exact ⟨_, exec_zptSel hp hw hr, hshadow, hzone.trans (Nat.mod_eq_of_lt z.isLt), hflt⟩
  · rw [exec_zptSel hp hw hr, zptSelect_ue hd]

end Sys2Proof.Machine

/-! SUPPORT. The statements of Aftermath: what its slots, its queues and its JOB_DONE keep (R146–R164). -/

namespace Sys2Proof.Machine

/-- What an operation that is none of Aftermath's own leaves: its queues, its slots' states and JOB_DONE, the head channels, the power. -/
structure AfmKept (s t : State) : Prop where
  afm : t.afm = s.afm
  dom : t.dom = s.dom
  rdh : t.rdh = s.rdh
  slots : ∀ h k, h < 96 → k < 2 → t.slotState h k = s.slotState h k
  done : t.get pAFM AFM.JOB_DONE = s.get pAFM AFM.JOB_DONE

section
variable {s t u : State} {p o b h k d st : Nat} {w : Word} {f : Fld} {v : Nat} {m : Option Master} {bs : List Byte}

/-! ### Operations that keep Aftermath -/

theorem AfmKept.refl (s : State) : AfmKept s s := ⟨rfl, rfl, rfl, fun _ _ _ _ => rfl, rfl⟩

theorem AfmKept.trans (x : AfmKept s t) (y : AfmKept t u) : AfmKept s u :=
  ⟨y.afm.trans x.afm, y.dom.trans x.dom, y.rdh.trans x.rdh, fun h k hh hk => (y.slots h k hh hk).trans (x.slots h k hh hk), y.done.trans x.done⟩

/-- Slots and JOB_DONE are registers of AFM: 0x100 to 0x3FC and 0x84. -/
theorem AfmKept.of_get (ha : t.afm = s.afm) (hd : t.dom = s.dom) (hr : t.rdh = s.rdh)
    (hg : ∀ f : Fld, f.off / 4 = 33 ∨ 64 ≤ f.off / 4 ∧ f.off / 4 < 256 → t.get pAFM f = s.get pAFM f) : AfmKept s t :=
  ⟨ha, hd, hr, fun h k hh hk => hg _ (.inr (by simp only [slotIdx]; omega)), hg _ (.inl rfl)⟩

theorem AfmKept.of_regs (ha : t.afm = s.afm) (hd : t.dom = s.dom) (hr : t.rdh = s.rdh) (hg : t.regs = s.regs) : AfmKept s t :=
  .of_get ha hd hr fun _ _ => get_congr hg

/-- A register that is neither a slot's nor JOB_DONE. -/
theorem AfmKept.setReg (h : p ≠ pAFM ∧ o < 4096 ∨ o < 0x100 ∧ o / 4 ≠ 33) : AfmKept s (s.setReg p o w) :=
  .of_get rfl rfl rfl fun f hf => get_setReg_ne (by unfold regKey; omega)

theorem AfmKept.put (h : p ≠ pAFM ∧ f.off < 4096 ∨ f.off < 0x100 ∧ f.off / 4 ≠ 33) : AfmKept s (s.put p f v) := .setReg h

theorem AfmKept.inc (h : p ≠ pAFM ∧ f.off < 4096 ∨ f.off < 0x100 ∧ f.off / 4 ≠ 33) : AfmKept s (s.inc p f) := .put h

theorem AfmKept.irq : AfmKept s (s.irq p b) := .setReg (by omega)

theorem AfmKept.raiseWith {x : Detail} : AfmKept s (s.raiseWith p b x) :=
  .of_get (by simp) (by simp) (by simp) fun f hf => raiseWith_get_ne (by unfold regKey; omega) (by unfold regKey; omega)

theorem AfmKept.raise : AfmKept s (s.raise p b) := .raiseWith

theorem AfmKept.each {α : Type} {l : List α} {g : State → α → State} (hg : ∀ s a, AfmKept s (g s a)) : AfmKept s (s.each l g) := by
  induction l generalizing s with
  | nil => exact .refl s
  | cons a l ih => exact (hg s a).trans ih

/-! ### Buffer memory and rings -/

theorem AfmKept.raiseRefusal {c : Bool} {r : Option Nat} {x : Nat} : AfmKept s (s.raiseRefusal m c r x) := by
  unfold State.raiseRefusal State.raiseAccess
  split <;> exact .raiseWith

theorem AfmKept.dramUe {c : Bool} {l : Nat} : AfmKept s (s.dramUe m c l) := by
  have hp : pDMC (s.chanOf l) ≠ pAFM := by unfold pDMC pAFM; omega
  unfold State.dramUe
  extract_lets _ _ s1 s2
  have hcounted : AfmKept s s2 := ((AfmKept.put (.inl ⟨hp, by decide⟩)).trans (.inc (.inl ⟨hp, by decide⟩))).trans (.trans .raiseWith .irq)
  split
  · exact hcounted.trans .raise
  · exact hcounted

theorem AfmKept.badRead {c : Bool} {l : Nat} : AfmKept s (s.badRead m c l) := by
  unfold State.badRead
  split
  · exact .dramUe
  · exact .refl s

theorem AfmKept.storeBytes {a : Nat} : AfmKept s (s.storeBytes a bs) := by
  induction bs generalizing s a with
  | nil => exact .refl s
  | cons x bs ih => exact AfmKept.trans (t := s.setByte a x) (.of_regs rfl rfl rfl rfl) ih

theorem AfmKept.noteZpt {a n : Nat} : AfmKept s (s.noteZpt a n) := by
  unfold State.noteZpt
  split
  · exact .of_regs rfl rfl rfl rfl
  · exact .refl s

theorem AfmKept.countRmw {a n : Nat} : AfmKept s (s.countRmw a n) :=
  .each fun s l => .inc (.inl ⟨by unfold pDMC pAFM; omega, by decide⟩)

/-- A write of buffer memory, whether it lands or not. -/
theorem AfmKept.bufWrite {a : Nat} : AfmKept s (s.bufWrite m a bs).1 := by
  unfold State.bufWrite
  split
  · exact .raiseRefusal
  · split
    · exact .badRead
    · exact ((AfmKept.noteZpt.trans .countRmw).trans .storeBytes).trans (.of_regs rfl rfl rfl rfl)

/-- A record of a ring on another page, whether it is written or dropped. -/
theorem AfmKept.ringWrite {r : Ring} {ws : List Nat} (hp : r.page ≠ pAFM) (hw : r.wr.off < 4096) (hl : r.lost.off < 4096) :
    AfmKept s (s.ringWrite r m ws).1 := by
  have hdrop (t : State) : AfmKept t (t.ringDrop r) := (AfmKept.inc (.inl ⟨hp, hl⟩)).trans .raise
  simp only [State.ringWrite]
  split
  · exact hdrop s
  · generalize hb : s.bufWrite m _ (wordBytes ws) = x
    have hx : AfmKept s x.1 := hb ▸ .bufWrite
    obtain ⟨s1, _ | _⟩ := x
    · exact hx.trans (hdrop s1)
    · exact hx.trans (.trans (.put (.inl ⟨hp, hw⟩)) .irq)

/-! ### Head channels and power -/

theorem AfmKept.setRd {x : RdHead} (e : AfmKept s t) : AfmKept (s.setRd h x) (t.setRd h x) :=
  ⟨e.afm, e.dom, by simp only [State.setRd, e.rdh], e.slots, e.done⟩

theorem rdOf_congr (e : t.rdh = s.rdh) : t.rdOf h = s.rdOf h := by rw [State.rdOf, e, State.rdOf]

@[simp] theorem rdOf_setRd {x : RdHead} : (s.setRd h x).rdOf h = x := tabGet_tabPut_same

theorem powered_congr (e : t.dom = s.dom) : t.powered p = s.powered p := by
  unfold State.powered State.domOn State.domOf
  rw [e]

end

end Sys2Proof.Machine

/-! SUPPORT. The statements of Aftermath: slots, queues and runs, the end of a job (R149, R155, R161). -/

namespace Sys2Proof.Machine

section
variable {s t : State} {p h k n d : Nat} {f : Fld} {q : Afm} {run : DeepRun} {j : Job} {l : List (Nat × Nat)} {x : Nat × Nat}

/-! ### The state of a slot -/

theorem slotIdx_inj {y : Nat × Nat} (hx : x.2 < 2) (hy : y.2 < 2) (e : slotIdx x.1 x.2 = slotIdx y.1 y.2) : x = y := by
  unfold slotIdx at e
  exact Prod.ext (by omega) (by omega)

/-- A slot's state is a register field; BOTH_PINNED is a bit of IRQ_PEND. -/
theorem setSlot_cases : s.setSlot h k n = s.put pAFM (AFM.SLOT_STAT_STATE (slotIdx h k)) n ∨
    s.setSlot h k n = (s.put pAFM (AFM.SLOT_STAT_STATE (slotIdx h k)) n).irq pAFM 2 := by
  unfold State.setSlot
  dsimp only
  split
  · exact .inr rfl
  · exact .inl rfl

theorem setSlot_shape (s : State) (h k n : Nat) : ∃ r, s.setSlot h k n = { s with regs := r } := by
  obtain e | e := setSlot_cases (s := s) (h := h) (k := k) (n := n) <;> exact ⟨_, e⟩

theorem setSlot_get (hf : f.off / 4 ≠ 6) : (s.setSlot h k n).get pAFM f = (s.put pAFM (AFM.SLOT_STAT_STATE (slotIdx h k)) n).get pAFM f := by
  obtain e | e := setSlot_cases (s := s) (h := h) (k := k) (n := n) <;> rw [e]
  exact irq_get_off hf

theorem slotState_setSlot_same : (s.setSlot h k n).slotState h k = n % 8 := by
  rw [State.slotState, setSlot_get (by dsimp only; omega)]
  exact get_put_same (f := AFM.SLOT_STAT_STATE (slotIdx h k)) (by decide : 0 + 3 ≤ 32)

theorem slotState_setSlot_ne {h' k' : Nat} (e : slotIdx h' k' ≠ slotIdx h k) : (s.setSlot h k n).slotState h' k' = s.slotState h' k' := by
  rw [State.slotState, setSlot_get (by dsimp only; omega), get_put_off (by dsimp only; omega), State.slotState]

/-! ### The slots of a job -/

/-- Every slot of a list takes the state that `v` gives, from the slot and the state of the module. -/
def State.setSlots (s : State) (l : List (Nat × Nat)) (v : State → Nat × Nat → Nat) : State :=
  s.each l (fun s x => s.setSlot x.1 x.2 (v s x))

variable {v : State → Nat × Nat → Nat}

theorem setSlots_shape (s : State) (l : List (Nat × Nat)) (v : State → Nat × Nat → Nat) : ∃ r, s.setSlots l v = { s with regs := r } := by
  induction l generalizing s with
  | nil => exact ⟨s.regs, rfl⟩
  | cons y l ih =>
    obtain ⟨r, hr⟩ := setSlot_shape s y.1 y.2 (v s y)
    obtain ⟨r', hr'⟩ := ih (s.setSlot y.1 y.2 (v s y))
    exact ⟨r', hr'.trans (by rw [hr])⟩

theorem setSlots_get (hf : f.off / 4 < 64) (h6 : f.off / 4 ≠ 6) : (s.setSlots l v).get pAFM f = s.get pAFM f := by
  induction l generalizing s with
  | nil => rfl
  | cons y l ih => exact (ih (s := s.setSlot y.1 y.2 (v s y))).trans ((setSlot_get h6).trans (get_put_off (by dsimp only; omega)))

theorem setSlots_other (hl : ∀ y ∈ l, slotIdx h k ≠ slotIdx y.1 y.2) : (s.setSlots l v).slotState h k = s.slotState h k := by
  induction l generalizing s with
  | nil => rfl
  | cons y l ih =>
    obtain ⟨hy, hl⟩ := List.forall_mem_cons.1 hl
    exact (ih hl (s := s.setSlot y.1 y.2 (v s y))).trans (slotState_setSlot_ne hy)

/-- A value that does not hang on the state of the module. -/
theorem setSlots_const {c : Nat × Nat → Nat} (hl : ∀ y ∈ l, y.2 < 2) (hx : x ∈ l) :
    (s.setSlots l (fun _ y => c y)).slotState x.1 x.2 = c x % 8 := by
  induction l generalizing s with
  | nil => nomatch hx
  | cons y l ih =>
    obtain ⟨hy, hr⟩ := List.forall_mem_cons.1 hl
    by_cases hm : x ∈ l
    · exact ih hr hm
    · obtain rfl : x = y := (List.mem_cons.1 hx).resolve_right hm
      exact (setSlots_other (l := l) fun z hz e => hm (slotIdx_inj hy (hr z hz) e ▸ hz)).trans slotState_setSlot_same

/-- A value that hangs on the slot's own state before. -/
theorem setSlots_map {c : Nat → Nat} (hn : l.Nodup) (hl : ∀ y ∈ l, y.2 < 2) (hx : x ∈ l) :
    (s.setSlots l (fun s y => c (s.slotState y.1 y.2))).slotState x.1 x.2 = c (s.slotState x.1 x.2) % 8 := by
  induction l generalizing s with
  | nil => nomatch hx
  | cons y l ih =>
    obtain ⟨hy, hr⟩ := List.forall_mem_cons.1 hl
    obtain ⟨hnot, hnr⟩ := List.nodup_cons.1 hn
    obtain rfl | hm := List.mem_cons.1 hx
    · exact (setSlots_other (l := l) fun z hz e => hnot (slotIdx_inj hy (hr z hz) e ▸ hz)).trans slotState_setSlot_same
    · have hne : slotIdx x.1 x.2 ≠ slotIdx y.1 y.2 := fun e => hnot (slotIdx_inj (hr x hm) hy e ▸ hm)
      exact (ih (s := s.setSlot y.1 y.2 _) hnr hr hm).trans (by rw [slotState_setSlot_ne hne])

/-! ### Queues and runs -/

theorem setAfm_kept : AfmKept { s with afm := q } (s.setAfm q) :=
  ((AfmKept.put (.inr (by decide))).trans (.put (.inr (by decide)))).trans (.put (.inr (by decide)))

theorem slotState_setAfm : (s.setAfm q).slotState h k = s.slotState h k :=
  (get_put_off (by dsimp only; omega)).trans ((get_put_off (by dsimp only; omega)).trans (get_put_off (by dsimp only; omega)))

theorem runOf_congr (e : t.afm = s.afm) : t.runOf d = s.runOf d := by rw [State.runOf, e, State.runOf]

theorem runOf_dropRun : (s.dropRun d).runOf d = none := by
  have hruns : (s.dropRun d).afm.runs = s.afm.runs.filter (fun e => e.1 ≠ d) := rfl
  simp [State.runOf, hruns]

theorem runOf_setRun : (s.setRun d run).runOf d = some run := by
  have hnone : (s.dropRun d).runOf d = none := runOf_dropRun
  rw [State.runOf, Option.map_eq_none_iff] at hnone
  have hruns : (s.setRun d run).afm.runs = (s.dropRun d).afm.runs ++ [(d, run)] := rfl
  rw [State.runOf, hruns, List.find?_append, hnone]
  simp

theorem fitsAt_congr {i : Int} (e : t.afm.info = s.afm.info) : t.fitsAt j i = s.fitsAt j i := by
  unfold State.fitsAt State.slotInfo
  rw [e]

theorem AfmKept.ddState {n : Nat} (hd : d < 8) : AfmKept s (s.ddState d n) := .setReg (.inr (by omega))

theorem AfmKept.noteDd {n : Nat} (hd : d < 8) : AfmKept s (s.noteDd d n run) := .setReg (.inr (by omega))

theorem AfmKept.noteRelease : AfmKept s s.noteRelease := .put (.inr (by decide))

/-! ### The end of a job -/

/-- A new STATUS leaves the slot's state. -/
theorem AfmKept.setDescStatus : AfmKept s (s.setDescStatus h k n) := by
  obtain ⟨m, hm⟩ := store_shape s (slotAddr h k + 0x1E082) 1 n
  rw [State.setDescStatus, hm]
  refine ⟨rfl, rfl, rfl, fun h' k' _ _ => ?_, get_put_off (by dsimp only; omega)⟩
  by_cases e : slotIdx h' k' = slotIdx h k
  · rw [State.slotState, e]
    exact (get_put_field (f := AFM.SLOT_STAT_STATUS (slotIdx h k)) (g := AFM.SLOT_STAT_STATE (slotIdx h k)) (by dsimp only; omega) rfl
      (by dsimp only; omega)).trans (by rw [State.slotState, e]; rfl)
  · exact get_put_off (by dsimp only; omega)

/-- A status record takes the next sequence number of its head (R139). -/
theorem AfmKept.writeSts {r : StsRec} {b : Bool} :
    AfmKept (s.setRd h { s.rdOf h with seq := ((s.rdOf h).seq + 1) % 65536 }) (s.writeSts h r b) := by
  have hp : pHCH h ≠ pAFM := by unfold pHCH pAFM; omega
  unfold State.writeSts
  extract_lets rd s1 s2
  have hring : AfmKept (s.setRd h { rd with seq := (rd.seq + 1) % 65536 }) s2 :=
    (AfmKept.put (.inl ⟨hp, by decide⟩)).trans (.ringWrite hp (by decide : HCH.STS_WR.off < 4096) (by decide : HCH.STS_LOST.off < 4096))
  split
  · exact hring.trans (.of_regs rfl rfl rfl rfl)
  · exact hring

/-- What the end of job `j` makes of a state in which its slots are settled: JOB_DONE counted, a record at its head (R161, R164). -/
structure JobEnded (s : State) (j : Job) (t : State) : Prop where
  afm : t.afm = s.afm
  slots : ∀ h k, h < 96 → k < 2 → t.slotState h k = s.slotState h k
  seq : s.powered (pHCH j.head) = true → (t.rdOf j.head).seq = ((s.rdOf j.head).seq + 1) % 65536
  done : t.get pAFM AFM.JOB_DONE = min (s.get pAFM AFM.JOB_DONE + 1) (2 ^ 32 - 1)

theorem JobEnded.kept {u : State} (x : JobEnded s j t) (y : AfmKept t u) : JobEnded s j u :=
  ⟨y.afm.trans x.afm, fun h k hh hk => (y.slots h k hh hk).trans (x.slots h k hh hk), fun hp => by rw [rdOf_congr y.rdh, x.seq hp],
    y.done.trans x.done⟩

theorem postJob_kept {r : TryEnd} {b : Bool} : AfmKept (if s.powered (pHCH j.head) then s.setRd j.head { s.rdOf j.head with
    seq := ((s.rdOf j.head).seq + 1) % 65536 } else s) (s.postJob j r b) := by
  have hstatus : AfmKept s (s.setDescStatus j.head j.slot r.status) := .setDescStatus
  unfold State.postJob
  dsimp only
  rw [powered_congr hstatus.dom]
  split
  · refine AfmKept.trans ?_ AfmKept.writeSts
    rw [rdOf_congr hstatus.rdh]
    exact hstatus.setRd
  · exact (hstatus.trans (.inc (.inr (by decide)))).trans .raise

theorem jobDone_get : s.jobDone.get pAFM AFM.JOB_DONE = min (s.get pAFM AFM.JOB_DONE + 1) (2 ^ 32 - 1) :=
  (irq_get_off (by decide)).trans (get_inc (by decide))

theorem slotState_jobDone : s.jobDone.slotState h k = s.slotState h k :=
  (irq_get_off (by dsimp only; omega)).trans (get_put_off (by dsimp only; omega))

/-- The record of a job and its count. -/
theorem postJob_jobDone {r : TryEnd} {b : Bool} : JobEnded s j (s.postJob j r b).jobDone := by
  have hpost : AfmKept _ (s.postJob j r b) := postJob_kept
  split at hpost
  next hp => exact ⟨hpost.afm, fun h k hh hk => slotState_jobDone.trans (hpost.slots h k hh hk),
    fun _ => by rw [rdOf_congr (t := (s.postJob j r b).jobDone) hpost.rdh, rdOf_setRd], jobDone_get.trans (by rw [hpost.done]; rfl)⟩
  next hp => exact ⟨hpost.afm, fun h k hh hk => slotState_jobDone.trans (hpost.slots h k hh hk), fun h => absurd h hp,
    jobDone_get.trans (by rw [hpost.done])⟩

end

end Sys2Proof.Machine

/-! SUPPORT. The statements of Aftermath: releases and submissions (R150, R159, R160). -/

namespace Sys2Proof.Machine

theorem b2n_lt {b : Bool} : b2n b < 2 := by cases b <;> decide

theorem present_afm {s : State} : s.present pAFM = true := rfl

/-- The queues without a job. -/
def Afm.without (q : Afm) (j : Job) : Afm := { q with sweeps := q.sweeps.filter (fun x => x ≠ j), jobs := q.jobs.filter (fun x => x ≠ j) }

theorem not_mem_without {q : Afm} {j : Job} : j ∉ (q.without j).sweeps ++ (q.without j).jobs := by
  simp [Afm.without]

theorem queuedJob_slot {s : State} {h k : Nat} {j : Job} (hj : s.queuedJob h k = some j) : (h, k) ∈ j.slots := by
  simpa using List.find?_some hj

/-- Slot `y` of a job that waits is freed: the job leaves the queues, its other slots are PINNED (R150). -/
def State.unqueued (s : State) (y : Nat × Nat) (j : Job) : State :=
  (s.setAfm (s.afm.without j)).setSlots j.slots (fun _ x => if x = y then 0 else 2)

theorem unqueued_shape (s : State) (y : Nat × Nat) (j : Job) : ∃ r, s.unqueued y j = { s with regs := r, afm := s.afm.without j } := by
  obtain ⟨r, hr⟩ := setSlots_shape (s.setAfm (s.afm.without j)) j.slots (fun _ x => if x = y then 0 else 2)
  exact ⟨r, hr⟩

theorem unqueued_done {s : State} {y : Nat × Nat} {j : Job} : (s.unqueued y j).get pAFM AFM.JOB_DONE = s.get pAFM AFM.JOB_DONE :=
  (setSlots_get (by decide) (by decide)).trans setAfm_kept.done

theorem unqueued_slots {s : State} {x y : Nat × Nat} {j : Job} (hl : ∀ z ∈ j.slots, z.2 < 2) (hx : x ∈ j.slots) :
    (s.unqueued y j).slotState x.1 x.2 = if x = y then 0 else 2 :=
  (setSlots_const hl hx).trans (by split <;> rfl)

section
variable {s : State} {m : Master} {h k : Nat} {j : Job} {hh : BitVec 7} {b : Bool}

/-! ### RELEASE -/

theorem exec_release (hw : s.powered pAFM = true) (hr : s.isResetting pAFM = false) (h96 : hh.toNat < 96) :
    exec (.release m hh b) s = .next (s.releaseSlot hh.toNat (b2n b)) := by
  refine congrArg Host.Outcome.next ((regCmd_answering present_afm hw hr).trans ?_)
  rw [if_pos h96]

theorem exec_release_above (hw : s.powered pAFM = true) (hr : s.isResetting pAFM = false) (h96 : 96 ≤ hh.toNat) :
    exec (.release m hh b) s = .next s := by
  refine congrArg Host.Outcome.next ((regCmd_answering present_afm hw hr).trans ?_)
  rw [if_neg (by omega)]

theorem releaseSlot_fenced (hf : s.subFenced pAFM (slotIdx h k) = true) : s.releaseSlot h k = s := if_pos hf

theorem releaseSlot_idle (hst : s.slotState h k < 2) : s.releaseSlot h k = s := by
  unfold State.releaseSlot
  split
  · rfl
  · split
    next h2 => omega
    next h3 => omega
    next h4 => omega
    next => rfl

variable (hf : s.subFenced pAFM (slotIdx h k) = false)
include hf

theorem releaseSlot_pinned (hst : s.slotState h k = 2) : s.releaseSlot h k = s.setSlot h k 0 := by
  simp only [State.releaseSlot, hf, hst, Bool.false_eq_true, if_false]

theorem releaseSlot_unqueued (hst : s.slotState h k = 3) (hj : s.queuedJob h k = none) : s.releaseSlot h k = s.setSlot h k 0 := by
  simp only [State.releaseSlot, hf, hst, hj, Bool.false_eq_true, if_false]

theorem releaseSlot_deep (hst : s.slotState h k = 4) : s.releaseSlot h k = (s.setSlot h k 5).put pAFM AFM.REL_STAT_BUSY 1 := by
  simp only [State.releaseSlot, hf, hst, Bool.false_eq_true, if_false]

theorem releaseSlot_queued (hst : s.slotState h k = 3) (hj : s.queuedJob h k = some j) :
    ∃ r b, s.releaseSlot h k = ((s.unqueued (h, k) j).postJob j r b).jobDone := by
  simp only [State.releaseSlot, hf, hst, hj, Bool.false_eq_true, if_false]
  exact ⟨_, _, rfl⟩

end

/-- A queued slot is released: its job leaves the queues and ends, its other slots are PINNED. -/
theorem releaseSlot_queued_effect {s : State} {h k : Nat} {j : Job} (hf : s.subFenced pAFM (slotIdx h k) = false) (hst : s.slotState h k = 3)
    (hj : s.queuedJob h k = some j) (hslots : ∀ x ∈ j.slots, x.1 < 96 ∧ x.2 < 2) :
    (s.releaseSlot h k).slotState h k = 0 ∧ j ∉ (s.releaseSlot h k).afm.sweeps ++ (s.releaseSlot h k).afm.jobs ∧
    (∀ x ∈ j.slots, x ≠ (h, k) → (s.releaseSlot h k).slotState x.1 x.2 = 2) ∧
    (s.powered (pHCH j.head) = true → ((s.releaseSlot h k).rdOf j.head).seq = ((s.rdOf j.head).seq + 1) % 65536) ∧
    (s.releaseSlot h k).get pAFM AFM.JOB_DONE = min (s.get pAFM AFM.JOB_DONE + 1) (2 ^ 32 - 1) := by
  obtain ⟨r, b, hrel⟩ := releaseSlot_queued hf hst hj
  obtain ⟨regs, hunq⟩ := unqueued_shape s (h, k) j
  have hend : JobEnded (s.unqueued (h, k) j) j (s.releaseSlot h k) := hrel ▸ postJob_jobDone
  have hslot (x) (hx : x ∈ j.slots) : (s.releaseSlot h k).slotState x.1 x.2 = if x = (h, k) then 0 else 2 :=
    (hend.slots _ _ (hslots x hx).1 (hslots x hx).2).trans (unqueued_slots (fun y hy => (hslots y hy).2) hx)
  refine ⟨(hslot _ (queuedJob_slot hj)).trans (if_pos rfl), ?_, fun x hx hne => (hslot x hx).trans (if_neg hne), fun hp => ?_, ?_⟩
  · rw [hend.afm, hunq]
    exact not_mem_without
  · have hdom : (s.unqueued (h, k) j).dom = s.dom := by rw [hunq]
    have hrdh : (s.unqueued (h, k) j).rdh = s.rdh := by rw [hunq]
    rw [hend.seq ((powered_congr hdom).trans hp), rdOf_congr hrdh]
  · rw [hend.done, unqueued_done]

/-! ### RELEASE_DONE -/

section
variable {s : State} {m : Master} {d st : Nat} {j : Job} {run : DeepRun} {h : Fin 96} {b : Bool}

theorem exec_releaseDone_idle (hst : s.slotState h (b2n b) ≠ 5) : exec (.releaseDone h b) s = .next s := if_neg hst

theorem exec_releaseDone_run (hst : s.slotState h (b2n b) = 5)
    (hrun : s.afm.runs.find? (fun e => e.2.job.slots.contains (h.val, b2n b)) = some (d, run)) :
    exec (.releaseDone h b) s = .next (s.dropJob d 1 run.job) := by
  simp only [exec, execReleaseDone, hst, hrun, if_true]

theorem exec_releaseDone_free (hst : s.slotState h (b2n b) = 5)
    (hrun : s.afm.runs.find? (fun e => e.2.job.slots.contains (h.val, b2n b)) = none) :
    exec (.releaseDone h b) s = .next (s.setSlot h (b2n b) 0).noteRelease := by
  simp only [exec, execReleaseDone, hst, hrun, if_true]

/-- A slot after its job: FREE where it was RELEASING or `auto` frees it, else PINNED (R149, R150). -/
def slotAfterJob (auto : Bool) (st : Nat) : Nat := if auto || st = 5 then 0 else 2

theorem slotAfterJob_mod {auto : Bool} {n : Nat} : slotAfterJob auto n % 8 = slotAfterJob auto n := by
  unfold slotAfterJob
  split <;> rfl

theorem slotAfterJob_kept {n : Nat} : slotAfterJob false n = if n = 5 then 0 else 2 := by simp [slotAfterJob]

/-- The slots of a job that a deep decoder leaves. -/
def State.settleSlots (s : State) (j : Job) (auto : Bool) : State := s.setSlots j.slots (fun s x => slotAfterJob auto (s.slotState x.1 x.2))

theorem settleSlots_shape (s : State) (j : Job) (auto : Bool) : ∃ r, s.settleSlots j auto = { s with regs := r } := setSlots_shape ..

theorem settleSlots_slots {auto : Bool} {x : Nat × Nat} (hn : j.slots.Nodup) (hl : ∀ y ∈ j.slots, y.2 < 2) (hx : x ∈ j.slots) :
    (s.settleSlots j auto).slotState x.1 x.2 = slotAfterJob auto (s.slotState x.1 x.2) :=
  (setSlots_map hn hl hx).trans slotAfterJob_mod

theorem settleSlots_done {auto : Bool} : (s.settleSlots j auto).get pAFM AFM.JOB_DONE = s.get pAFM AFM.JOB_DONE :=
  setSlots_get (by decide) (by decide)

/-- Deep decoder `d` has left job `j`, whose end is still to be recorded. -/
structure RunLeft (s : State) (d : Nat) (j : Job) (auto : Bool) (t : State) : Prop where
  runs : t.runOf d = none
  dom : t.dom = s.dom
  rdh : t.rdh = s.rdh
  slots : ∀ x ∈ j.slots, t.slotState x.1 x.2 = slotAfterJob auto (s.slotState x.1 x.2)
  done : t.get pAFM AFM.JOB_DONE = s.get pAFM AFM.JOB_DONE

/-- The job of a decoder that has left it ends. -/
theorem RunLeft.ended {t u : State} {auto : Bool} (x : RunLeft s d j auto t) (y : JobEnded t j u) (hl : ∀ x ∈ j.slots, x.1 < 96 ∧ x.2 < 2) :
    u.runOf d = none ∧ u.get pAFM AFM.JOB_DONE = min (s.get pAFM AFM.JOB_DONE + 1) (2 ^ 32 - 1) ∧
    (s.powered (pHCH j.head) = true → (u.rdOf j.head).seq = ((s.rdOf j.head).seq + 1) % 65536) ∧
    ∀ x ∈ j.slots, u.slotState x.1 x.2 = slotAfterJob auto (s.slotState x.1 x.2) :=
  ⟨(runOf_congr y.afm).trans x.runs, by rw [y.done, x.done], fun hp => by rw [y.seq ((powered_congr x.dom).trans hp), rdOf_congr x.rdh],
    fun z hz => (y.slots _ _ (hl z hz).1 (hl z hz).2).trans (x.slots z hz)⟩

theorem dropJob_ended : JobEnded (((s.dropRun d).ddState d st).settleSlots j false) j (s.dropJob d st j) := by
  have hend (r : TryEnd) (b : Bool) : JobEnded (((s.dropRun d).ddState d st).settleSlots j false) j
      (((((s.dropRun d).ddState d st).settleSlots j false).postJob j r b).jobDone.noteRelease) := postJob_jobDone.kept .noteRelease
  simp only [State.settleSlots, slotAfterJob_kept] at hend ⊢
  exact hend _ _

theorem dropJob_left (hd : d < 8) (hn : j.slots.Nodup) (hl : ∀ x ∈ j.slots, x.1 < 96 ∧ x.2 < 2) :
    RunLeft s d j false (((s.dropRun d).ddState d st).settleSlots j false) := by
  have hidle : AfmKept _ ((s.dropRun d).ddState d st) := setAfm_kept.trans (.ddState hd)
  obtain ⟨regs, hset⟩ := settleSlots_shape ((s.dropRun d).ddState d st) j false
  have hafm : (((s.dropRun d).ddState d st).settleSlots j false).afm = (s.dropRun d).afm := by rw [hset]; rfl
  refine ⟨(runOf_congr hafm).trans runOf_dropRun, by rw [hset]; rfl, by rw [hset]; rfl, fun x hx => ?_, settleSlots_done.trans hidle.done⟩
  rw [settleSlots_slots hn (fun y hy => (hl y hy).2) hx, hidle.slots _ _ (hl x hx).1 (hl x hx).2]
  rfl

/-- A deep decoder drops its job. -/
theorem dropJob_effect (hd : d < 8) (hn : j.slots.Nodup) (hl : ∀ x ∈ j.slots, x.1 < 96 ∧ x.2 < 2) :
    (∀ x ∈ j.slots, (s.dropJob d st j).slotState x.1 x.2 = if s.slotState x.1 x.2 = 5 then 0 else 2) ∧ (s.dropJob d st j).runOf d = none ∧
    (s.powered (pHCH j.head) = true → ((s.dropJob d st j).rdOf j.head).seq = ((s.rdOf j.head).seq + 1) % 65536) ∧
    (s.dropJob d st j).get pAFM AFM.JOB_DONE = min (s.get pAFM AFM.JOB_DONE + 1) (2 ^ 32 - 1) := by
  obtain ⟨hruns, hdone, hseq, hslots⟩ := (dropJob_left hd hn hl).ended dropJob_ended hl
  exact ⟨fun x hx => (hslots x hx).trans slotAfterJob_kept, hruns, hseq, hdone⟩

/-! ### JOB_W3 -/

theorem exec_submit {w3 : Word} {c : Instr} {ty : Nat} (hw : s.powered pAFM = true) (hr : s.isResetting pAFM = false)
    (hc : (c, ty) ∈ [(.redecode m w3, 1), (.reframe m w3, 2), (.joint m w3, 3), (.sweep m w3, 4)]) :
    exec c s = .next (if bits (s.mreg m pAFM 0x60).toNat 2 0 = ty then s.submitJob m w3 else s) := by
  simp only [List.mem_cons, Prod.mk.injEq, List.not_mem_nil, or_false] at hc
  obtain ⟨rfl, rfl⟩ | ⟨rfl, rfl⟩ | ⟨rfl, rfl⟩ | ⟨rfl, rfl⟩ := hc <;>
    exact congrArg Host.Outcome.next (regCmd_answering present_afm hw hr)

/-- The job that the words of a master name. -/
def State.namedJob (s : State) (m : Master) (w3 : Word) : Job :=
  jobOf (s.mreg m pAFM 0x60).toNat (s.mreg m pAFM 0x64).toNat (s.mreg m pAFM 0x68).toNat w3.toNat

theorem jobOf_slots {w0 w1 w2 w3 : Nat} {x : Nat × Nat} (hx : x ∈ (jobOf w0 w1 w2 w3).slots) : x.2 < 2 := by
  simp only [Job.slots, jobOf, List.mem_cons, Option.mem_toList] at hx
  obtain rfl | hx := hx
  · exact Nat.mod_lt _ (by decide)
  · split at hx
    · obtain rfl := Option.some.inj hx
      exact Nat.mod_lt _ (by decide)
    · nomatch hx

theorem submitJob_refused {w3 : Word} (h : s.jobCheck (s.namedJob m w3) ≠ 0) :
    s.submitJob m w3 = (s.setMreg m pAFM 0x70 (BitVec.ofNat 32 (2 ^ 31 + s.jobCheck (s.namedJob m w3)))).raise pAFM 2 := if_neg h

/-- A job with its bank as it is queued. -/
def State.withBank (s : State) (j : Job) : Job := if j.eqSrc = 0 then j else { j with bank := s.bankWords j.head (j.eqSrc - 1) }

/-- The slots of a job are QUEUED, and the job is the last of the firmware class. -/
def State.queueJob (s : State) (j j' : Job) : State :=
  let t := s.setSlots j.slots (fun _ _ => 3)
  t.setAfm { t.afm with jobs := t.afm.jobs ++ [j'] }

theorem submitJob_accepted {w3 : Word} (h : s.jobCheck (s.namedJob m w3) = 0) :
    s.submitJob m w3 = (s.setMreg m pAFM 0x70 0x80000000).queueJob (s.namedJob m w3) (s.withBank (s.namedJob m w3)) := by
  refine (if_pos h).trans ?_
  rw [State.namedJob] at h
  rw [h]
  rfl

theorem queueJob_shape (s : State) (j j' : Job) :
    ∃ r, s.queueJob j j' = { s with regs := r, afm := { s.afm with jobs := s.afm.jobs ++ [j'] } } := by
  obtain ⟨r, hr⟩ := setSlots_shape s j.slots (fun _ _ => 3)
  unfold State.queueJob
  rw [hr]
  exact ⟨_, rfl⟩

theorem queueJob_slots {j' : Job} {x : Nat × Nat} (hl : ∀ y ∈ j.slots, y.2 < 2) (hx : x ∈ j.slots) : (s.queueJob j j').slotState x.1 x.2 = 3 :=
  slotState_setAfm.trans (setSlots_const (c := fun _ => 3) hl hx)

end

/-- A submission that passes: ACCEPTED, the job queued, its slots QUEUED. -/
theorem submitJob_effect {s : State} {m : Master} {w3 : Word} (h : s.jobCheck (s.namedJob m w3) = 0) :
    (s.submitJob m w3).mreg m pAFM 0x70 = 0x80000000 ∧ (s.submitJob m w3).afm.jobs = s.afm.jobs ++ [s.withBank (s.namedJob m w3)] ∧
    (s.submitJob m w3).afm.sweeps = s.afm.sweeps ∧ (∀ x ∈ (s.namedJob m w3).slots, (s.submitJob m w3).slotState x.1 x.2 = 3) ∧
    (s.submitJob m w3).mem = s.mem := by
  obtain ⟨r, hr⟩ := queueJob_shape (s.setMreg m pAFM 0x70 0x80000000) (s.namedJob m w3) (s.withBank (s.namedJob m w3))
  rw [submitJob_accepted h]
  refine ⟨?_, ?_, ?_, fun x hx => queueJob_slots (fun y hy => jobOf_slots hy) hx, ?_⟩
  · rw [hr]
    exact mreg_setMreg_same
  all_goals rw [hr]; rfl

/-- Settles O35: RELEASE is `releaseSlot` past the guard of the page, RELEASE_DONE drops the run that holds the slot, JOB_W3 is `submitJob`. -/
theorem aftermathSlotsAndJobs : Obligations.AftermathSlotsAndJobs := by
  refine ⟨by decide, fun m s _ hw hr => ⟨fun h k hbar => ?_,
    fun h k h96 hf => ⟨fun hst => ?_, fun hst => ?_, fun j hst hj hslots => ?_, fun hst hj => ?_, fun hst => ?_⟩,
    fun h k => ⟨exec_releaseDone_idle, fun d run hst hrun hd hn hslots => ⟨_, exec_releaseDone_run hst hrun, dropJob_effect hd hn hslots⟩,
      fun hst hrun => ?_⟩,
    fun w3 c ty hc j hj => ?_⟩⟩
  · obtain h96 | hf := hbar
    · exact exec_release_above hw hr h96
    · obtain h96 | h96 := Nat.lt_or_ge h.toNat 96
      · rw [exec_release hw hr h96, releaseSlot_fenced hf]
      · exact exec_release_above hw hr h96
  · rw [exec_release hw hr h96, releaseSlot_idle hst]
  · obtain ⟨r, hset⟩ := setSlot_shape s h.toNat (b2n k) 0
    refine ⟨_, exec_release hw hr h96, ?_⟩
    rw [releaseSlot_pinned hf hst]
    exact ⟨slotState_setSlot_same, by rw [hset], by rw [hset]⟩
  · exact ⟨_, exec_release hw hr h96, releaseSlot_queued_effect hf hst hj hslots⟩
  · obtain ⟨r, hset⟩ := setSlot_shape s h.toNat (b2n k) 0
    refine ⟨_, exec_release hw hr h96, ?_⟩
    rw [releaseSlot_unqueued hf hst hj]
    exact ⟨slotState_setSlot_same, by rw [hset]⟩
  · obtain ⟨r, hset⟩ := setSlot_shape s h.toNat (b2n k) 5
    have hbusy : AfmKept (s.setSlot h.toNat (b2n k) 5) ((s.setSlot h.toNat (b2n k) 5).put pAFM AFM.REL_STAT_BUSY 1) := .put (.inr (by decide))
    refine ⟨_, exec_release hw hr h96, ?_⟩
    rw [releaseSlot_deep hf hst]
    exact ⟨(hbusy.slots _ _ h96 b2n_lt).trans slotState_setSlot_same, on_put_same (by decide), by rw [hset]; rfl⟩
  · obtain ⟨r, hset⟩ := setSlot_shape s h (b2n k) 0
    exact ⟨_, exec_releaseDone_free hst hrun, (AfmKept.noteRelease.slots _ _ h.isLt b2n_lt).trans slotState_setSlot_same, by rw [hset]; rfl⟩
  · have htyp : j.typ = bits (s.mreg m pAFM 0x60).toNat 2 0 := by rw [hj]; rfl
    subst hj
    refine ⟨fun hne => ?_, fun he hcheck => ?_, fun he hcheck => ⟨_, ?_, submitJob_effect hcheck⟩⟩
    · rw [exec_submit hw hr hc, if_neg (htyp ▸ hne)]
    · rw [exec_submit hw hr hc, if_pos (htyp ▸ he), submitJob_refused hcheck]
      rfl
    · rw [exec_submit hw hr hc, if_pos (htyp ▸ he)]

end Sys2Proof.Machine

/-! SUPPORT. The statements of the deep decoders: dispatch, tries, job ends (R155–R162). -/

namespace Sys2Proof.Machine

section
variable {s t : State} {d n : Nat} {j : Job} {run : DeepRun} {lost : TryEnd}

/-! ### The next try of a run -/

theorem nextTry_kept : AfmKept s (s.nextTry run lost).1 := by
  have hskip (n : Nat) : AfmKept s (s.addSat pAFM AFM.SKIP_CNT n) := .put (.inr (by decide))
  unfold State.nextTry
  split
  · split
    · exact .refl s
    · dsimp only
      split <;> exact hskip _
  · split
    · exact .refl s
    · dsimp only
      split
      · exact hskip 1
      · exact .refl s

theorem nextTry_job : (s.nextTry run lost).2.job = run.job ∧ (s.nextTry run lost).2.tries = run.tries := by
  unfold State.nextTry
  split
  · split
    · exact ⟨rfl, rfl⟩
    · dsimp only
      split <;> exact ⟨rfl, rfl⟩
  · split <;> exact ⟨rfl, rfl⟩

/-- The one try of a job other than a sweep is at the job's offset. -/
theorem nextTry_fits (ht : run.job.typ ≠ 4) (hfit : s.fitsAt run.job run.job.ofs = true) :
    (s.nextTry run lost).2 = { run with cur := run.job.ofs, since := s.time } := by
  simp only [State.nextTry, if_neg ht, hfit, if_true]

theorem nextTry_unfit (ht : run.job.typ ≠ 4) (hfit : s.fitsAt run.job run.job.ofs = false) :
    (s.nextTry run lost).2 = { run with ended := some { status := 0x0D, ofs := run.job.ofs } } := by
  simp only [State.nextTry, if_neg ht, hfit, Bool.false_eq_true, if_false]

/-- A sweep whose tries are used up ends. -/
theorem nextTry_spent (ht : run.job.typ = 4) (hn : s.sweepTries ≤ run.tries) : (s.nextTry run lost).2 = { run with ended := some lost } := by
  simp only [State.nextTry, if_pos ht, if_pos hn]

/-- The offsets from the first on that fits. -/
def State.fitting (s : State) (run : DeepRun) : List Int := run.left.dropWhile (fun i => !s.fitsAt run.job i)

theorem drop_skipped : run.left.drop (run.left.takeWhile (fun i => !s.fitsAt run.job i)).length = s.fitting run :=
  (congrArg (List.drop _) List.takeWhile_append_dropWhile.symm).trans List.drop_left

theorem fitting_head {i : Int} {r : List Int} (h : s.fitting run = i :: r) : i ∈ run.left ∧ s.fitsAt run.job i = true := by
  have hmem : i ∈ run.left := (List.dropWhile_sublist _).subset (h ▸ List.mem_cons_self)
  have hhead := List.head?_dropWhile_not (fun i => !s.fitsAt run.job i) run.left
  rw [State.fitting] at h
  rw [h] at hhead
  exact ⟨hmem, by simpa using hhead⟩

/-- A sweep goes on to the first of its offsets that fits. -/
theorem nextTry_sweep {i : Int} {r : List Int} (ht : run.job.typ = 4) (hn : run.tries < s.sweepTries) (hfit : s.fitting run = i :: r) :
    (s.nextTry run lost).2 = { run with cur := i, left := r, since := s.time, past := false } := by
  simp only [State.nextTry, if_pos ht, if_neg (Nat.not_le.2 hn), drop_skipped, hfit]

/-- A sweep without an offset that fits ends. -/
theorem nextTry_noFit (ht : run.job.typ = 4) (hn : run.tries < s.sweepTries) (hfit : s.fitting run = []) :
    (s.nextTry run lost).2 = { run with left := [], ended := some lost } := by
  simp only [State.nextTry, if_pos ht, if_neg (Nat.not_le.2 hn), drop_skipped, hfit]

/-- What follows a try of a sweep: its end, or the next offset that fits. -/
theorem nextTry_cases (ht : run.job.typ = 4) (he : run.ended = none) : (s.nextTry run lost).2.ended = some lost ∨
    run.tries < s.sweepTries ∧ (s.nextTry run lost).2.ended = none ∧ (s.nextTry run lost).2.past = false ∧
    (s.nextTry run lost).2.cur ∈ run.left ∧ s.fitsAt run.job (s.nextTry run lost).2.cur = true := by
  obtain hn | hn := Nat.lt_or_ge run.tries s.sweepTries
  · cases hfit : s.fitting run with
    | nil => exact .inl (by rw [nextTry_noFit ht hn hfit])
    | cons i r =>
      rw [nextTry_sweep ht hn hfit]
      exact .inr ⟨hn, he, rfl, fitting_head hfit⟩
  · exact .inl (by rw [nextTry_spent ht hn])

/-! ### Dispatch -/

theorem exec_dispatch_none (h : s.afm.sweeps ++ s.afm.jobs = [] ∨ firstBelow 8 s.ddFree = none ∨ s.afmUsable = false) :
    exec .jobDispatch s = .next s := by
  simp only [exec, execJobDispatch]
  split
  next hj hd =>
    obtain h | h | h := h
    · exact nomatch h.symm.trans hj
    · exact nomatch h.symm.trans hd
    · rw [h]
      rfl
  next => rfl

/-- The queues without the job that goes first. -/
def Afm.taken (q : Afm) : Afm :=
  match q.sweeps with
  | _ :: r => { q with sweeps := r }
  | [] => { q with jobs := q.jobs.drop 1 }

theorem taken_queues {q : Afm} {r : List Job} (h : q.sweeps ++ q.jobs = j :: r) :
    q.taken.sweeps ++ q.taken.jobs = r ∧ (q.sweeps ≠ [] → q.taken.jobs = q.jobs) ∧ q.taken.info = q.info := by
  unfold Afm.taken
  split
  next x l hs =>
    rw [hs, List.cons_append] at h
    exact ⟨(List.cons.inj h).2, fun _ => rfl, rfl⟩
  next hs =>
    rw [hs, List.nil_append] at h
    exact ⟨by simp only [hs, h, List.nil_append, List.drop_succ_cons, List.drop_zero], fun hne => absurd hs hne, rfl⟩

/-- The run of a job that a deep decoder has just taken. -/
def State.firstRun (s : State) (j : Job) : DeepRun := { job := j, left := sweepOrder, wins := s.hintWindows j, eq := s.jobBank j }

/-- Deep decoder `d` goes on with the next try of a run, or with its end. -/
def State.goOn (s : State) (d : Nat) (run : DeepRun) (lost : TryEnd) : State :=
  ((s.nextTry run lost).1.setRun d (s.nextTry run lost).2).noteDd d (if (s.nextTry run lost).2.ended.isSome then 5 else 2)
    (s.nextTry run lost).2

/-- Deep decoder `d` takes job `j`. -/
def State.startJob (s : State) (d : Nat) (j : Job) : State :=
  let t := s.setSlots j.slots (fun _ _ => 4)
  t.goOn d (t.firstRun j) { status := 0xB }

theorem exec_dispatch {r : List Job} (hj : s.afm.sweeps ++ s.afm.jobs = j :: r) (hd : firstBelow 8 s.ddFree = some d) (hu : s.afmUsable = true) :
    exec .jobDispatch s = .next ((s.setAfm s.afm.taken).startJob d j) := by
  simp only [exec, execJobDispatch, hj, hd, hu, if_true]
  rfl

end

section
variable {s t : State} {d n : Nat} {j : Job} {run : DeepRun} {lost : TryEnd}

theorem firstBelow_lt {f : Nat → Bool} (h : firstBelow n f = some d) : d < n := List.mem_range.1 (List.mem_of_find?_eq_some h)

theorem goOn_queues : (s.goOn d run lost).afm.sweeps = s.afm.sweeps ∧ (s.goOn d run lost).afm.jobs = s.afm.jobs := by
  have hsweeps : (s.nextTry run lost).1.afm.sweeps = s.afm.sweeps := congrArg Afm.sweeps nextTry_kept.afm
  have hjobs : (s.nextTry run lost).1.afm.jobs = s.afm.jobs := congrArg Afm.jobs nextTry_kept.afm
  exact ⟨hsweeps, hjobs⟩

theorem slotState_setRun {h k : Nat} : (s.setRun d run).slotState h k = s.slotState h k := slotState_setAfm

theorem goOn_slots {h k : Nat} (hd : d < 8) (hh : h < 96) (hk : k < 2) : (s.goOn d run lost).slotState h k = s.slotState h k :=
  ((AfmKept.noteDd hd).slots h k hh hk).trans (slotState_setRun.trans (nextTry_kept.slots h k hh hk))

theorem runOf_noteDd {d' : Nat} : (s.noteDd d n run).runOf d' = s.runOf d' := runOf_congr (State.setReg_afm ..)

theorem runOf_goOn : (s.goOn d run lost).runOf d = some (s.nextTry run lost).2 := runOf_noteDd.trans runOf_setRun

theorem startJob_queues : (s.startJob d j).afm.sweeps = s.afm.sweeps ∧ (s.startJob d j).afm.jobs = s.afm.jobs := by
  obtain ⟨regs, hset⟩ := setSlots_shape s j.slots (fun _ _ => 4)
  obtain ⟨hsweeps, hjobs⟩ := goOn_queues (s := s.setSlots j.slots (fun _ _ => 4)) (d := d)
    (run := (s.setSlots j.slots (fun _ _ => 4)).firstRun j) (lost := { status := 0xB })
  exact ⟨hsweeps.trans (by rw [hset]), hjobs.trans (by rw [hset])⟩

theorem startJob_slots {x : Nat × Nat} (hd : d < 8) (hl : ∀ y ∈ j.slots, y.1 < 96 ∧ y.2 < 2) (hx : x ∈ j.slots) :
    (s.startJob d j).slotState x.1 x.2 = 4 :=
  (goOn_slots hd (hl x hx).1 (hl x hx).2).trans (setSlots_const (c := fun _ => 4) (fun y hy => (hl y hy).2) hx)

theorem sweepOrder_first : sweepOrder = -1 :: sweepOrder.tail := by decide

/-- The run of a job just taken: its first try, or its end. -/
theorem startJob_run : ∃ run, (s.startJob d j).runOf d = some run ∧ run.job = j ∧ run.tries = 0 ∧
    (j.typ ≠ 4 → s.fitsAt j j.ofs = true → run.cur = j.ofs ∧ run.ended = none) ∧
    (j.typ ≠ 4 → s.fitsAt j j.ofs = false → ∃ e, run.ended = some e ∧ e.status = 0xD ∧ e.data = none) ∧
    (j.typ = 4 → s.fitsAt j (-1) = true → run.cur = -1 ∧ run.ended = none) := by
  have hfits (i : Int) : (s.setSlots j.slots (fun _ _ => 4)).fitsAt j i = s.fitsAt j i := by
    obtain ⟨regs, hset⟩ := setSlots_shape s j.slots (fun _ _ => 4)
    exact fitsAt_congr (by rw [hset])
  refine ⟨_, runOf_goOn, nextTry_job.1, nextTry_job.2, fun ht hfit => ?_, fun ht hfit => ?_, fun ht hfit => ?_⟩
  · rw [nextTry_fits ht ((hfits _).trans hfit)]
    exact ⟨rfl, rfl⟩
  · rw [nextTry_unfit ht ((hfits _).trans hfit)]
    exact ⟨_, rfl, rfl, rfl⟩
  · have hfirst : (s.setSlots j.slots (fun _ _ => 4)).fitting ((s.setSlots j.slots (fun _ _ => 4)).firstRun j) = -1 :: sweepOrder.tail := by
      simp only [State.fitting, State.firstRun]
      rw [sweepOrder_first, List.dropWhile_cons_of_neg (by rw [hfits, hfit]; decide)]
      rfl
    rw [nextTry_sweep ht (Nat.lt_of_lt_of_le Nat.zero_lt_one (Nat.le_max_left ..)) hfirst]
    exact ⟨rfl, rfl⟩

/-! ### The end of a try -/

section
variable {r : Decoded}

/-- A run with the LLRs that its decoder has. -/
def State.holding (s : State) (run : DeepRun) (llr llr2 : List (BitVec 7)) : DeepRun := { run with llr := s.tryLlrs run llr llr2 }

theorem exec_deepTryEnd {d : Fin 8} {llr llr2 : List (BitVec 7)} (h : s.runOf d = some run) :
    exec (.deepTryEnd d r llr llr2) s = .next (s.tryEnd d (s.holding run llr llr2) r) := by
  simp only [exec, execDeepTryEnd, h, State.holding]

theorem tryEnd_ended {e : TryEnd} (h : run.ended = some e) : s.tryEnd d run r = s := by
  simp only [State.tryEnd, h, Option.isSome_some, if_true]

/-- The independent checker contradicts the decoder. -/
theorem tryEnd_contradicted (h : run.ended = none) (hc : r.conv = true) (hk : r.checkOk = false) :
    s.tryEnd d run r = s.raiseSub pAFM (16 + d) (192 + d) := by
  simp [State.tryEnd, h, hc, hk]

/-- A sweep's try goes on past its first stop (R158). -/
def State.goesOn (s : State) (run : DeepRun) (r : Decoded) : Prop :=
  run.job.typ = 4 ∧ r.conv = false ∧ run.past = false ∧ s.sweepIter < s.jobIters run.job ∧ r.unsat.toNat ≤ s.get pAFM AFM.SWEEP_CFG_THR

theorem tryEnd_goesOn (h : run.ended = none) (hg : s.goesOn run r) : s.tryEnd d run r = s.setRun d { run with past := true } := by
  obtain ⟨ht, hc, hp, hi, hu⟩ := hg
  simp [State.tryEnd, h, ht, hc, hp, hu, Nat.min_eq_left (Nat.le_of_lt hi), hi]

/-- The try has the payload (R118). -/
def State.hasPayload (s : State) (run : DeepRun) (r : Decoded) : Bool :=
  r.conv && payloadCrcOk (bits (s.descWord run.job.head run.job.slot 0) 26 26) r.data

theorem hasPayload_conv (hc : r.conv = true) :
    s.hasPayload run r = payloadCrcOk (bits (s.descWord run.job.head run.job.slot 0) 26 26) r.data := by
  rw [State.hasPayload, hc, Bool.true_and]

theorem hasPayload_unconv (hc : r.conv = false) : s.hasPayload run r = false := by
  rw [State.hasPayload, hc, Bool.false_and]

theorem not_goesOn_of_conv (hc : r.conv = true) : ¬ s.goesOn run r := fun ⟨_, hno, _⟩ => nomatch hno.symm.trans hc

/-- The contradictions of the eight decoders are faults CH FL1 (R164). -/
theorem faultGrade_contradicted : ∀ d : Fin 8, faultGrade pAFM (16 + d.val) = some (4, 1) := by decide

/-- STATUS of a try's end (R158, R161). -/
def State.tryStatus (s : State) (run : DeepRun) (r : Decoded) : Nat :=
  if s.hasPayload run r then (if run.job.typ = 2 ∨ run.job.typ = 4 then 2 else 3) else if run.job.typ = 4 then 0xB else if r.conv then 9 else 8

/-- How a try ends that neither the checker contradicts nor goes on (R161). -/
theorem tryEnd_judged (h : run.ended = none) (hk : r.conv = true → r.checkOk = true) (hg : ¬ s.goesOn run r) : ∃ e : TryEnd,
    e.ofs = run.cur ∧ e.data.isSome = s.hasPayload run r ∧ e.status = s.tryStatus run r ∧
    s.tryEnd d run r = if s.hasPayload run r || run.job.typ ≠ 4
      then (s.setRun d { run with tries := run.tries + 1, ended := some e }).noteDd d 5 { run with tries := run.tries + 1, ended := some e }
      else s.goOn d { run with tries := run.tries + 1 } e := by
  have hopen : ¬ run.ended.isSome = true := by simp [h]
  have hclash : ¬ (r.conv && !r.checkOk) = true := by cases hc : r.conv <;> simp [hk, hc]
  have hstop : ¬ (!r.conv && (decide (run.job.typ = 4) && !run.past &&
      decide ((if decide (run.job.typ = 4) && !run.past then min s.sweepIter (s.jobIters run.job) else s.jobIters run.job) < s.jobIters run.job)) &&
      decide (r.unsat.toNat ≤ s.get pAFM AFM.SWEEP_CFG_THR)) = true := by
    simp only [Bool.and_eq_true, Bool.not_eq_true', decide_eq_true_eq]
    rintro ⟨⟨hc, ⟨ht, hp⟩, hi⟩, hu⟩
    rw [if_pos ⟨ht, hp⟩] at hi
    exact hg ⟨ht, hc, hp, by omega, hu⟩
  unfold State.tryEnd
  dsimp only
  rw [if_neg hopen, if_neg hclash, if_neg hstop]
  exact ⟨_, rfl, Bool.eq_iff_iff.2 Option.isSome_ite, rfl, rfl⟩

/-- The last try of a run: its end is known. -/
theorem tryEnd_final (h : run.ended = none) (hk : r.conv = true → r.checkOk = true) (hg : ¬ s.goesOn run r)
    (hf : s.hasPayload run r = true ∨ run.job.typ ≠ 4) : ∃ e : TryEnd, ((s.tryEnd d run r).runOf d).bind (·.ended) = some e ∧
    e.status = s.tryStatus run r ∧ e.ofs = run.cur ∧ e.data.isSome = s.hasPayload run r ∧ (s.tryEnd d run r).mem = s.mem := by
  obtain ⟨e, hofs, hdata, hstatus, ht⟩ := tryEnd_judged (d := d) h hk hg
  rw [if_pos (by simpa using hf)] at ht
  rw [ht]
  exact ⟨e, by rw [runOf_noteDd, runOf_setRun]; rfl, hstatus, hofs, hdata, rfl⟩

/-- A good CRC ends the job REFRAMED or REDECODED with its payload. -/
theorem tryEnd_payload (h : run.ended = none) (hc : r.conv = true) (hk : r.checkOk = true)
    (hp : payloadCrcOk (bits (s.descWord run.job.head run.job.slot 0) 26 26) r.data = true) :
    ∃ e, ((s.tryEnd d run r).runOf d).bind (·.ended) = some e ∧ e.status = (if run.job.typ = 2 ∨ run.job.typ = 4 then 2 else 3) ∧
      e.ofs = run.cur ∧ e.data.isSome = true ∧ (s.tryEnd d run r).mem = s.mem := by
  have hhas : s.hasPayload run r = true := (hasPayload_conv hc).trans hp
  obtain ⟨e, hend, hstatus, hofs, hdata, hmem⟩ := tryEnd_final (d := d) h (fun _ => hk) (not_goesOn_of_conv hc) (.inl hhas)
  exact ⟨e, hend, hstatus.trans (if_pos hhas), hofs, hdata.trans hhas, hmem⟩

/-- Without a payload a job other than a sweep ends CRC_FAIL or LDPC_FAIL. -/
theorem tryEnd_fails (h : run.ended = none) (hk : r.conv = true → r.checkOk = true) (ht : run.job.typ ≠ 4) (hno : s.hasPayload run r = false) :
    ∃ e, ((s.tryEnd d run r).runOf d).bind (·.ended) = some e ∧ e.status = (if r.conv then 9 else 8) ∧ e.data = none := by
  obtain ⟨e, hend, hstatus, -, hdata, -⟩ := tryEnd_final (d := d) h hk (fun hg => ht hg.1) (.inr ht)
  exact ⟨e, hend, by simpa [State.tryStatus, hno, ht] using hstatus, by simpa [hno] using hdata⟩

/-- A sweep's try that fails: the sweep ends, or goes on to an offset of its order that fits. -/
theorem tryEnd_sweep (h : run.ended = none) (hk : r.conv = true → r.checkOk = true) (hg : ¬ s.goesOn run r) (ht : run.job.typ = 4)
    (hno : s.hasPayload run r = false) : ∃ run2, (s.tryEnd d run r).runOf d = some run2 ∧ run2.job = run.job ∧ run2.tries = run.tries + 1 ∧
    ((∃ e, run2.ended = some e ∧ e.status = 0xB ∧ e.data = none) ∨
      (run.tries + 1 < s.sweepTries ∧ run2.ended = none ∧ run2.past = false ∧ run2.cur ∈ run.left ∧ s.fitsAt run.job run2.cur = true)) := by
  obtain ⟨e, hofs, hdata, hstatus, hend⟩ := tryEnd_judged (d := d) h hk hg
  rw [if_neg (by simp [ht, hno])] at hend
  rw [hend]
  refine ⟨_, runOf_goOn, nextTry_job.1, nextTry_job.2, ?_⟩
  refine (nextTry_cases (run := { run with tries := run.tries + 1 }) ht h).imp (fun hlost => ⟨e, hlost, ?_, ?_⟩) id
  · simpa [State.tryStatus, hno, ht] using hstatus
  · simpa [hno] using hdata

end

end

/-! ### The end of a job of a deep decoder -/

section
variable {s t : State} {d n : Nat} {j : Job} {run : DeepRun} {e : TryEnd}

/-- The payload of a job on its way to buffer memory: to its own destination, else to its landing slot, else nowhere (R161). -/
def State.landPayload (s : State) (d : Nat) (j : Job) (e : TryEnd) : State × Bool :=
  match e.data with
  | none => (s, true)
  | some b =>
    let fmt := bits (s.descWord j.head j.slot 0) 26 26
    let land := s.descWord j.head j.slot 6 % 65536
    if j.dest ≠ 0 then s.bufWrite (some (ddM d)) j.dest (fitBytes (payloadBytes fmt) b)
    else if land ≠ 0xFFFF then s.bufWrite (some (ddM d)) (s.landAddr j.head fmt land) (fitBytes (payloadBytes fmt) b)
    else (s, true)

theorem landPayload_kept : AfmKept s (s.landPayload d j e).1 := by
  unfold State.landPayload
  split
  · exact .refl s
  · dsimp only
    split
    · exact .bufWrite
    · split
      · exact .bufWrite
      · exact .refl s

/-- The state of a deep decoder's end: slots settled, the decoder idle. -/
def State.runSettled (s : State) (d : Nat) (j : Job) (auto : Bool) : State :=
  ((s.settleSlots j auto).dropRun d).ddState d 1

/-- The payload is away and the decoder has left its job. -/
def State.jobLeft (s : State) (d : Nat) (j : Job) (e : TryEnd) : State :=
  (s.landPayload d j e).1.runSettled d j (e.data.isSome && s.on pAFM AFM.AFM_CTRL_AUTO_RELEASE)

/-- BFM refuses the payload: the decoder keeps its job. -/
theorem finishRun_refused (h : (s.landPayload d run.job e).2 = false) : s.finishRun d run e = (s.landPayload d run.job e).1 := by
  refine if_pos ?_
  exact congrArg (!·) h

/-- The payload is away: the job has ended. -/
theorem finishRun_landed (h : (s.landPayload d run.job e).2 = true) : JobEnded (s.jobLeft d run.job e) run.job (s.finishRun d run e) := by
  have hend (r : TryEnd) (b : Bool) : JobEnded (s.jobLeft d run.job e) run.job ((s.jobLeft d run.job e).postJob run.job r b).jobDone.noteRelease :=
    postJob_jobDone.kept .noteRelease
  have hno : ¬ (!(s.landPayload d run.job e).2) = true := by simp [h]
  unfold State.finishRun
  extract_lets j fmt land rel w s1 r1 auto s2 s3
  have hs3 : JobEnded (s.jobLeft d run.job e) run.job s3 := hend _ _
  rw [if_neg (show ¬ (!w.2) = true from hno)]
  split
  · split
    · exact hs3.kept (.inc (.inr (by decide)))
    · split
      · exact hs3.kept (.inc (.inr (by decide)))
      · exact hs3
  · exact hs3

end

section
variable {s : State} {d : Nat} {j : Job} {run : DeepRun} {e : TryEnd} {auto : Bool}

theorem exec_deepJobEnd {d : Fin 8} (h : s.runOf d = some run) (he : run.ended = some e) : exec (.deepJobEnd d) s = .next (s.finishRun d run e) := by
  simp only [exec, execDeepJobEnd, h, he]

theorem exec_deepJobEnd_open {d : Fin 8} (h : s.runOf d = some run) (he : run.ended = none) : exec (.deepJobEnd d) s = .next s := by
  simp only [exec, execDeepJobEnd, h, he]

theorem exec_deep_idle {d : Fin 8} {r : Decoded} {llr llr2 : List (BitVec 7)} (h : s.runOf d = none) :
    exec (.deepTryEnd d r llr llr2) s = .next s ∧ exec (.deepJobEnd d) s = .next s := by
  simp only [exec, execDeepTryEnd, execDeepJobEnd, h, and_self]

theorem runSettled_left (hd : d < 8) (hn : j.slots.Nodup) (hl : ∀ x ∈ j.slots, x.1 < 96 ∧ x.2 < 2) :
    RunLeft s d j auto (s.runSettled d j auto) := by
  have hidle : AfmKept _ (s.runSettled d j auto) := setAfm_kept.trans (.ddState hd)
  obtain ⟨regs, hset⟩ := settleSlots_shape s j auto
  refine ⟨(runOf_congr (t := s.runSettled d j auto) rfl).trans runOf_dropRun, hidle.dom.trans (by rw [hset]), hidle.rdh.trans (by rw [hset]),
    fun x hx => ?_, hidle.done.trans settleSlots_done⟩
  exact (hidle.slots _ _ (hl x hx).1 (hl x hx).2).trans (settleSlots_slots hn (fun y hy => (hl y hy).2) hx)

/-- The end of a job whose payload is away. -/
theorem finishRun_effect (hd : d < 8) (hn : run.job.slots.Nodup) (hl : ∀ x ∈ run.job.slots, x.1 < 96 ∧ x.2 < 2)
    (hw : (s.landPayload d run.job e).2 = true) :
    (s.finishRun d run e).runOf d = none ∧ (s.finishRun d run e).get pAFM AFM.JOB_DONE = min (s.get pAFM AFM.JOB_DONE + 1) (2 ^ 32 - 1) ∧
    (s.powered (pHCH run.job.head) = true → ((s.finishRun d run e).rdOf run.job.head).seq = ((s.rdOf run.job.head).seq + 1) % 65536) ∧
    ∀ x ∈ run.job.slots, (s.finishRun d run e).slotState x.1 x.2 =
      if (e.data.isSome = true ∧ s.on pAFM AFM.AFM_CTRL_AUTO_RELEASE = true) ∨ s.slotState x.1 x.2 = 5 then 0 else 2 := by
  have hland : AfmKept s (s.landPayload d run.job e).1 := landPayload_kept
  obtain ⟨hruns, hdone, hseq, hslots⟩ := (runSettled_left hd hn hl).ended (finishRun_landed hw) hl
  refine ⟨hruns, by rw [hdone, hland.done], fun hp => ?_, fun x hx => ?_⟩
  · rw [hseq ((powered_congr hland.dom).trans hp), rdOf_congr hland.rdh]
  · rw [hslots x hx, hland.slots _ _ (hl x hx).1 (hl x hx).2]
    simp only [slotAfterJob, Bool.or_eq_true, Bool.and_eq_true, decide_eq_true_eq]

end

/-- Settles O36: a dispatch starts the first run of the queues, a try's end is judged once, a job's end settles slots, record and count. -/
theorem deepDecoders : Obligations.DeepDecoders := by
  refine fun s _ => ⟨exec_dispatch_none, fun j r d hj hd hu hl => ⟨_, exec_dispatch hj hd hu, ?_⟩, fun d r llr llr2 => ⟨exec_deep_idle,
    fun run hrun he => ?_, fun run e hrun he => ?_, fun run e w hrun he hn hl hw => ?_⟩⟩
  · obtain ⟨hqueues, hjobs, hinfo⟩ := taken_queues hj
    obtain ⟨hs, hf⟩ := startJob_queues (s := s.setAfm s.afm.taken) (d := d) (j := j)
    have hfits (i : Int) : (s.setAfm s.afm.taken).fitsAt j i = s.fitsAt j i := fitsAt_congr hinfo
    have hstart := startJob_run (s := s.setAfm s.afm.taken) (d := d) (j := j)
    simp only [hfits] at hstart
    refine ⟨?_, fun hne => ?_, fun x hx => startJob_slots (firstBelow_lt hd) hl hx, hstart⟩
    · rw [hs, hf]
      exact hqueues
    · rw [hf]
      exact hjobs hne
  · have hexec : exec (.deepTryEnd d r llr llr2) s = .next (s.tryEnd d (s.holding run llr llr2) r) := exec_deepTryEnd hrun
    refine ⟨exec_deepJobEnd_open hrun he, fun hc hk => ⟨?_, faultGrade_contradicted d⟩, fun hc hk hp => ⟨_, hexec, ?_⟩,
      fun ht hc hk hp => ⟨_, hexec, ?_⟩, fun ht hc => ⟨_, hexec, ?_⟩,
      fun ht hc hpast hi hu => ⟨_, hexec, ?_⟩, fun ht hfail => ⟨_, hexec, ?_⟩⟩
    · rw [hexec, tryEnd_contradicted (run := s.holding run llr llr2) he hc hk]
    · exact tryEnd_payload (run := s.holding run llr llr2) he hc hk hp
    · obtain ⟨e, hend, hstatus, hdata⟩ := tryEnd_fails (d := d) (run := s.holding run llr llr2) he (fun _ => hk) ht
        ((hasPayload_conv hc).trans hp)
      exact ⟨e, hend, by rw [hstatus, if_pos hc], hdata⟩
    · obtain ⟨e, hend, hstatus, hdata⟩ := tryEnd_fails (d := d) (run := s.holding run llr llr2) he (fun hconv => nomatch hc.symm.trans hconv) ht
        (hasPayload_unconv hc)
      exact ⟨e, hend, by rw [hstatus, if_neg (by simp [hc])], hdata⟩
    · rw [tryEnd_goesOn (run := s.holding run llr llr2) he ⟨ht, hc, hpast, hi, hu⟩]
      exact ⟨_, runOf_setRun, rfl, rfl, rfl, he⟩
    · obtain ⟨hc, hk, hp⟩ | ⟨hc, hstop⟩ := hfail
      · exact tryEnd_sweep he (fun _ => hk) (not_goesOn_of_conv hc) ht ((hasPayload_conv hc).trans hp)
      · exact tryEnd_sweep he (fun hconv => nomatch hc.symm.trans hconv) (fun ⟨_, _, hgoes⟩ => hstop hgoes) ht (hasPayload_unconv hc)
  · rw [exec_deepTryEnd hrun]
    exact congrArg _ (tryEnd_ended (run := s.holding run llr llr2) he)
  · obtain rfl : w = s.landPayload d run.job e := hw
    refine ⟨fun hno => ⟨?_, ?_⟩, fun hyes => ⟨_, exec_deepJobEnd hrun he, finishRun_effect d.isLt hn hl hyes⟩⟩
    · rw [exec_deepJobEnd hrun he, finishRun_refused hno]
    · rw [runOf_congr landPayload_kept.afm, hrun]

end Sys2Proof.Machine

/-! SUPPORT. The statements of stripe parity: the field of 256 elements (R192), which P and Q rest on. -/

namespace Sys2Proof.Machine

/-! ### Multiplication by g -/

theorem gfTwice_lt : ∀ a < 256, gfTwice a < 256 := by decide +kernel

theorem gfTwice_eq_shift : ∀ a < 256, gfTwice a = a <<< 1 ^^^ bif a.testBit 7 then 0x11D else 0 := by decide +kernel

theorem gfTwice_of_lt {a : Nat} (h : a < 128) : gfTwice a = 2 * a := by
  rw [gfTwice, if_neg (by omega), Nat.mul_comm]

/-- Multiplication by g adds up: a carry out of bit 7 folds back once for each summand that has it. -/
theorem gfTwice_xor {a b : Nat} (ha : a < 256) (hb : b < 256) : gfTwice (a ^^^ b) = gfTwice a ^^^ gfTwice b := by
  have hcarry : (bif (a ^^^ b).testBit 7 then 0x11D else 0) =
      (bif a.testBit 7 then 0x11D else 0) ^^^ (bif b.testBit 7 then 0x11D else 0) := by
    rw [Nat.testBit_xor]
    cases a.testBit 7 <;> cases b.testBit 7 <;> rfl
  rw [gfTwice_eq_shift _ (Nat.xor_lt_two_pow (n := 8) ha hb), gfTwice_eq_shift a ha, gfTwice_eq_shift b hb, hcarry, Nat.shiftLeft_xor_distrib]
  ac_rfl

theorem eq_double_xor_one {b : Nat} (h : b % 2 = 1) : b = 2 * (b / 2) ^^^ 1 := by
  have hhalf : (2 * (b / 2) ^^^ 1) / 2 = b / 2 := by
    rw [Nat.xor_div_two, Nat.mul_div_cancel_left _ (by decide)]
    exact Nat.xor_zero _
  have hodd : (2 * (b / 2) ^^^ 1) % 2 = 1 := Nat.xor_mod_two_eq_one.2 (by omega)
  omega

/-- Every byte is a sum of powers of g, so what holds of 1 and passes to multiples by g and to sums holds of every byte. -/
theorem gf_induction {P : Nat → Prop} (one : P 1) (twice : ∀ a < 256, P a → P (gfTwice a))
    (add : ∀ a < 256, ∀ b < 256, P a → P b → P (a ^^^ b)) : ∀ b < 256, P b := by
  intro b
  induction b using Nat.strongRecOn with
  | ind b ih =>
    intro hb
    rcases Nat.eq_zero_or_pos b with rfl | hpos
    · exact add 1 (by decide) 1 (by decide) one one
    · have half : P (2 * (b / 2)) := by
        rw [← gfTwice_of_lt (by omega)]
        exact twice _ (by omega) (ih _ (by omega) (by omega))
      rcases Nat.mod_two_eq_zero_or_one b with hbit | hbit
      · rwa [show b = 2 * (b / 2) by omega]
      · rw [eq_double_xor_one hbit]
        exact add _ (by omega) 1 (by decide) half one

/-! ### Multiplication -/

/-- One bit of the multiplier: the multiple of g^i joins the sum, and the next is formed. -/
def gfStep (y : Nat) (acc : Nat × Nat) (i : Nat) : Nat × Nat := (if bit y i then acc.1 ^^^ acc.2 else acc.1, gfTwice acc.2)

theorem gfMul_eq_foldl (x y : Nat) : gfMul x y = ((List.range 8).foldl (gfStep y) (0, x)).1 := rfl

section
variable {p q a b y z : Nat}

theorem foldl_gfStep_lt (l : List Nat) (hp : p < 256) (ha : a < 256) : (l.foldl (gfStep y) (p, a)).1 < 256 := by
  induction l generalizing p a with
  | nil => exact hp
  | cons i l ih =>
    refine ih ?_ (gfTwice_lt a ha)
    dsimp only
    split
    · exact Nat.xor_lt_two_pow (n := 8) hp ha
    · exact hp

theorem foldl_gfStep_xor (l : List Nat) (ha : a < 256) (hb : b < 256) :
    (l.foldl (gfStep y) (p ^^^ q, a ^^^ b)).1 = (l.foldl (gfStep y) (p, a)).1 ^^^ (l.foldl (gfStep y) (q, b)).1 := by
  induction l generalizing p q a b with
  | nil => rfl
  | cons i l ih =>
    have hsum : gfStep y (p ^^^ q, a ^^^ b) i = ((gfStep y (p, a) i).1 ^^^ (gfStep y (q, b) i).1, gfTwice a ^^^ gfTwice b) := by
      simp only [gfStep, gfTwice_xor ha hb]
      split
      · rw [show p ^^^ q ^^^ (a ^^^ b) = p ^^^ a ^^^ (q ^^^ b) by ac_rfl]
      · rfl
    rw [List.foldl_cons, hsum]
    exact ih (gfTwice_lt a ha) (gfTwice_lt b hb)

theorem foldl_gfStep_xor_coef (l : List Nat) :
    (l.foldl (gfStep (y ^^^ z)) (p ^^^ q, a)).1 = (l.foldl (gfStep y) (p, a)).1 ^^^ (l.foldl (gfStep z) (q, a)).1 := by
  induction l generalizing p q a with
  | nil => rfl
  | cons i l ih =>
    have hsum : gfStep (y ^^^ z) (p ^^^ q, a) i = ((gfStep y (p, a) i).1 ^^^ (gfStep z (q, a) i).1, gfTwice a) := by
      have hself : p ^^^ a ^^^ (q ^^^ a) = p ^^^ q := by
        rw [show p ^^^ a ^^^ (q ^^^ a) = p ^^^ q ^^^ (a ^^^ a) by ac_rfl, Nat.xor_self, Nat.xor_zero]
      simp only [gfStep, bit_eq_testBit, Nat.testBit_xor]
      cases y.testBit i <;> cases z.testBit i
      · rfl
      · simp [Nat.xor_assoc]
      · simp [show p ^^^ q ^^^ a = p ^^^ a ^^^ q by ac_rfl]
      · simp [hself]
    rw [List.foldl_cons, hsum]
    exact ih

theorem foldl_gfStep_twice (l : List Nat) (hp : p < 256) (ha : a < 256) :
    (l.foldl (gfStep y) (gfTwice p, gfTwice a)).1 = gfTwice (l.foldl (gfStep y) (p, a)).1 := by
  induction l generalizing p a with
  | nil => rfl
  | cons i l ih =>
    have hstep : gfStep y (gfTwice p, gfTwice a) i = (gfTwice (gfStep y (p, a) i).1, gfTwice (gfTwice a)) := by
      simp only [gfStep]
      split
      · rw [gfTwice_xor hp ha]
      · rfl
    rw [List.foldl_cons, hstep]
    exact ih (foldl_gfStep_lt [i] hp ha) (gfTwice_lt a ha)

end

section
variable {a b c : Nat}

theorem gfMul_lt (ha : a < 256) : gfMul a b < 256 := by
  rw [gfMul_eq_foldl]
  exact foldl_gfStep_lt _ (by decide) ha

theorem gfMul_xor_left (ha : a < 256) (hb : b < 256) : gfMul (a ^^^ b) c = gfMul a c ^^^ gfMul b c := by
  simp only [gfMul_eq_foldl]
  exact foldl_gfStep_xor (p := 0) (q := 0) _ ha hb

theorem gfMul_xor_right : gfMul a (b ^^^ c) = gfMul a b ^^^ gfMul a c := by
  simp only [gfMul_eq_foldl]
  exact foldl_gfStep_xor_coef (p := 0) (q := 0) _

theorem gfMul_gfTwice (ha : a < 256) : gfMul (gfTwice a) b = gfTwice (gfMul a b) := by
  simp only [gfMul_eq_foldl]
  exact foldl_gfStep_twice (p := 0) _ (by decide) ha

theorem gfMul_one : ∀ a < 256, gfMul a 1 = a := by decide +kernel

theorem one_gfMul : ∀ a < 256, gfMul 1 a = a := by decide +kernel

theorem gfMul_assoc (ha : a < 256) (hb : b < 256) : gfMul (gfMul a b) c = gfMul a (gfMul b c) := by
  revert a
  apply gf_induction
  · rw [one_gfMul _ hb, one_gfMul _ (gfMul_lt hb)]
  · intro a ha h
    rw [gfMul_gfTwice ha, gfMul_gfTwice (gfMul_lt ha), gfMul_gfTwice ha, h]
  · intro x hx y hy h k
    rw [gfMul_xor_left hx hy, gfMul_xor_left (gfMul_lt hx) (gfMul_lt hy), gfMul_xor_left hx hy, h, k]

/-! ### The inverse -/

/-- `a` times c², c⁴, … to the 2^k-th power of c. -/
def gfChain : Nat → Nat → Nat → Nat
  | 0, a, _ => a
  | k + 1, a, c => gfChain k (gfMul a (gfMul c c)) (gfMul c c)

/-- `a` times the k-th power of `c`, a factor at a time, as `gfInv` forms its power. -/
def gfTimes (c : Nat) : Nat → Nat → Nat
  | 0, a => a
  | k + 1, a => gfTimes c k (gfMul a c)

theorem gfTimes_succ (k : Nat) : gfTimes c (k + 1) a = gfTimes c k (gfMul a c) := rfl

theorem foldl_gfMul_eq_gfTimes (l : List Nat) : l.foldl (fun acc _ => gfMul acc c) a = gfTimes c l.length a := by
  induction l generalizing a with
  | nil => rfl
  | cons _ l ih => exact ih

theorem gfTimes_square (k : Nat) (ha : a < 256) (hc : c < 256) : gfTimes c (2 * k) a = gfTimes (gfMul c c) k a := by
  induction k generalizing a with
  | zero => rfl
  | succ k ih => rw [Nat.mul_succ, gfTimes_succ, gfTimes_succ, gfTimes_succ, gfMul_assoc ha hc, ih (gfMul_lt ha)]

theorem gfTimes_eq_gfChain (k : Nat) (ha : a < 256) (hc : c < 256) : gfTimes c (2 ^ (k + 1) - 2) a = gfChain k a c := by
  induction k generalizing a c with
  | zero => rfl
  | succ k ih =>
    have hexp : 2 ^ (k + 1 + 1) - 2 = 2 * (2 ^ (k + 1) - 2 + 1) := by
      have := Nat.two_pow_pos k
      omega
    rw [hexp, gfTimes_square _ ha hc, gfTimes_succ, ih (gfMul_lt ha) (gfMul_lt hc), gfChain]

/-- The 254th power by squarings: 254 = 2 + 4 + ⋯ + 128. -/
theorem gfInv_eq_gfChain (hc : c < 256) : gfInv c = gfChain 7 1 c := by
  calc gfInv c = gfTimes c 253 c := by rw [gfInv, foldl_gfMul_eq_gfTimes, List.length_range]
    _ = gfTimes c 253 (gfMul 1 c) := by rw [one_gfMul c hc]
    _ = gfTimes c (2 ^ (7 + 1) - 2) 1 := (gfTimes_succ 253).symm
    _ = gfChain 7 1 c := gfTimes_eq_gfChain 7 (by decide) hc

theorem gfMul_gfChain : ∀ c < 256, c ≠ 0 → gfMul c (gfChain 7 1 c) = 1 := by decide +kernel

/-- Every element but 0 has its inverse. -/
theorem gfMul_gfMul_gfInv (hb : b < 256) (hc : c < 256) (h : c ≠ 0) : gfMul (gfMul b c) (gfInv c) = b := by
  rw [gfMul_assoc hb hc, gfInv_eq_gfChain hc, gfMul_gfChain c hc h, gfMul_one b hb]

end

end Sys2Proof.Machine

/-! SUPPORT. The statements of stripe parity: lost members come back from P and Q (R192, R202). -/

namespace Sys2Proof.Machine

/-! ### Bytes -/

/-- A byte times a field element. -/
def gfByte (c : Nat) (b : Byte) : Byte := BitVec.ofNat 8 (gfMul b.toNat c)

theorem gfScale_eq_map (c : Nat) (u : List Byte) : gfScale c u = u.map (gfByte c) := rfl

@[simp] theorem length_gfScale (c : Nat) (u : List Byte) : (gfScale c u).length = u.length := List.length_map _

theorem toNat_gfByte (c : Nat) (b : Byte) : (gfByte c b).toNat = gfMul b.toNat c :=
  Nat.mod_eq_of_lt (gfMul_lt b.isLt)

section
variable {a b : Byte} {c d : Nat}

theorem gfByte_xor : gfByte c (a ^^^ b) = gfByte c a ^^^ gfByte c b := by
  apply BitVec.eq_of_toNat_eq
  simp only [BitVec.toNat_xor, toNat_gfByte]
  exact gfMul_xor_left a.isLt b.isLt

theorem gfByte_xor_coef : gfByte (c ^^^ d) b = gfByte c b ^^^ gfByte d b := by
  apply BitVec.eq_of_toNat_eq
  simp only [BitVec.toNat_xor, toNat_gfByte]
  exact gfMul_xor_right

theorem gfByte_gfInv (hc : c < 256) (h : c ≠ 0) : gfByte (gfInv c) (gfByte c b) = b := by
  apply BitVec.eq_of_toNat_eq
  simp only [toNat_gfByte]
  exact gfMul_gfMul_gfInv b.isLt hc h

/-- The byte of one lost member from the sums of both lost members that P and Q give (R202). -/
theorem gfByte_pair (hlt : c ^^^ d < 256) (hne : c ^^^ d ≠ 0) :
    gfByte (gfInv (c ^^^ d)) (gfByte d (a ^^^ b) ^^^ (gfByte c a ^^^ gfByte d b)) = a := by
  have hsum : gfByte d (a ^^^ b) ^^^ (gfByte c a ^^^ gfByte d b) = gfByte (c ^^^ d) a := by
    rw [gfByte_xor, gfByte_xor_coef,
      show gfByte d a ^^^ gfByte d b ^^^ (gfByte c a ^^^ gfByte d b) = gfByte c a ^^^ gfByte d a ^^^ (gfByte d b ^^^ gfByte d b) by ac_rfl,
      BitVec.xor_self, BitVec.xor_zero]
  rw [hsum, gfByte_gfInv hlt hne]

end

theorem gfPow_lt : ∀ x < 12, gfPow x < 256 := by decide

theorem gfPow_ne_zero : ∀ x < 12, gfPow x ≠ 0 := by decide

theorem gfPow_xor_ne_zero : ∀ x < 12, ∀ y < 12, x ≠ y → gfPow x ^^^ gfPow y ≠ 0 := by decide

/-! ### Lists of bytes -/

section
variable {u v w : List Byte} {c d n : Nat}

theorem length_xorBytes (hu : u.length = n) (hv : v.length = n) : (xorBytes u v).length = n := by
  simp [xorBytes, hu, hv]

theorem xorBytes_right_comm : xorBytes (xorBytes u v) w = xorBytes (xorBytes u w) v := by
  induction u generalizing v w with
  | nil => rfl
  | cons a u ih =>
    cases v with
    | nil => cases w <;> rfl
    | cons b v =>
      cases w with
      | nil => rfl
      | cons e w => exact List.cons_eq_cons.2 ⟨by ac_rfl, ih⟩

theorem xorBytes_cancel (h : u.length = v.length) : xorBytes (xorBytes u v) u = v := by
  induction u generalizing v with
  | nil => exact (List.length_eq_zero_iff.1 h.symm).symm
  | cons a u ih =>
    cases v with
    | nil => cases h
    | cons b v =>
      refine List.cons_eq_cons.2 ⟨?_, ih (Nat.succ.inj h)⟩
      show a ^^^ b ^^^ a = b
      rw [BitVec.xor_comm a b, BitVec.xor_assoc, BitVec.xor_self, BitVec.xor_zero]

theorem gfScale_gfInv (hc : c < 256) (h : c ≠ 0) : gfScale (gfInv c) (gfScale c u) = u := by
  simp only [gfScale_eq_map, List.map_map]
  exact List.map_id'' (fun b => gfByte_gfInv hc h) u

theorem gfScale_pair (hlt : c ^^^ d < 256) (hne : c ^^^ d ≠ 0) (h : u.length = v.length) :
    gfScale (gfInv (c ^^^ d)) (xorBytes (gfScale d (xorBytes u v)) (xorBytes (gfScale c u) (gfScale d v))) = u := by
  induction u generalizing v with
  | nil => rfl
  | cons a u ih =>
    cases v with
    | nil => cases h
    | cons b v => exact List.cons_eq_cons.2 ⟨gfByte_pair hlt hne, ih (Nat.succ.inj h)⟩

theorem fitBytes_of_length (h : u.length = n) : fitBytes n u = u := by
  rw [fitBytes, ← h, List.take_left]

end

/-! ### Sums over members -/

/-- The sum of what `f` makes of the members: P and Q are such sums. -/
def memberSum (n : Nat) (f : Nat × List Byte → List Byte) (ds : List (Nat × List Byte)) : List Byte :=
  ds.foldl (fun acc d => xorBytes acc (f d)) (List.replicate n 0)

def termP (n : Nat) (d : Nat × List Byte) : List Byte := fitBytes n d.2

def termQ (n : Nat) (d : Nat × List Byte) : List Byte := gfScale (gfPow d.1) (fitBytes n d.2)

theorem parityP_eq_memberSum (n : Nat) (ds : List (Nat × List Byte)) : parityP n ds = memberSum n (termP n) ds := rfl

theorem parityQ_eq_memberSum (n : Nat) (ds : List (Nat × List Byte)) : parityQ n ds = memberSum n (termQ n) ds := rfl

@[simp] theorem length_fitBytes (n : Nat) (u : List Byte) : (fitBytes n u).length = n := by simp [fitBytes]

theorem length_termP (n : Nat) (d : Nat × List Byte) : (termP n d).length = n := length_fitBytes n d.2

theorem length_termQ (n : Nat) (d : Nat × List Byte) : (termQ n d).length = n := (length_gfScale _ _).trans (length_fitBytes n d.2)

/-- The members but the one of data index `x`. -/
def membersBut (x : Nat) (ds : List (Nat × List Byte)) : List (Nat × List Byte) := ds.filter (fun d => decide (d.1 ≠ x))

section
variable {n x y : Nat} {u v : List Byte} {ds : List (Nat × List Byte)} {f : Nat × List Byte → List Byte}

theorem length_memberSum (hf : ∀ d, (f d).length = n) : (memberSum n f ds).length = n :=
  List.foldlRecOn ds _ (motive := fun u : List Byte => u.length = n) List.length_replicate fun _ hacc d _ => length_xorBytes hacc (hf d)

/-- Distinct data indexes: one member has the index. -/
theorem filter_index_eq (hn : (ds.map (·.1)).Nodup) (hx : (x, u) ∈ ds) : ds.filter (fun d => !decide (d.1 ≠ x)) = [(x, u)] := by
  induction ds with
  | nil => cases hx
  | cons e ds ih =>
    obtain ⟨hhead, htail⟩ := List.nodup_cons.1 hn
    rcases List.mem_cons.1 hx with rfl | hmem
    · have hnone : ds.filter (fun d => !decide (d.1 ≠ x)) = [] := by
        refine List.filter_eq_nil_iff.2 fun d hd hdx => hhead (List.mem_map.2 ⟨d, hd, ?_⟩)
        simpa only [Bool.not_eq_true', decide_eq_false_iff_not, Decidable.not_not] using hdx
      rw [List.filter_cons_of_pos (by simp only [ne_eq, not_true_eq_false, decide_false, Bool.not_false]), hnone]
    · have hne : e.1 ≠ x := fun hex => hhead (List.mem_map.2 ⟨(x, u), hmem, hex.symm⟩)
      rw [List.filter_cons_of_neg (by simp only [hne, ne_eq, not_false_eq_true, decide_true, Bool.not_true, Bool.false_eq_true]), ih htail hmem]

/-- A member stands once among the members, beside those of another index. -/
theorem perm_membersBut (hn : (ds.map (·.1)).Nodup) (hx : (x, u) ∈ ds) : ds.Perm (membersBut x ds ++ [(x, u)]) := by
  rw [← filter_index_eq hn hx]
  exact (List.filter_append_perm _ ds).symm

theorem memberSum_split (hn : (ds.map (·.1)).Nodup) (hx : (x, u) ∈ ds) :
    memberSum n f ds = xorBytes (memberSum n f (membersBut x ds)) (f (x, u)) := by
  rw [memberSum, (perm_membersBut hn hx).foldl_eq' fun _ _ _ _ _ => xorBytes_right_comm, List.foldl_append]
  rfl

/-- A sum over all members and one over all but one differ by that one's term. -/
theorem memberSum_lost (hf : ∀ d, (f d).length = n) (hn : (ds.map (·.1)).Nodup) (hx : (x, u) ∈ ds) :
    xorBytes (memberSum n f ds) (memberSum n f (membersBut x ds)) = f (x, u) := by
  rw [memberSum_split hn hx]
  exact xorBytes_cancel ((length_memberSum hf).trans (hf _).symm)

theorem memberSum_lost_pair (hf : ∀ d, (f d).length = n) (hn : (ds.map (·.1)).Nodup) (hx : (x, u) ∈ ds) (hy : (y, v) ∈ ds) (h : x ≠ y) :
    xorBytes (memberSum n f ds) (memberSum n f (membersBut x (membersBut y ds))) = xorBytes (f (x, u)) (f (y, v)) := by
  have hn' : ((membersBut y ds).map (·.1)).Nodup := hn.sublist (List.filter_sublist.map _)
  have hx' : (x, u) ∈ membersBut y ds := List.mem_filter.2 ⟨hx, by simpa using h⟩
  rw [memberSum_split hn hy, xorBytes_right_comm, memberSum_lost hf hn' hx']

theorem filter_pair_eq : ds.filter (fun d => decide (d.1 ≠ x) && decide (d.1 ≠ y)) = membersBut x (membersBut y ds) :=
  List.filter_filter.symm

end

/-! ### The statement -/

/-- Settles O41: a parity less the survivors' part is the lost members' terms, and those are solved for the members in the field. -/
theorem parityRebuilds : Obligations.ParityRebuilds := by
  intro n ds hn hds
  have hP {x u} (hx : (x, u) ∈ ds) : termP n (x, u) = u := fitBytes_of_length (hds _ hx).2
  have hQ {x u} (hx : (x, u) ∈ ds) : termQ n (x, u) = gfScale (gfPow x) u := congrArg (gfScale _) (hP hx)
  simp only [parityP_eq_memberSum, parityQ_eq_memberSum, solveData, filter_pair_eq]
  refine ⟨fun x u hx => ⟨?_, ?_⟩, fun x u y v hx hy hxy => ?_⟩
  · rw [← membersBut, memberSum_lost (length_termP n) hn hx, hP hx]
  · have hx12 : x < 12 := (hds _ hx).1
    rw [← membersBut, memberSum_lost (length_termQ n) hn hx, hQ hx, gfScale_gfInv (gfPow_lt x hx12) (gfPow_ne_zero x hx12)]
  · have hlen : u.length = v.length := (hds _ hx).2.trans (hds _ hy).2.symm
    have hx12 : x < 12 := (hds _ hx).1
    have hy12 : y < 12 := (hds _ hy).1
    have hlt : gfPow x ^^^ gfPow y < 256 := Nat.xor_lt_two_pow (n := 8) (gfPow_lt x hx12) (gfPow_lt y hy12)
    have hsolve := gfScale_pair hlt (gfPow_xor_ne_zero x hx12 y hy12 hxy) hlen
    rw [memberSum_lost_pair (length_termP n) hn hx hy hxy, memberSum_lost_pair (length_termQ n) hn hx hy hxy, hP hx, hP hy, hQ hx, hQ hy]
    change [(x, gfScale (gfInv (gfPow x ^^^ gfPow y)) _), (y, xorBytes _ (gfScale (gfInv (gfPow x ^^^ gfPow y)) _))] = _
    rw [hsolve, xorBytes_cancel hlen]

end Sys2Proof.Machine

/-! SUPPORT. The statements of stripe parity: where the close of a stripe's window goes (R199, R201). -/

namespace Sys2Proof.Machine

/-- Stripe 0 OPEN past its window, a read stripe with no VERIFY, all twelve members decided and none of them lost, but its mask of
losses not 0: bit 12 names no position. -/
def strayLoss : State :=
  { (State.reset.setStripeState 0 1).setStripe 0 { decided := 0xFFF, lost := 0x1000 } with time := 10 ^ 9 }

theorem sound_strayLoss : Sound strayLoss := by
  constructor <;> decide +kernel

/-- The outcome is a state with stripe 0 DONE and its stray loss kept. -/
def closesDone (o : Out) : Bool :=
  match o with
  | .next t => decide (t.stripeState 0 = 4) && decide ((t.stripe 0).lost = 0x1000)
  | _ => false

theorem strayLoss_closesDone : closesDone (exec (.stripeTimeout 0) strayLoss) = true := by decide +kernel

/-- Refutes O40: a mask of losses with a bit above position 11 alone counts no loss, so the model ends the stripe with nothing to
do; the statement tests the mask against 0 and has it READY. -/
theorem not_stripes : ¬ Obligations.Stripes := by
  intro h
  obtain ⟨-, -, hstripe, -⟩ := h strayLoss sound_strayLoss
  obtain ⟨hclose, -⟩ := hstripe 0
  have hopen : strayLoss.stripeState 0 = 1 := by decide +kernel
  have hpast : strayLoss.inStripeWindow 0 = false := by decide +kernel
  have hread : strayLoss.stpWrite 0 = false := by decide +kernel
  have hgeom : strayLoss.stpGeom 0 = 0 := by decide +kernel
  obtain ⟨-, -, hdone⟩ := hclose hopen hpast
  obtain ⟨t, ht, hstate⟩ := hdone hread
  have hmodel := strayLoss_closesDone
  simp only [ht, closesDone, Bool.and_eq_true, decide_eq_true_eq] at hmodel
  obtain ⟨hfour, hlost⟩ := hmodel
  have hready : ¬ (geomLosses 0 < (maskList 0x1000).length ∨ (0x1000 = 0 ∧ strayLoss.stpVerify 0 = false)) := by decide
  simp only [Fin.val_zero, hgeom, hlost, hready, if_false] at hstate
  exact absurd (hfour.symm.trans hstate) (by decide)

end Sys2Proof.Machine
